-- ==== Sys2Proof/Word.lean ====
section
/-! DEFINITION. The word and byte types. Registers are 32 bits wide (spec/00, Registers). -/

namespace Sys2Proof

/-- A 32-bit register or payload word. -/
abbrev Word := BitVec 32

/-- A byte. -/
abbrev Byte := BitVec 8

end Sys2Proof
end

