-- ==== Sys2Proof/Syntax.lean ====
section
/-! DEFINITION. The commands of the block: one constructor of `Instr` for each row of spec/opcode_table.json,
with the operands its chapter's layouts give it. A host command carries its packet header (R70) and its payload
fields; an event carries what the device receives or observes. Reserved bits are ignored (R6) and are no operand. -/

namespace Sys2Proof

/-- Where a packet came from (R76, R81): UDP with source address, port, the KEY_ID of its key word and the owner
session key that verified it (R77); the fabric with the port of arrival and the cell's SRC; or the service ring. -/
inductive Via where
  | udp (ip : BitVec 32) (port : BitVec 16) (keyId key : BitVec 8)
  | fabric (port : BitVec 2) (cellSrc : BitVec 16)
  | ring
deriving DecidableEq, Repr

/-- The header fields of a command packet (R70), less OPCODE and LEN, which the constructor gives. -/
structure Hdr where
  via : Via
  barrier : Bool
  noReply : Bool
  tag : BitVec 16
  src : BitVec 16
  dst : BitVec 16
  seq : BitVec 32
  txnId : BitVec 16
deriving DecidableEq, Repr

/-- A command packet as its words (R70): opcode, LEN as sent, payload as received. -/
structure Packet where
  hdr : Hdr
  opcode : BitVec 8
  len : BitVec 16
  payload : List Word
deriving DecidableEq, Repr

/-- A schedule target (s, f, p) (R9, R132). -/
structure Target where
  sec : BitVec 64
  f : BitVec 8
  p : BitVec 2
deriving DecidableEq, Repr

/-- One entry of FAB_ROUTE_SET (R262). -/
structure RouteEntry where
  mask : BitVec 16
  value : BitVec 16
  ports : BitVec 4
  en : Bool
deriving DecidableEq, Repr

/-- A segment of a packet (R75). -/
structure Segment where
  pktId : BitVec 16
  index : BitVec 8
  last : BitVec 8
  bytes : List Byte
deriving DecidableEq, Repr

/-- A command datagram (R76, R77): media port of arrival, addresses, segment word, key word, tag. -/
structure Datagram where
  mediaPort : BitVec 3
  srcIp : BitVec 32
  srcPort : BitVec 16
  dstIp : BitVec 32
  dstPort : BitVec 16
  seg : Segment
  keySrc : BitVec 16
  keyId : BitVec 8
  tag : BitVec 128
deriving DecidableEq, Repr

/-- A fabric cell (R256), its check fields as received. -/
structure Cell where
  dst : BitVec 16
  src : BitVec 16
  cls : BitVec 2
  typ : BitVec 6
  flags : BitVec 8
  len : BitVec 16
  seq : BitVec 32
  frameTxn : BitVec 16
  hop : BitVec 8
  hchk : BitVec 8
  payload : List Byte
  crc : Word
deriving DecidableEq, Repr

/-- A service-ring frame (R417). -/
structure RingFrame where
  dir : BitVec 2
  kind : BitVec 2
  zero : BitVec 2
  count : BitVec 10
  len : BitVec 16
  payload : List Byte
  crc : Word
deriving DecidableEq, Repr

/-- One lane's share of a link frame (R232): 33 blocks, each a sync header and 16 bytes as received. -/
structure LaneFrame where
  lane : BitVec 2
  blocks : List (BitVec 2 × List Byte)
deriving DecidableEq, Repr

/-- What a port sees while it trains (R240 to R243). -/
structure TrainObs where
  clockSeen : Bool             -- partner's clock detected and FRXq locked
  rx : List LaneFrame          -- what each lane has brought lately, not descrambled
  eqDone : Bool                -- own adaptation done
  eyes : List (BitVec 8)       -- eye height of lanes 0 to 3, mV
  ctle : List (BitVec 4)       -- settings the adaptation of EQUALIZE found, lanes 0 to 3
  dfe : List (List Int)
  coarse : List (BitVec 7)     -- coarse delay found, lanes 0 to 3
  fine : List (BitVec 5)
  deskewPs : List (BitVec 16)
  aligned : BitVec 4           -- lanes whose TS2 blocks coincide
deriving DecidableEq, Repr

/-- One lane's eye monitor reading (R249, R251). -/
structure EyeObs where
  heightMv : BitVec 8
  width : BitVec 6
  centre : Int                 -- steps from the fine phase to the centre of eye width
deriving DecidableEq, Repr

/-- What the sweep of `CAL_RUN` with `FULL` finds on a port: per lane `LNK_SKEW`, `LNK_TAPS` and the eye there (R253). -/
structure CalPort where
  port : BitVec 2
  lanes : List (Word × Word × EyeObs)
deriving DecidableEq, Repr

/-- A received time cell's payload (R58) with its stamps: port of arrival, ingress stamp, and the egress stamp of
each port it may be forwarded on, all counted in 1/128 tick (R60). -/
structure TimeCellIn where
  port : BitVec 2
  hop : BitVec 8               -- of the cell's header
  originSec : BitVec 64
  originNs : BitVec 32
  originFrac : BitVec 32
  correction : BitVec 64
  wingbeatFrame : BitVec 64
  timeSeq : BitVec 32
  root : BitVec 16
  hops : BitVec 8
  status : BitVec 8
  tag : Word
  announce : List (BitVec 16 × BitVec 16 × BitVec 24 × BitVec 8)   -- SRC, TXN_ID, TARGET_FRAME, FLAGS
  tIn : Nat
  tOut : List Nat
deriving DecidableEq, Repr

/-- A PTP Announce (R49, R50): the data set compared, in the order IEEE 1588 compares it. -/
structure PtpAnnounce where
  port : BitVec 3
  domain : BitVec 8
  identity : BitVec 64
  portNumber : BitVec 16
  rank : List Nat              -- priority1, class, accuracy, variance, priority2, identity, stepsRemoved
  logInterval : Int
  utcOffset : BitVec 16
  utcValid : Bool
deriving DecidableEq, Repr

/-- A PTP Sync with its Follow_Up (R142). Times in 2^-16 ns. -/
structure PtpSync where
  port : BitVec 3
  domain : BitVec 8
  identity : BitVec 64
  portNumber : BitVec 16
  logInterval : Int
  t1 : Int
  t2 : Int
  cs : Int
deriving DecidableEq, Repr

/-- A PTP Delay_Resp (R142). Times in 2^-16 ns. -/
structure PtpDelayResp where
  port : BitVec 3
  domain : BitVec 8
  identity : BitVec 64
  portNumber : BitVec 16
  logMinDelayReq : Int
  t4 : Int
  cr : Int
deriving DecidableEq, Repr

/-- A PTP message to bridge (R143): port of arrival, UDP port, message type, correctionField, stamps in 2^-16 ns. -/
structure PtpBridged where
  port : BitVec 1
  udpPort : BitVec 16
  dstIp : BitVec 32
  msgType : BitVec 4
  correction : Int
  tIn : Int
  tOut : Int
deriving DecidableEq, Repr

/-- One sample-row data header with its data (R149). -/
structure Srd where
  field : Bool
  row : BitVec 15
  offset : BitVec 15
  length : BitVec 16
  data : List Byte
deriving DecidableEq, Repr

/-- A received video packet, as the Ethernet, IP, UDP and RTP levels of R136 and R147 read it. -/
structure RtpPacket where
  port : BitVec 3
  vlan : Option (BitVec 12)    -- one 802.1Q tag, if any
  stackedTags : Bool
  ipv4 : Bool                  -- EtherType IPv4
  size : Nat
  fcsOk : Bool
  overflow : Bool              -- the port's on-die buffer is full (R150)
  ipOk : Bool                  -- version 4, header checksum, no fragmentation
  udpOk : Bool                 -- checksum zero or valid
  srcIp : BitVec 32
  dstIp : BitVec 32
  dstPort : BitVec 16
  version : BitVec 2
  pt : BitVec 7
  ssrc : BitVec 32
  seq : BitVec 32              -- extended sequence number e of R148
  ts : BitVec 32
  srds : List Srd
deriving DecidableEq, Repr

/-- A chain measurement's stamps: for each driver that answered, driver 0 first, the sum of its eight round trips in
1/16 tick (R307). -/
structure ChainEcho where
  chain : BitVec 7
  rt : List Nat
deriving DecidableEq, Repr

/-- What a DRAM channel's training ends with (R356, R365): the failure cause of its steps, 0 where all pass, and the
densities of the data and the sideband devices in MiB as the mode registers give them. -/
structure TrainResult where
  cause : BitVec 4
  dataMiB : Nat
  sideMiB : Nat
deriving DecidableEq, Repr

/-- What the FEC decoder of a media port reports (R135): lock, and the codewords corrected and uncorrectable since its last report. -/
structure FecReport where
  lock : Bool
  fixed : Word
  bad : Word
deriving DecidableEq, Repr

/-- A JTAG operation (R31, R470): a TAP instruction, or an access of the memory port. -/
inductive JtagOp where
  | bypass | idcode | sample | extest
  | privateInstr (code : BitVec 8)
  | fuseWindow (offset : BitVec 8) (value : Word)
  | memRead (addr : BitVec 40)
  | memWrite (addr : BitVec 40) (data : BitVec 64)
deriving DecidableEq, Repr

/-! ## Objects a snapshot carries (R351) -/

namespace Machine

/-- A reply (R71), its CRC word apart. -/
structure Reply where
  opcode : BitVec 8
  tag : BitVec 16
  src : BitVec 16
  dst : BitVec 16
  seq : Word
  status : BitVec 8
  payload : List Word
deriving DecidableEq, Repr

/-- What a running operation does; the fields of its command. -/
inductive OpKind where
  | idle
  | memFill (addr size : Nat) (pattern : BitVec 64)
  | memCopy (source dest size : Nat)
  | fabProbe (routeLen : BitVec 7) (fwd : BitVec 128)
  | fabPathTest (target plen count : BitVec 16)
  | tableLoad (table : BitVec 1) (fromFlash : Bool) (addr size : Nat)
  | tableVerify (table : BitVec 1)
  | lampScan (chainMask : BitVec 128) (faults stale all : Bool) (ageMin : Word) (addr : Nat) (maxCount : Word)
  | calRun (ports : BitVec 4) (full : Bool)
  | calStore (ports : BitVec 4)
  | redJoin (pairSrc : BitVec 16) (ranges : List (Nat × Nat))
  | fwStage (area : BitVec 2) (fromDram : Bool) (offset size : Word) (addr : Nat) (data : List Word)
  | fwVerify
  | attest (nonce : List Word) (pubkey : Bool)
deriving DecidableEq, Repr

/-- An operation slot (R99, R100): state 0 FREE, 1 RUNNING, 2 DONE. -/
structure OpSlot where
  st : BitVec 2 := 0
  gen : BitVec 16 := 0
  opcode : BitVec 8 := 0
  ownerUid : Nat := 0
  ownerSlot : BitVec 6 := 0
  progress : BitVec 8 := 0
  final : BitVec 8 := 0
  result : List Word := []
  kind : OpKind := .idle
  start : Nat := 0                           -- tick of the start
  processed : Nat := 0                       -- bytes processed so far (R98)
  orphan : Bool := false                     -- its session has ended; released when it finishes (R84)
deriving DecidableEq, Repr

/-- An entry of a transaction (R106). -/
inductive Entry where
  | write (addr : Nat) (v : Word)
  | modify (addr : Nat) (mask value : Word)
  | routeSet (first : BitVec 6) (setDef : Bool) (defPorts : BitVec 4) (entries : List RouteEntry)
  | redSwitch (sel : BitVec 1)
  | molt (advanceSvn : Bool)
deriving DecidableEq, Repr

/-- Transaction states (R108), those a device holds. -/
inductive TxnState where
  | opened | pending | prepared | applied | aborted | uncertain
deriving DecidableEq, Repr

/-- A transaction (R108 to R129). -/
structure Txn where
  uid : Nat                                  -- its session
  slot : BitVec 6
  src : BitVec 16
  id : BitVec 16
  global : Bool
  state : TxnState
  began : Nat                                -- order of the TXN_BEGIN (R109)
  entries : List Entry := []
  frame : Nat := 0
  phase : Nat := 0
  at_ : Nat := 0                             -- apply instant A
  beat : Nat := 0                            -- W(n) of its target, on the grid it names it on (R114)
  begun : Bool := false                      -- that wingbeat has come and its grid is in force (R57)
  accepted : Nat := 0                        -- order of acceptance (R117); 0 while none
  gotCommit : Bool := false
  gotAbort : Bool := false
  ended : Nat := 0                           -- order of its end
  reason : Word := 0
  pend : Nat := 0                            -- its place k of TXN_PEND[k]
deriving DecidableEq, Repr

/-- A scheduled action (R130). -/
structure Action where
  id : BitVec 16
  uid : Nat
  slot : BitVec 6
  src : BitVec 16
  frame : Nat
  phase : Nat
  at_ : Nat
  opcode : BitVec 8
  payload : List Word
  hdr : Hdr
  pend : Nat
deriving DecidableEq, Repr

/-- A fence (R176): its visible value and the timed signals that wait, by frame, oldest first. -/
structure Fence where
  visible : Word := 0
  timed : List (Nat × Word) := []
deriving DecidableEq, Repr

/-- A pending flip of a graphic layer (R177). -/
structure Flip where
  buf : BitVec 2
  fence : BitVec 6
  noFence : Bool
  wait : Word
  frame : Nat
deriving DecidableEq, Repr

/-- A snapshot (R351): the state in force for images (n, ·), its encoding private. -/
structure Snapshot where
  frame : Nat
  regs : List (Nat × Word)                   -- live copies of the shadowed registers
  shadows : List (Nat × Word)                -- their shadow copies
  tables : List (List Byte)                  -- both region-map tables
  txns : List Txn                            -- the pair session's OPEN and pending transactions
  lastBegin : Option (BitVec 16)
  actions : List Action
  nextAction : BitVec 16
  fences : List Fence
  shown : List (BitVec 2)                    -- shown buffer of each graphic layer
  flips : List (Option Flip)
  wbCount : Nat
  wbLast : Nat
  ops : List (BitVec 4 × OpSlot)             -- the pair session's operation slots
  kept : List Reply
  expected : Word                            -- e_a
  crc : Word := 0                            -- of its encoding (R351)
deriving DecidableEq, Repr

end Machine

/-- The commands of the block, in the table's order. -/
inductive Instr where
  -- host commands (spec/03, spec/04, spec/06)
  | nop (h : Hdr)
  | sessionOpen (h : Hdr) (openId : Word)
  | sessionClose (h : Hdr)
  | regRead (h : Hdr) (addr : Word) (count : BitVec 8)
  | regReadLive (h : Hdr) (addr : Word) (count : BitVec 8)
  | regWrite (h : Hdr) (addr : Word) (vals : List Word)
  | regModify (h : Hdr) (addr mask value : Word)
  | memRead (h : Hdr) (addr : BitVec 40) (count : BitVec 14)
  | memWrite (h : Hdr) (addr : BitVec 40) (vals : List Word)
  | memFill (h : Hdr) (addr size : BitVec 40) (pattern : BitVec 64)
  | memCopy (h : Hdr) (source dest size : BitVec 40)
  | txnBegin (h : Hdr) (global : Bool)
  | txnCommit (h : Hdr) (t : Target)
  | txnCommitValidate (h : Hdr) (global : Bool) (t : Target)
  | txnCommitGlobal (h : Hdr) (t : Target)
  | txnAbort (h : Hdr)
  | txnAbortGlobal (h : Hdr) (t : Target)
  | txnQuery (h : Hdr)
  | txnQueryGlobal (h : Hdr)
  | txnPrepare (h : Hdr) (t : Target)
  | fenceSignal (h : Hdr) (fence : BitVec 6) (value : Word) (frame : BitVec 64)
  | fenceSignalReset (h : Hdr) (fence : BitVec 6) (value : Word) (frame : BitVec 64)
  | fenceQuery (h : Hdr) (m0 m1 : Word)
  | layerFlip (h : Hdr) (g : BitVec 4) (buf : BitVec 2) (fence : BitVec 6) (noFence : Bool) (wait : Word)
      (frame : BitVec 64)
  | schedAction (h : Hdr) (t : Target) (opcode : BitVec 8) (payload : List Word)
  | schedCancel (h : Hdr) (actionId : BitVec 16)
  | opStatus (h : Hdr) (mask : BitVec 16)
  | opResult (h : Hdr) (slot : BitVec 4) (gen : BitVec 16) (offset count : Word)
  | opRelease (h : Hdr) (slot : BitVec 4) (gen : BitVec 16)
  | fabProbe (h : Hdr) (routeLen : BitVec 7) (fwd : BitVec 128)
  | fabAssign (h : Hdr) (routeLen : BitVec 7) (newAddr : BitVec 16) (fwd : BitVec 128) (serial : BitVec 64)
  | fabRouteSet (h : Hdr) (first : BitVec 6) (setDef : Bool) (defPorts : BitVec 4) (entries : List RouteEntry)
  | fabPathTest (h : Hdr) (target plen count : BitVec 16)
  | tableLoad (h : Hdr) (table : BitVec 1) (fromFlash : Bool) (addr size : BitVec 40)
  | tableVerify (h : Hdr) (table : BitVec 1)
  | lampScan (h : Hdr) (chainMask : BitVec 128) (faults stale all : Bool) (ageMin : Word) (addr : BitVec 40)
      (maxCount : Word)
  | lampReport (h : Hdr) (chain : BitVec 7) (driver : BitVec 6) (first : BitVec 10) (count : BitVec 11)
  | calRun (h : Hdr) (ports : BitVec 4) (full : Bool)
  | calStore (h : Hdr) (ports : BitVec 4)
  | redJoin (h : Hdr) (pairSrc : BitVec 16) (ranges : List (BitVec 40 × BitVec 40))
  | redState (h : Hdr)
  | redSwitch (h : Hdr) (sel : BitVec 1)
  | fwStage (h : Hdr) (area : BitVec 2) (fromDram : Bool) (offset size : Word) (addr : BitVec 40)
      (data : List Word)
  | fwVerify (h : Hdr)
  | fwMolt (h : Hdr) (advanceSvn : Bool)
  | attest (h : Hdr) (nonce : List Word) (pubkey : Bool)
  | instarAdvance (h : Hdr) (target : BitVec 3) (confirm : Word) (blownA blownB : Bool)
  | errRead (h : Hdr) (firstSeq : Word) (count : BitVec 8)
  | errClear (h : Hdr) (uptoSeq : Word)
  | diagPatternStop (h : Hdr) (port : BitVec 2) (lanes pattern : BitVec 4) (arg : Word)
  | diagPatternGenerate (h : Hdr) (port : BitVec 2) (lanes pattern : BitVec 4) (arg : Word)
  | diagPatternCheck (h : Hdr) (port : BitVec 2) (lanes pattern : BitVec 4) (arg : Word)
  | diagPatternGenerateCheck (h : Hdr) (port : BitVec 2) (lanes pattern : BitVec 4) (arg : Word)
  | diagPatternLoopback (h : Hdr) (port : BitVec 2) (lanes pattern : BitVec 4) (arg : Word)
  | diagPatternInjectBit (h : Hdr) (port : BitVec 2) (lanes pattern : BitVec 4) (arg : Word)
  | diagPatternInjectLcb (h : Hdr) (port : BitVec 2) (lanes pattern : BitVec 4) (arg : Word)
  | diagPatternLampStart (h : Hdr) (pattern : BitVec 4) (arg : Word)
  | diagPatternLampStop (h : Hdr) (pattern : BitVec 4) (arg : Word)
  | diagCounters (h : Hdr) (block : BitVec 5) (clear : Bool)
  | reset (h : Hdr)
  | resetMedia (h : Hdr)
  | resetFrx (h : Hdr) (port : BitVec 2)
  | resetDram (h : Hdr) (channel : BitVec 2)
  | resetService (h : Hdr)
  | resetFlash (h : Hdr)
  -- register writes with behaviour of their own
  | sysModeReq (target : BitVec 3)
  | roleSet (role : BitVec 2)
  | timeSrcWrite (value : Word)
  | snap
  | reacquire
  | set
  | adj
  | timeCntClr
  | ethModeWrite (fec : Bool) (value : Word)
  | ingCntClr (stream : BitVec 5)
  | lnkRetrain (port : BitVec 2)
  | lnkDeep (port : BitVec 2) (on : Bool)
  | ldrMeasure
  | ldrCntClr
  | enrol (slot : BitVec 6) (readbackOk : Bool)
  | epoch (slot : BitVec 6) (value : BitVec 16)
  | secProof (slot : BitVec 6) (word3 : Word)
  | inService (channel : BitVec 2) (on : Bool)
  | bankSetOwner (bank : BitVec 6) (owner : BitVec 4)
  | bankSetPwr (bank : BitVec 6) (pwr : BitVec 2)
  -- transport events
  | udpDatagram (d : Datagram)
  | commandSegment (via : Via) (seg : Segment)
  | reassemblyTimeout (via : Via) (pktId : BitVec 16)
  | holdTimeout (slot : BitVec 6)
  | barrierRelease (slot : BitVec 6)
  | deferredDispatch (slot : BitVec 6)
  | relayReply (cell : Cell)
  | ringFrame (f : RingFrame)
  -- ends of long operations
  | memFillDone (slot : BitVec 4)
  | memCopyDone (slot : BitVec 4)
  | fabProbeDone (slot : BitVec 4)
  | fabAssignDone (slot : BitVec 6)
  | fabPathTestDone (slot : BitVec 4)
  | tableLoadDone (slot : BitVec 4)
  | tableVerifyDone (slot : BitVec 4)
  | lampScanDone (slot : BitVec 4)
  | calRunDone (slot : BitVec 4) (results : List CalPort)
  | calStoreDone (slot : BitVec 4) (readbackOk : BitVec 4)
  | fwStageDone (slot : BitVec 4) (failBlock : Option Nat)
  | fwVerifyDone (slot : BitVec 4)
  | attestDone (slot : BitVec 4) (nvmOk : Bool)
  -- frames, commits, modes
  | wingbeat
  | applyInstant
  | molt (directoryOk : Bool)
  | modeChangeComplete
  | autoTargetStep
  -- time
  | periodicTimeCell (tOut : List Nat)
  | timeCell (c : TimeCellIn)
  | upstreamLoss
  | sourceLoss
  | ptpAnnounce (m : PtpAnnounce)
  | ptpSync (m : PtpSync)
  | ptpDelayResp (m : PtpDelayResp)
  | delayReq (t3s launch : Int)
  | fsyncIn
  | ppsIn
  | ppsOut
  | linkDelayMeasure (port : BitVec 2) (roundTrip : Int) (turn : BitVec 16)
  | delayMarkTimeout (port : BitVec 2)
  -- media and ingest
  | ethModeApply
  | arpRequest (port : BitVec 3) (targetIp senderIp : BitVec 32) (senderMac : BitVec 48)
  | igmpQuery (port : BitVec 3) (version : BitVec 2) (group : BitVec 32)
  | igmpReportRepeat (port : BitVec 3)
  | rtpPacket (p : RtpPacket)
  | bufferDeadline (stream : BitVec 5) (buffer : BitVec 4)
  | streamLost (stream : BitVec 5)
  -- composition
  | composeLine (notOnDie : List (BitVec 4))
  | lineLeavesBlender (wbRoom : Bool)
  -- fabric
  | cellArbitration (port : BitVec 2)
  | fabricCell (port : BitVec 2) (cell : Cell)
  | probeCell (port : BitVec 2) (cell : Cell)
  | svcCell (port : BitVec 2) (cell : Cell)
  | creditReturn (port : BitVec 2)
  | routeHoldExpiry
  -- lanes
  | linkFrame (port : BitVec 2) (lanes : List LaneFrame)
  | replayTimeout (port : BitVec 2)
  | trainingAdvance (port : BitVec 2) (obs : TrainObs)
  | trainingTimeout (port : BitVec 2) (obs : TrainObs)
  | forwardedClockLoss (port : BitVec 2)
  | lightIdleEntry (port : BitVec 2)
  | lightIdleExit (port : BitVec 2)
  | deepIdleEios (port : BitVec 2)
  | adaptWindow (port lane : BitVec 2) (transitions : BitVec 13) (ctleStep : Int) (dfeSteps : List Int)
  | tempCheck (temp : BitVec 16)
  | recalStep (port lane : BitVec 2) (eye : EyeObs)
  -- tile
  | rasterCell (port : BitVec 2) (cell : Cell)
  | correctionDeadline (frame : BitVec 64) (phase : BitVec 2)
  | correctionDone
  | chainLoad (frame : BitVec 64) (phase : BitVec 2)
  | latchLaunch (frame : BitVec 64) (phase : BitVec 2)
  | blankLaunch (frame : BitVec 64) (phase : BitVec 2) (dark : Bool)
  | diagLaunch (frame : BitVec 64) (phase : BitVec 2)
  | reportSend (chain : BitVec 7)
  | returnRecord (chain : BitVec 7) (edges : List (BitVec 16 × BitVec 16))   -- high and low times in 1/16 tick (R301)
  | configLoad (chain : BitVec 7)
  | chainMeasure (echo : ChainEcho)
  -- redundancy
  | linkLoss
  | redSwitched (cause : BitVec 1)
  | promote
  | joinRequest (port : BitVec 2) (src : BitVec 16) (pairSrc : BitVec 16) (ranges : List (BitVec 40 × BitVec 40))
  | joinCopyCell (addr : BitVec 40) (data : List (BitVec 64 × Bool))
  | snapshotCapture (joinerExpected : Word)
  | snapshotInstall (sn : Machine.Snapshot)
  | joinFail (cause : BitVec 2)
  -- memory
  | scrubStep (addr : BitVec 40)
  | refreshCheck (rates : List (BitVec 3))
  | channelTrainingDone (channel : BitVec 2) (r : TrainResult)
  | regionWiped (region : BitVec 11)
  | bankDrainDone (bank : BitVec 6)
  | bankPowerDone (bank : BitVec 6)
  -- clocks and resets
  | refclkLost
  | pllUnlock (pll : BitVec 2)
  | pllRelock (pll : BitVec 2)
  | domainResetRelease (kind : BitVec 4)
  | eventCrossing (k : BitVec 4) (sub : BitVec 3)
  | resetN (lowNs : Nat)
  | supplyDrop
  | deviceReset
  | eclosion
  | powerOn
  | linkUp (port : BitVec 3) (up : Bool) (fec : FecReport)
  | lightIdleEios (port : BitVec 2)
  | fts (port : BitVec 2)
  | bridgedPtpMessage (m : PtpBridged)
  | pulseEnd (fsync : Bool)
  | jtagAccess (op : JtagOp)
  | pathTestSend (slot : BitVec 4)
deriving DecidableEq, Repr

end Sys2Proof
end

