-- ==== Sys2Proof/Decode.lean ====
section
/-! DEFINITION. The command a word of spec/opcode_table.json spells. The table's rows give no bits (each has no
`fixed` and no field), so no word spells a command (log entry 11). -/

namespace Sys2Proof

/-- The rows of the table that give bits: how many bits, the fixed bits' mask and value, the command. There is none. -/
def tableRows : List (Nat × Nat × Nat × Instr) := []

/-- The command that a word of `nbits` bits spells by the table's bits. -/
def decodeTableWord (nbits w : Nat) : Option Instr :=
  (tableRows.find? fun r => decide (r.1 = nbits) && decide (Nat.land w r.2.1 = r.2.2.1)).map fun r => r.2.2.2

end Sys2Proof
end

