-- ==== Sys2Proof/Config.lean ====
section
/-! DEFINITION. What one part fixes and the manual leaves open: the free values and the functions the manual takes
from other standards by name. Each is opaque: nothing can prove a value of it (log entries 7, 8, 12 and 13). -/

namespace Sys2Proof.Config

/-- DESIGN CHOICE (log entry 12): the device's random source (R399, R463); the argument is the draw's number. -/
opaque random : Nat → BitVec 128

/-- DESIGN CHOICE (log entry 13): a rounding the manual does not fix; true rounds up. The arguments name the place
and the value's numerator and denominator. -/
opaque roundUp : Nat → Nat → Nat → Bool

/-- DESIGN CHOICE (log entry 7): AES-CMAC of NIST SP 800-38B under AES-256: key, message (R77, R398, R399). -/
opaque aesCmac : List Byte → List Byte → BitVec 128

/-- DESIGN CHOICE (log entry 7): SHA-256 (R392, R407). -/
opaque sha256 : List Byte → BitVec 256

/-- DESIGN CHOICE (log entry 7): the AES-256 key unwrap of RFC 3394: key, wrapped words; none where the integrity
check fails (R397, R407). -/
opaque aesUnwrap : List Byte → List Byte → Option (List Byte)

/-- DESIGN CHOICE (log entry 7): AES-256 of one block: key, block (R408). -/
opaque aesBlock : List Byte → BitVec 128 → BitVec 128

/-- DESIGN CHOICE (log entry 7): what the root secret gives a tree of the identity key (R392): identifier, then seed. The
arguments: the root secret, and the bottom tree's number or none for the top tree. -/
opaque idTree : BitVec 256 → Option Nat → List Byte

/-- DESIGN CHOICE (log entry 7): whether an HSS signature of RFC 8554 within the bounds of R412 verifies: public key,
message, signature. -/
opaque hssVerify : List Byte → List Byte → List Byte → Bool

/-- DESIGN CHOICE (log entry 7): the root of an LMS tree of RFC 8554 with the types of R392: the tree's identifier and seed. -/
opaque lmsRoot : List Byte → BitVec 256

/-- DESIGN CHOICE (log entry 7): the path of RFC 8554 from a leaf of such a tree to its root: the tree, the leaf. -/
opaque lmsPath : List Byte → Nat → List Byte

/-- DESIGN CHOICE (log entry 7): the randomizer and the chains of the LM-OTS signature of RFC 8554: the tree, the leaf, the
message. -/
opaque lmotsSign : List Byte → Nat → List Byte → List Byte

/-- DESIGN CHOICE (log entry 57): the encoding of a snapshot, which is private to the device (R351): its items as words. -/
opaque snapshotBytes : List (List Nat) → List Byte

/-- DESIGN CHOICE (log entry 12): a value the manual leaves open: the place in the manual and the operands it depends on. -/
opaque free : Nat → List Nat → Nat

end Sys2Proof.Config
end

