-- ==== Sys2Proof/Machine/Crc.lean ====
section
/-! DEFINITION. Byte order (R4) and the check codes: CRC-32C (R72), the CRC-32 and CRC-8 of the lanes (R234), the
CRC-16 of the lamp chains (R310). -/

namespace Sys2Proof.Machine

open Sys2Proof

/-- `k` bytes of `n`, most significant first (R4, links). -/
def bytesBE (k n : Nat) : List Byte := (List.range k).map fun i => BitVec.ofNat 8 (n / 256 ^ (k - 1 - i))

/-- `k` bytes of `n`, least significant first (R4, memory). -/
def bytesLE (k n : Nat) : List Byte := (List.range k).map fun i => BitVec.ofNat 8 (n / 256 ^ i)

/-- The number that bytes give, most significant first. -/
def natBE (bs : List Byte) : Nat := bs.foldl (fun a b => a * 256 + b.toNat) 0

/-- The number that bytes give, least significant first. -/
def natLE (bs : List Byte) : Nat := bs.foldr (fun b a => a * 256 + b.toNat) 0

/-- A word's four bytes as a link carries them. -/
def wordBytes (w : Word) : List Byte := bytesBE 4 w.toNat

/-- Words as a link carries them. -/
def wordsBytes (ws : List Word) : List Byte := ws.flatMap wordBytes

/-- Words out of bytes, most significant first; an incomplete last word is left out. -/
def bytesWords : List Byte → List Word
  | a :: b :: c :: d :: t => BitVec.ofNat 32 (natBE [a, b, c, d]) :: bytesWords t
  | _ => []

/-- `n` bytes from offset `i`. -/
def slice (bs : List Byte) (i n : Nat) : List Byte := (bs.drop i).take n

/-- The number in `n` bytes from offset `i`, most significant first. -/
def fieldBE (bs : List Byte) (i n : Nat) : Nat := natBE (slice bs i n)

/-- The number in `n` bytes from offset `i`, least significant first. -/
def fieldLE (bs : List Byte) (i n : Nat) : Nat := natLE (slice bs i n)

/-- One bit of a reflected CRC register. -/
def crcBitR {n : Nat} (poly c : BitVec n) : BitVec n := if c.getLsbD 0 then (c >>> 1) ^^^ poly else c >>> 1

/-- One byte of a reflected CRC. -/
def crcByteR {n : Nat} (poly c : BitVec n) (b : Byte) : BitVec n :=
  let x := c ^^^ b.setWidth n
  let f := crcBitR poly
  f (f (f (f (f (f (f (f x)))))))

/-- One bit of a CRC register that shifts left. -/
def crcBitL {n : Nat} (poly c : BitVec n) : BitVec n := if c.getLsbD (n - 1) then (c <<< 1) ^^^ poly else c <<< 1

/-- One byte of a CRC that shifts left. -/
def crcByteL {n : Nat} (poly c : BitVec n) (b : Byte) : BitVec n :=
  let x := c ^^^ (b.setWidth n <<< (n - 8))
  let f := crcBitL poly
  f (f (f (f (f (f (f (f x)))))))

/-- CRC-32C (R72): polynomial 0x1EDC6F41 reflected, initial value all ones, complemented. -/
def crc32c (bs : List Byte) : Word := ~~~ (bs.foldl (crcByteR 0x82F63B78#32) 0xFFFFFFFF#32)

/-- CRC-32 of IEEE 802.3 (R234). -/
def crc32 (bs : List Byte) : Word := ~~~ (bs.foldl (crcByteR 0xEDB88320#32) 0xFFFFFFFF#32)

/-- CRC-8 of R234: x^8 + x^2 + x + 1, initial value 0, no reflection. -/
def crc8 (bs : List Byte) : Byte := bs.foldl (crcByteL 0x07#8) 0#8

/-- CRC-16 of R310 over 16-bit words: polynomial 0x1021, initial value 0xFFFF, most significant bit first. -/
def crc16 (ws : List (BitVec 16)) : BitVec 16 :=
  (ws.flatMap fun w => bytesBE 2 w.toNat).foldl (crcByteL 0x1021#16) 0xFFFF#16

end Sys2Proof.Machine
end

