-- ==== Sys2Proof/Machine/RegMap.lean ====
section
/-! DEFINITION. The register map: every register of the manual's field tables (spec/19 R455 to R470 and the
register section of each chapter), its address, indexes, fields, access types (R7, R462) and Reset column (R463).
`F.<REGISTER>_<FIELD>` names a field by the manual's own name; `regBlock` holds the rows of a block. -/

namespace Sys2Proof.Machine

/-- A field of a register: the register's address, the field's lowest bit, its width. -/
structure Fld where
  addr : Nat
  lo : Nat
  w : Nat
deriving DecidableEq, Repr

/-- Access types of R7, and the conditional ones of R462, each under the condition its description gives. -/
inductive Acc where
  | ro | rw | wo | w1c | rc | sh
  | rwNoRole      -- SYS_ROLE.ROLE_SET: RW while ROLE is none (R13)
  | rwServoHost   -- TIME_RATE.RATE: RW while SERVO_HOST = 1 (R48)
  | rwNotLive     -- TIME_SRC.SOURCE: RW in M1, M2, M6 and M7 (R41)
  | rwTableIdle   -- LCR_TBL_BASE: RW while the slot is neither selected nor under TABLE_LOAD (R291)
  | rwM127        -- MEM_CH_CTRL.IN_SERVICE: RW in M1, M2 and M7 (R365)
  | roRcK2        -- MEM_CLS_CNT: RO for k = 0, 1; RC for k = 2
  | rwBankOwner   -- MEM_BANK_SET.OWNER: RO per R373
  | rwBankPwr     -- MEM_BANK_SET.PWR: RO per R378
  | rwOwner       -- SEC_OWNER_CTRL.EPOCH: RW in an owner session (R398)
deriving DecidableEq, Repr

/-- One field of a register row. -/
structure FieldDecl where
  lo : Nat
  w : Nat
  acc : Acc
  reset : Nat
deriving DecidableEq, Repr

/-- One register row: address with every index 0, the indexes (first, last, stride; widest stride first),
the fields. Bits of no field are reserved (R7). -/
structure RegDecl where
  base : Nat
  dims : List (Nat × Nat × Nat)
  fields : List FieldDecl
deriving DecidableEq, Repr

namespace F

def SYS_ROLE_STRAP : Fld := ⟨0x00000100, 0, 2⟩
def SYS_ROLE_ROLE : Fld := ⟨0x00000100, 4, 2⟩
def SYS_ROLE_SOURCE : Fld := ⟨0x00000100, 8, 2⟩
def SYS_ROLE_ROLE_SET : Fld := ⟨0x00000100, 12, 2⟩
def SYS_MODE_CUR : Fld := ⟨0x00000110, 0, 3⟩
def SYS_MODE_BUSY : Fld := ⟨0x00000110, 3, 1⟩
def SYS_MODE_LAST_REQ : Fld := ⟨0x00000110, 4, 3⟩
def SYS_MODE_REQ_ERR : Fld := ⟨0x00000110, 8, 4⟩
def SYS_MODE_REQ_TARGET : Fld := ⟨0x00000114, 0, 3⟩
def SYS_BOOT_ECLOSED : Fld := ⟨0x00000130, 0, 1⟩
def SYS_BOOT_RESET_CAUSE : Fld := ⟨0x00000130, 1, 3⟩
def SYS_BOOT_IMAGE_OK : Fld := ⟨0x00000130, 4, 1⟩
def SYS_BOOT_RECOVERY : Fld := ⟨0x00000130, 5, 1⟩
def SYS_BOOT_DRAM_TRAINED : Fld := ⟨0x00000130, 8, 4⟩
def SYS_BOOT_ECLOSION_MS : Fld := ⟨0x00000130, 16, 16⟩
def SYS_WIPE_DONE : Fld := ⟨0x00000140, 0, 12⟩
def SYS_WIPE_TOTAL : Fld := ⟨0x00000140, 16, 12⟩
def SYS_WIPE_ACTIVE : Fld := ⟨0x00000140, 31, 1⟩
def SYS_WIPE_MAP_DONE (n : Nat) : Fld := ⟨0x00000200 + 4 * n, 0, 32⟩
def SYS_INSTAR_INSTAR : Fld := ⟨0x00000120, 0, 3⟩
def SYS_INSTAR_PROV_LOCKED : Fld := ⟨0x00000120, 8, 1⟩
def SYS_INSTAR_OWNER_SET : Fld := ⟨0x00000120, 9, 1⟩
def SYS_INSTAR_JTAG_LOCKED : Fld := ⟨0x00000120, 10, 1⟩
def TIME_CTRL_SNAP : Fld := ⟨0x00020008, 0, 1⟩
def TIME_CTRL_REACQUIRE : Fld := ⟨0x00020008, 1, 1⟩
def TIME_CTRL_SET : Fld := ⟨0x00020008, 2, 1⟩
def TIME_CTRL_ADJ : Fld := ⟨0x00020008, 3, 1⟩
def TIME_CTRL_CNT_CLR : Fld := ⟨0x00020008, 4, 1⟩
def TIME_CTRL_SERVO_HOST : Fld := ⟨0x00020008, 8, 1⟩
def TIME_SNAP_VALUE (k : Nat) : Fld := ⟨0x00020010 + 4 * k, 0, 32⟩
def TIME_SET_VALUE (k : Nat) : Fld := ⟨0x00020030 + 4 * k, 0, 32⟩
def TIME_ADJ_ADJ_NS : Fld := ⟨0x0002003C, 0, 32⟩
def TIME_RATE_RATE : Fld := ⟨0x00020040, 0, 32⟩
def TIME_SRC_SOURCE : Fld := ⟨0x00020000, 0, 3⟩
def TIME_SRC_UPSTREAM : Fld := ⟨0x00020000, 4, 2⟩
def TIME_SRC_ALT_UPSTREAM : Fld := ⟨0x00020000, 8, 2⟩
def TIME_SRC_FWD_MASK : Fld := ⟨0x00020000, 12, 4⟩
def TIME_STAT_STATE : Fld := ⟨0x00020004, 0, 2⟩
def TIME_STAT_SOURCE : Fld := ⟨0x00020004, 2, 3⟩
def TIME_STAT_DEPTH : Fld := ⟨0x00020004, 8, 8⟩
def TIME_STAT_UPSTREAM_NOW : Fld := ⟨0x00020004, 16, 2⟩
def TIME_STAT_ROOT_STATE : Fld := ⟨0x00020004, 18, 2⟩
def TIME_STAT_CTRL_IGN : Fld := ⟨0x00020004, 20, 4⟩
def TIME_STAT_HOLD_S : Fld := ⟨0x00020004, 24, 8⟩
def TIME_ROOT_ROOT : Fld := ⟨0x0002000C, 0, 16⟩
def TIME_OFFSET_X : Fld := ⟨0x00020044, 0, 32⟩
def TIME_OFFSET_SEQ_COUNT : Fld := ⟨0x00020048, 0, 32⟩
def TIME_SERVO_KP_SHIFT : Fld := ⟨0x00020050, 0, 4⟩
def TIME_SERVO_KI_SHIFT : Fld := ⟨0x00020050, 4, 4⟩
def TIME_SERVO_LOCK_COUNT : Fld := ⟨0x00020050, 8, 8⟩
def TIME_SERVO_LOCK_NS : Fld := ⟨0x00020050, 16, 16⟩
def TIME_BOUNDS_OUTLIER_NS : Fld := ⟨0x00020054, 0, 16⟩
def TIME_BOUNDS_STEP_NS : Fld := ⟨0x00020054, 16, 16⟩
def TIME_POLICY_MASTER_CHANGE : Fld := ⟨0x00020058, 0, 1⟩
def TIME_POLICY_ALT_EN : Fld := ⟨0x00020058, 1, 1⟩
def TIME_POLICY_AUTO_REACQ : Fld := ⟨0x00020058, 2, 1⟩
def TIME_PTP_CFG_DOMAIN : Fld := ⟨0x00020064, 0, 8⟩
def TIME_PTP_CFG_PORTS : Fld := ⟨0x00020064, 8, 2⟩
def TIME_PTP_CFG_ANN_TIMEOUT : Fld := ⟨0x00020064, 12, 4⟩
def TIME_PTP_MASTER_VALUE (k : Nat) : Fld := ⟨0x00020068 + 4 * k, 0, 32⟩
def TIME_UTC_OFFSET_UTC_OFFSET : Fld := ⟨0x00020074, 0, 16⟩
def TIME_UTC_OFFSET_VALID : Fld := ⟨0x00020074, 16, 1⟩
def TIME_IO_PPS_OUT_W : Fld := ⟨0x00020060, 0, 10⟩
def TIME_IO_FSYNC_OUT_W : Fld := ⟨0x00020060, 10, 10⟩
def TIME_IO_FSYNC_IN_DIV : Fld := ⟨0x00020060, 20, 4⟩
def TIME_IO_FSYNC_OUT_DIV : Fld := ⟨0x00020060, 24, 4⟩
def TIME_FRAME_NUM_FRAME_NUM : Fld := ⟨0x00020200, 0, 32⟩
def TIME_FRAME_DEN_FRAME_DEN : Fld := ⟨0x00020204, 0, 32⟩
def TIME_FRAME_OFFSET_FRAME_OFFSET_NS : Fld := ⟨0x00020208, 0, 32⟩
def TIME_PHASE_CFG_PHASES : Fld := ⟨0x0002020C, 0, 3⟩
def TIME_PHASE_CFG_DELAY : Fld := ⟨0x0002020C, 4, 2⟩
def TIME_PHASE_START_PHASE_START_NS (p : Nat) : Fld := ⟨0x00020210 + 4 * p, 0, 32⟩
def TIME_LIT_LIT_NS (p : Nat) : Fld := ⟨0x00020220 + 4 * p, 0, 32⟩
def TIME_LATCH_OFFSET_LATCH_OFFSET_NS : Fld := ⟨0x00020230, 0, 32⟩
def TIME_LINK_DELAY_D_PS (q : Nat) : Fld := ⟨0x00020100 + 4 * q, 0, 32⟩
def TIME_ASYM_ASYM_PS (q : Nat) : Fld := ⟨0x00020110 + 4 * q, 0, 32⟩
def TIME_CELL_CFG_PERIOD_US : Fld := ⟨0x0002005C, 0, 10⟩
def TIME_CELL_CFG_LOSS_US : Fld := ⟨0x0002005C, 16, 10⟩
def TIME_CNT_COUNT (k : Nat) : Fld := ⟨0x00020080 + 4 * k, 0, 32⟩
def CMD_OP_STAT_PROGRESS (s : Nat) : Fld := ⟨0x00010240 + 4 * s, 0, 8⟩
def CMD_OP_STAT_FINAL (s : Nat) : Fld := ⟨0x00010240 + 4 * s, 8, 8⟩
def CMD_OP_STAT_OPCODE (s : Nat) : Fld := ⟨0x00010240 + 4 * s, 16, 8⟩
def CMD_OP_STAT_OWNER (s : Nat) : Fld := ⟨0x00010240 + 4 * s, 24, 6⟩
def CMD_OP_STAT_STATE (s : Nat) : Fld := ⟨0x00010240 + 4 * s, 30, 2⟩
def CMD_OP_VALID_VALID (s : Nat) : Fld := ⟨0x00010280 + 4 * s, 0, 13⟩
def CMD_OP_VALID_GEN (s : Nat) : Fld := ⟨0x00010280 + 4 * s, 16, 16⟩
def CMD_CFG_UDP_PORT : Fld := ⟨0x00010000, 0, 16⟩
def CMD_CFG_UDP_EN : Fld := ⟨0x00010000, 16, 1⟩
def CMD_CFG_RELAY_EN : Fld := ⟨0x00010000, 17, 1⟩
def CMD_SESS_COUNT_OPEN : Fld := ⟨0x00010004, 0, 7⟩
def CMD_SESS_SRC (k : Nat) : Fld := ⟨0x00010040 + 4 * k, 0, 16⟩
def CMD_SESS_TRANSPORT (k : Nat) : Fld := ⟨0x00010040 + 4 * k, 16, 2⟩
def CMD_SESS_HELD (k : Nat) : Fld := ⟨0x00010040 + 4 * k, 24, 6⟩
def CMD_SESS_OPEN (k : Nat) : Fld := ⟨0x00010040 + 4 * k, 31, 1⟩
def CMD_SESS_EXP_EXPECTED (k : Nat) : Fld := ⟨0x00010140 + 4 * k, 0, 32⟩
def CMD_CNT_COUNT (k : Nat) : Fld := ⟨0x00010300 + 4 * k, 0, 32⟩
def TXN_STAT_OPEN : Fld := ⟨0x00030000, 0, 10⟩
def TXN_STAT_PENDING : Fld := ⟨0x00030000, 16, 5⟩
def TXN_STAT_GRID_PENDING : Fld := ⟨0x00030000, 24, 1⟩
def TXN_STAT_UNCERTAIN : Fld := ⟨0x00030000, 25, 1⟩
def TXN_PEND_ID (k : Nat) : Fld := ⟨0x00030040 + 4 * k, 0, 16⟩
def TXN_PEND_SESSION (k : Nat) : Fld := ⟨0x00030040 + 4 * k, 16, 6⟩
def TXN_PEND_KIND (k : Nat) : Fld := ⟨0x00030040 + 4 * k, 24, 3⟩
def TXN_PEND_PHASE (k : Nat) : Fld := ⟨0x00030040 + 4 * k, 28, 2⟩
def TXN_PEND_FRAME_FRAME (k : Nat) : Fld := ⟨0x00030080 + 4 * k, 0, 32⟩
def TXN_SCHED_LAST_ACTION_ID : Fld := ⟨0x000300C0, 0, 16⟩
def TXN_SCHED_LAST_STATUS : Fld := ⟨0x000300C0, 16, 8⟩
def TXN_CNT_COUNT (k : Nat) : Fld := ⟨0x00030100 + 4 * k, 0, 32⟩
def ETH_MODE_MODE : Fld := ⟨0x00040000, 0, 2⟩
def ETH_MODE_RX_POL : Fld := ⟨0x00040000, 8, 8⟩
def ETH_MODE_TX_POL : Fld := ⟨0x00040000, 16, 8⟩
def ETH_FEC_FEC0 : Fld := ⟨0x00040004, 0, 2⟩
def ETH_FEC_FEC1 : Fld := ⟨0x00040004, 2, 2⟩
def ETH_FEC_FEC2 : Fld := ⟨0x00040004, 4, 2⟩
def ETH_FEC_FEC3 : Fld := ⟨0x00040004, 6, 2⟩
def ETH_FEC_FEC4 : Fld := ⟨0x00040004, 8, 2⟩
def ETH_FEC_FEC5 : Fld := ⟨0x00040004, 10, 2⟩
def ETH_FEC_FEC6 : Fld := ⟨0x00040004, 12, 2⟩
def ETH_FEC_FEC7 : Fld := ⟨0x00040004, 14, 2⟩
def ETH_PORT_STAT_LINK_UP (m : Nat) : Fld := ⟨0x00040010 + 4 * m, 0, 1⟩
def ETH_PORT_STAT_FEC_LOCK (m : Nat) : Fld := ⟨0x00040010 + 4 * m, 1, 1⟩
def ETH_PORT_STAT_PORT_VALID (m : Nat) : Fld := ⟨0x00040010 + 4 * m, 2, 1⟩
def ETH_PORT_STAT_LINK_DOWNS (m : Nat) : Fld := ⟨0x00040010 + 4 * m, 8, 8⟩
def ETH_MAC_MAC (m : Nat) (k : Nat) : Fld := ⟨0x00040040 + 8 * m + 4 * k, 0, 32⟩
def ETH_IP_IP (m : Nat) : Fld := ⟨0x00040080 + 4 * m, 0, 32⟩
def ETH_VLAN_VID (m : Nat) : Fld := ⟨0x000400A0 + 4 * m, 0, 12⟩
def ETH_VLAN_EN (m : Nat) : Fld := ⟨0x000400A0 + 4 * m, 15, 1⟩
def ETH_CMD_GROUP_GROUP (g : Nat) : Fld := ⟨0x000400F0 + 4 * g, 0, 32⟩
def ETH_TS_EXT_RX_PS (m : Nat) : Fld := ⟨0x000400C0 + 4 * m, 0, 16⟩
def ETH_TS_EXT_TX_PS (m : Nat) : Fld := ⟨0x000400C0 + 4 * m, 16, 16⟩
def ETH_BRIDGE_EN : Fld := ⟨0x000400E0, 0, 1⟩
def ING_S_CTRL_EN (s : Nat) : Fld := ⟨0x00050000 + 32 * s, 0, 1⟩
def ING_S_CTRL_PAIR (s : Nat) : Fld := ⟨0x00050000 + 32 * s, 1, 1⟩
def ING_S_CTRL_FILL (s : Nat) : Fld := ⟨0x00050000 + 32 * s, 2, 1⟩
def ING_S_CTRL_SSRC_EN (s : Nat) : Fld := ⟨0x00050000 + 32 * s, 3, 1⟩
def ING_S_CTRL_SAMPLING (s : Nat) : Fld := ⟨0x00050000 + 32 * s, 4, 2⟩
def ING_S_CTRL_DEPTH (s : Nat) : Fld := ⟨0x00050000 + 32 * s, 6, 2⟩
def ING_S_CTRL_COLORIMETRY (s : Nat) : Fld := ⟨0x00050000 + 32 * s, 8, 2⟩
def ING_S_CTRL_TCS (s : Nat) : Fld := ⟨0x00050000 + 32 * s, 10, 2⟩
def ING_S_CTRL_RANGE (s : Nat) : Fld := ⟨0x00050000 + 32 * s, 12, 1⟩
def ING_S_CTRL_RING_N (s : Nat) : Fld := ⟨0x00050000 + 32 * s, 16, 5⟩
def ING_S_CTRL_PT (s : Nat) : Fld := ⟨0x00050000 + 32 * s, 24, 7⟩
def ING_S_DIM_WIDTH (s : Nat) : Fld := ⟨0x00050004 + 32 * s, 0, 14⟩
def ING_S_DIM_HEIGHT (s : Nat) : Fld := ⟨0x00050004 + 32 * s, 16, 13⟩
def ING_S_TIMING_MARGIN_US (s : Nat) : Fld := ⟨0x00050008 + 32 * s, 0, 20⟩
def ING_S_TIMING_MAX_MISSING (s : Nat) : Fld := ⟨0x00050008 + 32 * s, 20, 8⟩
def ING_S_SSRC_SSRC (s : Nat) : Fld := ⟨0x0005000C + 32 * s, 0, 32⟩
def ING_S_RING_BASE_4K (s : Nat) : Fld := ⟨0x00050010 + 32 * s, 0, 28⟩
def ING_S_GEOM_BUF_STRIDE_4K (s : Nat) : Fld := ⟨0x00050014 + 32 * s, 0, 16⟩
def ING_S_GEOM_LINE_STRIDE_64 (s : Nat) : Fld := ⟨0x00050014 + 32 * s, 16, 16⟩
def ETH_FLOW_DST_DST_IP (f : Nat) : Fld := ⟨0x00041000 + 16 * f, 0, 32⟩
def ETH_FLOW_SRC_SRC_IP (f : Nat) : Fld := ⟨0x00041004 + 16 * f, 0, 32⟩
def ETH_FLOW_PORT_UDP_PORT (f : Nat) : Fld := ⟨0x00041008 + 16 * f, 0, 16⟩
def ETH_FLOW_PORT_MEDIA_PORT (f : Nat) : Fld := ⟨0x00041008 + 16 * f, 16, 3⟩
def ING_S_STAT_CFG_ERR (s : Nat) : Fld := ⟨0x00050400 + 4 * s, 0, 3⟩
def ING_S_STAT_RECEIVING (s : Nat) : Fld := ⟨0x00050400 + 4 * s, 3, 1⟩
def ING_S_STAT_PATH_A (s : Nat) : Fld := ⟨0x00050400 + 4 * s, 4, 1⟩
def ING_S_STAT_PATH_B (s : Nat) : Fld := ⟨0x00050400 + 4 * s, 5, 1⟩
def ING_S_STAT_STARVE_CAUSE (s : Nat) : Fld := ⟨0x00050400 + 4 * s, 8, 2⟩
def ING_S_STAT_LAST_DONE (s : Nat) : Fld := ⟨0x00050400 + 4 * s, 16, 4⟩
def ING_S_SKEW_SKEW_NS (s : Nat) : Fld := ⟨0x00050480 + 4 * s, 0, 32⟩
def ING_CNT_SEL_STREAM : Fld := ⟨0x00050500, 0, 5⟩
def ING_CNT_SEL_CLR : Fld := ⟨0x00050500, 8, 1⟩
def ING_CNT_COUNT (k : Nat) : Fld := ⟨0x00050504 + 4 * k, 0, 32⟩
def ING_LAYER_SEL_VALUE (v : Nat) (k : Nat) : Fld := ⟨0x00050580 + 8 * v + 4 * k, 0, 32⟩
def ETH_CNT_COUNT (m : Nat) (k : Nat) : Fld := ⟨0x00040200 + 64 * m + 4 * k, 0, 32⟩
def CMP_STAT_CFG_ERR : Fld := ⟨0x00060000, 0, 2⟩
def CMP_STAT_COMPOSING : Fld := ⟨0x00060000, 4, 1⟩
def CMP_REGION_ORG_X0 : Fld := ⟨0x00060010, 0, 15⟩
def CMP_REGION_ORG_Y0 : Fld := ⟨0x00060010, 16, 15⟩
def CMP_REGION_SIZE_W : Fld := ⟨0x00060014, 0, 15⟩
def CMP_REGION_SIZE_H : Fld := ⟨0x00060014, 16, 15⟩
def CMP_BG_RG_BG_R : Fld := ⟨0x00060018, 0, 16⟩
def CMP_BG_RG_BG_G : Fld := ⟨0x00060018, 16, 16⟩
def CMP_BG_B_BG_B : Fld := ⟨0x0006001C, 0, 16⟩
def CMP_DECODE_REF_WHITE : Fld := ⟨0x00060020, 0, 14⟩
def CMP_DECODE_HLG_PEAK : Fld := ⟨0x00060020, 16, 14⟩
def CMP_SDR_GAIN_SDR_GAIN : Fld := ⟨0x00060024, 0, 16⟩
def CMP_LAYER_CTRL_EN (n : Nat) : Fld := ⟨0x00060100 + 64 * n, 0, 1⟩
def CMP_LAYER_CTRL_BLEND (n : Nat) : Fld := ⟨0x00060100 + 64 * n, 1, 2⟩
def CMP_LAYER_CTRL_Z (n : Nat) : Fld := ⟨0x00060100 + 64 * n, 4, 4⟩
def CMP_LAYER_CTRL_PHASE_MASK (n : Nat) : Fld := ⟨0x00060100 + 64 * n, 8, 4⟩
def CMP_LAYER_CTRL_ALPHA (n : Nat) : Fld := ⟨0x00060100 + 64 * n, 16, 16⟩
def CMP_GL_POS_X (n : Nat) : Fld := ⟨0x00060104 + 64 * n, 0, 15⟩
def CMP_GL_POS_Y (n : Nat) : Fld := ⟨0x00060104 + 64 * n, 16, 15⟩
def CMP_GL_CROP_ORG_CX (n : Nat) : Fld := ⟨0x00060108 + 64 * n, 0, 14⟩
def CMP_GL_CROP_ORG_CY (n : Nat) : Fld := ⟨0x00060108 + 64 * n, 16, 14⟩
def CMP_GL_CROP_SIZE_CW (n : Nat) : Fld := ⟨0x0006010C + 64 * n, 0, 15⟩
def CMP_GL_CROP_SIZE_CH (n : Nat) : Fld := ⟨0x0006010C + 64 * n, 16, 15⟩
def CMP_GL_SURF_FORMAT (n : Nat) : Fld := ⟨0x00060110 + 64 * n, 0, 3⟩
def CMP_GL_SURF_TF (n : Nat) : Fld := ⟨0x00060110 + 64 * n, 4, 3⟩
def CMP_GL_SURF_PRIM (n : Nat) : Fld := ⟨0x00060110 + 64 * n, 8, 1⟩
def CMP_GL_SURF_STRIDE_64 (n : Nat) : Fld := ⟨0x00060110 + 64 * n, 16, 16⟩
def CMP_GL_SIZE_SURF_W (n : Nat) : Fld := ⟨0x00060114 + 64 * n, 0, 15⟩
def CMP_GL_SIZE_SURF_H (n : Nat) : Fld := ⟨0x00060114 + 64 * n, 16, 15⟩
def CMP_GL_BUF_BASE_4K (n : Nat) (b : Nat) : Fld := ⟨0x00060120 + 64 * n + 4 * b, 0, 28⟩
def CMP_LAYER_STAT_SHOWN_BUF (n : Nat) : Fld := ⟨0x00060600 + 4 * n, 0, 2⟩
def CMP_LAYER_STAT_PENDING (n : Nat) : Fld := ⟨0x00060600 + 4 * n, 2, 1⟩
def CMP_LAYER_STAT_CFG_ERR (n : Nat) : Fld := ⟨0x00060600 + 4 * n, 4, 3⟩
def CMP_LAYER_STAT_LATE (n : Nat) : Fld := ⟨0x00060600 + 4 * n, 8, 1⟩
def CMP_LAYER_STAT_STARVED (n : Nat) : Fld := ⟨0x00060600 + 4 * n, 9, 1⟩
def CMP_LAYER_STAT_UNDERFLOW (n : Nat) : Fld := ⟨0x00060600 + 4 * n, 10, 1⟩
def CMP_LAYER_STAT_LATE_NOW (n : Nat) : Fld := ⟨0x00060600 + 4 * n, 12, 1⟩
def CMP_LAYER_STAT_STARVED_NOW (n : Nat) : Fld := ⟨0x00060600 + 4 * n, 13, 1⟩
def CMP_LAYER_STAT_PEND_BUF (n : Nat) : Fld := ⟨0x00060600 + 4 * n, 16, 2⟩
def CMP_LAYER_STAT_PEND_FENCE (n : Nat) : Fld := ⟨0x00060600 + 4 * n, 24, 6⟩
def CMP_LAYER_STAT_PEND_NO_FENCE (n : Nat) : Fld := ⟨0x00060600 + 4 * n, 30, 1⟩
def CMP_LAYER_CNT_LATE_COUNT (n : Nat) : Fld := ⟨0x00060640 + 4 * n, 0, 16⟩
def CMP_LAYER_CNT_STARVED_COUNT (n : Nat) : Fld := ⟨0x00060640 + 4 * n, 16, 16⟩
def CMP_PEND_WAIT_WAIT (g : Nat) : Fld := ⟨0x00060680 + 4 * g, 0, 32⟩
def CMP_PEND_FRAME_FRAME (g : Nat) : Fld := ⟨0x000606C0 + 4 * g, 0, 32⟩
def CMP_FENCE_VALUE (k : Nat) : Fld := ⟨0x00060800 + 4 * k, 0, 32⟩
def CMP_UFLOW_LAST_LAYER : Fld := ⟨0x00060900, 0, 4⟩
def CMP_UFLOW_LAST_PHASE : Fld := ⟨0x00060900, 4, 2⟩
def CMP_UFLOW_LAST_LINE : Fld := ⟨0x00060900, 16, 14⟩
def CMP_UFLOW_FRAME_FRAME : Fld := ⟨0x00060904, 0, 32⟩
def CMP_CNT_COUNT (k : Nat) : Fld := ⟨0x00060A00 + 4 * k, 0, 32⟩
def SCL_COEF_C_LO (m : Nat) (w : Nat) : Fld := ⟨0x00072000 + 2560 * m + 4 * w, 0, 16⟩
def SCL_COEF_C_HI (m : Nat) (w : Nat) : Fld := ⟨0x00072000 + 2560 * m + 4 * w, 16, 16⟩
def SCL_CTRL_EN (s : Nat) : Fld := ⟨0x00070000 + 64 * s, 0, 1⟩
def SCL_CTRL_STREAM (s : Nat) : Fld := ⟨0x00070000 + 64 * s, 8, 5⟩
def SCL_CTRL_H_SET (s : Nat) : Fld := ⟨0x00070000 + 64 * s, 16, 3⟩
def SCL_CTRL_V_SET (s : Nat) : Fld := ⟨0x00070000 + 64 * s, 20, 3⟩
def SCL_CROP_ORG_CX (s : Nat) : Fld := ⟨0x00070004 + 64 * s, 0, 14⟩
def SCL_CROP_ORG_CY (s : Nat) : Fld := ⟨0x00070004 + 64 * s, 16, 13⟩
def SCL_CROP_SIZE_CW (s : Nat) : Fld := ⟨0x00070008 + 64 * s, 0, 14⟩
def SCL_CROP_SIZE_CH (s : Nat) : Fld := ⟨0x00070008 + 64 * s, 16, 13⟩
def SCL_OUT_POS_OX (s : Nat) : Fld := ⟨0x0007000C + 64 * s, 0, 15⟩
def SCL_OUT_POS_OY (s : Nat) : Fld := ⟨0x0007000C + 64 * s, 16, 15⟩
def SCL_OUT_SIZE_OW (s : Nat) : Fld := ⟨0x00070010 + 64 * s, 0, 16⟩
def SCL_OUT_SIZE_OH (s : Nat) : Fld := ⟨0x00070010 + 64 * s, 16, 16⟩
def SCL_H_STEP_H_STEP (s : Nat) : Fld := ⟨0x00070014 + 64 * s, 0, 24⟩
def SCL_V_STEP_V_STEP (s : Nat) : Fld := ⟨0x00070018 + 64 * s, 0, 24⟩
def SCL_H_INIT_H_INIT (s : Nat) : Fld := ⟨0x0007001C + 64 * s, 0, 32⟩
def SCL_V_INIT_V_INIT (s : Nat) : Fld := ⟨0x00070020 + 64 * s, 0, 32⟩
def SCL_STAT_CFG_ERR (s : Nat) : Fld := ⟨0x00070400 + 4 * s, 0, 3⟩
def SCL_STAT_ACTIVE (s : Nat) : Fld := ⟨0x00070400 + 4 * s, 4, 1⟩
def SCL_STAT_LB_LINES (s : Nat) : Fld := ⟨0x00070400 + 4 * s, 8, 8⟩
def SCL_STAT_BANKS (s : Nat) : Fld := ⟨0x00070400 + 4 * s, 16, 6⟩
def SCL_LB_REQ_BYTES (s : Nat) : Fld := ⟨0x00070420 + 4 * s, 0, 24⟩
def SCL_CNT_COUNT (s : Nat) (k : Nat) : Fld := ⟨0x00070500 + 16 * s + 4 * k, 0, 32⟩
def MAP_CTRL_TABLE : Fld := ⟨0x00080000, 0, 1⟩
def MAP_CTRL_COUNT : Fld := ⟨0x00080000, 16, 10⟩
def MAP_STAT_VALID : Fld := ⟨0x00080004, 0, 10⟩
def MAP_STAT_FIRST_BAD : Fld := ⟨0x00080004, 16, 10⟩
def MAP_STAT_FIRST_ERR : Fld := ⟨0x00080004, 26, 3⟩
def MAP_STAT_WRITABLE : Fld := ⟨0x00080004, 29, 2⟩
def MAP_STAT_BAD : Fld := ⟨0x00080004, 31, 1⟩
def MAP_PORT_RES_RES (q : Nat) : Fld := ⟨0x00080010 + 4 * q, 0, 10⟩
def MAP_Q_LEVEL_LEVEL (q : Nat) : Fld := ⟨0x00080020 + 4 * q, 0, 20⟩
def MAP_Q_PEAK_PEAK (q : Nat) : Fld := ⟨0x00080030 + 4 * q, 0, 20⟩
def MAP_ENT_BAD_BAD (k : Nat) : Fld := ⟨0x00080040 + 4 * k, 0, 32⟩
def MAP_Q_PLAN_PEAK (q : Nat) : Fld := ⟨0x00080080 + 4 * q, 0, 20⟩
def MAP_CNT_COUNT (k : Nat) : Fld := ⟨0x00080100 + 4 * k, 0, 32⟩
def MAP_WB_CTRL_EN : Fld := ⟨0x00080200, 0, 1⟩
def MAP_WB_CTRL_PHASE : Fld := ⟨0x00080200, 2, 2⟩
def MAP_WB_CTRL_DECIM : Fld := ⟨0x00080200, 4, 2⟩
def MAP_WB_CTRL_SKIP : Fld := ⟨0x00080200, 8, 8⟩
def MAP_WB_CTRL_WB_N : Fld := ⟨0x00080200, 16, 5⟩
def MAP_WB_BASE_BASE_4K : Fld := ⟨0x00080204, 0, 28⟩
def MAP_WB_BUF_BUF_STRIDE_4K : Fld := ⟨0x00080208, 0, 24⟩
def MAP_WB_LINE_LINE_STRIDE_64 : Fld := ⟨0x0008020C, 0, 16⟩
def MAP_WB_HOLD_HOLD : Fld := ⟨0x00080210, 0, 16⟩
def MAP_WB_STAT_LAST : Fld := ⟨0x00080214, 0, 4⟩
def MAP_WB_STAT_CFG_ERR : Fld := ⟨0x00080214, 4, 3⟩
def MAP_WB_STAT_ACTIVE : Fld := ⟨0x00080214, 8, 1⟩
def LNK_CTRL_EN (q : Nat) : Fld := ⟨0x000A0000 + 4096 * q, 0, 1⟩
def LNK_CTRL_RETRAIN (q : Nat) : Fld := ⟨0x000A0000 + 4096 * q, 1, 1⟩
def LNK_CTRL_MAX_WIDTH (q : Nat) : Fld := ⟨0x000A0000 + 4096 * q, 2, 2⟩
def LNK_CTRL_DEEP (q : Nat) : Fld := ⟨0x000A0000 + 4096 * q, 4, 1⟩
def LNK_POLICY_RETRAIN_EN (q : Nat) : Fld := ⟨0x000A0004 + 4096 * q, 0, 1⟩
def LNK_POLICY_DEGRADE_EN (q : Nat) : Fld := ⟨0x000A0004 + 4096 * q, 1, 1⟩
def LNK_POLICY_LIDLE_EN (q : Nat) : Fld := ⟨0x000A0004 + 4096 * q, 2, 1⟩
def LNK_POLICY_MIN_WIDTH (q : Nat) : Fld := ⟨0x000A0004 + 4096 * q, 4, 2⟩
def LNK_POLICY_DEG_ERR (q : Nat) : Fld := ⟨0x000A0004 + 4096 * q, 8, 8⟩
def LNK_STAT_STATE (q : Nat) : Fld := ⟨0x000A0008 + 4096 * q, 0, 4⟩
def LNK_STAT_WIDTH (q : Nat) : Fld := ⟨0x000A0008 + 4096 * q, 4, 2⟩
def LNK_STAT_LANES (q : Nat) : Fld := ⟨0x000A0008 + 4096 * q, 8, 4⟩
def LNK_STAT_POL_INV (q : Nat) : Fld := ⟨0x000A0008 + 4096 * q, 12, 4⟩
def LNK_STAT_CONNECTED (q : Nat) : Fld := ⟨0x000A0008 + 4096 * q, 16, 1⟩
def LNK_STAT_STORED (q : Nat) : Fld := ⟨0x000A0008 + 4096 * q, 17, 1⟩
def LNK_STAT_LAST_FAIL (q : Nat) : Fld := ⟨0x000A0008 + 4096 * q, 20, 4⟩
def LNK_STAT_RETRAINS (q : Nat) : Fld := ⟨0x000A0008 + 4096 * q, 24, 8⟩
def LNK_CNT_COUNT (q : Nat) (k : Nat) : Fld := ⟨0x000A0040 + 4096 * q + 4 * k, 0, 32⟩
def LNK_TX_FFE_PRE (q : Nat) (l : Nat) : Fld := ⟨0x000A0100 + 4096 * q + 32 * l, 0, 3⟩
def LNK_TX_FFE_POST (q : Nat) (l : Nat) : Fld := ⟨0x000A0100 + 4096 * q + 32 * l, 8, 4⟩
def LNK_TX_FFE_SWING (q : Nat) (l : Nat) : Fld := ⟨0x000A0100 + 4096 * q + 32 * l, 16, 2⟩
def LNK_SKEW_COARSE (q : Nat) (l : Nat) : Fld := ⟨0x000A0104 + 4096 * q + 32 * l, 0, 7⟩
def LNK_SKEW_FINE (q : Nat) (l : Nat) : Fld := ⟨0x000A0104 + 4096 * q + 32 * l, 8, 5⟩
def LNK_SKEW_DESKEW_PS (q : Nat) (l : Nat) : Fld := ⟨0x000A0104 + 4096 * q + 32 * l, 16, 16⟩
def LNK_TAPS_CTLE (q : Nat) (l : Nat) : Fld := ⟨0x000A0108 + 4096 * q + 32 * l, 0, 4⟩
def LNK_TAPS_DFE1 (q : Nat) (l : Nat) : Fld := ⟨0x000A0108 + 4096 * q + 32 * l, 4, 6⟩
def LNK_TAPS_DFE2 (q : Nat) (l : Nat) : Fld := ⟨0x000A0108 + 4096 * q + 32 * l, 10, 6⟩
def LNK_TAPS_DFE3 (q : Nat) (l : Nat) : Fld := ⟨0x000A0108 + 4096 * q + 32 * l, 16, 6⟩
def LNK_TAPS_DFE4 (q : Nat) (l : Nat) : Fld := ⟨0x000A0108 + 4096 * q + 32 * l, 22, 6⟩
def LNK_TAPS_HELD (q : Nat) (l : Nat) : Fld := ⟨0x000A0108 + 4096 * q + 32 * l, 28, 1⟩
def LNK_TAPS_WANDER (q : Nat) (l : Nat) : Fld := ⟨0x000A0108 + 4096 * q + 32 * l, 29, 1⟩
def LNK_EYE_HEIGHT_MV (q : Nat) (l : Nat) : Fld := ⟨0x000A010C + 4096 * q + 32 * l, 0, 8⟩
def LNK_EYE_WIDTH (q : Nat) (l : Nat) : Fld := ⟨0x000A010C + 4096 * q + 32 * l, 8, 6⟩
def LNK_LANE_CNT_COUNT (q : Nat) (l : Nat) (k : Nat) : Fld := ⟨0x000A0110 + 4096 * q + 32 * l + 4 * k, 0, 32⟩
def LNK_PAT_STAT_LOCK (q : Nat) (l : Nat) : Fld := ⟨0x000A0200 + 4096 * q + 4 * l, 0, 1⟩
def LNK_PAT_STAT_ERRORS (q : Nat) (l : Nat) : Fld := ⟨0x000A0200 + 4096 * q + 4 * l, 8, 24⟩
def LNK_ADAPT_CFG_DENS : Fld := ⟨0x000A4000, 0, 12⟩
def LNK_CAL_CFG_CAL_TRIG_C : Fld := ⟨0x000A4004, 0, 6⟩
def LNK_CAL_CFG_AUTO : Fld := ⟨0x000A4004, 8, 1⟩
def LNK_CAL_CFG_AUTO_STORE : Fld := ⟨0x000A4004, 9, 1⟩
def LNK_CAL_CFG_EYE_MIN : Fld := ⟨0x000A4004, 16, 8⟩
def LNK_CAL_STAT_STATE : Fld := ⟨0x000A4008, 0, 2⟩
def LNK_CAL_STAT_LAST_RESULT : Fld := ⟨0x000A4008, 2, 2⟩
def LNK_CAL_STAT_VALID : Fld := ⟨0x000A4008, 4, 4⟩
def LNK_CAL_STAT_T_LAST : Fld := ⟨0x000A4008, 8, 8⟩
def LNK_CAL_STAT_T_NOW : Fld := ⟨0x000A4008, 16, 8⟩
def FAB_ADDR_ADDR : Fld := ⟨0x00090000, 0, 16⟩
def FAB_ADDR_VALID : Fld := ⟨0x00090000, 16, 1⟩
def FAB_CFG_ROUTE_HOLD_US : Fld := ⟨0x00090004, 0, 16⟩
def FAB_CFG_DELAY_THR : Fld := ⟨0x00090004, 16, 16⟩
def FAB_GROUPS_MEMBER : Fld := ⟨0x00090008, 0, 13⟩
def FAB_STAT_HOLD : Fld := ⟨0x0009000C, 0, 1⟩
def FAB_STAT_HOLD_LEFT_US : Fld := ⟨0x0009000C, 16, 16⟩
def FAB_ROUTE_DEF_PORTS : Fld := ⟨0x00090010, 0, 4⟩
def FAB_ROUTE_MATCH_VALUE (k : Nat) : Fld := ⟨0x00090100 + 8 * k, 0, 16⟩
def FAB_ROUTE_MATCH_MASK (k : Nat) : Fld := ⟨0x00090100 + 8 * k, 16, 16⟩
def FAB_ROUTE_PORTS_PORTS (k : Nat) : Fld := ⟨0x00090104 + 8 * k, 0, 4⟩
def FAB_ROUTE_PORTS_EN (k : Nat) : Fld := ⟨0x00090104 + 8 * k, 31, 1⟩
def FAB_CNT_COUNT (k : Nat) : Fld := ⟨0x00090600 + 4 * k, 0, 32⟩
def FAB_CREDIT_CREDITS (q : Nat) (c : Nat) : Fld := ⟨0x00090300 + 16 * q + 4 * c, 0, 16⟩
def FAB_CLS_CNT_COUNT (q : Nat) (c : Nat) (k : Nat) : Fld := ⟨0x00090400 + 64 * q + 16 * c + 4 * k, 0, 32⟩
def LCR_CFG_TABLE : Fld := ⟨0x000B0000, 0, 1⟩
def LCR_CFG_IMG_BANK : Fld := ⟨0x000B0000, 8, 6⟩
def LCR_CFG_LEAD_US : Fld := ⟨0x000B0000, 16, 16⟩
def LCR_BRIGHT_BRIGHT : Fld := ⟨0x000B0004, 0, 16⟩
def LCR_SLICE_BASE_BASE_4K : Fld := ⟨0x000B0008, 0, 28⟩
def LCR_STAT_CFG_ERR : Fld := ⟨0x000B0010, 0, 2⟩
def LCR_STAT_VALID : Fld := ⟨0x000B0010, 4, 2⟩
def LCR_STAT_LOADING : Fld := ⟨0x000B0010, 8, 1⟩
def LCR_STAT_LOAD_SLOT : Fld := ⟨0x000B0010, 9, 1⟩
def LCR_STAT_CORRECTING : Fld := ⟨0x000B0010, 12, 1⟩
def LCR_TBL_BASE_BASE_4K (t : Nat) : Fld := ⟨0x000B0020 + 4 * t, 0, 28⟩
def LCR_TBL_GEOM_SW (t : Nat) : Fld := ⟨0x000B0028 + 4 * t, 0, 16⟩
def LCR_TBL_GEOM_SH (t : Nat) : Fld := ⟨0x000B0028 + 4 * t, 16, 16⟩
def LCR_TBL_CRC_BODY_CRC (t : Nat) : Fld := ⟨0x000B0030 + 4 * t, 0, 32⟩
def LCR_IMG_LAST_FRAME : Fld := ⟨0x000B0040, 0, 32⟩
def LCR_IMG_LAST_INFO_PHASE : Fld := ⟨0x000B0044, 0, 2⟩
def LCR_IMG_LAST_INFO_FORMAT : Fld := ⟨0x000B0044, 4, 1⟩
def LCR_IMG_LAST_INFO_SRC : Fld := ⟨0x000B0044, 16, 16⟩
def LCR_POISON_LAMP_CHAIN : Fld := ⟨0x000B0050, 0, 7⟩
def LCR_POISON_LAMP_PLACED : Fld := ⟨0x000B0050, 7, 1⟩
def LCR_POISON_LAMP_DRIVER : Fld := ⟨0x000B0050, 8, 6⟩
def LCR_POISON_LAMP_CHANNEL : Fld := ⟨0x000B0050, 16, 6⟩
def LCR_POISON_LAMP_ROW : Fld := ⟨0x000B0050, 24, 4⟩
def LCR_POISON_PIX_PIXEL : Fld := ⟨0x000B0054, 0, 19⟩
def LCR_POISON_PIX_COMP : Fld := ⟨0x000B0054, 20, 2⟩
def LCR_POISON_PIX_KIND : Fld := ⟨0x000B0054, 24, 3⟩
def LCR_CNT_COUNT (k : Nat) : Fld := ⟨0x000B0100 + 4 * k, 0, 32⟩
def LCR_CHAIN_INFO_WORDS (c : Nat) : Fld := ⟨0x000B0400 + 4 * c, 0, 14⟩
def LCR_CHAIN_INFO_DRIVERS (c : Nat) : Fld := ⟨0x000B0400 + 4 * c, 16, 7⟩
def LDR_CFG_LOAD_US : Fld := ⟨0x000C0000, 0, 16⟩
def LDR_DIAG_DIAG_IMIN : Fld := ⟨0x000C0004, 0, 16⟩
def LDR_DIAG_DIAG_TMIN : Fld := ⟨0x000C0004, 16, 16⟩
def LDR_DIAG_WIN_DIAG_CODE : Fld := ⟨0x000C0008, 0, 16⟩
def LDR_DIAG_WIN_PULSE_US : Fld := ⟨0x000C0008, 16, 3⟩
def LDR_DIAG_WIN_PHASE_MASK : Fld := ⟨0x000C0008, 20, 4⟩
def LDR_DIAG_OFFSET_OFFSET_NS : Fld := ⟨0x000C000C, 0, 32⟩
def LDR_POLICY_DERATE_EN : Fld := ⟨0x000C0010, 0, 1⟩
def LDR_POLICY_DIAG_WIN_EN : Fld := ⟨0x000C0010, 1, 1⟩
def LDR_POLICY_REMEASURE_EN : Fld := ⟨0x000C0010, 2, 1⟩
def LDR_CTRL_MEASURE : Fld := ⟨0x000C0014, 0, 1⟩
def LDR_CTRL_CNT_CLR : Fld := ⟨0x000C0014, 1, 1⟩
def LDR_STAT_CFG_ERR : Fld := ⟨0x000C0018, 0, 2⟩
def LDR_STAT_MEASURING : Fld := ⟨0x000C0018, 4, 1⟩
def LDR_STAT_DRIVING : Fld := ⟨0x000C0018, 5, 1⟩
def LDR_THERM0_KNEE_C : Fld := ⟨0x000C0020, 0, 8⟩
def LDR_THERM0_WARN_C : Fld := ⟨0x000C0020, 8, 8⟩
def LDR_THERM0_SLOPE : Fld := ⟨0x000C0020, 16, 16⟩
def LDR_THERM1_DMIN : Fld := ⟨0x000C0024, 0, 16⟩
def LDR_THERM1_STEP : Fld := ⟨0x000C0024, 16, 16⟩
def LDR_VERDICT_BASE_BASE_4K : Fld := ⟨0x000C0028, 0, 28⟩
def LDR_FADE_TARGET (g : Nat) : Fld := ⟨0x000C0100 + 4 * g, 0, 16⟩
def LDR_FADE_FRAMES (g : Nat) : Fld := ⟨0x000C0100 + 4 * g, 16, 16⟩
def LDR_FADE_NOW_F (g : Nat) : Fld := ⟨0x000C0140 + 4 * g, 0, 16⟩
def LDR_FADE_NOW_LEFT (g : Nat) : Fld := ⟨0x000C0140 + 4 * g, 16, 16⟩
def LDR_DERATE_NOW_D (g : Nat) : Fld := ⟨0x000C0180 + 4 * g, 0, 16⟩
def LDR_DERATE_NOW_TEMP (g : Nat) : Fld := ⟨0x000C0180 + 4 * g, 16, 15⟩
def LDR_DERATE_NOW_STALE (g : Nat) : Fld := ⟨0x000C0180 + 4 * g, 31, 1⟩
def LDR_CNT_COUNT (k : Nat) : Fld := ⟨0x000C0200 + 4 * k, 0, 32⟩
def LDR_CHAIN_STAT_DETECTED (c : Nat) : Fld := ⟨0x000C0400 + 4 * c, 0, 7⟩
def LDR_CHAIN_STAT_MEAS_OK (c : Nat) : Fld := ⟨0x000C0400 + 4 * c, 7, 1⟩
def LDR_CHAIN_STAT_SHORT (c : Nat) : Fld := ⟨0x000C0400 + 4 * c, 8, 1⟩
def LDR_CHAIN_STAT_SHARE_ERR (c : Nat) : Fld := ⟨0x000C0400 + 4 * c, 9, 1⟩
def LDR_CHAIN_STAT_SYM_ERR (c : Nat) : Fld := ⟨0x000C0400 + 4 * c, 10, 1⟩
def LDR_CHAIN_STAT_REPORT_ERR (c : Nat) : Fld := ⟨0x000C0400 + 4 * c, 11, 1⟩
def LDR_CHAIN_STAT_MISSED (c : Nat) : Fld := ⟨0x000C0400 + 4 * c, 12, 1⟩
def LDR_CHAIN_STAT_A0 (c : Nat) : Fld := ⟨0x000C0400 + 4 * c, 16, 16⟩
def RED_CFG_PAIR_PORT : Fld := ⟨0x00100000, 0, 2⟩
def RED_CFG_SERVE_EN : Fld := ⟨0x00100000, 4, 1⟩
def RED_CFG_PARTNER : Fld := ⟨0x00100000, 16, 16⟩
def RED_SND_STAT_STATE : Fld := ⟨0x00100004, 0, 2⟩
def RED_SND_STAT_ACTIVE : Fld := ⟨0x00100004, 4, 1⟩
def RED_SND_STAT_SERVING : Fld := ⟨0x00100004, 5, 1⟩
def RED_POLICY_PROMOTE_EN : Fld := ⟨0x00100008, 0, 1⟩
def RED_POLICY_PROMOTE_MS : Fld := ⟨0x00100008, 8, 8⟩
def RED_DIGEST_DIGEST : Fld := ⟨0x00100010, 0, 32⟩
def RED_DIGEST_FRAME_FRAME (k : Nat) : Fld := ⟨0x00100014 + 4 * k, 0, 32⟩
def RED_TILE_SRC_SRC0 : Fld := ⟨0x00100100, 0, 16⟩
def RED_TILE_SRC_SRC1 : Fld := ⟨0x00100100, 16, 16⟩
def RED_TILE_CFG_HOLD_FRAMES : Fld := ⟨0x00100104, 0, 16⟩
def RED_TILE_POLICY_SWITCH_EN : Fld := ⟨0x00100108, 0, 1⟩
def RED_TILE_POLICY_FALLBACK : Fld := ⟨0x00100108, 1, 1⟩
def RED_TILE_STAT_USING : Fld := ⟨0x0010010C, 0, 1⟩
def RED_TILE_STAT_ELIG0 : Fld := ⟨0x0010010C, 4, 1⟩
def RED_TILE_STAT_ELIG1 : Fld := ⟨0x0010010C, 5, 1⟩
def RED_TILE_STAT_OUT_OF_STEP : Fld := ⟨0x0010010C, 16, 1⟩
def RED_TILE_STAT_SWITCHED : Fld := ⟨0x0010010C, 17, 1⟩
def RED_TILE_STAT_LINK_LOSS : Fld := ⟨0x0010010C, 18, 1⟩
def RED_TILE_STAT_HOLDING : Fld := ⟨0x0010010C, 20, 1⟩
def RED_TILE_STAT_BLACK : Fld := ⟨0x0010010C, 21, 1⟩
def RED_TILE_HOLD_FRAMES : Fld := ⟨0x00100110, 0, 32⟩
def RED_TILE_MISMATCH_VALUE (k : Nat) : Fld := ⟨0x00100114 + 4 * k, 0, 32⟩
def RED_CNT_COUNT (k : Nat) : Fld := ⟨0x00100200 + 4 * k, 0, 32⟩
def MEM_CH_CTRL_IN_SERVICE (c : Nat) : Fld := ⟨0x000D0000 + 64 * c, 0, 1⟩
def MEM_CH_STAT_TRAINED (c : Nat) : Fld := ⟨0x000D0004 + 64 * c, 0, 1⟩
def MEM_CH_STAT_WIPING (c : Nat) : Fld := ⟨0x000D0004 + 64 * c, 1, 1⟩
def MEM_CH_STAT_SIZE_LOG2 (c : Nat) : Fld := ⟨0x000D0004 + 64 * c, 4, 3⟩
def MEM_CH_STAT_FAIL (c : Nat) : Fld := ⟨0x000D0004 + 64 * c, 8, 4⟩
def MEM_CH_STAT_REFRESH (c : Nat) : Fld := ⟨0x000D0004 + 64 * c, 12, 3⟩
def MEM_CH_CNT_COUNT (c : Nat) (k : Nat) : Fld := ⟨0x000D0010 + 64 * c + 4 * k, 0, 32⟩
def MEM_CFG_WAIT_THR_NS : Fld := ⟨0x000D0100, 0, 16⟩
def MEM_POLICY_SCRUB_EN : Fld := ⟨0x000D0104, 0, 1⟩
def MEM_POLICY_SP_SCRUB_EN : Fld := ⟨0x000D0104, 1, 1⟩
def MEM_SCRUB_CFG_PERIOD_H : Fld := ⟨0x000D0108, 0, 8⟩
def MEM_SCRUB_STAT_PROGRESS : Fld := ⟨0x000D010C, 0, 8⟩
def MEM_SCRUB_STAT_PASSES : Fld := ⟨0x000D010C, 16, 16⟩
def MEM_CLS_CNT_COUNT (c : Nat) (j : Nat) (k : Nat) : Fld := ⟨0x000D0200 + 64 * c + 12 * j + 4 * k, 0, 32⟩
def MEM_SP_CFG_SCR_COMPAT : Fld := ⟨0x000D0800, 0, 1⟩
def MEM_SP_CNT_COUNT (k : Nat) : Fld := ⟨0x000D0810 + 4 * k, 0, 32⟩
def MEM_BANK_OWNER_OWNER (b : Nat) : Fld := ⟨0x000D1000 + 4 * b, 0, 4⟩
def MEM_BANK_SET_OWNER (b : Nat) : Fld := ⟨0x000D1100 + 4 * b, 0, 4⟩
def MEM_BANK_SET_PWR (b : Nat) : Fld := ⟨0x000D1100 + 4 * b, 8, 2⟩
def MEM_BANK_STAT_OWNER (b : Nat) : Fld := ⟨0x000D1200 + 4 * b, 0, 4⟩
def MEM_BANK_STAT_PWR (b : Nat) : Fld := ⟨0x000D1200 + 4 * b, 8, 2⟩
def MEM_BANK_STAT_DRAINING (b : Nat) : Fld := ⟨0x000D1200 + 4 * b, 12, 1⟩
def MEM_BANK_STAT_WIPING (b : Nat) : Fld := ⟨0x000D1200 + 4 * b, 13, 1⟩
def MEM_BANK_STAT_CHANGING (b : Nat) : Fld := ⟨0x000D1200 + 4 * b, 14, 1⟩
def MEM_SP_CONFLICT_TICKS (m : Nat) : Fld := ⟨0x000D1300 + 4 * m, 0, 32⟩
def CLK_STAT_REFCLK_OK : Fld := ⟨0x00110000, 0, 1⟩
def CLK_STAT_CPLL_LOCK : Fld := ⟨0x00110000, 1, 1⟩
def CLK_STAT_MPLL_LOCK : Fld := ⟨0x00110000, 2, 1⟩
def CLK_STAT_DPLL_LOCK : Fld := ⟨0x00110000, 3, 2⟩
def CLK_STAT_REFCLK_LOST : Fld := ⟨0x00110000, 8, 1⟩
def CLK_STAT_CPLL_UNLOCK : Fld := ⟨0x00110000, 9, 1⟩
def CLK_STAT_MPLL_UNLOCK : Fld := ⟨0x00110000, 10, 1⟩
def CLK_STAT_DPLL_UNLOCK : Fld := ⟨0x00110000, 11, 2⟩
def CLK_STAT_FRX_CLK : Fld := ⟨0x00110000, 16, 4⟩
def CLK_DOM_STAT_IN_RESET : Fld := ⟨0x00110004, 1, 11⟩
def CLK_DOM_STAT_LAST_KIND : Fld := ⟨0x00110004, 16, 4⟩
def CLK_DOM_STAT_RESETS : Fld := ⟨0x00110004, 24, 8⟩
def CLK_EVT_OVF_COUNT (k : Nat) : Fld := ⟨0x00110100 + 4 * k, 0, 32⟩
def SEC_STAT_SVN : Fld := ⟨0x000E0000, 0, 7⟩
def SEC_STAT_KEY_REVOKED : Fld := ⟨0x000E0000, 8, 4⟩
def SEC_STAT_ENROLLED : Fld := ⟨0x000E0000, 12, 1⟩
def SEC_STAT_ENROL_ERR : Fld := ⟨0x000E0000, 13, 1⟩
def SEC_STAT_ACTIVE_SLOT : Fld := ⟨0x000E0000, 16, 1⟩
def SEC_STAT_CHRYS_STATE : Fld := ⟨0x000E0000, 17, 2⟩
def SEC_STAT_MOLT_PENDING : Fld := ⟨0x000E0000, 19, 1⟩
def SEC_STAT_ADVANCE_SVN : Fld := ⟨0x000E0000, 20, 1⟩
def SEC_STAT_PROV_VALID : Fld := ⟨0x000E0000, 21, 1⟩
def SEC_STAT_ID_EXHAUSTED : Fld := ⟨0x000E0000, 22, 1⟩
def SEC_SERIAL_SERIAL (k : Nat) : Fld := ⟨0x000E0008 + 4 * k, 0, 32⟩
def SEC_ID_INDEX_NEXT : Fld := ⟨0x000E0010, 0, 32⟩
def SEC_OWNER_CTRL_ENROL : Fld := ⟨0x000E0014, 0, 1⟩
def SEC_OWNER_CTRL_EPOCH : Fld := ⟨0x000E0014, 16, 16⟩
def SEC_SESS_OWNER_OWNER (k : Nat) : Fld := ⟨0x000E0018 + 4 * k, 0, 32⟩
def SEC_IMG_VALUE (s : Nat) (k : Nat) : Fld := ⟨0x000E0020 + 16 * s + 4 * k, 0, 32⟩
def SEC_OWNER_KEY_KEY (k : Nat) : Fld := ⟨0x000E0040 + 4 * k, 0, 32⟩
def SEC_CHAL_CHAL (k : Nat) : Fld := ⟨0x000E0060 + 4 * k, 0, 32⟩
def SEC_PROOF_PROOF (k : Nat) : Fld := ⟨0x000E0070 + 4 * k, 0, 32⟩
def SEC_CNT_COUNT (k : Nat) : Fld := ⟨0x000E0100 + 4 * k, 0, 32⟩
def CMD_RING_CNT_COUNT (k : Nat) : Fld := ⟨0x00010400 + 4 * k, 0, 32⟩
def ERR_CFG_ALERT_SEV : Fld := ⟨0x000F0000, 0, 2⟩
def ERR_CFG_ALERT_EN : Fld := ⟨0x000F0000, 4, 1⟩
def ERR_CFG_ALARM_SEV : Fld := ⟨0x000F0000, 8, 2⟩
def ERR_CFG_ALARM_DST : Fld := ⟨0x000F0000, 16, 16⟩
def ERR_STAT_HELD : Fld := ⟨0x000F0004, 0, 10⟩
def ERR_STAT_ALERT : Fld := ⟨0x000F0004, 16, 1⟩
def ERR_STAT_MAX_SEV : Fld := ⟨0x000F0004, 18, 2⟩
def ERR_LOG_SEQ_NEXT : Fld := ⟨0x000F0008, 0, 32⟩
def ERR_CNT_COUNT (k : Nat) : Fld := ⟨0x000F0100 + 4 * k, 0, 32⟩
def SYS_GPIO_OUT_OUT : Fld := ⟨0x00000310, 0, 16⟩
def SYS_GPIO_DIR_DIR : Fld := ⟨0x00000314, 0, 16⟩
def SYS_GPIO_IN_IN : Fld := ⟨0x00000318, 0, 16⟩
def SYS_PAD_LC_DRIVE_A : Fld := ⟨0x00000300, 0, 2⟩
def SYS_PAD_LC_SLOW_A : Fld := ⟨0x00000300, 2, 1⟩
def SYS_PAD_LC_DRIVE_B : Fld := ⟨0x00000300, 8, 2⟩
def SYS_PAD_LC_SLOW_B : Fld := ⟨0x00000300, 10, 1⟩
def SYS_AVS_CODE_MV : Fld := ⟨0x00000308, 0, 10⟩
def SYS_IO_STAT_VIO_A : Fld := ⟨0x0000030C, 0, 6⟩
def SYS_IO_STAT_VIO_B : Fld := ⟨0x0000030C, 8, 6⟩
def SYS_IO_STAT_VIO_C : Fld := ⟨0x0000030C, 16, 6⟩
def SYS_IO_STAT_RING_OFF : Fld := ⟨0x0000030C, 24, 1⟩
def SYS_IO_STAT_FLASH_SLOW : Fld := ⟨0x0000030C, 25, 1⟩
def SYS_ID_PART : Fld := ⟨0x00000000, 0, 16⟩
def SYS_ID_REV : Fld := ⟨0x00000000, 16, 8⟩
def SYS_JTAG_ID_ONE : Fld := ⟨0x00000004, 0, 1⟩
def SYS_JTAG_ID_MANUF : Fld := ⟨0x00000004, 1, 11⟩
def SYS_JTAG_ID_PART : Fld := ⟨0x00000004, 12, 16⟩
def SYS_JTAG_ID_VERSION : Fld := ⟨0x00000004, 28, 4⟩
def SYS_ORDER_GRADE : Fld := ⟨0x00000008, 0, 1⟩
def SYS_MAP_VER_MAP_VER : Fld := ⟨0x0000000C, 0, 16⟩
def SYS_UPTIME_US (k : Nat) : Fld := ⟨0x00000020 + 4 * k, 0, 32⟩
def SYS_TEMP_TEMP : Fld := ⟨0x00000028, 0, 16⟩
def SYS_SCRATCH_VALUE (k : Nat) : Fld := ⟨0x00000040 + 4 * k, 0, 32⟩
def SYS_BLOCK_EFFECT_ACTS : Fld := ⟨0x00000030, 0, 18⟩

end F

/-- Registers of the `SYS` block, base 0x0000_0000 (R456). -/
def regsSYS : List RegDecl :=
  [⟨0x00000000, [], [⟨0, 16, .ro, 16736⟩, ⟨16, 8, .ro, 176⟩]⟩  -- SYS_ID
   , ⟨0x00000004, [], [⟨0, 1, .ro, 1⟩, ⟨1, 11, .ro, 691⟩, ⟨12, 16, .ro, 16736⟩, ⟨28, 4, .ro, 1⟩]⟩  -- SYS_JTAG_ID
   , ⟨0x00000008, [], [⟨0, 1, .ro, 0⟩]⟩  -- SYS_ORDER
   , ⟨0x0000000C, [], [⟨0, 16, .ro, 1⟩]⟩  -- SYS_MAP_VER
   , ⟨0x00000020, [(0, 1, 4)], [⟨0, 32, .ro, 0⟩]⟩  -- SYS_UPTIME
   , ⟨0x00000028, [], [⟨0, 16, .ro, 0⟩]⟩  -- SYS_TEMP
   , ⟨0x00000030, [], [⟨0, 18, .ro, 0⟩]⟩  -- SYS_BLOCK_EFFECT
   , ⟨0x00000040, [(0, 7, 4)], [⟨0, 32, .rw, 0⟩]⟩  -- SYS_SCRATCH
   , ⟨0x00000100, [], [⟨0, 2, .ro, 0⟩, ⟨4, 2, .ro, 0⟩, ⟨8, 2, .ro, 0⟩, ⟨12, 2, .rwNoRole, 0⟩]⟩  -- SYS_ROLE
   , ⟨0x00000110, [], [⟨0, 3, .ro, 0⟩, ⟨3, 1, .ro, 0⟩, ⟨4, 3, .ro, 0⟩, ⟨8, 4, .ro, 0⟩]⟩  -- SYS_MODE
   , ⟨0x00000114, [], [⟨0, 3, .rw, 0⟩]⟩  -- SYS_MODE_REQ
   , ⟨0x00000120, [], [⟨0, 3, .ro, 0⟩, ⟨8, 1, .ro, 0⟩, ⟨9, 1, .ro, 0⟩, ⟨10, 1, .ro, 0⟩]⟩  -- SYS_INSTAR
   , ⟨0x00000130, [], [⟨0, 1, .ro, 0⟩, ⟨1, 3, .ro, 0⟩, ⟨4, 1, .ro, 0⟩, ⟨5, 1, .ro, 0⟩, ⟨8, 4, .ro, 0⟩, ⟨16, 16, .ro, 0⟩]⟩  -- SYS_BOOT
   , ⟨0x00000140, [], [⟨0, 12, .ro, 0⟩, ⟨16, 12, .ro, 0⟩, ⟨31, 1, .ro, 0⟩]⟩  -- SYS_WIPE
   , ⟨0x00000200, [(0, 63, 4)], [⟨0, 32, .ro, 0⟩]⟩  -- SYS_WIPE_MAP
   , ⟨0x00000300, [], [⟨0, 2, .rw, 2⟩, ⟨2, 1, .rw, 0⟩, ⟨8, 2, .rw, 2⟩, ⟨10, 1, .rw, 0⟩]⟩  -- SYS_PAD_LC
   , ⟨0x00000308, [], [⟨0, 10, .ro, 0⟩]⟩  -- SYS_AVS
   , ⟨0x0000030C, [], [⟨0, 6, .ro, 0⟩, ⟨8, 6, .ro, 0⟩, ⟨16, 6, .ro, 0⟩, ⟨24, 1, .ro, 0⟩, ⟨25, 1, .ro, 0⟩]⟩  -- SYS_IO_STAT
   , ⟨0x00000310, [], [⟨0, 16, .rw, 0⟩]⟩  -- SYS_GPIO_OUT
   , ⟨0x00000314, [], [⟨0, 16, .rw, 0⟩]⟩  -- SYS_GPIO_DIR
   , ⟨0x00000318, [], [⟨0, 16, .ro, 0⟩]⟩  -- SYS_GPIO_IN
   ]

/-- Registers of the `CMD` block, base 0x0001_0000 (R456). -/
def regsCMD : List RegDecl :=
  [⟨0x00010000, [], [⟨0, 16, .rw, 51570⟩, ⟨16, 1, .rw, 1⟩, ⟨17, 1, .rw, 1⟩]⟩  -- CMD_CFG
   , ⟨0x00010004, [], [⟨0, 7, .ro, 0⟩]⟩  -- CMD_SESS_COUNT
   , ⟨0x00010040, [(0, 63, 4)], [⟨0, 16, .ro, 0⟩, ⟨16, 2, .ro, 0⟩, ⟨24, 6, .ro, 0⟩, ⟨31, 1, .ro, 0⟩]⟩  -- CMD_SESS
   , ⟨0x00010140, [(0, 63, 4)], [⟨0, 32, .ro, 0⟩]⟩  -- CMD_SESS_EXP
   , ⟨0x00010240, [(0, 15, 4)], [⟨0, 8, .ro, 0⟩, ⟨8, 8, .ro, 0⟩, ⟨16, 8, .ro, 0⟩, ⟨24, 6, .ro, 0⟩, ⟨30, 2, .ro, 0⟩]⟩  -- CMD_OP_STAT
   , ⟨0x00010280, [(0, 15, 4)], [⟨0, 13, .ro, 0⟩, ⟨16, 16, .ro, 0⟩]⟩  -- CMD_OP_VALID
   , ⟨0x00010300, [(0, 7, 4)], [⟨0, 32, .ro, 0⟩]⟩  -- CMD_CNT
   , ⟨0x00010400, [(0, 6, 4)], [⟨0, 32, .ro, 0⟩]⟩  -- CMD_RING_CNT
   ]

/-- Registers of the `TIME` block, base 0x0002_0000 (R456). -/
def regsTIME : List RegDecl :=
  [⟨0x00020000, [], [⟨0, 3, .rwNotLive, 0⟩, ⟨4, 2, .rw, 0⟩, ⟨8, 2, .rw, 0⟩, ⟨12, 4, .rw, 0⟩]⟩  -- TIME_SRC
   , ⟨0x00020004, [], [⟨0, 2, .ro, 0⟩, ⟨2, 3, .ro, 0⟩, ⟨8, 8, .ro, 0⟩, ⟨16, 2, .ro, 0⟩, ⟨18, 2, .ro, 0⟩, ⟨20, 4, .ro, 0⟩, ⟨24, 8, .ro, 0⟩]⟩  -- TIME_STAT
   , ⟨0x00020008, [], [⟨0, 1, .wo, 0⟩, ⟨1, 1, .wo, 0⟩, ⟨2, 1, .wo, 0⟩, ⟨3, 1, .wo, 0⟩, ⟨4, 1, .wo, 0⟩, ⟨8, 1, .rw, 0⟩]⟩  -- TIME_CTRL
   , ⟨0x0002000C, [], [⟨0, 16, .ro, 0⟩]⟩  -- TIME_ROOT
   , ⟨0x00020010, [(0, 6, 4)], [⟨0, 32, .ro, 0⟩]⟩  -- TIME_SNAP
   , ⟨0x00020030, [(0, 2, 4)], [⟨0, 32, .rw, 0⟩]⟩  -- TIME_SET
   , ⟨0x0002003C, [], [⟨0, 32, .rw, 0⟩]⟩  -- TIME_ADJ
   , ⟨0x00020040, [], [⟨0, 32, .rwServoHost, 0⟩]⟩  -- TIME_RATE
   , ⟨0x00020044, [], [⟨0, 32, .ro, 0⟩]⟩  -- TIME_OFFSET
   , ⟨0x00020048, [], [⟨0, 32, .ro, 0⟩]⟩  -- TIME_OFFSET_SEQ
   , ⟨0x00020050, [], [⟨0, 4, .rw, 2⟩, ⟨4, 4, .rw, 6⟩, ⟨8, 8, .rw, 16⟩, ⟨16, 16, .rw, 200⟩]⟩  -- TIME_SERVO
   , ⟨0x00020054, [], [⟨0, 16, .rw, 1000⟩, ⟨16, 16, .rw, 1000⟩]⟩  -- TIME_BOUNDS
   , ⟨0x00020058, [], [⟨0, 1, .rw, 0⟩, ⟨1, 1, .rw, 0⟩, ⟨2, 1, .rw, 0⟩]⟩  -- TIME_POLICY
   , ⟨0x0002005C, [], [⟨0, 10, .rw, 250⟩, ⟨16, 10, .rw, 1000⟩]⟩  -- TIME_CELL_CFG
   , ⟨0x00020060, [], [⟨0, 10, .rw, 100⟩, ⟨10, 10, .rw, 100⟩, ⟨20, 4, .rw, 1⟩, ⟨24, 4, .rw, 1⟩]⟩  -- TIME_IO
   , ⟨0x00020064, [], [⟨0, 8, .rw, 127⟩, ⟨8, 2, .rw, 3⟩, ⟨12, 4, .rw, 1⟩]⟩  -- TIME_PTP_CFG
   , ⟨0x00020068, [(0, 2, 4)], [⟨0, 32, .ro, 0⟩]⟩  -- TIME_PTP_MASTER
   , ⟨0x00020074, [], [⟨0, 16, .ro, 0⟩, ⟨16, 1, .ro, 0⟩]⟩  -- TIME_UTC_OFFSET
   , ⟨0x00020080, [(0, 7, 4)], [⟨0, 32, .ro, 0⟩]⟩  -- TIME_CNT
   , ⟨0x00020100, [(0, 3, 4)], [⟨0, 32, .ro, 0⟩]⟩  -- TIME_LINK_DELAY
   , ⟨0x00020110, [(0, 3, 4)], [⟨0, 32, .rw, 0⟩]⟩  -- TIME_ASYM
   , ⟨0x00020200, [], [⟨0, 32, .sh, 1001⟩]⟩  -- TIME_FRAME_NUM
   , ⟨0x00020204, [], [⟨0, 32, .sh, 60000⟩]⟩  -- TIME_FRAME_DEN
   , ⟨0x00020208, [], [⟨0, 32, .sh, 0⟩]⟩  -- TIME_FRAME_OFFSET
   , ⟨0x0002020C, [], [⟨0, 3, .sh, 1⟩, ⟨4, 2, .sh, 2⟩]⟩  -- TIME_PHASE_CFG
   , ⟨0x00020210, [(0, 3, 4)], [⟨0, 32, .sh, 0⟩]⟩  -- TIME_PHASE_START
   , ⟨0x00020220, [(0, 3, 4)], [⟨0, 32, .sh, 0⟩]⟩  -- TIME_LIT
   , ⟨0x00020230, [], [⟨0, 32, .sh, 0⟩]⟩  -- TIME_LATCH_OFFSET
   ]

/-- Registers of the `TXN` block, base 0x0003_0000 (R456). -/
def regsTXN : List RegDecl :=
  [⟨0x00030000, [], [⟨0, 10, .ro, 0⟩, ⟨16, 5, .ro, 0⟩, ⟨24, 1, .ro, 0⟩, ⟨25, 1, .ro, 0⟩]⟩  -- TXN_STAT
   , ⟨0x00030040, [(0, 15, 4)], [⟨0, 16, .ro, 0⟩, ⟨16, 6, .ro, 0⟩, ⟨24, 3, .ro, 0⟩, ⟨28, 2, .ro, 0⟩]⟩  -- TXN_PEND
   , ⟨0x00030080, [(0, 15, 4)], [⟨0, 32, .ro, 0⟩]⟩  -- TXN_PEND_FRAME
   , ⟨0x000300C0, [], [⟨0, 16, .ro, 0⟩, ⟨16, 8, .ro, 0⟩]⟩  -- TXN_SCHED_LAST
   , ⟨0x00030100, [(0, 7, 4)], [⟨0, 32, .ro, 0⟩]⟩  -- TXN_CNT
   ]

/-- Registers of the `ETH` block, base 0x0004_0000 (R456). -/
def regsETH : List RegDecl :=
  [⟨0x00040000, [], [⟨0, 2, .rw, 1⟩, ⟨8, 8, .rw, 0⟩, ⟨16, 8, .rw, 0⟩]⟩  -- ETH_MODE
   , ⟨0x00040004, [], [⟨0, 2, .rw, 0⟩, ⟨2, 2, .rw, 0⟩, ⟨4, 2, .rw, 0⟩, ⟨6, 2, .rw, 0⟩, ⟨8, 2, .rw, 0⟩, ⟨10, 2, .rw, 0⟩, ⟨12, 2, .rw, 0⟩, ⟨14, 2, .rw, 0⟩]⟩  -- ETH_FEC
   , ⟨0x00040010, [(0, 7, 4)], [⟨0, 1, .ro, 0⟩, ⟨1, 1, .ro, 0⟩, ⟨2, 1, .ro, 0⟩, ⟨8, 8, .ro, 0⟩]⟩  -- ETH_PORT_STAT
   , ⟨0x00040040, [(0, 7, 8), (0, 1, 4)], [⟨0, 32, .rw, 0⟩]⟩  -- ETH_MAC
   , ⟨0x00040080, [(0, 7, 4)], [⟨0, 32, .rw, 0⟩]⟩  -- ETH_IP
   , ⟨0x000400A0, [(0, 7, 4)], [⟨0, 12, .rw, 0⟩, ⟨15, 1, .rw, 0⟩]⟩  -- ETH_VLAN
   , ⟨0x000400C0, [(0, 7, 4)], [⟨0, 16, .rw, 0⟩, ⟨16, 16, .rw, 0⟩]⟩  -- ETH_TS_EXT
   , ⟨0x000400E0, [], [⟨0, 1, .rw, 0⟩]⟩  -- ETH_BRIDGE
   , ⟨0x000400F0, [(0, 3, 4)], [⟨0, 32, .rw, 0⟩]⟩  -- ETH_CMD_GROUP
   , ⟨0x00040200, [(0, 7, 64), (0, 11, 4)], [⟨0, 32, .ro, 0⟩]⟩  -- ETH_CNT
   , ⟨0x00041000, [(0, 63, 16)], [⟨0, 32, .sh, 0⟩]⟩  -- ETH_FLOW_DST
   , ⟨0x00041004, [(0, 63, 16)], [⟨0, 32, .sh, 0⟩]⟩  -- ETH_FLOW_SRC
   , ⟨0x00041008, [(0, 63, 16)], [⟨0, 16, .sh, 0⟩, ⟨16, 3, .sh, 0⟩]⟩  -- ETH_FLOW_PORT
   ]

/-- Registers of the `ING` block, base 0x0005_0000 (R456). -/
def regsING : List RegDecl :=
  [⟨0x00050000, [(0, 31, 32)], [⟨0, 1, .sh, 0⟩, ⟨1, 1, .sh, 0⟩, ⟨2, 1, .sh, 0⟩, ⟨3, 1, .sh, 0⟩, ⟨4, 2, .sh, 0⟩, ⟨6, 2, .sh, 0⟩, ⟨8, 2, .sh, 0⟩, ⟨10, 2, .sh, 0⟩, ⟨12, 1, .sh, 0⟩, ⟨16, 5, .sh, 4⟩, ⟨24, 7, .sh, 96⟩]⟩  -- ING_S_CTRL
   , ⟨0x00050004, [(0, 31, 32)], [⟨0, 14, .sh, 1920⟩, ⟨16, 13, .sh, 1080⟩]⟩  -- ING_S_DIM
   , ⟨0x00050008, [(0, 31, 32)], [⟨0, 20, .sh, 25000⟩, ⟨20, 8, .sh, 0⟩]⟩  -- ING_S_TIMING
   , ⟨0x0005000C, [(0, 31, 32)], [⟨0, 32, .sh, 0⟩]⟩  -- ING_S_SSRC
   , ⟨0x00050010, [(0, 31, 32)], [⟨0, 28, .sh, 0⟩]⟩  -- ING_S_RING
   , ⟨0x00050014, [(0, 31, 32)], [⟨0, 16, .sh, 0⟩, ⟨16, 16, .sh, 0⟩]⟩  -- ING_S_GEOM
   , ⟨0x00050400, [(0, 31, 4)], [⟨0, 3, .ro, 0⟩, ⟨3, 1, .ro, 0⟩, ⟨4, 1, .ro, 0⟩, ⟨5, 1, .ro, 0⟩, ⟨8, 2, .ro, 0⟩, ⟨16, 4, .ro, 0⟩]⟩  -- ING_S_STAT
   , ⟨0x00050480, [(0, 31, 4)], [⟨0, 32, .ro, 0⟩]⟩  -- ING_S_SKEW
   , ⟨0x00050500, [], [⟨0, 5, .rw, 0⟩, ⟨8, 1, .wo, 0⟩]⟩  -- ING_CNT_SEL
   , ⟨0x00050504, [(0, 13, 4)], [⟨0, 32, .ro, 0⟩]⟩  -- ING_CNT
   , ⟨0x00050580, [(0, 5, 8), (0, 1, 4)], [⟨0, 32, .ro, 0⟩]⟩  -- ING_LAYER_SEL
   ]

/-- Registers of the `CMP` block, base 0x0006_0000 (R456). -/
def regsCMP : List RegDecl :=
  [⟨0x00060000, [], [⟨0, 2, .ro, 0⟩, ⟨4, 1, .ro, 0⟩]⟩  -- CMP_STAT
   , ⟨0x00060010, [], [⟨0, 15, .sh, 0⟩, ⟨16, 15, .sh, 0⟩]⟩  -- CMP_REGION_ORG
   , ⟨0x00060014, [], [⟨0, 15, .sh, 1920⟩, ⟨16, 15, .sh, 1080⟩]⟩  -- CMP_REGION_SIZE
   , ⟨0x00060018, [], [⟨0, 16, .sh, 0⟩, ⟨16, 16, .sh, 0⟩]⟩  -- CMP_BG_RG
   , ⟨0x0006001C, [], [⟨0, 16, .sh, 0⟩]⟩  -- CMP_BG_B
   , ⟨0x00060020, [], [⟨0, 14, .sh, 1000⟩, ⟨16, 14, .sh, 1000⟩]⟩  -- CMP_DECODE
   , ⟨0x00060024, [], [⟨0, 16, .sh, 15360⟩]⟩  -- CMP_SDR_GAIN
   , ⟨0x00060100, [(0, 15, 64)], [⟨0, 1, .sh, 0⟩, ⟨1, 2, .sh, 0⟩, ⟨4, 4, .sh, 0⟩, ⟨8, 4, .sh, 1⟩, ⟨16, 16, .sh, 15360⟩]⟩  -- CMP_LAYER_CTRL
   , ⟨0x00060104, [(6, 15, 64)], [⟨0, 15, .sh, 0⟩, ⟨16, 15, .sh, 0⟩]⟩  -- CMP_GL_POS
   , ⟨0x00060108, [(6, 15, 64)], [⟨0, 14, .sh, 0⟩, ⟨16, 14, .sh, 0⟩]⟩  -- CMP_GL_CROP_ORG
   , ⟨0x0006010C, [(6, 15, 64)], [⟨0, 15, .sh, 0⟩, ⟨16, 15, .sh, 0⟩]⟩  -- CMP_GL_CROP_SIZE
   , ⟨0x00060110, [(6, 15, 64)], [⟨0, 3, .sh, 0⟩, ⟨4, 3, .sh, 1⟩, ⟨8, 1, .sh, 0⟩, ⟨16, 16, .sh, 0⟩]⟩  -- CMP_GL_SURF
   , ⟨0x00060114, [(6, 15, 64)], [⟨0, 15, .sh, 0⟩, ⟨16, 15, .sh, 0⟩]⟩  -- CMP_GL_SIZE
   , ⟨0x00060120, [(6, 15, 64), (0, 3, 4)], [⟨0, 28, .sh, 0⟩]⟩  -- CMP_GL_BUF
   , ⟨0x00060600, [(0, 15, 4)], [⟨0, 2, .ro, 0⟩, ⟨2, 1, .ro, 0⟩, ⟨4, 3, .ro, 0⟩, ⟨8, 1, .w1c, 0⟩, ⟨9, 1, .w1c, 0⟩, ⟨10, 1, .w1c, 0⟩, ⟨12, 1, .ro, 0⟩, ⟨13, 1, .ro, 0⟩, ⟨16, 2, .ro, 0⟩, ⟨24, 6, .ro, 0⟩, ⟨30, 1, .ro, 0⟩]⟩  -- CMP_LAYER_STAT
   , ⟨0x00060640, [(0, 15, 4)], [⟨0, 16, .ro, 0⟩, ⟨16, 16, .ro, 0⟩]⟩  -- CMP_LAYER_CNT
   , ⟨0x00060680, [(0, 9, 4)], [⟨0, 32, .ro, 0⟩]⟩  -- CMP_PEND_WAIT
   , ⟨0x000606C0, [(0, 9, 4)], [⟨0, 32, .ro, 0⟩]⟩  -- CMP_PEND_FRAME
   , ⟨0x00060800, [(0, 63, 4)], [⟨0, 32, .ro, 0⟩]⟩  -- CMP_FENCE
   , ⟨0x00060900, [], [⟨0, 4, .ro, 0⟩, ⟨4, 2, .ro, 0⟩, ⟨16, 14, .ro, 0⟩]⟩  -- CMP_UFLOW_LAST
   , ⟨0x00060904, [], [⟨0, 32, .ro, 0⟩]⟩  -- CMP_UFLOW_FRAME
   , ⟨0x00060A00, [(0, 7, 4)], [⟨0, 32, .ro, 0⟩]⟩  -- CMP_CNT
   ]

/-- Registers of the `SCL` block, base 0x0007_0000 (R456). -/
def regsSCL : List RegDecl :=
  [⟨0x00070000, [(0, 5, 64)], [⟨0, 1, .sh, 0⟩, ⟨8, 5, .sh, 0⟩, ⟨16, 3, .sh, 0⟩, ⟨20, 3, .sh, 0⟩]⟩  -- SCL_CTRL
   , ⟨0x00070004, [(0, 5, 64)], [⟨0, 14, .sh, 0⟩, ⟨16, 13, .sh, 0⟩]⟩  -- SCL_CROP_ORG
   , ⟨0x00070008, [(0, 5, 64)], [⟨0, 14, .sh, 1920⟩, ⟨16, 13, .sh, 1080⟩]⟩  -- SCL_CROP_SIZE
   , ⟨0x0007000C, [(0, 5, 64)], [⟨0, 15, .sh, 0⟩, ⟨16, 15, .sh, 0⟩]⟩  -- SCL_OUT_POS
   , ⟨0x00070010, [(0, 5, 64)], [⟨0, 16, .sh, 1920⟩, ⟨16, 16, .sh, 1080⟩]⟩  -- SCL_OUT_SIZE
   , ⟨0x00070014, [(0, 5, 64)], [⟨0, 24, .sh, 1048576⟩]⟩  -- SCL_H_STEP
   , ⟨0x00070018, [(0, 5, 64)], [⟨0, 24, .sh, 1048576⟩]⟩  -- SCL_V_STEP
   , ⟨0x0007001C, [(0, 5, 64)], [⟨0, 32, .sh, 0⟩]⟩  -- SCL_H_INIT
   , ⟨0x00070020, [(0, 5, 64)], [⟨0, 32, .sh, 0⟩]⟩  -- SCL_V_INIT
   , ⟨0x00070400, [(0, 5, 4)], [⟨0, 3, .ro, 0⟩, ⟨4, 1, .ro, 0⟩, ⟨8, 8, .ro, 10⟩, ⟨16, 6, .ro, 0⟩]⟩  -- SCL_STAT
   , ⟨0x00070420, [(0, 5, 4)], [⟨0, 24, .ro, 115200⟩]⟩  -- SCL_LB_REQ
   , ⟨0x00070500, [(0, 5, 16), (0, 3, 4)], [⟨0, 32, .ro, 0⟩]⟩  -- SCL_CNT
   , ⟨0x00072000, [(0, 7, 2560), (0, 639, 4)], [⟨0, 16, .sh, 0⟩, ⟨16, 16, .sh, 0⟩]⟩  -- SCL_COEF
   ]

/-- Registers of the `MAP` block, base 0x0008_0000 (R456). -/
def regsMAP : List RegDecl :=
  [⟨0x00080000, [], [⟨0, 1, .sh, 0⟩, ⟨16, 10, .sh, 0⟩]⟩  -- MAP_CTRL
   , ⟨0x00080004, [], [⟨0, 10, .ro, 0⟩, ⟨16, 10, .ro, 0⟩, ⟨26, 3, .ro, 0⟩, ⟨29, 2, .ro, 1⟩, ⟨31, 1, .ro, 0⟩]⟩  -- MAP_STAT
   , ⟨0x00080010, [(0, 3, 4)], [⟨0, 10, .sh, 0⟩]⟩  -- MAP_PORT_RES
   , ⟨0x00080020, [(0, 3, 4)], [⟨0, 20, .ro, 0⟩]⟩  -- MAP_Q_LEVEL
   , ⟨0x00080030, [(0, 3, 4)], [⟨0, 20, .rc, 0⟩]⟩  -- MAP_Q_PEAK
   , ⟨0x00080040, [(0, 15, 4)], [⟨0, 32, .ro, 0⟩]⟩  -- MAP_ENT_BAD
   , ⟨0x00080080, [(0, 3, 4)], [⟨0, 20, .ro, 0⟩]⟩  -- MAP_Q_PLAN
   , ⟨0x00080100, [(0, 7, 4)], [⟨0, 32, .ro, 0⟩]⟩  -- MAP_CNT
   , ⟨0x00080200, [], [⟨0, 1, .sh, 0⟩, ⟨2, 2, .sh, 0⟩, ⟨4, 2, .sh, 0⟩, ⟨8, 8, .sh, 0⟩, ⟨16, 5, .sh, 4⟩]⟩  -- MAP_WB_CTRL
   , ⟨0x00080204, [], [⟨0, 28, .sh, 0⟩]⟩  -- MAP_WB_BASE
   , ⟨0x00080208, [], [⟨0, 24, .sh, 0⟩]⟩  -- MAP_WB_BUF
   , ⟨0x0008020C, [], [⟨0, 16, .sh, 0⟩]⟩  -- MAP_WB_LINE
   , ⟨0x00080210, [], [⟨0, 16, .rw, 0⟩]⟩  -- MAP_WB_HOLD
   , ⟨0x00080214, [], [⟨0, 4, .ro, 0⟩, ⟨4, 3, .ro, 0⟩, ⟨8, 1, .ro, 0⟩]⟩  -- MAP_WB_STAT
   ]

/-- Registers of the `FAB` block, base 0x0009_0000 (R456). -/
def regsFAB : List RegDecl :=
  [⟨0x00090000, [], [⟨0, 16, .ro, 0⟩, ⟨16, 1, .ro, 0⟩]⟩  -- FAB_ADDR
   , ⟨0x00090004, [], [⟨0, 16, .rw, 5000⟩, ⟨16, 16, .rw, 1500⟩]⟩  -- FAB_CFG
   , ⟨0x00090008, [], [⟨0, 13, .rw, 0⟩]⟩  -- FAB_GROUPS
   , ⟨0x0009000C, [], [⟨0, 1, .ro, 0⟩, ⟨16, 16, .ro, 0⟩]⟩  -- FAB_STAT
   , ⟨0x00090010, [], [⟨0, 4, .ro, 0⟩]⟩  -- FAB_ROUTE_DEF
   , ⟨0x00090100, [(0, 63, 8)], [⟨0, 16, .ro, 0⟩, ⟨16, 16, .ro, 0⟩]⟩  -- FAB_ROUTE_MATCH
   , ⟨0x00090104, [(0, 63, 8)], [⟨0, 4, .ro, 0⟩, ⟨31, 1, .ro, 0⟩]⟩  -- FAB_ROUTE_PORTS
   , ⟨0x00090300, [(0, 3, 16), (0, 3, 4)], [⟨0, 16, .ro, 0⟩]⟩  -- FAB_CREDIT
   , ⟨0x00090400, [(0, 3, 64), (0, 3, 16), (0, 3, 4)], [⟨0, 32, .ro, 0⟩]⟩  -- FAB_CLS_CNT
   , ⟨0x00090600, [(0, 13, 4)], [⟨0, 32, .ro, 0⟩]⟩  -- FAB_CNT
   ]

/-- Registers of the `LNK` block, base 0x000A_0000 (R456). -/
def regsLNK : List RegDecl :=
  [⟨0x000A0000, [(0, 3, 4096)], [⟨0, 1, .rw, 1⟩, ⟨1, 1, .wo, 0⟩, ⟨2, 2, .rw, 0⟩, ⟨4, 1, .rw, 0⟩]⟩  -- LNK_CTRL
   , ⟨0x000A0004, [(0, 3, 4096)], [⟨0, 1, .rw, 0⟩, ⟨1, 1, .rw, 0⟩, ⟨2, 1, .rw, 0⟩, ⟨4, 2, .rw, 0⟩, ⟨8, 8, .rw, 16⟩]⟩  -- LNK_POLICY
   , ⟨0x000A0008, [(0, 3, 4096)], [⟨0, 4, .ro, 0⟩, ⟨4, 2, .ro, 0⟩, ⟨8, 4, .ro, 0⟩, ⟨12, 4, .ro, 0⟩, ⟨16, 1, .ro, 0⟩, ⟨17, 1, .ro, 0⟩, ⟨20, 4, .ro, 0⟩, ⟨24, 8, .ro, 0⟩]⟩  -- LNK_STAT
   , ⟨0x000A0040, [(0, 3, 4096), (0, 11, 4)], [⟨0, 32, .ro, 0⟩]⟩  -- LNK_CNT
   , ⟨0x000A0100, [(0, 3, 4096), (0, 4, 32)], [⟨0, 3, .rw, 0⟩, ⟨8, 4, .rw, 4⟩, ⟨16, 2, .rw, 1⟩]⟩  -- LNK_TX_FFE
   , ⟨0x000A0104, [(0, 3, 4096), (0, 3, 32)], [⟨0, 7, .ro, 0⟩, ⟨8, 5, .ro, 0⟩, ⟨16, 16, .ro, 0⟩]⟩  -- LNK_SKEW
   , ⟨0x000A0108, [(0, 3, 4096), (0, 3, 32)], [⟨0, 4, .ro, 8⟩, ⟨4, 6, .ro, 0⟩, ⟨10, 6, .ro, 0⟩, ⟨16, 6, .ro, 0⟩, ⟨22, 6, .ro, 0⟩, ⟨28, 1, .ro, 0⟩, ⟨29, 1, .ro, 0⟩]⟩  -- LNK_TAPS
   , ⟨0x000A010C, [(0, 3, 4096), (0, 3, 32)], [⟨0, 8, .ro, 0⟩, ⟨8, 6, .ro, 0⟩]⟩  -- LNK_EYE
   , ⟨0x000A0110, [(0, 3, 4096), (0, 3, 32), (0, 3, 4)], [⟨0, 32, .ro, 0⟩]⟩  -- LNK_LANE_CNT
   , ⟨0x000A0200, [(0, 3, 4096), (0, 3, 4)], [⟨0, 1, .ro, 0⟩, ⟨8, 24, .ro, 0⟩]⟩  -- LNK_PAT_STAT
   , ⟨0x000A4000, [], [⟨0, 12, .rw, 1229⟩]⟩  -- LNK_ADAPT_CFG
   , ⟨0x000A4004, [], [⟨0, 6, .rw, 8⟩, ⟨8, 1, .rw, 0⟩, ⟨9, 1, .rw, 0⟩, ⟨16, 8, .rw, 40⟩]⟩  -- LNK_CAL_CFG
   , ⟨0x000A4008, [], [⟨0, 2, .ro, 0⟩, ⟨2, 2, .ro, 0⟩, ⟨4, 4, .ro, 0⟩, ⟨8, 8, .ro, 0⟩, ⟨16, 8, .ro, 0⟩]⟩  -- LNK_CAL_STAT
   ]

/-- Registers of the `LCR` block, base 0x000B_0000 (R456). -/
def regsLCR : List RegDecl :=
  [⟨0x000B0000, [], [⟨0, 1, .sh, 0⟩, ⟨8, 6, .sh, 0⟩, ⟨16, 16, .sh, 2500⟩]⟩  -- LCR_CFG
   , ⟨0x000B0004, [], [⟨0, 16, .sh, 15360⟩]⟩  -- LCR_BRIGHT
   , ⟨0x000B0008, [], [⟨0, 28, .sh, 0⟩]⟩  -- LCR_SLICE_BASE
   , ⟨0x000B0010, [], [⟨0, 2, .ro, 1⟩, ⟨4, 2, .ro, 0⟩, ⟨8, 1, .ro, 0⟩, ⟨9, 1, .ro, 0⟩, ⟨12, 1, .ro, 0⟩]⟩  -- LCR_STAT
   , ⟨0x000B0020, [(0, 1, 4)], [⟨0, 28, .rwTableIdle, 0⟩]⟩  -- LCR_TBL_BASE
   , ⟨0x000B0028, [(0, 1, 4)], [⟨0, 16, .ro, 0⟩, ⟨16, 16, .ro, 0⟩]⟩  -- LCR_TBL_GEOM
   , ⟨0x000B0030, [(0, 1, 4)], [⟨0, 32, .ro, 0⟩]⟩  -- LCR_TBL_CRC
   , ⟨0x000B0040, [], [⟨0, 32, .ro, 0⟩]⟩  -- LCR_IMG_LAST
   , ⟨0x000B0044, [], [⟨0, 2, .ro, 0⟩, ⟨4, 1, .ro, 0⟩, ⟨16, 16, .ro, 0⟩]⟩  -- LCR_IMG_LAST_INFO
   , ⟨0x000B0050, [], [⟨0, 7, .ro, 0⟩, ⟨7, 1, .ro, 0⟩, ⟨8, 6, .ro, 0⟩, ⟨16, 6, .ro, 0⟩, ⟨24, 4, .ro, 0⟩]⟩  -- LCR_POISON_LAMP
   , ⟨0x000B0054, [], [⟨0, 19, .ro, 0⟩, ⟨20, 2, .ro, 0⟩, ⟨24, 3, .ro, 0⟩]⟩  -- LCR_POISON_PIX
   , ⟨0x000B0100, [(0, 11, 4)], [⟨0, 32, .ro, 0⟩]⟩  -- LCR_CNT
   , ⟨0x000B0400, [(0, 127, 4)], [⟨0, 14, .ro, 0⟩, ⟨16, 7, .ro, 0⟩]⟩  -- LCR_CHAIN_INFO
   ]

/-- Registers of the `LDR` block, base 0x000C_0000 (R456). -/
def regsLDR : List RegDecl :=
  [⟨0x000C0000, [], [⟨0, 16, .sh, 1100⟩]⟩  -- LDR_CFG
   , ⟨0x000C0004, [], [⟨0, 16, .sh, 512⟩, ⟨16, 16, .sh, 150⟩]⟩  -- LDR_DIAG
   , ⟨0x000C0008, [], [⟨0, 16, .sh, 1024⟩, ⟨16, 3, .sh, 2⟩, ⟨20, 4, .sh, 15⟩]⟩  -- LDR_DIAG_WIN
   , ⟨0x000C000C, [], [⟨0, 32, .sh, 1000⟩]⟩  -- LDR_DIAG_OFFSET
   , ⟨0x000C0010, [], [⟨0, 1, .rw, 0⟩, ⟨1, 1, .rw, 0⟩, ⟨2, 1, .rw, 0⟩]⟩  -- LDR_POLICY
   , ⟨0x000C0014, [], [⟨0, 1, .wo, 0⟩, ⟨1, 1, .wo, 0⟩]⟩  -- LDR_CTRL
   , ⟨0x000C0018, [], [⟨0, 2, .ro, 0⟩, ⟨4, 1, .ro, 0⟩, ⟨5, 1, .ro, 0⟩]⟩  -- LDR_STAT
   , ⟨0x000C0020, [], [⟨0, 8, .rw, 70⟩, ⟨8, 8, .rw, 95⟩, ⟨16, 16, .rw, 9503⟩]⟩  -- LDR_THERM0
   , ⟨0x000C0024, [], [⟨0, 16, .rw, 14336⟩, ⟨16, 16, .rw, 7168⟩]⟩  -- LDR_THERM1
   , ⟨0x000C0028, [], [⟨0, 28, .sh, 0⟩]⟩  -- LDR_VERDICT_BASE
   , ⟨0x000C0100, [(0, 15, 4)], [⟨0, 16, .sh, 15360⟩, ⟨16, 16, .sh, 0⟩]⟩  -- LDR_FADE
   , ⟨0x000C0140, [(0, 15, 4)], [⟨0, 16, .ro, 15360⟩, ⟨16, 16, .ro, 0⟩]⟩  -- LDR_FADE_NOW
   , ⟨0x000C0180, [(0, 15, 4)], [⟨0, 16, .ro, 15360⟩, ⟨16, 15, .ro, 0⟩, ⟨31, 1, .ro, 0⟩]⟩  -- LDR_DERATE_NOW
   , ⟨0x000C0200, [(0, 11, 4)], [⟨0, 32, .ro, 0⟩]⟩  -- LDR_CNT
   , ⟨0x000C0400, [(0, 127, 4)], [⟨0, 7, .ro, 0⟩, ⟨7, 1, .ro, 0⟩, ⟨8, 1, .ro, 0⟩, ⟨9, 1, .w1c, 0⟩, ⟨10, 1, .w1c, 0⟩, ⟨11, 1, .w1c, 0⟩, ⟨12, 1, .w1c, 0⟩, ⟨16, 16, .ro, 0⟩]⟩  -- LDR_CHAIN_STAT
   ]

/-- Registers of the `MEM` block, base 0x000D_0000 (R456). -/
def regsMEM : List RegDecl :=
  [⟨0x000D0000, [(0, 3, 64)], [⟨0, 1, .rwM127, 0⟩]⟩  -- MEM_CH_CTRL
   , ⟨0x000D0004, [(0, 3, 64)], [⟨0, 1, .ro, 0⟩, ⟨1, 1, .ro, 0⟩, ⟨4, 3, .ro, 0⟩, ⟨8, 4, .ro, 0⟩, ⟨12, 3, .ro, 0⟩]⟩  -- MEM_CH_STAT
   , ⟨0x000D0010, [(0, 3, 64), (0, 7, 4)], [⟨0, 32, .ro, 0⟩]⟩  -- MEM_CH_CNT
   , ⟨0x000D0100, [], [⟨0, 16, .rw, 2000⟩]⟩  -- MEM_CFG
   , ⟨0x000D0104, [], [⟨0, 1, .rw, 0⟩, ⟨1, 1, .rw, 0⟩]⟩  -- MEM_POLICY
   , ⟨0x000D0108, [], [⟨0, 8, .rw, 24⟩]⟩  -- MEM_SCRUB_CFG
   , ⟨0x000D010C, [], [⟨0, 8, .ro, 0⟩, ⟨16, 16, .ro, 0⟩]⟩  -- MEM_SCRUB_STAT
   , ⟨0x000D0200, [(0, 3, 64), (0, 4, 12), (0, 2, 4)], [⟨0, 32, .roRcK2, 0⟩]⟩  -- MEM_CLS_CNT
   , ⟨0x000D0800, [], [⟨0, 1, .rw, 0⟩]⟩  -- MEM_SP_CFG
   , ⟨0x000D0810, [(0, 5, 4)], [⟨0, 32, .ro, 0⟩]⟩  -- MEM_SP_CNT
   , ⟨0x000D1000, [(0, 47, 4)], [⟨0, 4, .sh, 0⟩]⟩  -- MEM_BANK_OWNER
   , ⟨0x000D1100, [(0, 47, 4)], [⟨0, 4, .rwBankOwner, 0⟩, ⟨8, 2, .rwBankPwr, 0⟩]⟩  -- MEM_BANK_SET
   , ⟨0x000D1200, [(0, 47, 4)], [⟨0, 4, .ro, 0⟩, ⟨8, 2, .ro, 0⟩, ⟨12, 1, .ro, 0⟩, ⟨13, 1, .ro, 0⟩, ⟨14, 1, .ro, 0⟩]⟩  -- MEM_BANK_STAT
   , ⟨0x000D1300, [(0, 16, 4)], [⟨0, 32, .ro, 0⟩]⟩  -- MEM_SP_CONFLICT
   ]

/-- Registers of the `SEC` block, base 0x000E_0000 (R456). -/
def regsSEC : List RegDecl :=
  [⟨0x000E0000, [], [⟨0, 7, .ro, 0⟩, ⟨8, 4, .ro, 0⟩, ⟨12, 1, .ro, 0⟩, ⟨13, 1, .ro, 0⟩, ⟨16, 1, .ro, 0⟩, ⟨17, 2, .ro, 0⟩, ⟨19, 1, .ro, 0⟩, ⟨20, 1, .ro, 0⟩, ⟨21, 1, .ro, 0⟩, ⟨22, 1, .ro, 0⟩]⟩  -- SEC_STAT
   , ⟨0x000E0008, [(0, 1, 4)], [⟨0, 32, .ro, 0⟩]⟩  -- SEC_SERIAL
   , ⟨0x000E0010, [], [⟨0, 32, .ro, 0⟩]⟩  -- SEC_ID_INDEX
   , ⟨0x000E0014, [], [⟨0, 1, .wo, 0⟩, ⟨16, 16, .rwOwner, 0⟩]⟩  -- SEC_OWNER_CTRL
   , ⟨0x000E0018, [(0, 1, 4)], [⟨0, 32, .ro, 0⟩]⟩  -- SEC_SESS_OWNER
   , ⟨0x000E0020, [(0, 1, 16), (0, 3, 4)], [⟨0, 32, .ro, 0⟩]⟩  -- SEC_IMG
   , ⟨0x000E0040, [(0, 7, 4)], [⟨0, 32, .wo, 0⟩]⟩  -- SEC_OWNER_KEY
   , ⟨0x000E0060, [(0, 3, 4)], [⟨0, 32, .ro, 0⟩]⟩  -- SEC_CHAL
   , ⟨0x000E0070, [(0, 3, 4)], [⟨0, 32, .wo, 0⟩]⟩  -- SEC_PROOF
   , ⟨0x000E0100, [(0, 7, 4)], [⟨0, 32, .ro, 0⟩]⟩  -- SEC_CNT
   ]

/-- Registers of the `ERR` block, base 0x000F_0000 (R456). -/
def regsERR : List RegDecl :=
  [⟨0x000F0000, [], [⟨0, 2, .rw, 3⟩, ⟨4, 1, .rw, 1⟩, ⟨8, 2, .rw, 3⟩, ⟨16, 16, .rw, 0⟩]⟩  -- ERR_CFG
   , ⟨0x000F0004, [], [⟨0, 10, .ro, 0⟩, ⟨16, 1, .ro, 0⟩, ⟨18, 2, .ro, 0⟩]⟩  -- ERR_STAT
   , ⟨0x000F0008, [], [⟨0, 32, .ro, 0⟩]⟩  -- ERR_LOG_SEQ
   , ⟨0x000F0100, [(0, 7, 4)], [⟨0, 32, .ro, 0⟩]⟩  -- ERR_CNT
   ]

/-- Registers of the `RED` block, base 0x0010_0000 (R456). -/
def regsRED : List RegDecl :=
  [⟨0x00100000, [], [⟨0, 2, .rw, 0⟩, ⟨4, 1, .rw, 0⟩, ⟨16, 16, .rw, 0⟩]⟩  -- RED_CFG
   , ⟨0x00100004, [], [⟨0, 2, .ro, 0⟩, ⟨4, 1, .ro, 0⟩, ⟨5, 1, .ro, 0⟩]⟩  -- RED_SND_STAT
   , ⟨0x00100008, [], [⟨0, 1, .rw, 0⟩, ⟨8, 8, .rw, 10⟩]⟩  -- RED_POLICY
   , ⟨0x00100010, [], [⟨0, 32, .ro, 0⟩]⟩  -- RED_DIGEST
   , ⟨0x00100014, [(0, 1, 4)], [⟨0, 32, .ro, 0⟩]⟩  -- RED_DIGEST_FRAME
   , ⟨0x00100100, [], [⟨0, 16, .sh, 0⟩, ⟨16, 16, .sh, 0⟩]⟩  -- RED_TILE_SRC
   , ⟨0x00100104, [], [⟨0, 16, .sh, 120⟩]⟩  -- RED_TILE_CFG
   , ⟨0x00100108, [], [⟨0, 1, .rw, 0⟩, ⟨1, 1, .rw, 0⟩]⟩  -- RED_TILE_POLICY
   , ⟨0x0010010C, [], [⟨0, 1, .ro, 0⟩, ⟨4, 1, .ro, 0⟩, ⟨5, 1, .ro, 0⟩, ⟨16, 1, .w1c, 0⟩, ⟨17, 1, .w1c, 0⟩, ⟨18, 1, .w1c, 0⟩, ⟨20, 1, .ro, 0⟩, ⟨21, 1, .ro, 0⟩]⟩  -- RED_TILE_STAT
   , ⟨0x00100110, [], [⟨0, 32, .ro, 0⟩]⟩  -- RED_TILE_HOLD
   , ⟨0x00100114, [(0, 2, 4)], [⟨0, 32, .ro, 0⟩]⟩  -- RED_TILE_MISMATCH
   , ⟨0x00100200, [(0, 11, 4)], [⟨0, 32, .ro, 0⟩]⟩  -- RED_CNT
   ]

/-- Registers of the `CLK` block, base 0x0011_0000 (R456). -/
def regsCLK : List RegDecl :=
  [⟨0x00110000, [], [⟨0, 1, .ro, 0⟩, ⟨1, 1, .ro, 0⟩, ⟨2, 1, .ro, 0⟩, ⟨3, 2, .ro, 0⟩, ⟨8, 1, .w1c, 0⟩, ⟨9, 1, .w1c, 0⟩, ⟨10, 1, .w1c, 0⟩, ⟨11, 2, .w1c, 0⟩, ⟨16, 4, .ro, 0⟩]⟩  -- CLK_STAT
   , ⟨0x00110004, [], [⟨1, 11, .ro, 0⟩, ⟨16, 4, .ro, 0⟩, ⟨24, 8, .ro, 0⟩]⟩  -- CLK_DOM_STAT
   , ⟨0x00110100, [(0, 7, 4)], [⟨0, 32, .ro, 0⟩]⟩  -- CLK_EVT_OVF
   ]

/-- The register rows of block `b` (bits [23:16] of the address, R455). -/
def regBlock (b : Nat) : List RegDecl :=
  match b with
  | 0 => regsSYS
  | 1 => regsCMD
  | 2 => regsTIME
  | 3 => regsTXN
  | 4 => regsETH
  | 5 => regsING
  | 6 => regsCMP
  | 7 => regsSCL
  | 8 => regsMAP
  | 9 => regsFAB
  | 10 => regsLNK
  | 11 => regsLCR
  | 12 => regsLDR
  | 13 => regsMEM
  | 14 => regsSEC
  | 15 => regsERR
  | 16 => regsRED
  | 17 => regsCLK
  | _ => []

/-- The indexes at which offset `off` meets the strides of a row, when it does exactly and in range. -/
def dimIndex : List (Nat × Nat × Nat) → Nat → Option (List Nat)
  | [], off => if off = 0 then some [] else none
  | (a, h, st) :: ds, off =>
    if st = 0 then none
    else if a ≤ off / st ∧ off / st ≤ h then (dimIndex ds (off % st)).map (off / st :: ·) else none

/-- A row's indexes at address `a`. -/
def RegDecl.at (d : RegDecl) (a : Nat) : Option (List Nat) :=
  if d.base ≤ a then dimIndex d.dims (a - d.base) else none

/-- The register at byte address `a`, with its indexes; none where the space holds no register (R455, R457). -/
def regFind (a : Nat) : Option (RegDecl × List Nat) :=
  (regBlock (a / 0x10000)).findSome? fun d => (d.at a).map fun ix => (d, ix)

/-- Reset words that depend on an index: `TIME_LIT[0]` (spec/02) and the nearest kernel of R198. -/
def resetIndexed (base : Nat) (ix : List Nat) : Option Nat :=
  match base, ix with
  | 0x00020220, [0] => some 16683333
  | 0x00072000, [_, w] =>
    if w < 384 then
      let ph := w / 6
      let k := 2 * (w % 6)
      let tap := if ph < 32 then 5 else 6
      some (if k = tap then 0x4000 else if k + 1 = tap then 0x40000000 else 0)
    else
      let ph := (w - 384) / 4
      let k := 2 * ((w - 384) % 4)
      let tap := if ph < 32 then 3 else 4
      some (if k = tap then 0x4000 else if k + 1 = tap then 0x40000000 else 0)
  | _, _ => none

/-- The Reset column's word at address `a` (R463): a number as given, 0 for a value another source sets during M0. -/
def resetWord (a : Nat) : Word :=
  match regFind a with
  | none => 0
  | some (d, ix) =>
    match resetIndexed d.base ix with
    | some v => BitVec.ofNat 32 v
    | none => BitVec.ofNat 32 (d.fields.foldl (fun acc f => acc + f.reset * 2 ^ f.lo) 0)

/-- A register is shadowed when its fields are (R458). -/
def RegDecl.shadowed (d : RegDecl) : Bool := d.fields.any fun f => f.acc = .sh

/-- Whether a shadowed register lies at `a`. -/
def isShadowed (a : Nat) : Bool :=
  match regFind a with
  | some (d, _) => d.shadowed
  | none => false

/-- The addresses of one row, indexes ascending. -/
def dimAddrs : List (Nat × Nat × Nat) → List Nat
  | [] => [0]
  | (a, h, st) :: ds => (List.range (h + 1 - a)).flatMap fun i => (dimAddrs ds).map fun o => (a + i) * st + o

/-- Every address of a row. -/
def RegDecl.addrs (d : RegDecl) : List Nat := (dimAddrs d.dims).map (d.base + ·)

/-- Every shadowed register's address in ascending order (R354, R458). -/
def shadowAddrs : List Nat :=
  (((List.range 18).flatMap regBlock).filter RegDecl.shadowed).flatMap RegDecl.addrs |>.mergeSort (· ≤ ·)

end Sys2Proof.Machine
end

