-- ==== Sys2Proof/Machine/State.lean ====
section
/-! DEFINITION. The state of the block as plain data: the register file, memory, the clock, and everything the
chapters give the device beside registers, one structure a subsystem. -/

namespace Sys2Proof.Machine

open Sys2Proof

/-- No command raises a fault: a violation is silent (R94), a refused command is answered (R74). -/
inductive Fault where
deriving DecidableEq, Repr

/-- Why a command has no meaning. -/
inductive Refusal where
  /-- Raised by a command without its meaning yet; safe. -/
  | notModelled (mnemonic : String)
deriving DecidableEq, Repr

/-! ## Commands, sessions and operations (spec/03) -/

/-- A packet as it waits: a command row, or the words of a packet not yet checked (R89). -/
inductive Item where
  | cmd (c : Instr)
  | raw (p : Packet)
deriving DecidableEq, Repr

/-- A dispatched packet that waits (R97, R102, R411); `checked` once checks 1 to 7 of R89 have passed. -/
structure Waiting where
  item : Item
  checked : Bool
deriving DecidableEq, Repr

/-- A session slot (R82). `uid` tells apart the sessions that held the slot one after another. -/
structure Sess where
  isOpen : Bool := false
  uid : Nat := 0
  src : BitVec 16 := 0
  openId : Word := 0
  via : Via := .ring                         -- the latest verified packet's (R77)
  expected : Word := 0
  held : List Item := []                     -- ascending distance from expected (R86)
  holdStart : Nat := 0                       -- tick at which the hold timer started (R87)
  waiting : List Waiting := []               -- oldest first
  assigning : Option Instr := none           -- a FAB_ASSIGN that has not yet ended (R267)
  kept : List Reply := []                    -- newest first, at most 16 (R88)
  lastBegin : Option (BitVec 16) := none     -- R109
  topApplied : Nat := 0                      -- latest begun of its transactions that have applied (R119)
  owner : Bool := false                      -- an owner session by SEC_PROOF (R399)
deriving DecidableEq, Repr

/-- A packet under reassembly (R81). -/
structure Partial where
  via : Via
  pktId : BitVec 16
  last : BitVec 8
  start : Nat
  parts : List (Nat × List Byte)
  keySrcs : List (BitVec 16) := []           -- `SRC` of the key words of its datagrams (R77)
deriving DecidableEq, Repr

/-- Sessions, transports and operation slots. -/
structure CmdSt where
  sess : List Sess := List.replicate 64 {}
  nextUid : Nat := 1
  partials : List Partial := []
  authNotice : List (BitVec 32 × Nat) := []  -- source address, millisecond of the last AUTH_FAIL reply (R77, R476)
  relay : List (BitVec 16 × Via) := []       -- most recently used first, at most 64 (R78)
  ops : List OpSlot := List.replicate 16 {}
  orphans : List (BitVec 6 × Nat × Via × Hdr) := []  -- a FAB_ASSIGN begun by a session since replaced: slot, `uid` (R84)
deriving DecidableEq, Repr

/-! ## Transactions (spec/04) -/

/-- A global decision a root recorded (R125). -/
structure Decision where
  src : BitVec 16
  id : BitVec 16
  commit : Bool
  frame : Nat
  phase : Nat
  seq : Nat                                  -- order of its recording (R117)
deriving DecidableEq, Repr

/-- Transactions, actions and decisions. -/
structure TxnSt where
  txns : List Txn := []
  actions : List Action := []
  nextAction : BitVec 16 := 1
  decisions : List Decision := []            -- newest first, at most 64 (R125)
  announced : List Decision := []            -- oldest first: those whose target is still ahead (R126)
  seq : Nat := 1                             -- orders begins, acceptances and ends
  shadows : List (Nat × Word) := []          -- shadow copies a snapshot brought that the live copies do not give (R351)
deriving DecidableEq, Repr

/-! ## Errors (spec/17) -/

/-- An error record (R422). -/
structure ErrRec where
  seq : Word
  code : BitVec 16
  block : BitVec 8
  sev : BitVec 2
  phase : BitVec 2
  tstate : BitVec 2
  prior : Bool
  sec : BitVec 64
  ns : Word
  detail : List Byte
deriving DecidableEq, Repr

/-- The log (R425) and the per-second limit of ALARM cells (R430). -/
structure ErrSt where
  log : List ErrRec := []                    -- ascending LOG_SEQ, at most 512
  next : Word := 0
  alarmSec : Nat := 0
  alarmCount : Nat := 0
  limits : List (Nat × Nat × Nat) := []      -- key of a per-second limit, its second, its count (R476)
deriving DecidableEq, Repr

/-! ## Roles, modes, instars, wipe (spec/01), the cocoon (spec/16) -/

/-- One-time fuses (R30, R390, R465). A counting step is a redundant pair. -/
structure Fuses where
  instar : List (Bool × Bool) := List.replicate 4 (false, false)
  svn : List (Bool × Bool) := List.replicate 64 (false, false)
  revoked : List (Bool × Bool) := List.replicate 4 (false, false)
  keyHash : List (BitVec 256) := List.replicate 4 0
  serial : BitVec 64 := 0
  rootSecret : BitVec 256 := 0
  imageKey : BitVec 256 := 0
  grade : Bool := false
deriving DecidableEq, Repr

/-- On-die NVM (R390, R393, R426, R252). -/
structure Nvm where
  ownerKey : Option (BitVec 256) := none
  epoch : BitVec 16 := 0
  provDigest : BitVec 256 := 0
  idCells : List (Option (Word × Word)) := List.replicate 64 none   -- SEQ and NEXT of a valid cell
  idNext0 : Word := 0                                                -- first index while no cell is valid
  save : List Byte := List.replicate 2048 0                         -- the save area of the log, by bytes (R426)
  cal : List (Option (List Byte)) := List.replicate 4 none          -- calibration record of each port (R252)
deriving DecidableEq, Repr

/-- What the device keeps of an image it has checked (R407): IMAGE_ID, RELEASE, SVN, manifest digest. -/
structure ImgInfo where
  id : BitVec 64 := 0
  release : Word := 0
  svn : BitVec 8 := 0
  digest : BitVec 256 := 0
deriving DecidableEq, Repr

/-- A mode change accepted and not yet in force (R16, R17). -/
structure ModeChange where
  target : BitVec 3
  origin : BitVec 3                          -- the mode it was accepted in
  at_ : Nat                                  -- local time of the request
  beat : Bool := false                       -- the wingbeat of R17 has come
deriving DecidableEq, Repr

/-- Roles, modes, start and wipe. -/
structure SysSt where
  straps : BitVec 2 := 0                     -- levels of ROLE[1:0] (R10)
  change : Option ModeChange := none
  blankThenReset : Bool := false             -- with it, a molt's device reset (R416)
  blankThenLow : Bool := false               -- a tile that has left M5 and has its BLANK still to send (R18)
  auto : Option (BitVec 3) := none           -- automatic target under pursuit (R19)
  resetReq : Option (BitVec 3) := none       -- a device reset due, with its cause (R20)
  resetWaits : Bool := false                 -- it waits for its command's reply to leave (R33, R93)
  resetFrom : Nat := 0                       -- local time before which it does not come: a molt's BLANK applies first (R416)
  releaseTick : Nat := 0                     -- tick of the last reset release (R466)
  startPor : Bool := true                    -- the start began with POWER_ON (R426)
  sramReady : Bool := false                  -- step 4 of R22 has ended (R29)
  imageOk : Bool := false
  wiped : BitVec 2048 := 0                   -- R28
  inService : BitVec 2048 := 0               -- regions of the DRAM in service (R29)
  pwrOff : Bool := false                     -- supplies below their valid levels (R442)
  trstN : Bool := true                       -- level of JTAG_TRST_N (R439)
deriving DecidableEq, Repr

/-- Cocoon, keys, images, flash. -/
structure SecSt where
  fuses : Fuses := {}
  nvm : Nvm := {}
  flash : List Host.Cell := []               -- unlisted bytes read 0xFF, erased
  flashSize : Nat := 0x8000000               -- bytes of the flash fitted (R404)
  ownerKeyIn : List Word := List.replicate 8 0
  fuseWin : List (Nat × Word) := []          -- the fuse-programming window, by offset (R470)
  proofIn : List Word := List.replicate 4 0
  chal : BitVec 128 := 0
  active : ImgInfo := {}
  chrys : ImgInfo := {}
  idNext : Nat := 0                          -- next signature index (R393)
  idLimit : Nat := 0                         -- end of the reserved range
  moltDue : Option Bool := none              -- a molt to perform, with ADVANCE_SVN (R415, R416)
  moltWaits : Bool := false                  -- it waits for its command's reply to leave (R415)
  provDigest : BitVec 256 := 0               -- SHA-256 of the record in force, 0 while none is (R395, R402)
deriving DecidableEq, Repr

/-! ## Time (spec/02, spec/05) -/

/-- A master's data as Announce messages give it (R50). -/
structure Master where
  port : BitVec 3
  identity : BitVec 64
  portNumber : BitVec 16
  rank : List Nat
  interval : Int                             -- logMessageInterval
  last : Nat                                 -- tick of the latest Announce
deriving DecidableEq, Repr

/-- PTP (R49, R50, R142); times in ns. -/
structure PtpSt where
  masters : List Master := []
  selected : Option (BitVec 64 × BitVec 16) := none
  selPort : BitVec 3 := 0
  lastSync : Option Nat := none              -- tick
  syncInterval : Int := 0
  ms : Option (Rat × Rat) := none            -- the latest Sync's t1 and t2 - t1 - c_s
  means : List Rat := []                     -- (ms + sm) / 2 of the last 16 exchanges, newest first
  lastReq : Option Nat := none               -- tick of the last Delay_Req
  answered : Bool := false                   -- a Delay_Resp has come since the master was selected (R141)
  reqInterval : Int := 0                     -- logMinDelayReqInterval of the latest Delay_Resp
  t3s : Option Rat := none                   -- launch time of the Delay_Req whose answer is awaited
  reqMs : Rat := 0                           -- ms of the latest Sync before that Delay_Req
deriving DecidableEq, Repr

/-- The clock's servo, the grid's progress, pulses, time cells. -/
structure TimeSt where
  acc : Int := 0                             -- 2^-40 (R48)
  root : Option (BitVec 16) := none          -- followed root (R40)
  prev : Option Rat := none                  -- source time of the previous sample, ns
  stepped : Bool := false                    -- the first large offset of this ACQUIRING has been stepped (R45)
  lockRun : Nat := 0                         -- consecutive samples within the lock bound (R43)
  outRun : Nat := 0                          -- consecutive samples beyond OUTLIER_NS
  switchTest : Bool := false                 -- the first sample on the alternate port decides (R65)
  lastValid : Nat := 0                       -- tick of the last edge or accepted cell (R44)
  holdStart : Nat := 0                       -- tick of the entry into HOLDOVER
  cellSeq : Option Word := none              -- last TIME_SEQ on upstream_now (R61)
  mismatch : Bool := false                   -- last tag comparison failed (R62)
  portSeen : List (Option Nat) := List.replicate 4 none   -- tick of the last cell of the followed root (R65)
  timeSeq : Word := 0                        -- a root's TIME_SEQ (R58)
  lastPeriodic : Nat := 0                    -- tick of the last periodic emission (R59)
  delays : List (List Rat) := List.replicate 4 []         -- up to 16 measurements of each port, ns, newest first (R63)
  marked : List Bool := List.replicate 4 false            -- measured since training or a width change (R63)
  appliedAt : List Nat := []                 -- wingbeat times at which commits applied, newest first (R62)
  nextFrame : Nat := 1
  curFrame : Nat := 0
  curBeat : Nat := 0                         -- instant of its wingbeat (R38)
  beatAt : Option Nat := none                -- instant of the next wingbeat while a commit that changes the grid has applied at it (R57)
  nextPps : Nat := 1                         -- next whole second of PPS_OUT
  ppsEnd : Option Nat := none                -- end of the running pulse (R52)
  fsyncEnd : Option Nat := none
  ptp : PtpSt := {}
deriving DecidableEq, Repr

/-! ## Fabric (spec/10) -/

/-- A cell in a queue: `since` is the tick at which it reached the head, `own` marks the device's own cells, `frees`
is the port whose receive buffer it leaves when sent (R269). -/
structure QCell where
  cell : Cell
  since : Nat
  own : Bool
  frees : Option (BitVec 2) := none
deriving DecidableEq, Repr

/-- The transmit side of a port above the lanes: queues by class, arbitration, credits (R269, R270). -/
structure PortQ where
  t0 : List QCell := []
  t1 : List QCell := []
  t2 : List QCell := []
  t3 : List QCell := []
  t3Sent : List (Nat × Nat) := []            -- T3 cells sent in the last millisecond: tick, occupied bytes (R271)
  tokens : Nat := 8192 * 120                 -- units of 1/120 payload byte
  tokTick : Nat := 0
  deficit2 : Nat := 0
  deficit3 : Nat := 0
  turn3 : Bool := false                      -- the round robin stands at T3
  credits : List Nat := [0, 0, 0]            -- held, for T1 to T3
  partnerFreed : List Word := [0, 0, 0]      -- counts of the last SVC cell
  freed : List Word := [0, 0, 0]             -- freed by this side since the entry to ACTIVE
  freedSent : List Word := [0, 0, 0]
  freedTick : Option Nat := none             -- tick of the first credit freed since the last SVC cell
  svcTick : Nat := 0                         -- tick of the last SVC cell sent
  blocked : List QCell := []                 -- received T2 and T3 cells whose credits wait for the hold queue (R263)
  retrain : Bool := false                    -- the port left ACTIVE and trains again with its streams kept (R239)
deriving DecidableEq, Repr

/-- A route table (R261). -/
structure RouteTable where
  entries : List RouteEntry := List.replicate 64 ⟨0, 0, 0, false⟩
  defPorts : BitVec 4 := 0
deriving DecidableEq, Repr

/-- A cell in the hold queue with its port of arrival (R263). -/
structure HeldCell where
  cell : Cell
  arrival : Option (BitVec 2)
deriving DecidableEq, Repr

/-- Who waits for the answer of a probe. -/
inductive ProbeFor where
  | slot (k : BitVec 4)
  | session (uid : Nat)
deriving DecidableEq, Repr

/-- A probe sent and not yet answered (R265). -/
structure ProbeWait where
  id : BitVec 16
  who : ProbeFor
  start : Nat
  answer : Option (List Byte)                -- payload of the answer
deriving DecidableEq, Repr

/-- A path test (R268): times in ns. -/
structure PathTest where
  slot : BitVec 4
  id : BitVec 16
  sent : Nat                                 -- cells due so far
  left : Nat := 0                            -- cells that have left the device
  last : Nat                                 -- tick of the last cell due
  answered : Nat
  outOfOrder : Nat
  expect : Nat                               -- TEST_SEQ after the highest answered
  least : Nat
  sum : Nat
  greatest : Nat
  hops : BitVec 8
deriving DecidableEq, Repr

/-- The fabric layer. -/
structure FabSt where
  ports : List PortQ := List.replicate 4 {}
  routes : RouteTable := {}
  oldRoutes : List (RouteTable × Nat) := []  -- the table before each change, and the tick its hold ends (R263)
  holdEnd : Option Nat := none               -- tick at which the last of the holds ends
  hold : List HeldCell := []                 -- oldest first
  ownWait : List Cell := []                  -- own cells that found the hold queue full, oldest first
  rasterCount : Word := 0                    -- origin's cell counters (R257)
  probeCount : Word := 0
  alarmCount : Word := 0
  probeId : BitVec 16 := 0                   -- next PROBE_ID
  probes : List ProbeWait := []
  tests : List PathTest := []
  recordMs : List (Nat × Nat) := []          -- key of a per-millisecond record limit, its millisecond (R259, R476)
deriving DecidableEq, Repr

/-! ## Clock domains (spec/15) -/

/-- The source side of an event crossing (R383). -/
structure Crossing where
  count : List (List Nat) := []              -- events counted, each by the counters it is for; at most 255
  sat : Bool := false
  busy : Bool := false                       -- a request is outstanding
  sent : List (List Nat) := []               -- the request's events
  sentOvf : Bool := false
deriving DecidableEq, Repr

/-- A domain reset that runs (R386), until `done`. -/
structure DomReset where
  kind : BitVec 4
  done : Nat                                 -- tick at which release and the undefined cycles have passed
deriving DecidableEq, Repr

/-- Crossings 7 to 14 (13 by channel), domain resets, the ring side's totals. -/
structure ClkSt where
  cross : List (List Crossing) :=            -- index k - 7; one a sub-instance
    [[{}], [{}], [{}], [{}], [{}], [{}], [{}, {}, {}, {}], [{}]]
  resets : List DomReset := []
  due : List (BitVec 4) := []                -- kinds of the resets that wait for their reply to leave (R386)
  holding : BitVec 4 := 0                    -- PLLs that hold their last control value (R381)
  alarmTotal : Nat := 0                      -- destination counter of crossing 7
deriving DecidableEq, Repr

/-! ## The service ring (spec/16) -/

/-- Frames forwarded and the device's own, waiting to leave (R418). -/
structure RingSt where
  forward : List RingFrame := []
  own : List RingFrame := []
  ownTurn : Bool := false
  busyTo : Nat := 0                          -- tick at which the frame on the line ends
  busyFwd : Bool := false                    -- that frame is a forwarded one
deriving DecidableEq, Repr

/-! ## Memory (spec/14) -/

/-- A write of a scratchpad word in the current tick (R376): by which port, and the code word it replaced. -/
structure SpWrite where
  word : Nat
  portB : Bool
  old : BitVec 80
  tick : Nat
deriving DecidableEq, Repr

/-- A word the scrubber has read and will write back (R369), with the tick of the read. -/
structure ScrubBack where
  word : Nat
  data : BitVec 64
  poison : Bool
  tick : Nat
deriving DecidableEq, Repr

/-- Memory beside its data bytes: stored errors and poison, training, scrub, banks. -/
structure MemSt where
  flaws : List (Nat × BitVec 80) := []       -- word address to the flipped bits of its code word (R358); unlisted none
  poison : List (Nat × Bool) := []           -- word address to its poison bit; unlisted clear
  training : BitVec 4 := 0                   -- channels under training (R365)
  scrubNext : List Nat := [0, 0, 0, 0]       -- offset of the next granule of each channel (R369)
  scrubTick : List Nat := [0, 0, 0, 0]
  spNext : Nat := 0                          -- offset of the next scratchpad word
  spTick : Nat := 0
  bankDone : List Nat := List.replicate 48 0 -- tick at which a change of power state ends (R378)
  corrected : List (Nat × Nat) := []         -- unit, corrections since its last record (R361)
  refreshTick : Nat := 0                     -- tick of the last refresh check (R368)
  spWrites : List SpWrite := []              -- scratchpad words written in the current tick (R376)
  scrubBack : List ScrubBack := []           -- scrub write-backs on their way (R369)
deriving DecidableEq, Repr

/-! ## Media ports and ingest (spec/05) -/

/-- A multicast membership (R137): port, group, source (0 for any). -/
structure Join where
  port : BitVec 3
  group : BitVec 32
  source : BitVec 32
deriving DecidableEq, Repr

/-- A state-change report still to be repeated (R137). -/
structure Repeat where
  join : Join
  isJoin : Bool
  due : Nat                                  -- tick
deriving DecidableEq, Repr

/-- A write of `ETH_MODE` or `ETH_FEC` on its way into force (R135). -/
structure EthWrite where
  fec : Bool
  value : Word
  answered : Bool := false                   -- the reply to its write has left
  due : Nat := 0                             -- tick, once it has
deriving DecidableEq, Repr

/-- Media ports beside their registers. -/
structure EthSt where
  modeNow : BitVec 2 := 1                    -- port grouping in force (R134)
  polNow : BitVec 16 := 0                    -- lane polarities in force: receive in the low byte, transmit in the high
  fecNow : Word := 0
  waiting : List EthWrite := []              -- oldest first (R135)
  joined : List Join := []
  repeats : List Repeat := []
  ptpFrom : Nat := 0                         -- tick before which received PTP is discarded (R384, crossing 0)
  afresh : BitVec 8 := 0                     -- ports that report their joins as their link returns (R386)
deriving DecidableEq, Repr

/-- A frame buffer of a stream (R151, R154). -/
structure Buf where
  st : BitVec 3 := 0                         -- 0 FREE, 1 OPEN, 2 COMPLETE, 3 INCOMPLETE, 4 INVALID
  ts : Word := 0
  ticks : Int := 0                           -- MEDIA_TICKS
  lines : List Nat := []                     -- bytes written to each line
  firstNs : Nat := 0
  closeNs : Nat := 0
  seqs : Option (Word × Word) := none        -- lowest and highest e written
  patched : Bool := false
  base : Nat := 0                            -- where and how it was received (R145)
  stride : Nat := 0
  ctrl : Word := 0                           -- `ING_S_CTRL`
  width : Nat := 0
  height : Nat := 0
deriving DecidableEq, Repr

/-- A stream (R148 to R158). -/
structure Stream where
  highest : Option Word := none              -- highest e accepted (R148)
  span : Nat := 0                            -- values from the first e to the highest, at most 65,536
  seen : BitVec 65536 := 0                   -- bit i: e = highest - i was delivered
  pathHigh : List (Option Word) := [none, none]
  lastPkt : List (Option Nat) := [none, none]   -- tick of the last packet of each path
  since : Nat := 0                           -- tick from which silence counts (R158)
  lost : Bool := false
  bufs : List Buf := List.replicate 16 {}
  overruns : List (Word × Int) := []         -- ts and MEDIA_TICKS of frames lost to overrun, newest first
  arrivals : List (Word × Bool × Nat) := []  -- e, path B, tick, newest first
  skews : List Int := []                     -- path B less path A, ticks, newest first
  counts : List Nat := List.replicate 14 0
deriving DecidableEq, Repr

/-- What a video layer shows (R155, R156). -/
structure LayerSel where
  ever : Bool := false
  stream : Nat := 0
  buf : Nat := 0
  repeated : Bool := false
  ticks : Int := 0
deriving DecidableEq, Repr

/-- Ingest. -/
structure IngSt where
  streams : List Stream := List.replicate 32 {}
  sel : List LayerSel := List.replicate 6 {}
  held : List (Nat × Nat) := []              -- stream and buffer (R157)
  readFrom : List Nat := List.replicate 6 0  -- stream each layer last selected from (R155)
deriving DecidableEq, Repr

/-! ## Composition, region map, write-back (spec/06 to spec/08) -/

/-- A composition line between blender 0 and blender 15 (R175), its pixels as binary16 R, G, B. -/
structure LineOut where
  frame : Nat
  phase : Nat
  line : Nat
  left : Nat                                 -- tick at which it leaves blender 15
  regs : List (Nat × Word)                   -- registers of its image
  bad : List Nat                             -- region-map entries that failed at its frame's wingbeat (R207)
  px : List (BitVec 16 × BitVec 16 × BitVec 16)
deriving DecidableEq, Repr

/-- The signature of an entry's phase image so far (R215) and its next cell number. -/
structure EntrySig where
  entry : Nat
  crc : Word := 0xFFFFFFFF
  cell : Nat := 0
deriving DecidableEq, Repr

/-- A write-back capture (R222, R224). -/
structure Capture where
  buf : Nat
  m : Nat
  frame : Nat
  dropped : Nat := 0
  started : Bool := false
deriving DecidableEq, Repr

/-- A decoded input line in a scaler's start window (R200): crop line, crop column of the first pixel, pixels. -/
structure WinLine where
  line : Nat
  ctrl : Word                                -- ING_S_CTRL of its frame
  px : List (Option (Rat × Rat × Rat))       -- R', G', B' of the crop's columns (R191); none for a lost group (R193)
deriving DecidableEq, Repr

/-- A scaler's input side (R199 to R201). -/
structure ScalerSt where
  key : List Nat × List Word := ([], [])     -- what its start window was loaded for
  window : List WinLine := []
  slots : List (Option Nat) := []            -- crop line in each line-buffer slot
  todo : List Nat := []                      -- input lines of the phase image not yet requested, ascending
deriving DecidableEq, Repr

/-- The fetched part of a graphic layer's line (R172, R175): its first canvas column, and for each pixel its bytes, none
where a lost word holds any (R173). -/
structure GlLine where
  layer : Nat
  line : Nat
  first : Nat
  px : List (Option (List Byte))
deriving DecidableEq, Repr

/-- Fences, flips and the layers' flip registers as they stood before a wingbeat gated them (R180). -/
structure Gate where
  tick : Nat
  frame : Nat
  before : Nat                               -- the frame before
  fences : List Fence
  flips : List (Option Flip)
  flds : List (Fld × Nat)                    -- what gating writes: LATE and its kin of the graphic layers, CMP_CNT[2]
deriving DecidableEq, Repr

/-- Write-back's choice of a buffer as it stood before a wingbeat made it (R222). -/
structure WbGate where
  tick : Nat
  frame : Nat
  captures : List Capture
  wbLast : Nat
  wbCount : Nat
  missed : Word
deriving DecidableEq, Repr

/-- The compositor, the region map and write-back. -/
structure CmpSt where
  fences : List Fence := List.replicate 64 {}
  flips : List (Option Flip) := List.replicate 10 none
  running : Bool := false                    -- the frame is composed
  frame : Nat := 0
  start : Nat := 0                           -- tick of its wingbeat
  phase : Nat := 0                           -- next line to enter blender 0
  line : Nat := 0
  snaps : List (List (Nat × Word)) := []     -- registers of each phase image, pending commits apart (R114, R166)
  img : List (Nat × Word) := []              -- registers of the phase image that has begun
  scalers : List ScalerSt := List.replicate 6 {}
  fetched : List GlLine := []                -- graphic lines on die (R175)
  gate : Option Gate := none
  wbGate : Option WbGate := none
  inFlight : List LineOut := []
  uflow : List Nat := []                     -- layers with an underflow recorded in this phase image (R185)
  sigs : List EntrySig := []                 -- of the phase image that leaves blender 15
  cut : List (Nat × Nat) := []               -- port and entry cut in that phase image (R220)
  cutFrame : List Nat := []                  -- ports with a cut recorded in this frame
  wbLast : Nat := 15                         -- buffer write-back last wrote; the first choice is buffer 0
  wbCount : Nat := 0                         -- captures since the device reset
  captures : List Capture := []
deriving DecidableEq, Repr

/-! ## Parrus lanes (spec/09) -/

/-- A link frame as sent (R232, R234): slots in order, none for IDLE. -/
structure TxFrame where
  fbseq : Nat := 0
  ack : Nat := 0
  nak : Bool := false
  retrainReq : Bool := false
  mark : Option (BitVec 8) := none
  markReply : Option (BitVec 8 × BitVec 16) := none    -- number and TURN (R235)
  flip : Option Nat := none                  -- lane with an injected payload error (R254)
  badChk : Bool := false                     -- LCB_CHK corrupted (R254)
  slots : List (Option (List Byte)) := []
deriving DecidableEq, Repr

/-- The cell a port is taking from its data slots (R258, R259). -/
structure CellRx where
  part : List Byte := []                     -- its bytes so far
  start : Bool := true                       -- the next data slot begins with a cell
  hunt : Bool := false                       -- slots are passed over up to one that begins with a cell
deriving DecidableEq, Repr

/-- The checker of a lane in SERVICE (R254). -/
structure PatCheck where
  hist : List Bool := []                     -- last bits of the pattern, newest first
  run : Nat := 0                             -- bits in a row that continued it
  locked : Bool := false
  miss : Nat := 0                            -- bits in a row that differed
  errors : Nat := 0
deriving DecidableEq, Repr

/-- One lane of a recalibration (R251). -/
structure CalLane where
  stage : Nat := 0                           -- 0 phase, 1 to 4 CTLE, 5 ended
  fine0 : Nat := 0
  ctle0 : Nat := 0
  best : Nat := 0
  bestEye : Nat := 0
  failed : Option Nat := none                -- the check that failed
deriving DecidableEq, Repr

/-- A pattern a port runs in SERVICE (R254). -/
structure PatRun where
  action : BitVec 4
  pattern : BitVec 4
  lanes : BitVec 4
  arg : Word
deriving DecidableEq, Repr

/-- A port below the fabric layer. BSEQ values are below 2^24. -/
structure LaneSt where
  since : Nat := 0                           -- tick of entry to the state
  fresh : Bool := true                       -- DISABLED or FAILED since it was last ACTIVE (R269)
  part : List Byte := []                     -- slot begun and not full (R258)
  slots : List (Option (List Byte)) := []    -- slots to send, oldest first; none for IDLE
  dataRun : Nat := 0                         -- data slots formed since the last IDLE (R258)
  txNext : Nat := 0                          -- BSEQ of the next new slot
  unacked : List (Option (List Byte)) := []  -- slots sent and not acknowledged, oldest first (R238)
  ack : Nat := 0                             -- BSEQ of the oldest of them
  acked : CellRx := {}                       -- what the acknowledged slots leave of a cell at the partner (R258)
  resend : Option Nat := none                -- index of the next slot to resend
  replayAck : Option Nat := none             -- ACK at which the latest replay began
  replayRuns : Nat := 0
  stall : Nat := 0                           -- frames sent since ACK advanced
  idleRun : Nat := 0                         -- IDLE slots sent in a row
  frameAt : Nat := 0                         -- 1/8 ticks: start of the next frame
  last : TxFrame := {}
  rxNext : Nat := 0                          -- R237
  goodAt : Nat := 0                          -- tick of the last good link frame (R236, R345)
  downAt : Nat := 0                          -- tick at which it was last in ACTIVE or LIGHT_IDLE (R339)
  nak : Bool := false
  typeFails : Nat := 0                       -- frames in a row whose LCBs fail TYPE (R244)
  partnerIdle : Bool := false                -- EIOS seen, waiting for FTS (R246)
  markNo : BitVec 8 := 0                     -- number of the last mark
  markAt : Option Nat := none                -- tick of the last mark sent
  markOut : Option (BitVec 8 × Nat) := none  -- a mark awaiting its reply, frames left (R235)
  markHeard : Bool := false                  -- a reply has come in time, its measurement is due (R63)
  markIn : Option (BitVec 8 × Nat) := none   -- a mark to be answered in the next frame, tick of its arrival
  excluded : BitVec 4 := 0                   -- lanes excluded until LNK_CTRL.RETRAIN (R248)
  laneOk : BitVec 4 := 15                    -- lanes usable in this training
  lastLanes : BitVec 4 := 0                  -- lane set of the last time ACTIVE
  blames : List (Nat × Nat) := List.replicate 4 (0, 0)     -- second and blames in it, by lane
  idleBlocks : List Nat := List.replicate 4 0              -- IDLE slots received in a row, by lane (R249)
  outside : List Bool := List.replicate 4 false            -- a stop since all values were inside (R250)
  stepAt : List Nat := List.replicate 4 0    -- tick of the last RECAL_STEP, by lane
  cal : Option (List CalLane) := none        -- a recalibration, automatic or of CAL_RUN
  calSlot : Option (BitVec 4) := none        -- a CAL_RUN or CAL_STORE on this port
  eqDone : Bool := false                     -- own adaptation done (R240)
  partner : Option (BitVec 4 × BitVec 2 × Nat) := none     -- LANE_OK, MAX_WIDTH, RX_NEXT of the partner's TS2 (R242)
  confirmAt : Option Nat := none             -- tick from which CONFIRM is sent
  rx : CellRx := {}
  rowHunt : Bool := false                    -- received cells are passed over since one that failed order 1 or 2 (R259)
  checks : List PatCheck := List.replicate 4 {}
  need : Bool := false                       -- a DIAG_PATTERN or CAL_RUN needs the port in M7 (R245)
  awake : Bool := false                      -- in DEEP_IDLE, its clock lane restarted (R247)
  pat : Option PatRun := none
  injectBit : Nat := 0                       -- frames still to corrupt (R254)
  injectLane : Nat := 0
  injectLcb : Nat := 0
deriving DecidableEq, Repr

/-- The lanes of all ports and the recalibration's progress (R251). -/
structure LnkSt where
  ports : List LaneSt := List.replicate 4 {}
  tempTick : Nat := 0
  failTemp : Option Int := none              -- reading of a failed automatic run
  autoPorts : BitVec 4 := 0                  -- ports of the automatic run
  autoFail : Bool := false
  autoAbort : Bool := false
deriving DecidableEq, Repr

/-! ## Lamp correction and lamp chains (spec/11, spec/12) -/

/-- A slice image a tile receives (R277 to R279). -/
structure SliceImg where
  src : Nat                                  -- 0 or 1, per `RED_TILE_SRC`
  frame : Nat
  phase : Nat
  slot : Option Nat := none
  noSlot : Bool := false                     -- its first accepted cell found none (R278)
  format : Option Nat := none                -- of its first accepted cell
  cells : List (Nat × Nat × List Byte) := [] -- CELL, COUNT and pixel data, ascending CELL
  sig : Option (Word × Nat) := none          -- SIGNATURE and K
  geometry : Bool := false                   -- CELL_GEOMETRY written
  complete : Bool := false
  failed : Bool := false                     -- its CRC differs (R279)
deriving DecidableEq, Repr

/-- What a table slot keeps on die after a `TABLE_LOAD` (R292). Keys of `shares` are 64 x chain + driver. -/
structure TblSt where
  sw : Nat := 0
  sh : Nat := 0
  peak : BitVec 16 := 0
  edges : List (BitVec 16) := []
  z : BitVec 16 := 0
  nominal : List (List Nat) := []
  shares : List (Nat × Nat) := []            -- share lengths above 0 (R287)
  groups : List (Nat × Nat) := []            -- group and key of each driver with an enabled lamp of it (R327)
deriving DecidableEq, Repr

/-- What a lamp-image buffer holds (R287). -/
inductive ImgBuf where
  | free
  | latched                                  -- the last latched image
  | ready (frame phase : Nat)                -- waits for its latch
  | building
deriving DecidableEq, Repr

/-- An image chosen at Tc and not yet corrected (R280). -/
structure Job where
  frame : Nat
  phase : Nat
  src : Nat
  slot : Nat
  format : Nat
  fade : List (BitVec 16)                    -- F_g and D_g of the image (R281, R326)
  derate : List (BitVec 16)
  buf : Option Nat := none                   -- the buffer taken
  start : Nat := 0                           -- tick of step 1
  late : Bool := false                       -- its load instant has passed (R280)
deriving DecidableEq, Repr

/-- The course of an image on the lamp chains (R317). `load` 0 not reached, 1 a load was sent, 2 dark. -/
structure Plan where
  frame : Nat
  phase : Nat
  load : Nat := 0
  buf : Nat := 0                             -- the buffer loaded
  own : Bool := false                        -- it holds the image itself
  lay : TblSt := {}                          -- the table by which the load is laid out
  latched : Bool := false
  ended : Bool := false                      -- BLANK END or BLANK DARK sent
  pulsed : Bool := false
deriving DecidableEq, Repr

/-- A fade under way (R325). -/
structure Fade where
  n0 : Nat
  target : BitVec 16
  frames : Nat
  from_ : Option (BitVec 16) := none         -- F_g of frame n0 - 1, once known
deriving DecidableEq, Repr

/-- What the tile knows of a driver (R309, R321, R332). -/
structure Driver where
  temp : Int := 0                            -- 1/8 C
  flags : BitVec 3 := 0
  seen : Option (Nat × Nat) := none          -- frame and tick of the latest accepted record
  trim : Int := 0                            -- as measured, 62.5 ps units
  sent : Int := 0                            -- as sent
  measTemp : Option Int := none              -- temperature at the chain's last measurement
deriving DecidableEq, Repr

/-- A report frame (R320, R321). -/
structure ReportRun where
  c0 : Nat
  latchFrame : Nat                           -- frame whose wingbeat precedes the latch of the window reported
  last : Option Nat := none                  -- countdown of the last accepted record
  broken : Bool := false
  got : List Nat := []
deriving DecidableEq, Repr

/-- What the tile makes of the line at `LC_IN` (R321). -/
inductive ReturnItem where
  | record (words : List (BitVec 16))
  | symbolError
  | endFrame
deriving DecidableEq, Repr

/-- A lamp chain. -/
structure Chain where
  drivers : List Driver := List.replicate 64 {}
  a0 : Rat := 0                              -- ns (R307)
  report : Option ReportRun := none
  loadAt : Nat := 0                          -- tick at which the load in progress began, as if sent without a pause
  loadEnd : Nat := 0                         -- tick at which it ends
  lineEnd : Nat := 0                         -- tick at which the last other symbol sent ends
  timedEnd : Int := 0                        -- local time at which the last timed symbol sent applies
  measuring : Bool := false
  cfgDue : Bool := false                     -- a configuration load is due (R318)
  reportDue : Option (Int × Nat) := none     -- local time from which REPORT may go, and the window's latch frame
  returnTick : Nat := 0                      -- tick of the last activity on the return line
  rxWords : Option (List (BitVec 16)) := none   -- words at `LC_IN` since the last SYNC (R301)
  rxBits : List Bool := []                   -- bits of the word that arrives, first one first
deriving DecidableEq, Repr

/-- The lamp pattern of DIAG_PATTERN (R333). -/
structure LampPat where
  pattern : Nat
  arg : Word
deriving DecidableEq, Repr

/-- Correction and lamp chains. -/
structure TileSt where
  imgs : List SliceImg := []
  tables : List TblSt := [{}, {}]
  bufs : List ImgBuf := [.free, .free, .free]
  lays : List TblSt := [{}, {}, {}]          -- the table each buffer is laid out by
  banks : List Nat := [0, 0, 0]              -- `IMG_BANK` of the image in each buffer (R114, R287)
  jobs : List Job := []                      -- in the order of their latches
  plans : List Plan := []
  lastTc : Option (Nat × Nat) := none        -- latest image whose Tc was reached
  lastLoad : Option (Nat × Nat) := none
  hist : List (Nat × Nat × List (Nat × Word)) := []   -- target of each applied commit and the registers before it
  begun : List (Nat × Nat × List (Nat × Word)) := []  -- images whose processing has begun, with the registers they keep (R114)
  poisons : List (Nat × Nat × Nat) := []     -- kind, pixel, component reported for the table selected (R288)
  fades : List (Option Fade) := List.replicate 16 none
  drives : List (Nat × List (BitVec 16) × List (BitVec 16)) := []   -- F_g and D_g of each recent frame (R326)
  warned : List Bool := List.replicate 16 false
  chains : List Chain := List.replicate 128 {}
  pat : Option LampPat := none
  lastWindow : Option (Nat × Nat) := none    -- image of the lit window last begun
deriving DecidableEq, Repr

/-! ## Redundant senders (spec/13) -/

/-- A change of the source in use: `RED_SWITCH` with its `SEL`, or a new `RED_TILE_SRC` (R341, R347). -/
inductive SrcChange where
  | sel (k : Nat)
  | srcs (w : Word)
deriving DecidableEq, Repr

/-- A join on the joining sender (R350). -/
structure JoinRun where
  slot : BitVec 4
  pairSrc : BitVec 16
  ranges : List (Nat × Nat)
  prior : Nat                                -- `STATE` before it
  taken : Nat := 0                           -- bytes of the copy that have arrived
  copied : Nat := 0                          -- bytes of it written
  work : List (Nat × List (BitVec 64 × Bool)) := []   -- `MEM_WRITE` packets of the internal session not yet executed
  lastCell : Nat := 0                        -- tick of the last copy cell
  markNext : Nat := 0                        -- lowest address the next marked words may have
  held : Option Word := none                 -- expected SEQ at which the pair session was held (step 3)
  attempts : Nat := 0                        -- snapshots that have missed their time
  marked : Nat := 0                          -- blocks written after step 3
deriving DecidableEq, Repr

/-- A join served by the active sender (R349, R350). -/
structure ServeRun where
  pairSrc : BitVec 16
  joiner : BitVec 16                         -- the device that joins
  port : BitVec 2                            -- port on which its request came
  ranges : List (Nat × Nat)
  todo : List (Nat × Nat) := []              -- address and bytes still to read and send, ascending
  seq : Word := 0                            -- `SEQ` of the next copy packet
  snap : Option Snapshot := none             -- a snapshot to send after them
  marks : List Nat := []                     -- 64 KiB blocks written since the join began or since the latest snapshot
  captured : Option Nat := none              -- frame of the latest snapshot
deriving DecidableEq, Repr

/-- Redundancy. -/
structure RedSt where
  run : List Nat := [0, 0]                   -- eligibility runs (R343)
  compared : Nat := 0                        -- comparisons in this frame
  differed : Bool := false                   -- one of them differed
  missedBy : List Bool := [false, false]     -- a copy of the source was not complete at its Tc in this frame
  matched : Bool := true                     -- no mismatch since the last match or change of sources (R342)
  src : Word := 0                            -- `RED_TILE_SRC` of the image last chosen (R341)
  changes : List (Nat × Nat × SrcChange) := []    -- images from which changes of the source govern
  arrival : List (BitVec 16 × BitVec 2) := []     -- source address and port of its latest raster cell, latest first (R345)
  lossSeen : Bool := false                   -- link loss detected since that cell
  switchDue : Option (BitVec 1 × Nat) := none     -- cause of a switch to make, and the tick of detection
  latched : Bool := false                    -- a corrected image has latched
  lastLatch : Option Int := none             -- the latch instant of the last one (R348)
  holding : Option (Nat × Nat) := none       -- the first image missing since (R348)
  early : List (Nat × Nat) := []             -- transactions whose changes were taken at a Tc before they applied
  join : Option JoinRun := none
  serve : Option ServeRun := none
  pairSrc : Option (BitVec 16) := none       -- the pair session's SRC, as a join named it
  joinWait : Option Nat := none              -- frame at whose wingbeat STATE becomes READY
deriving DecidableEq, Repr

/-! ## What leaves the device -/

/-- The model's own record of what the device sends (log entry 9), newest first. -/
inductive Out where
  | reply (via : Via) (r : Reply)                                  -- R71, by its transport
  | authFail (ip : BitVec 32) (port : BitVec 16) (seg keyWord : Word) (packet : List Word)   -- R77
  | relayed (via : Via) (bytes : List Byte)                        -- a relayed reply's segment by UDP (R78)
  | datagram (ip : BitVec 32) (port : BitVec 16) (bytes : List Byte)   -- a reply's datagram as R77 lays it out
  | ring (f : RingFrame)                                           -- R417
  | pulse (fsync level : Bool)                                     -- R52, R439
  | alertN (low : Bool)                                            -- R429
  -- frames of a media port; `tag` is the VLAN they carry (spec/05, ETH_VLAN), corrections are in 2^-16 ns
  | delayReq (port : BitVec 3) (tag : Option (BitVec 12)) (t3s : Rat) (correction : Int) (checksum : BitVec 16)   -- R141
  | ptpForward (port : BitVec 1) (tag : Option (BitVec 12)) (msgType : BitVec 4) (correction : Int)
      (checksum : Option (BitVec 16))                              -- R143; none: as received
  | arpReply (port : BitVec 3) (tag : Option (BitVec 12)) (ip targetIp : BitVec 32) (targetMac : BitVec 48)   -- R136
  | igmpReport (port : BitVec 3) (tag : Option (BitVec 12)) (isJoin : Bool) (group source : BitVec 32)        -- R137
  | cell (port : BitVec 2) (c : Cell)                              -- a cell as arbitration sends it (R270)
  | slots (port : BitVec 2) (data : List (List Byte))              -- slots delivered to the fabric layer (R237)
  | cellIn (port : BitVec 2) (c : Cell)                            -- a cell of those slots, for FABRIC_CELL and its kin (R258)
  | control (port : BitVec 2) (blocks : List (List Byte))          -- EIOS or FTS control blocks, on every lane (R246, R247)
  | looped (port : BitVec 2) (lanes : List LaneFrame)              -- what a loopback sends again (R254)
  | lampBurst (chain : BitVec 7) (start : Nat) (words : List (BitVec 16))    -- SYNC, then words, from a tick (R300 to R302, R310)
  -- SYNC launched at a local time in ns; `between`: words of the load in progress that stand before it (R308)
  | lampTimed (chain : BitVec 7) (words : List (BitVec 16)) (launch : Rat) (between : Option Nat)
  | lampEcho (chain : BitVec 7) (words : List (BitVec 16))         -- ECHO words, each after its own SYNC and answer (R307)
  | lampLow                                                        -- LC_OUT held low (R18, R333)
  | pinsHeld                                                       -- the pins while RESET_N is low (R439)
  | joinRequest (port : BitVec 2) (pairSrc : BitVec 16) (ranges : List (Nat × Nat))   -- R350, step 1
  | joinCopy (port : BitVec 2) (addr : Nat) (data : List (BitVec 64 × Bool))   -- R350, steps 2 and 4: words, lost ones true
  | joinRefused (port : BitVec 2)                                  -- R349: the partner does not serve
  | joinHeld (port : BitVec 2) (expected : Word)                   -- R350, step 3
  | snapshot (port : BitVec 2) (sn : Snapshot)                     -- R350, step 4
  | jtag (value : BitVec 64)                                       -- shifted out at JTAG_TDO (R31)
deriving DecidableEq, Repr

/-- The state of the block. -/
structure State where
  regs : List (Nat × Word)                   -- every register, live copies; unlisted words hold their reset value
  mem : List Host.Cell                       -- the device address space (R363); unlisted bytes read 0 (R27)
  clk : Nat                                  -- local time, units of 2^-64 ns since second 0 (R36, R37)
  tick : Nat                                 -- CCLK ticks since the model began
  sys : SysSt := {}
  sec : SecSt := {}
  tm : TimeSt := {}
  cmd : CmdSt := {}
  txn : TxnSt := {}
  err : ErrSt := {}
  fab : FabSt := {}
  cdc : ClkSt := {}
  ring : RingSt := {}
  memc : MemSt := {}
  eth : EthSt := {}
  ing : IngSt := {}
  cmp : CmpSt := {}
  lnk : LnkSt := {}
  tile : TileSt := {}
  red : RedSt := {}
  rnd : Nat                                  -- draws made from the free-value sources (log entry 12)
  out : List Out                             -- newest first
  pending : List Instr                       -- commands that wait, oldest first
deriving DecidableEq, Repr

/-- Right after the release of a power-on reset: registers at their Reset column, memory lists nothing, and a
device reset with cause POWER_ON to run (R20, R22, log entries 4 to 6). -/
def State.reset : State :=
  { regs := [], mem := [], clk := 0, tick := 0, sys := { resetReq := some 0 }, rnd := 0, out := [], pending := [] }

end Sys2Proof.Machine
end

