-- ==== Sys2Proof/Machine/Ops.lean ====
section
/-! DEFINITION. The named operations over the state: sparse stores in canonical form, register fields, the clock,
small list and number helpers. -/

namespace Sys2Proof.Machine

open Sys2Proof

/-! ## Sparse stores: keys strictly rising, no entry equal to what an unlisted key reads as -/

/-- What key `a` holds. -/
def sparseGet {α : Type} (dflt : Nat → α) : List (Nat × α) → Nat → α
  | [], a => dflt a
  | (b, v) :: t, a => if b = a then v else sparseGet dflt t a

/-- A list without the entries of key `a`. -/
def sparseDrop {α : Type} (l : List (Nat × α)) (a : Nat) : List (Nat × α) := l.filter fun e => e.1 != a

/-- An entry put before the first greater key. -/
def sparseIns {α : Type} (a : Nat) (v : α) : List (Nat × α) → List (Nat × α)
  | [] => [(a, v)]
  | e :: t => if a < e.1 then (a, v) :: e :: t else e :: sparseIns a v t

/-- Key `a` takes `v`; a value equal to the default leaves no entry. -/
def sparsePut {α : Type} [DecidableEq α] (dflt : Nat → α) (l : List (Nat × α)) (a : Nat) (v : α) : List (Nat × α) :=
  if v = dflt a then sparseDrop l a else sparseIns a v (sparseDrop l a)

/-- The canonical form. -/
def sparseWf {α : Type} [DecidableEq α] (dflt : Nat → α) : List (Nat × α) → Bool
  | [] => true
  | (a, v) :: t => decide (v ≠ dflt a) && (t.all fun e => decide (a < e.1)) && sparseWf dflt t

/-! ## Registers -/

/-- A field's value in a word. -/
def Fld.get (f : Fld) (w : Word) : Nat := w.toNat / 2 ^ f.lo % 2 ^ f.w

/-- A word with a field replaced; the value is taken modulo the field's width. -/
def Fld.put (f : Fld) (w : Word) (v : Nat) : Word :=
  BitVec.ofNat 32 (w.toNat - f.get w * 2 ^ f.lo + v % 2 ^ f.w * 2 ^ f.lo)

/-- The stored word of the register at `a`: its live copy (R7, R8). -/
def State.word (s : State) (a : Nat) : Word := sparseGet resetWord s.regs a

/-- The register at `a` takes a word. -/
def State.setWord (s : State) (a : Nat) (v : Word) : State := { s with regs := sparsePut resetWord s.regs a v }

/-- A field's live value. -/
def State.fld (s : State) (f : Fld) : Nat := f.get (s.word f.addr)

/-- A one-bit field as a truth value. -/
def State.bit (s : State) (f : Fld) : Bool := s.fld f = 1

/-- A field takes a value. -/
def State.setFld (s : State) (f : Fld) (v : Nat) : State := s.setWord f.addr (f.put (s.word f.addr) v)

/-- A one-bit field takes a truth value. -/
def State.setBit (s : State) (f : Fld) (b : Bool) : State := s.setFld f b.toNat

/-- A counter grows by `n` and holds at its greatest value (R464). -/
def State.bump (s : State) (f : Fld) (n : Nat := 1) : State := s.setFld f (min (s.fld f + n) (2 ^ f.w - 1))

/-- The low `n` bits of `v` as a signed number. -/
def sext (n v : Nat) : Int := if v % 2 ^ n < 2 ^ (n - 1) then (v % 2 ^ n : Nat) else (v % 2 ^ n : Nat) - (2 ^ n : Nat)

/-- A number as `n` bits of two's complement. -/
def toBits (n : Nat) (v : Int) : Nat := (v % (2 ^ n : Nat)).toNat

/-- A number held within `n` bits of two's complement. -/
def satInt (n : Nat) (v : Int) : Int := max (-(2 ^ (n - 1) : Nat)) (min v ((2 ^ (n - 1) : Nat) - 1))

/-- Rounding of a quotient to the nearest integer, ties to even; the divisor is above 0. -/
def divRound (n : Int) (d : Nat) : Int :=
  let q := n / d
  let r := (n % d).toNat
  if 2 * r < d then q else if 2 * r > d then q + 1 else if q % 2 = 0 then q else q + 1

/-- Whether `n` bytes at `a` and `m` bytes at `b` have a byte in common. -/
def overlaps (a n b m : Nat) : Bool := decide (0 < n ∧ 0 < m ∧ a < b + m ∧ b < a + n)

/-- Ceiling of a quotient. -/
def ceilDiv (a b : Nat) : Nat := (a + b - 1) / b

/-- Bit `i` of a number. -/
def bitOf (v i : Nat) : Bool := v / 2 ^ i % 2 = 1

/-- The bits of a mask below `n`. -/
def bitsOf (n v : Nat) : List Nat := (List.range n).filter (bitOf v)

/-- An element of a list of fixed length. -/
def at' {α : Type} [Inhabited α] (l : List α) (i : Nat) : α := l.getD i default

/-- A state with one more thing sent. -/
def State.emit (s : State) (o : Out) : State := { s with out := o :: s.out }

/-- A draw of the free-value source: its number, and the state after (log entry 12). -/
def State.draw (s : State) : Nat × State := (s.rnd, { s with rnd := s.rnd + 1 })

/-- A rounding the manual leaves open: down or up where a value is not whole (log entry 13). -/
def openRound (place : Nat) (q : Rat) : Int :=
  let f := q.floor
  if (f : Rat) = q then f else if Config.roundUp place q.num.natAbs q.den then f + 1 else f

/-- The nearest whole number; which of two that are as near is left open (log entry 13). -/
def openNearest (place : Nat) (q : Rat) : Int :=
  let part := q - q.floor
  if part < 1 / 2 then q.floor else if 1 / 2 < part then q.floor + 1 else openRound place q

/-! ## The clock (R35 to R38) -/

/-- Clock units in a nanosecond. -/
def nsU : Nat := 2 ^ 64

/-- Clock units in a second. -/
def secU : Nat := 1000000000 * nsU

/-- `n` microseconds in clock units. -/
def usU (n : Nat) : Nat := n * 1000 * nsU

/-- CCLK ticks in `n` microseconds (R35). -/
def usTicks (n : Nat) : Nat := 1500 * n

/-- `SEC`, `NS` and `FRAC` of a time (R36). -/
def timeSec (t : Nat) : Nat := t / secU
def timeNs (t : Nat) : Nat := t / nsU % 1000000000
def timeFrac (t : Nat) : Nat := t / 2 ^ 32 % 2 ^ 32

/-- Times wrap with `SEC` at 2^64 seconds (R36). -/
def wrapTime (t : Int) : Nat := (t % (2 ^ 64 * secU : Nat)).toNat

/-- The advance of one tick (R37): (2/3 ns)(1 + RATE x 2^-40), held to 2^-64 ns; which way it is rounded there the
manual leaves open (log entry 13). -/
def State.inc (s : State) : Nat :=
  let n := (2 ^ 25 * ((2 ^ 40 : Nat) + sext 32 (s.fld F.TIME_RATE_RATE))).toNat
  if n % 3 ≠ 0 ∧ Config.roundUp 37 n 3 then n / 3 + 1 else n / 3

/-- Whether this tick is the one nearest to time `t`, or a later one; the earlier tick on a tie (R54). -/
def State.nearest (s : State) (t : Nat) : Bool := 2 * t ≤ 2 * s.clk + s.inc

/-- Whether local time has reached `t`. -/
def State.reached (s : State) (t : Nat) : Bool := t ≤ s.clk

/-! ## Modes, roles (R12, R14) -/

def State.mode (s : State) : Nat := s.fld F.SYS_MODE_CUR
def State.role (s : State) : Nat := s.fld F.SYS_ROLE_ROLE
def State.addr (s : State) : BitVec 16 := BitVec.ofNat 16 (s.fld F.FAB_ADDR_ADDR)
def State.instar (s : State) : Nat := s.fld F.SYS_INSTAR_INSTAR
def roleSender : Nat := 1
def roleTile : Nat := 2
def roleRelay : Nat := 3

/-- The sources that make a device a time root (R39). -/
def State.isRoot (s : State) : Bool := let v := s.fld F.TIME_SRC_SOURCE; 1 ≤ v && v ≤ 4

/-! ## Statuses and reason words (R73, R74) -/

namespace Status
def ok : BitVec 8 := 0x00
def accepted : BitVec 8 := 0x01
def partly : BitVec 8 := 0x02
def delayed : BitVec 8 := 0x03
def refusedFull : BitVec 8 := 0x10
def badLength : BitVec 8 := 0x11
def badOpcode : BitVec 8 := 0x12
def badParam : BitVec 8 := 0x13
def late : BitVec 8 := 0x14
def infeasible : BitVec 8 := 0x15
def notOwner : BitVec 8 := 0x16
def authFail : BitVec 8 := 0x17
def orderGap : BitVec 8 := 0x18
def txnAborted : BitVec 8 := 0x19
def notReady : BitVec 8 := 0x1A
def noResult : BitVec 8 := 0x1B
def uncertain : BitVec 8 := 0x1C
def instarLocked : BitVec 8 := 0x1D
def verifyFail : BitVec 8 := 0x1E
end Status

/-! Reason codes of spec/03 (R73). -/

namespace Reason
def sessions : Nat := 0x0001
def opSlots : Nat := 0x0002
def holdQueue : Nat := 0x0003
def align : Nat := 0x0010
def range : Nat := 0x0011
def overlap : Nat := 0x0012
def txnNotAllowed : Nat := 0x0013
def noSession : Nat := 0x0020
def mode : Nat := 0x0021
def role : Nat := 0x0022
def recovery : Nat := 0x0023
def running : Nat := 0x0024
def transport : Nat := 0x0030
def slot : Nat := 0x0031
def staleOpen : Nat := 0x0032
def gapTimeout : Nat := 0x0040
def tooFar : Nat := 0x0041
end Reason

/-- A reason word (R73). -/
def reasonWord (code detail : Nat) : Word := BitVec.ofNat 32 (code * 65536 + detail % 65536)

/-- The answer of a command: its status and payload, and the state after; or that it waits; or that it has begun and
answers later. -/
inductive Res where
  | done (status : BitVec 8) (payload : List Word) (s : State)
  | wait
  | later (s : State)
deriving DecidableEq, Repr

/-- A refusal with a reason word; a refused command changes nothing (R89). -/
def refuse (s : State) (status : BitVec 8) (code detail : Nat) (more : List Word := []) : Res :=
  .done status (reasonWord code detail :: more) s

/-- An answer OK with a payload. -/
def okRes (s : State) (payload : List Word := []) : Res := .done Status.ok payload s

end Sys2Proof.Machine
end

