-- ==== Sys2Proof/Machine/FabOps.lean ====
section
/-! DEFINITION. Cells and the transmit side of the fabric: forming a cell (R256, R257), the route table (R261), the
hold after a route change (R263), queues by class (R270), the T3 origin queue (R271). -/

namespace Sys2Proof.Machine

open Sys2Proof

/-! Cell types (R257). -/

namespace CellType
def raster : BitVec 6 := 0x01
def time : BitVec 6 := 0x02
def svc : BitVec 6 := 0x03
def cmd : BitVec 6 := 0x04
def reply : BitVec 6 := 0x05
def probe : BitVec 6 := 0x06
def alarm : BitVec 6 := 0x07
def bulk : BitVec 6 := 0x08
end CellType

/-- The class of each type (R257). -/
def classOf (t : BitVec 6) : Option (BitVec 2) :=
  match t.toNat with
  | 1 => some 1 | 2 => some 0 | 3 => some 0 | 4 => some 2 | 5 => some 2 | 6 => some 2 | 7 => some 2 | 8 => some 3
  | _ => none

/-- Header bytes 0 to 14 (R256). -/
def cellHead (c : Cell) : List Byte :=
  bytesBE 2 c.dst.toNat ++ bytesBE 2 c.src.toNat ++ [BitVec.ofNat 8 (c.cls.toNat * 64 + c.typ.toNat), c.flags] ++
    bytesBE 2 c.len.toNat ++ bytesBE 4 c.seq.toNat ++ bytesBE 2 c.frameTxn.toNat ++ [c.hop]

/-- The cell's CRC-32C: header bytes 0 to 13 and the LEN payload bytes (R256). -/
def cellCrc (c : Cell) : Word := crc32c ((cellHead c).take 14 ++ c.payload.take c.len.toNat)

/-- A cell with its check fields set. -/
def cellSeal (c : Cell) : Cell := { c with hchk := crc8 (cellHead c), crc := (cellCrc c) }

/-- A cell with `HOP` set and `HCHK` rewritten (R256). -/
def cellWithHop (c : Cell) (h : Nat) : Cell :=
  let d := { c with hop := BitVec.ofNat 8 h }
  { d with hchk := crc8 (cellHead d) }

/-- A new cell of a type (R257). -/
def mkCell (typ : BitVec 6) (dst src : BitVec 16) (flags : BitVec 8) (seq : Word) (frameTxn : BitVec 16)
    (payload : List Byte) : Cell :=
  cellSeal { dst := dst, src := src, cls := (classOf typ).getD 0, typ := typ, flags := flags,
              len := BitVec.ofNat 16 payload.length, seq := seq, frameTxn := frameTxn, hop := 0, hchk := 0,
              payload := payload, crc := 0 }

/-- Bytes a cell occupies: header, payload, pad and CRC (R269). -/
def cellOccupied (c : Cell) : Nat := 16 + 4 * ceilDiv c.payload.length 4 + 4

/-- Credits a cell takes (R269). -/
def cellCredits (c : Cell) : Nat := ceilDiv (cellOccupied c) 64

/-- The cell as the bytes of a slot stream (R256, R258). -/
def cellBytes (c : Cell) : List Byte :=
  (cellHead c) ++ [c.hchk] ++ c.payload ++ List.replicate (4 * ceilDiv c.payload.length 4 - c.payload.length) 0 ++
    wordBytes c.crc

/-- A port's state number (R240). -/
def State.lnkState (s : State) (q : Nat) : Nat := s.fld (F.LNK_STAT_STATE q)

def State.portQ (s : State) (q : Nat) : PortQ := s.fab.ports.getD q {}

def State.setPortQ (s : State) (q : Nat) (p : PortQ) : State :=
  { s with fab := { s.fab with ports := s.fab.ports.set q p } }

/-- Whether cells may be queued on a port: ACTIVE, LIGHT_IDLE or a retrain, one that begins at CLOCK among them (R261). -/
def State.portUp (s : State) (q : Nat) : Bool :=
  let st := s.lnkState q
  st = 6 || st = 7 || (1 ≤ st && st ≤ 5 && (s.portQ q).retrain)

/-- The port set a table gives a destination (R261): the first enabled entry that matches, else the default. -/
def RouteTable.look (t : RouteTable) (dst : BitVec 16) : BitVec 4 :=
  match t.entries.find? fun e => e.en && (dst &&& e.mask == e.value &&& e.mask) with
  | some e => e.ports
  | none => t.defPorts

/-- The ports of a set that are up, without the port of arrival (R261). -/
def State.routePorts (s : State) (t : RouteTable) (dst : BitVec 16) (arrival : Option (BitVec 2)) : List Nat :=
  (bitsOf 4 (t.look dst).toNat).filter fun q => s.portUp q && decide (arrival.map BitVec.toNat ≠ some q)

/-- A cell enters its class's queue on port `q`. -/
def PortQ.push (p : PortQ) (cls : Nat) (c : Cell) (own : Bool) (now : Nat) (frees : Option (BitVec 2) := none) :
    PortQ :=
  let e : QCell := ⟨c, now, own, frees⟩
  match cls with
  | 0 => { p with t0 := p.t0 ++ [e] }
  | 1 => { p with t1 := p.t1 ++ [e] }
  | 2 => { p with t2 := p.t2 ++ [e] }
  | _ => { p with t3 := p.t3 ++ [e] }

def State.enqueue (s : State) (q : Nat) (c : Cell) (own : Bool) (frees : Option (BitVec 2) := none) : State :=
  s.setPortQ q ((s.portQ q).push c.cls.toNat c own s.tick frees)

/-- A copy of a cell on each port of a list. -/
def State.sendOn (s : State) (ps : List Nat) (c : Cell) (own : Bool) : State :=
  ps.foldl (fun t q => t.enqueue q c own) s

/-- Bytes the hold queue holds (R263). -/
def State.holdBytes (s : State) : Nat := (s.fab.hold.map fun h => (cellOccupied h.cell)).sum

/-- Whether a T2 or T3 cell waits in the hold queue: its port set now differs from the one before a change whose hold still
runs, or cells of its destination wait already (R263). -/
def State.mustHold (s : State) (c : Cell) : Bool :=
  (c.cls = 2 || c.cls = 3) &&
    ((s.fab.hold.any fun h => h.cell.dst == c.dst) || (s.fab.ownWait.any fun d => d.dst == c.dst) ||
      s.fab.oldRoutes.any fun o => decide (s.tick < o.2) && s.fab.routes.look c.dst != o.1.look c.dst)

/-- Whether the hold queue has room for a cell (R263). -/
def State.holdRoom (s : State) (c : Cell) : Bool := decide (s.holdBytes + cellOccupied c ≤ 32768)

/-- A cell enters the hold queue and counts in `FAB_CNT[11]` (R263). -/
def State.holdCell (s : State) (c : Cell) (arrival : Option (BitVec 2)) : State :=
  ({ s with fab := { s.fab with hold := s.fab.hold ++ [HeldCell.mk c arrival] } }).bump (F.FAB_CNT_COUNT 11)

/-- A cell of the device itself that is to be held: in the hold queue, or behind it while that is full (R263). -/
def State.holdOwn (s : State) (c : Cell) : State :=
  if s.holdRoom c ∧ (s.fab.ownWait.all fun d => d.dst != c.dst) then s.holdCell c none
  else { s with fab := { s.fab with ownWait := s.fab.ownWait ++ [c] } }

/-- Whether a cell addressed to `dst` is delivered to the device itself (R260). -/
def State.toSelf (s : State) (dst : BitVec 16) : Bool :=
  (s.addr ≠ 0 && dst == s.addr) || dst == 0xFFFF || (dst == 0xFFFE && s.role = roleSender) ||
    (dst == 0xFFFD && s.role = roleTile) ||
    (0xFFF0 ≤ dst.toNat && dst.toNat ≤ 0xFFFC && bitOf (s.fld F.FAB_GROUPS_MEMBER) (dst.toNat - 0xFFF0))

/-- A cell of the device itself leaves by the table, or is discarded and counted where it goes nowhere (R261). -/
def State.sendOwn (s : State) (c : Cell) : State :=
  let ps := s.routePorts s.fab.routes c.dst none
  if ps.isEmpty then (if s.toSelf c.dst then s else s.bump (F.FAB_CNT_COUNT 7)) else s.sendOn ps c true

/-- The device originates a cell routed by the table (R260, R261): counted, then queued, held or discarded. -/
def State.originate (s : State) (c : Cell) : State :=
  let s := s.bump (F.FAB_CNT_COUNT 0)
  if c.dst = s.addr then s
  else if s.mustHold c then s.holdOwn c
  else s.sendOwn c

/-- Whether UDP packets for other devices are relayed (R78). -/
def State.relays (s : State) : Bool :=
  s.role = roleSender && s.bit F.CMD_CFG_RELAY_EN && decide (2 ≤ s.mode ∧ s.mode ≤ 6)

/-- Bytes of the origin queue of T3 on a port (R271): the device's own cells in it, and those that wait out a route change to go
there by the table in force (R263). -/
def State.originBytes (s : State) (q : Nat) : Nat :=
  let held := (s.fab.hold.filter fun h => h.arrival.isNone).map HeldCell.cell ++ s.fab.ownWait
  (((s.portQ q).t3.filter QCell.own).map fun e => cellOccupied e.cell).sum +
    ((held.filter fun c => c.cls == 3 && (s.routePorts s.fab.routes c.dst none).contains q).map cellOccupied).sum

/-- Room of a T3 packet in the origin queues of the ports it takes (R271): the first port it does not fit. -/
def State.bulkFull (s : State) (dst : BitVec 16) (bytes : Nat) : Option Nat :=
  (s.routePorts s.fab.routes dst none).find? fun q => decide (73728 < s.originBytes q + bytes)

/-- Ticks in a millisecond. -/
def msTicks : Nat := 1500000

/-- The retry-after hint of BULK_FULL: the time to empty the queue at the T3 rate of the last millisecond, in µs and at
least 10 (R271). A rate of zero gives none: a free value. -/
def State.bulkHint (s : State) (q : Nat) : Nat :=
  let p := s.portQ q
  let waits := s.originBytes q
  let sent := ((p.t3Sent.filter fun e => decide (s.tick < e.1 + msTicks)).map Prod.snd).sum
  if sent = 0 then max 10 (Config.free 271 [q, s.tick] % 2 ^ 32)
  else max 10 ((openRound 271 ((waits * 1000 : Nat) / (sent : Nat) : Rat)).toNat % 2 ^ 32)

/-- A packet's bytes as segments of at most 1,020 bytes, each with its segment word (R75). -/
def segmentsOf (pktId : BitVec 16) (bs : List Byte) : List Segment :=
  let n := ceilDiv bs.length 1020
  (List.range n).map fun i =>
    ⟨pktId, BitVec.ofNat 8 i, BitVec.ofNat 8 (n - 1), slice bs (1020 * i) 1020⟩

/-- A segment's word (R75). -/
def segmentWord (g : Segment) : Word :=
  BitVec.ofNat 32 (g.pktId.toNat * 65536 + g.index.toNat * 256 + g.last.toNat)

end Sys2Proof.Machine
end

