-- ==== Sys2Proof/Machine/Records.lean ====
section
/-! DEFINITION. Error records (R421 to R424), writing one into the log with its notices (R425, R429, R430), and the
limits per second and per millisecond (R476). -/

namespace Sys2Proof.Machine

open Sys2Proof

/-- A record name: its block, its position in its row of R424, its severity (R421). -/
structure RecName where
  block : Nat
  index : Nat
  sev : Nat
deriving DecidableEq, Repr

/-! The record names of R424. -/

namespace Rec
def fuseReadback : RecName := ⟨0x00, 0, 3⟩
def holdover : RecName := ⟨0x02, 0, 2⟩
def clockStep : RecName := ⟨0x02, 1, 1⟩
def timingMismatch : RecName := ⟨0x02, 2, 2⟩
def linkDelayStep : RecName := ⟨0x02, 3, 1⟩
def upstreamSwitch : RecName := ⟨0x02, 4, 2⟩
def txnTargetMismatch : RecName := ⟨0x03, 0, 2⟩
def txnUncertain : RecName := ⟨0x03, 1, 3⟩
def schedFailed : RecName := ⟨0x03, 2, 2⟩
def streamLost : RecName := ⟨0x05, 0, 2⟩
def streamBack : RecName := ⟨0x05, 1, 0⟩
def composeCfg : RecName := ⟨0x06, 0, 3⟩
def timedLate : RecName := ⟨0x06, 1, 2⟩
def cmpUnderflow : RecName := ⟨0x06, 2, 2⟩
def scaleCfg : RecName := ⟨0x07, 0, 3⟩
def mapEntryCfg : RecName := ⟨0x08, 0, 3⟩
def rasterCut : RecName := ⟨0x08, 1, 2⟩
def wbDrop : RecName := ⟨0x08, 2, 1⟩
def cellLen : RecName := ⟨0x09, 0, 3⟩
def cellFraming : RecName := ⟨0x09, 1, 3⟩
def cellCrc : RecName := ⟨0x09, 2, 3⟩
def linkRetrain : RecName := ⟨0x0A, 0, 2⟩
def linkDegrade : RecName := ⟨0x0A, 1, 2⟩
def tapWander : RecName := ⟨0x0A, 2, 1⟩
def calDone : RecName := ⟨0x0A, 3, 0⟩
def calFail : RecName := ⟨0x0A, 4, 2⟩
def cellGeometry : RecName := ⟨0x0B, 0, 2⟩
def sliceSignature : RecName := ⟨0x0B, 1, 2⟩
def corrLate : RecName := ⟨0x0B, 2, 2⟩
def corrPoison : RecName := ⟨0x0B, 3, 3⟩
def corrCfg : RecName := ⟨0x0B, 4, 3⟩
def chainMeasure : RecName := ⟨0x0C, 0, 3⟩
def chainCfg : RecName := ⟨0x0C, 1, 3⟩
def chainReport : RecName := ⟨0x0C, 2, 2⟩
def chainShare : RecName := ⟨0x0C, 3, 2⟩
def chainShort : RecName := ⟨0x0C, 4, 3⟩
def lampFault : RecName := ⟨0x0C, 5, 2⟩
def thermalWarn : RecName := ⟨0x0C, 6, 2⟩
def memUncorrectable : RecName := ⟨0x0D, 0, 3⟩
def memPoisonRead : RecName := ⟨0x0D, 1, 3⟩
def memCorrected : RecName := ⟨0x0D, 2, 1⟩
def dramTrain : RecName := ⟨0x0D, 3, 3⟩
def dramTemp : RecName := ⟨0x0D, 4, 1⟩
def ownerProofFail : RecName := ⟨0x0E, 0, 2⟩
def provMismatch : RecName := ⟨0x0E, 1, 3⟩
def provSkip : RecName := ⟨0x0E, 2, 2⟩
def svnFuse : RecName := ⟨0x0E, 3, 3⟩
def moltSkipped : RecName := ⟨0x0E, 4, 2⟩
def moltFailed : RecName := ⟨0x0E, 5, 3⟩
def outOfStep : RecName := ⟨0x10, 0, 3⟩
def standbyLost : RecName := ⟨0x10, 1, 2⟩
def redSwitched : RecName := ⟨0x10, 2, 2⟩
def switchUneligible : RecName := ⟨0x10, 3, 2⟩
def holdStart : RecName := ⟨0x10, 4, 2⟩
def fallbackBlack : RecName := ⟨0x10, 5, 3⟩
def joinFail : RecName := ⟨0x10, 6, 3⟩
def refclkLost : RecName := ⟨0x11, 0, 3⟩
def pllUnlock : RecName := ⟨0x11, 1, 3⟩
def pllRelock : RecName := ⟨0x11, 2, 1⟩
def eventOverflow : RecName := ⟨0x11, 3, 2⟩
def domainReset : RecName := ⟨0x11, 4, 1⟩
end Rec

/-- Whether `ALERT_N` is driven low (R429). -/
def State.alertLow (s : State) : Bool :=
  s.bit F.ERR_CFG_ALERT_EN && s.err.log.any fun r => decide (s.fld F.ERR_CFG_ALERT_SEV ≤ r.sev.toNat)

/-- A change of `ALERT_N` since the state `before` leaves on its pin (R429). -/
def State.alertEdge (before s : State) : State :=
  if before.alertLow = s.alertLow then s else s.emit (.alertN s.alertLow)

/-- The record as its 32 bytes (R422). -/
def recBytes (r : ErrRec) : List Byte :=
  bytesBE 4 r.seq.toNat ++ bytesBE 2 r.code.toNat ++
    [r.block, BitVec.ofNat 8 (r.sev.toNat + 4 * r.phase.toNat + 16 * r.tstate.toNat + 64 * r.prior.toNat)] ++
    bytesBE 8 r.sec.toNat ++ bytesBE 4 r.ns.toNat ++ ((r.detail ++ List.replicate 12 0).take 12)

/-- The record that 32 bytes hold (R422). -/
def readRec (b : List Byte) : ErrRec :=
  let flags := b.getD 7 0
  { seq := BitVec.ofNat 32 (fieldBE b 0 4), code := BitVec.ofNat 16 (fieldBE b 4 2), block := b.getD 6 0,
    sev := flags.setWidth 2, phase := (flags >>> 2).setWidth 2, tstate := (flags >>> 4).setWidth 2, prior := flags.getLsbD 6,
    sec := BitVec.ofNat 64 (fieldBE b 8 8), ns := BitVec.ofNat 32 (fieldBE b 16 4), detail := slice b 20 12 }

/-- A record joins the log; when the log is full the record with the lowest `LOG_SEQ` gives way (R425). -/
def State.pushRec (s : State) (r : ErrRec) : State :=
  if 512 ≤ s.err.log.length then
    ({ s with err := { s.err with log := s.err.log.drop 1 ++ [r] } }).bump (F.ERR_CNT_COUNT 4)
  else { s with err := { s.err with log := s.err.log ++ [r] } }

/-- The source of an event crossing sends what it has counted while no request is outstanding (R383). -/
def Crossing.request (c : Crossing) : Crossing :=
  if c.busy ∨ c.count = [] then c else { busy := true, sent := c.count, sentOvf := c.sat }

def State.updCross (s : State) (k j : Nat) (f : Crossing → Crossing) : State :=
  { s with cdc := { s.cdc with cross := s.cdc.cross.modify (k - 7) fun l => l.modify j f } }

/-- An event at the source of crossing `k` (7 to 14), sub-instance `j`, for the counters at `addrs` (R383). -/
def State.crossEvent (s : State) (k j : Nat) (addrs : List Nat := []) : State :=
  s.updCross k j fun c =>
    (if c.count.length < 255 then { c with count := c.count ++ [addrs] } else { c with sat := true }).request

/-- An ALARM cell with a record as payload, at most 64 in a second (R430, R476). -/
def State.alarmCell (s : State) (r : ErrRec) : State :=
  let dst := BitVec.ofNat 16 (s.fld F.ERR_CFG_ALARM_DST)
  if dst = 0 ∨ s.addr = 0 then s
  else
    let sec := timeSec s.clk
    let n := if s.err.alarmSec = sec then s.err.alarmCount else 0
    if 64 ≤ n then
      ({ s with err := { s.err with alarmSec := sec, alarmCount := n } }).bump (F.ERR_CNT_COUNT 6)
    else
      let c := mkCell CellType.alarm dst s.addr 0 s.fab.alarmCount 0 (recBytes r)
      ((({ s with err := { s.err with alarmSec := sec, alarmCount := n + 1 } }).bump (F.ERR_CNT_COUNT 5)).originate
        c |> fun t => { t with fab := { t.fab with alarmCount := t.fab.alarmCount + 1 } })

/-- The detecting unit writes a record (R422 to R425), with its notices (R430) and `ALERT_N` (R429). -/
def State.log (s : State) (n : RecName) (detail : List Byte) (phase : Nat := 0) : State :=
  let r : ErrRec :=
    { seq := s.err.next, code := BitVec.ofNat 16 (n.block * 256 + n.index), block := BitVec.ofNat 8 n.block,
      sev := BitVec.ofNat 2 n.sev, phase := BitVec.ofNat 2 phase,
      tstate := BitVec.ofNat 2 (s.fld F.TIME_STAT_STATE), prior := false,
      sec := BitVec.ofNat 64 (timeSec s.clk), ns := BitVec.ofNat 32 (timeNs s.clk),
      detail := (detail ++ List.replicate 12 0).take 12 }
  let t := ({ s with err := { s.err with next := s.err.next + 1 } }).pushRec r
  let t := t.bump (F.ERR_CNT_COUNT n.sev)
  let t := if s.fld F.ERR_CFG_ALARM_SEV ≤ n.sev then (t.crossEvent 7 0).alarmCell r else t
  State.alertEdge s t

/-- Whether a limit of `max` per second for `key` has room in the present second, and the state with one more counted
(R476). -/
def State.limit (s : State) (key max : Nat) : Bool × State :=
  let sec := timeSec s.clk
  let n := match s.err.limits.find? fun e => e.1 == key with
    | some (_, t, c) => if t = sec then c else 0
    | none => 0
  if n < max then
    (true, { s with err := { s.err with
      limits := (key, sec, n + 1) :: s.err.limits.filter fun e => e.1 != key } })
  else (false, s)

/-- A step of the clock starts every count of its second or millisecond afresh (R476). -/
def State.clearLimits (s : State) : State :=
  { s with err := { s.err with limits := [], alarmCount := 0 },
           fab := { s.fab with recordMs := [] }, cmd := { s.cmd with authNotice := [] } }

/-- At most one record per key in a millisecond of the local clock (R259, R476). -/
def State.logMs (s : State) (key : Nat) (n : RecName) (detail : List Byte) : State :=
  let ms := s.clk / usU 1000
  if s.fab.recordMs.any fun e => e.1 == key && e.2 == ms then s
  else
    ({ s with fab := { s.fab with recordMs := (key, ms) :: s.fab.recordMs.filter fun e => e.1 != key } }).log n detail

end Sys2Proof.Machine
end

