-- ==== Sys2Proof/Machine/Grid.lean ====
section
/-! DEFINITION. The frame grid (R54 to R57), schedule targets (R9, R114), and the registers as they will be once
pending commits apply (R105, R117, R120). -/

namespace Sys2Proof.Machine

open Sys2Proof

/-! ## Registers of a register file that is not the state's own -/

/-- A field of a register file. -/
def rfld (regs : List (Nat × Word)) (f : Fld) : Nat := f.get (sparseGet resetWord regs f.addr)

/-- A frame grid: period numerator and denominator, offset in ns (R54). -/
structure Grid where
  num : Nat
  den : Nat
  off : Nat
deriving DecidableEq, Repr

/-- Whether two grids are one. -/
def Grid.same (g h : Grid) : Bool := g.num == h.num && g.den == h.den && g.off == h.off

theorem Grid.same_iff (g h : Grid) : g.same h = true ↔ g = h := by
  cases g; cases h; simp [Grid.same, and_assoc]

/-- The grid a register file holds. -/
def gridOf (regs : List (Nat × Word)) : Grid :=
  ⟨rfld regs F.TIME_FRAME_NUM_FRAME_NUM, rfld regs F.TIME_FRAME_DEN_FRAME_DEN,
   rfld regs F.TIME_FRAME_OFFSET_FRAME_OFFSET_NS⟩

def phasesOf (regs : List (Nat × Word)) : Nat := rfld regs F.TIME_PHASE_CFG_PHASES
def phaseStartOf (regs : List (Nat × Word)) (p : Nat) : Nat := rfld regs (F.TIME_PHASE_START_PHASE_START_NS p)
def litOf (regs : List (Nat × Word)) (p : Nat) : Nat := rfld regs (F.TIME_LIT_LIT_NS p)
def delayOf (regs : List (Nat × Word)) : Nat := rfld regs F.TIME_PHASE_CFG_DELAY

/-- `FRAME_NUM` x 10^9 x 2^32. -/
def Grid.span (g : Grid) : Nat := g.num * 1000000000 * 2 ^ 32

/-- W(n) in clock units: exact, truncated to 2^-32 ns (R54). -/
def Grid.beat (g : Grid) (n : Nat) : Nat := (n * g.span / g.den + g.off * 2 ^ 32) * 2 ^ 32

/-- The latest frame whose wingbeat is at or before `t`; none before the wingbeat of frame 0. -/
def Grid.frameAt (g : Grid) (t : Nat) : Option Nat :=
  let u := t / 2 ^ 32
  let o := g.off * 2 ^ 32
  if u < o ∨ g.span = 0 then none else some (((u - o + 1) * g.den - 1) / g.span)

/-- The first frame whose wingbeat is at or after `t`. -/
def Grid.frameFrom (g : Grid) (t : Nat) : Nat :=
  let u := (t + (2 ^ 32 - 1)) / 2 ^ 32
  let o := g.off * 2 ^ 32
  if u ≤ o then 0 else if g.span = 0 then 0 else ((u - o) * g.den - 1) / g.span + 1

/-- The frame period in clock units. -/
def Grid.period (g : Grid) : Nat := g.num * secU / g.den

/-- The frame a target names on a grid: the f-th wingbeat in second s (R9). -/
def Grid.target (g : Grid) (sec f : Nat) : Option Nat :=
  let n := g.frameFrom (sec * secU) + f
  if g.beat n < (sec + 1) * secU then some n else none

/-- The current phase: the highest p below `PHASES` whose start in the current frame has passed (R38). -/
def State.curPhase (s : State) : Nat :=
  let w := s.tm.curBeat
  ((List.range (phasesOf s.regs)).filter fun p => w + phaseStartOf s.regs p * nsU ≤ s.clk).foldl max 0

/-- T_latch(n, p) in clock units (R66), signed since `LATCH_OFFSET_NS` is: grid and `DELAY` by one register file, phase
starts and the offset by another. -/
def latchIn (image layout : List (Nat × Word)) (n p : Nat) : Int :=
  ((gridOf image).beat (n + delayOf image) : Int) + (phaseStartOf layout p * nsU : Nat) +
    sext 32 (rfld layout F.TIME_LATCH_OFFSET_LATCH_OFFSET_NS) * (nsU : Nat)

/-- T_latch(n, p) under one register file. -/
def latchAt (regs : List (Nat × Word)) (n p : Nat) : Int := latchIn regs regs n p

/-! ## Pending entries in the order in which they apply (R117) -/

/-- An entry's effect on a register file; the other kinds leave registers to the commit (R106). -/
def Entry.onRegs (e : Entry) (regs : List (Nat × Word)) : List (Nat × Word) :=
  match e with
  | .write a v => sparsePut resetWord regs a v
  | .modify a m v => sparsePut resetWord regs a ((sparseGet resetWord regs a &&& ~~~m) ||| (v &&& m))
  | _ => regs

def entriesOnRegs (es : List Entry) (regs : List (Nat × Word)) : List (Nat × Word) :=
  es.foldl (fun r e => e.onRegs r) regs

/-- The number of a transaction's state (R108). -/
def TxnState.number : TxnState → Nat
  | .opened => 1
  | .pending => 2
  | .prepared => 3
  | .applied => 4
  | .aborted => 5
  | .uncertain => 6

/-- Insertion into a list ordered by a relation, after the elements that may stand before it. -/
def insertBy {α : Type} (before : α → α → Bool) (x : α) : List α → List α
  | [] => [x]
  | y :: t => if before x y then x :: y :: t else y :: insertBy before x t

/-- A stable sort by insertion. -/
def sortBy {α : Type} (before : α → α → Bool) (l : List α) : List α :=
  l.foldl (fun acc x => insertBy before x acc) []

/-- Acceptance order: a PREPARED transaction without a decision stands after those accepted (R117). -/
def Txn.order (t : Txn) : Nat := if t.accepted = 0 then 2 ^ 64 + t.began else t.accepted

/-- Each session's transactions take that session's places in transaction-ID order (R117). -/
def sessionOrder (l : List Txn) : List Txn :=
  (l.foldl (fun (acc : List Txn × List Txn) t =>
    match acc.2.find? fun u => u.uid == t.uid with
    | some u => (acc.1 ++ [u], acc.2.erase u)
    | none => (acc.1 ++ [t], acc.2)) ([], sortBy (fun a b => decide (a.began < b.began)) l)).1

/-- PENDING and PREPARED transactions in the order in which they apply: by instant, then as R117 orders one instant. -/
def State.pendingTxns (s : State) : List Txn :=
  let l := s.txn.txns.filter fun t => t.state = .pending || t.state = .prepared
  let byA := sortBy (fun a b => decide (a.at_ < b.at_ ∨ (a.at_ = b.at_ ∧ a.order < b.order))) l
  (byA.map Txn.at_).eraseDups.flatMap fun i => sessionOrder (byA.filter fun t => t.at_ == i)

/-- Whether a transaction that pends is to apply at its instant, by the decisions received so far (R123, R128). -/
def Txn.counts (x : Txn) : Bool := x.state = .pending || (x.gotCommit && !x.gotAbort)

/-- The grid in force: a commit that changes it does so at its target wingbeat, before its apply instant where that is
later (R57). -/
def State.grid (s : State) : Grid :=
  gridOf ((s.pendingTxns.filter fun x => x.begun && x.counts).foldl (fun r x => entriesOnRegs x.entries r) s.regs)

/-- W(n) on the grid in force. -/
def State.beat (s : State) (n : Nat) : Nat := s.grid.beat n

/-- A plain read of a shadowed register: the value it will hold once every pending and prepared commit has applied
(R105). A shadow copy that a snapshot brought (R351) stands until a commit writes its register (log entry 57). -/
def State.shadowWord (s : State) (a : Nat) : Word :=
  sparseGet resetWord (s.pendingTxns.foldl (fun r t => entriesOnRegs
    (t.entries.filter fun e => match e with | .write b _ => b == a | .modify b _ _ => b == a | _ => false) r)
    [(a, ((s.txn.shadows.find? fun e => e.1 == a).map Prod.snd).getD (s.word a))]) a

/-- The pending and prepared transactions that apply at or before instant `t`, in order. -/
def State.pendingBefore (s : State) (t : Nat) : List Txn := s.pendingTxns.filter fun x => x.at_ ≤ t

/-- The registers once the pending and prepared commits up to instant `t` have applied (R114, R120). -/
def State.regsBefore (s : State) (t : Nat) : List (Nat × Word) :=
  (s.pendingBefore t).foldl (fun r x => entriesOnRegs x.entries r) s.regs

/-- What a target comes to: the frame, its wingbeat, the apply instant, or nothing when it is malformed (R9, R114).
The grid is the one in force just before the wingbeat: the pending commits that apply before the target have their
effect; `own` are the transaction's own entries, which count for the phase layout. -/
structure Aim where
  frame : Nat
  beat : Nat
  at_ : Nat
  regrid : Bool                              -- a pending commit before the target changes the grid (R116)
deriving DecidableEq, Repr

/-- The instant of the f-th wingbeat from second `sec` on the grid a register file holds. -/
def targetBeat (regs : List (Nat × Word)) (sec f : Nat) : Nat :=
  (gridOf regs).beat ((gridOf regs).frameFrom (sec * secU) + f)

/-- The registers just before the wingbeat a target names (R114): those of `txns`, in order, whose own target wingbeat
lies before it and within the second have applied. DESIGN CHOICE (log entry 63): in a second in which a pending commit
changes the grid, the f-th wingbeat can agree with R114 on the old grid and on the new one, or on neither; the commits are
then taken in the order in which they apply, each judged by the grid that those before it leave. -/
def regsForTarget (txns : List Txn) (regs : List (Nat × Word)) (sec f : Nat) : List (Nat × Word) :=
  txns.foldl (fun r x =>
    if x.beat < min (targetBeat r sec f) ((sec + 1) * secU) then entriesOnRegs x.entries r else r) regs

/-- The registers after the pending commits that apply before phase `p` of the frame with its wingbeat at `w` (R9). -/
def regsUntil (txns : List Txn) (regs : List (Nat × Word)) (w p : Nat) : List (Nat × Word) :=
  txns.foldl (fun r x =>
    if x.beat < w ∨ (x.beat = w ∧ x.phase < p) then entriesOnRegs x.entries r else r) regs

/-- The registers whose phase layout is in force at the wingbeat `w`: every commit whose target wingbeat is not after it
counts (R57, R114). -/
def layoutAt (txns : List Txn) (regs : List (Nat × Word)) (w : Nat) : List (Nat × Word) :=
  txns.foldl (fun r x => if x.beat ≤ w then entriesOnRegs x.entries r else r) regs

/-- What a target names (R9, R114): the number of phases counts the commits before the target and the transaction's own
entries, the phase start the layout in force at the wingbeat. -/
def State.aim (s : State) (own : List Entry) (t : Target) : Option Aim :=
  let g := gridOf (regsForTarget s.pendingTxns s.regs t.sec.toNat t.f.toNat)
  match g.target t.sec.toNat t.f.toNat with
  | none => none
  | some n =>
    let w := g.beat n
    let layout := entriesOnRegs own (layoutAt s.pendingTxns s.regs w)
    if t.p.toNat < phasesOf (entriesOnRegs own (regsUntil s.pendingTxns s.regs w t.p.toNat)) then
      some ⟨n, w, w + phaseStartOf layout t.p.toNat * nsU, !g.same s.grid⟩
    else none

/-- Whether an entry changes a grid register from what a register file holds (R116). -/
def gridChange (es : List Entry) (regs : List (Nat × Word)) : Bool :=
  !(gridOf (entriesOnRegs es regs)).same (gridOf regs)

/-- The registers just before a held transaction applies. -/
def State.regsOf (s : State) (x : Txn) : List (Nat × Word) :=
  (s.pendingTxns.takeWhile fun y => !(y.uid == x.uid && y.began == x.began)).foldl
    (fun r y => entriesOnRegs y.entries r) s.regs

/-- A pending or prepared commit that changes the grid (R116). DEDUCED (log entry 41): an UNCERTAIN transaction keeps its
pending entry (R113) but is no pending commit. -/
def State.gridPending (s : State) : List Txn :=
  s.pendingTxns.filter fun x => gridChange x.entries (s.regsOf x)

/-- Entries in use, at most 16 (R113). -/
def State.pendUsed (s : State) : Nat :=
  (s.txn.txns.filter fun t => t.state = .pending || t.state = .prepared || t.state = .uncertain).length +
    s.txn.actions.length

/-- The lowest free place of TXN_PEND (log entry 14). -/
def State.pendFree (s : State) : Nat :=
  ((List.range 16).find? fun k =>
    !(s.txn.txns.any fun t => (t.state = .pending || t.state = .prepared || t.state = .uncertain) && t.pend == k) &&
    !(s.txn.actions.any fun a => a.pend == k)).getD 16

/-- Whether anything is pending that keeps the clock from stepping (R46): a commit or a scheduled action. -/
def State.anyPending (s : State) : Bool := !s.pendingTxns.isEmpty || !s.txn.actions.isEmpty

end Sys2Proof.Machine
end

