-- ==== Sys2Proof/Machine/Clock.lean ====
section
/-! DEFINITION. The local clock: states, steps, the servo (R36 to R51), time cells (R58 to R65), link delay (R63),
PTP (R49, R50, R138 to R143), pulses (R51, R52). -/

namespace Sys2Proof.Machine

open Sys2Proof

/-! ## The next wingbeat (R54, R57) -/

/-- The instant of the next wingbeat: W of the next frame, or where a change of the grid has just applied its own target
(R57). -/
def State.nextBeat (s : State) : Nat := s.tm.beatAt.getD (s.beat s.tm.nextFrame)

/-- The frame that follows frame `n`, whose wingbeat is at `t`: where the grid changes at it, the first of the new grid at
least 1 ms later (R57). -/
def State.followingFrame (s : State) (n t : Nat) : Nat :=
  if s.tm.beatAt.isSome then s.grid.frameFrom (t + usU 1000) else n + 1

/-! ## Numbers -/

/-- Clock units as ns. -/
def nsOf (t : Nat) : Rat := (t : Rat) / (nsU : Nat)

/-- The local clock in ns. -/
def State.nowNs (s : State) : Rat := nsOf s.clk

/-- A tick of the local clock in ns, before its increment is held to 2^-64 ns (R37). -/
def State.tickNs (s : State) : Rat :=
  (2 : Rat) / (3 : Nat) * (1 + (sext 32 (s.fld F.TIME_RATE_RATE) : Rat) / (2 ^ 40 : Nat))

/-- A stamp counted in 1/128 tick, 128 a tick of `State.tick` (R60), as local time in 2^-32 ns, truncated as the visible
clock is (R37). DEDUCED: between its tick and the present one the clock has run, or will run, at the present increment. -/
def State.stampTime (s : State) (u : Nat) : Nat :=
  ((s.clk : Int) + ((u : Int) - (128 * s.tick : Nat)) * (s.inc : Nat) / (128 : Nat)).toNat / 2 ^ 32

/-- The local time of the tick nearest to `t`, the earlier on a tie (R54, R66), at the present increment. -/
def State.onTick (s : State) (t : Int) : Int :=
  let d := t - (s.clk : Int)
  let k := -((s.inc - 2 * d : Int) / (2 * s.inc : Nat))
  (s.clk : Int) + k * (s.inc : Nat)

def absQ (q : Rat) : Rat := if q < 0 then -q else q

/-! ## Clock states (R42, R43) -/

def stFree : Nat := 0
def stAcquiring : Nat := 1
def stLocked : Nat := 2
def stHoldover : Nat := 3

def State.timeState (s : State) : Nat := s.fld F.TIME_STAT_STATE

/-- Sources (R39). -/
def srcFree : Nat := 0
def srcInternal : Nat := 1
def srcPtp : Nat := 2
def srcFsync : Nat := 3
def srcPps : Nat := 4
def srcFabric : Nat := 5

def State.source (s : State) : Nat := s.fld F.TIME_SRC_SOURCE

def State.updTm (s : State) (f : TimeSt → TimeSt) : State := { s with tm := f s.tm }

/-- The best master by the data-set comparison of IEEE 1588: the least in the order of its data (R50; log entry 15). -/
def lexLt : List Nat → List Nat → Bool
  | a :: s, b :: t => a < b || (a == b && lexLt s t)
  | [], b :: _ => b == b
  | _, [] => false

/-- Ticks of `ANN_TIMEOUT` + 2 Announce intervals (R44). -/
def State.announceTicks (s : State) (interval : Int) : Nat :=
  let n := s.fld F.TIME_PTP_CFG_ANN_TIMEOUT + 2
  if 0 ≤ interval then n * 1500000000 * 2 ^ interval.toNat else n * 1500000000 / 2 ^ (-interval).toNat

/-- Masters heard on an enabled port within that time (R44, R50). -/
def State.liveMasters (s : State) : List Master :=
  s.tm.ptp.masters.filter fun m =>
    decide (s.tick < m.last + s.announceTicks m.interval) && bitOf (s.fld F.TIME_PTP_CFG_PORTS) m.port.toNat

def bestMaster (l : List Master) : Option Master :=
  l.foldl (fun b m => match b with
    | none => some m
    | some x => if lexLt (m.rank ++ [m.identity.toNat, m.portNumber.toNat])
        (x.rank ++ [x.identity.toNat, x.portNumber.toNat]) then some m else b) none

/-- The master selected: its identity in `TIME_PTP_MASTER`, the lowest enabled port on which it is heard (R50, R140);
its first sample has no previous one (R48), and the samples of R43 are counted afresh (R50). -/
def State.selectMaster (s : State) (m : Master) : State :=
  let ports := (s.liveMasters.filter fun x => x.identity == m.identity && x.portNumber == m.portNumber).map Master.port
  let port := ports.foldl (fun a b => if b < a then b else a) m.port
  let t := s.updTm fun tm => { tm with
    prev := none, lockRun := 0,
    ptp := { tm.ptp with
                         selected := some (m.identity, m.portNumber), selPort := port, lastSync := none,
                         ms := none, means := [], t3s := none, lastReq := none, answered := false } }
  let t := t.setFld (F.TIME_PTP_MASTER_VALUE 0) (m.identity.toNat / 2 ^ 32)
  let t := t.setFld (F.TIME_PTP_MASTER_VALUE 1) (m.identity.toNat % 2 ^ 32)
  t.setFld (F.TIME_PTP_MASTER_VALUE 2) m.portNumber.toNat

/-- A change of clock state: every count of consecutive samples starts afresh (R43). Entering ACQUIRING forgets the
followed root and the previous sample and runs the master selection (R40, R48, R50). DESIGN CHOICE (log entry 52): it counts
as a change of the followed root (R62, a match) even where the same root is followed afterwards. -/
def State.enterState (s : State) (st : Nat) : State :=
  let t := (s.setFld F.TIME_STAT_STATE st).updTm fun tm => { tm with lockRun := 0, outRun := 0 }
  if st = stAcquiring then
    let t := t.updTm fun tm => { tm with
                                         root := none, prev := none, stepped := false, switchTest := false,
                                         cellSeq := none, mismatch := false }
    if t.source = srcPtp then
      let t := t.updTm fun tm => { tm with ptp := { tm.ptp with
                                                               selected := none, ms := none, means := [], t3s := none,
                                                               lastSync := none, answered := false } }
      match bestMaster t.liveMasters with
      | some m => t.selectMaster m
      | none => t
    else t
  else t

/-- Entry into HOLDOVER with its record; cause 0 SOURCE_LOST, 1 OFFSET_JUMP (R43). The clock runs at `acc`, or at
`TIME_RATE` as the host wrote it (R42). -/
def State.enterHoldover (s : State) (cause : Nat) : State :=
  let port := if s.source = srcPtp then s.tm.ptp.selPort.toNat
    else if s.source = srcFabric then s.fld F.TIME_STAT_UPSTREAM_NOW else 0
  let t := (s.enterState stHoldover).updTm fun tm => { tm with holdStart := s.tick, switchTest := false }
  let t := if t.bit F.TIME_CTRL_SERVO_HOST then t else t.setFld F.TIME_RATE_RATE (toBits 32 t.tm.acc)
  t.log Rec.holdover [BitVec.ofNat 8 cause, BitVec.ofNat 8 s.source, BitVec.ofNat 8 port]

/-! ## Steps (R45, R46) -/

/-- The grid's progress after a step: the next wingbeat is the first after the new time (R46). -/
def State.regrid (s : State) : State :=
  let n := (s.grid.frameAt s.clk).getD 0
  s.updTm fun tm => { tm with
    nextFrame := s.grid.frameFrom (s.clk + 1)
    curFrame := n
    curBeat := s.grid.beat n
    beatAt := none
    nextPps := timeSec s.clk + 1 }

/-- Loads, latches and ends of lit windows that lie after the new time are still to come, also where they had come before a
step backward (R46). -/
def State.replan (s : State) : State :=
  let latch (n p : Nat) : Int := latchAt s.regs n p
  let past (t : Int) : Bool := decide (t ≤ (s.clk : Int))
  let lit (p : Nat) : Int := (litOf s.regs p * nsU : Nat)
  let load : Int := (usU (s.fld F.LDR_CFG_LOAD_US) : Nat)
  { s with tile := { s.tile with
      lastLoad := s.tile.lastLoad.filter fun l => past (latch l.1 l.2 - load)
      plans := (s.tile.plans.filter fun x => past (latch x.frame x.phase - load)).map fun x => { x with
        latched := x.latched && past (latch x.frame x.phase)
        ended := x.ended && past (latch x.frame x.phase + lit x.phase)
        pulsed := x.pulsed && past (latch x.frame x.phase + lit x.phase) }
      chains := s.tile.chains.map fun c => { c with
        timedEnd := min c.timedEnd (s.clk : Int)
        reportDue := c.reportDue.filter fun r => decide (r.1 ≤ (s.clk : Int)) } } }

/-- A step to local time `t`: counted in `TIME_CNT[7]` and recorded with the time before; kind 0 in ACQUIRING, 1 SET,
2 ADJ (R45, R475). Counts per second and millisecond start afresh (R476). -/
def State.stepTo (s : State) (t : Nat) (kind : Nat) : State :=
  let before := bytesBE 4 (timeSec s.clk) ++ bytesBE 4 (timeNs s.clk)
  let u := ({ s with clk := t }).regrid.replan.clearLimits
  (u.bump (F.TIME_CNT_COUNT 7)).log Rec.clockStep (before ++ [BitVec.ofNat 8 kind])

/-- The condition of R46 on a request that could step the clock: 0 when met, else the code of `CTRL_IGN`. -/
def State.stepGate (s : State) (needsState : Bool) : Nat :=
  if s.anyPending then 2
  else if 3 ≤ s.mode ∧ s.mode ≤ 5 then 3
  else if needsState ∧ s.timeState ≠ stFree ∧ ¬ s.bit F.TIME_CTRL_SERVO_HOST then 1
  else 0

/-- `TIME_CTRL.SET` (R38, R46). -/
def State.timeSet (s : State) : State :=
  match s.stepGate true with
  | 0 =>
    let sec := s.fld (F.TIME_SET_VALUE 0) * 2 ^ 32 + s.fld (F.TIME_SET_VALUE 1)
    let ns := s.fld (F.TIME_SET_VALUE 2) % 2 ^ 30
    s.stepTo (wrapTime ((sec * secU + ns * nsU : Nat) : Int)) 1
  | c => s.setFld F.TIME_STAT_CTRL_IGN c

/-- `TIME_CTRL.ADJ` (R38, R46). -/
def State.timeAdj (s : State) : State :=
  match s.stepGate true with
  | 0 => s.stepTo (wrapTime ((s.clk : Int) + sext 32 (s.fld F.TIME_ADJ_ADJ_NS) * (nsU : Nat))) 2
  | c => s.setFld F.TIME_STAT_CTRL_IGN c

/-- `TIME_CTRL.REACQUIRE` and the armed re-acquisition (R43, R46): from HOLDOVER to ACQUIRING; where the conditions of R46
fail the request is ignored and noted, in whatever state. -/
def State.reacquire (s : State) : State :=
  match s.stepGate false with
  | 0 => if s.timeState = stHoldover then s.enterState stAcquiring else s
  | c => s.setFld F.TIME_STAT_CTRL_IGN c

/-- `TIME_CTRL.SNAP` (R38). -/
def State.timeSnap (s : State) : State :=
  let ws := [timeSec s.clk / 2 ^ 32, timeSec s.clk % 2 ^ 32, timeNs s.clk, timeFrac s.clk, s.tm.curFrame / 2 ^ 32,
             s.tm.curFrame % 2 ^ 32, s.curPhase]
  (List.range 7).foldl (fun t k => t.setFld (F.TIME_SNAP_VALUE k) (ws.getD k 0)) s

/-- `TIME_CTRL.CNT_CLR` (R38). -/
def State.timeCntClr (s : State) : State :=
  (List.range 8).foldl (fun t k => t.setFld (F.TIME_CNT_COUNT k) 0) s

/-! ## The servo (R48) -/

/-- A value in 2^-40 rounded to the nearest, ties to even, and saturated to 32 bits. -/
def q40 (v : Rat) : Int :=
  let w := v * (2 ^ 40 : Nat)
  satInt 32 (divRound w.num w.den)

/-- One sample applied to the servo: offset and interval in ns. DEDUCED: the spec evaluates the three lines exactly and
rounds `acc` after the update, so `rate` is taken from `acc` before it is rounded (log entry 52). With an interval of 0 the quotient has no stated value
and is free (log entry 16). -/
def State.servo (s : State) (x t : Rat) : State :=
  if s.bit F.TIME_CTRL_SERVO_HOST then s
  else
    let e : Rat := if t = 0 then ((Config.free 48 [s.rnd] : Nat) : Rat) - (2 ^ 31 : Nat) else x / t
    let s := if t = 0 then (s.draw).2 else s
    let acc : Rat := (s.tm.acc : Rat) / (2 ^ 40 : Nat) + e / (2 ^ s.fld F.TIME_SERVO_KI_SHIFT : Nat)
    let rate := acc + e / (2 ^ s.fld F.TIME_SERVO_KP_SHIFT : Nat)
    (s.setFld F.TIME_RATE_RATE (toBits 32 (q40 rate))).updTm fun tm => { tm with acc := q40 acc }

/-- A sample from the source (R43, R45, R48): source time and offset x, both in ns. -/
def State.sample (s : State) (src x : Rat) : State :=
  let s := s.setFld F.TIME_OFFSET_X (toBits 32 (satInt 32 (openRound 48 (x * 256))))
  let s := s.setFld F.TIME_OFFSET_SEQ_COUNT (s.fld F.TIME_OFFSET_SEQ_COUNT + 1)
  let prev := s.tm.prev
  let first := s.tm.switchTest
  let s := s.updTm fun tm => { tm with prev := some src, switchTest := false }
  let lockNs : Rat := s.fld F.TIME_SERVO_LOCK_NS
  let outNs : Rat := s.fld F.TIME_BOUNDS_OUTLIER_NS
  let lockCount := s.fld F.TIME_SERVO_LOCK_COUNT
  let apply (u : State) : State := match prev with | some p => u.servo x (src - p) | none => u
  if s.timeState = stAcquiring then
    let s := if absQ x > (s.fld F.TIME_BOUNDS_STEP_NS : Rat) ∧ ¬ s.tm.stepped then
        (s.updTm fun tm => { tm with stepped := true }).stepTo
          (wrapTime ((s.clk : Int) + openRound 45 (x * (nsU : Nat)))) 0
      else s
    let s := apply s
    let run := if absQ x ≤ lockNs then s.tm.lockRun + 1 else 0
    let s := s.updTm fun tm => { tm with lockRun := run }
    if lockCount ≤ run then s.enterState stLocked else s
  else if s.timeState = stLocked then
    if absQ x > outNs then
      let s := (s.bump (F.TIME_CNT_COUNT 4)).updTm fun tm => { tm with outRun := tm.outRun + 1 }
      if first ∨ 16 ≤ s.tm.outRun then s.enterHoldover 1 else s
    else apply (s.updTm fun tm => { tm with outRun := 0 })
  else if s.timeState = stHoldover then
    if absQ x ≤ outNs then
      let s := s.updTm fun tm => { tm with lockRun := tm.lockRun + 1, outRun := 0 }
      if lockCount ≤ s.tm.lockRun then s.enterState stLocked else s
    else
      let s := s.updTm fun tm => { tm with lockRun := 0, outRun := tm.outRun + 1 }
      if 16 ≤ s.tm.outRun ∧ s.bit F.TIME_POLICY_AUTO_REACQ then s.reacquire else s
  else s

/-! ## TIME_SRC (R39, R41, R43) -/

/-- A write of `TIME_SRC` (R43): `SOURCE` only in M1, M2, M6 and M7, values 6 and 7 act as FREE and read back as 0;
the state moves only when `SOURCE` changes; `UPSTREAM` becomes the port followed. -/
def State.writeTimeSrc (s : State) (v : Word) : State :=
  let old := s.source
  let want := F.TIME_SRC_SOURCE.get v
  let want := if 6 ≤ want then 0 else want
  let src := if 3 ≤ s.mode ∧ s.mode ≤ 5 then old else want
  let s := s.setFld F.TIME_SRC_SOURCE src
  let s := s.setFld F.TIME_SRC_UPSTREAM (F.TIME_SRC_UPSTREAM.get v)
  let s := s.setFld F.TIME_SRC_ALT_UPSTREAM (F.TIME_SRC_ALT_UPSTREAM.get v)
  let s := s.setFld F.TIME_SRC_FWD_MASK (F.TIME_SRC_FWD_MASK.get v)
  let s := s.setFld F.TIME_STAT_SOURCE src
  let up := F.TIME_SRC_UPSTREAM.get v
  let s := if s.fld F.TIME_STAT_UPSTREAM_NOW ≠ up then
      (s.setFld F.TIME_STAT_UPSTREAM_NOW up).updTm fun tm => { tm with
        prev := none, cellSeq := none,
        switchTest := false, lastValid := s.tick }
    else s
  if src = old then s
  else
    let s := s.updTm fun tm => { tm with
      lastValid := s.tick, lastPeriodic := s.tick, root := none, prev := none,
      cellSeq := none, mismatch := false }
    let s := s.setFld F.TIME_STAT_DEPTH 0
    if src = srcFree then s.enterState stFree
    else if src = srcInternal then s.enterState stLocked
    else s.enterState stAcquiring

/-! ## Time cells (R58 to R62) -/

/-- The 12 words of the tag (R58). -/
def State.timingTag (s : State) : Word :=
  crc32c (wordsBytes ((List.range 12).map fun i => s.word (0x20200 + 4 * i)))

/-- An announcement entry (R126). -/
structure Announce where
  src : BitVec 16
  id : BitVec 16
  frame : BitVec 24
  commit : Bool
  phase : BitVec 2
deriving DecidableEq, Repr

/-- The `ANNOUNCE` field, 20 bytes (R126). -/
def announceBytes (l : List Announce) : List Byte :=
  let e (a : Announce) : List Byte :=
    bytesBE 2 a.src.toNat ++ bytesBE 2 a.id.toNat ++ bytesBE 3 a.frame.toNat ++
      [BitVec.ofNat 8 (128 + 64 * a.commit.toNat + a.phase.toNat)]
  ([BitVec.ofNat 8 l.length, 0, 0, 0] ++ l.flatMap e ++ List.replicate 16 0).take 20

/-- The decisions that the wingbeat cell of frame `k` carries, in the order of their recording (R126; DESIGN CHOICE: the
spec states no order of the entries, and this one lets a participant accept them as the root did, R117). -/
def State.announcesAt (s : State) (k : Nat) : List Decision :=
  s.txn.announced.filter fun d => k + 1 ≤ d.frame && d.frame ≤ k + 3

/-- A time cell's payload (R58); `origin` in 2^-32 ns. -/
def timePayload (origin : Nat) (correction : BitVec 64) (frame : BitVec 64) (seq : Word) (root : BitVec 16)
    (hops status : BitVec 8) (tag : Word) (ann : List Byte) : List Byte :=
  bytesBE 8 (origin / (1000000000 * 2 ^ 32)) ++ bytesBE 4 (origin / 2 ^ 32 % 1000000000) ++
    bytesBE 4 (origin % 2 ^ 32) ++ bytesBE 8 correction.toNat ++ bytesBE 8 frame.toNat ++ bytesBE 4 seq.toNat ++
    bytesBE 2 root.toNat ++ [hops, status] ++ wordBytes tag ++ ann

/-- Ports of `FWD_MASK` that are ACTIVE or LIGHT_IDLE (R59). -/
def State.timePorts (s : State) : List Nat :=
  (bitsOf 4 (s.fld F.TIME_SRC_FWD_MASK)).filter fun q => s.lnkState q = 6 || s.lnkState q = 7

/-- A root's emission (R59): one cell on each port, each with the `ORIGIN` of its own egress stamp (2^-32 ns), all
with the same `TIME_SEQ`, which grows whether or not any cell leaves. A device without an address emits none (R260). -/
def State.emitTime (s : State) (frame : BitVec 64) (ann : List Byte) (egress : Nat → Nat) : State :=
  let status : BitVec 8 := BitVec.ofNat 8 (s.source + 8 * s.timeState)
  let send (t : State) (q : Nat) : State :=
    let c := mkCell CellType.time 0xFFFF s.addr 0 s.tm.timeSeq (frame.setWidth 16)
      (timePayload (egress q) 0 frame s.tm.timeSeq s.addr 0 status s.timingTag ann)
    (t.bump (F.FAB_CNT_COUNT 0)).enqueue q c true
  let t := if s.addr = 0 then s else s.timePorts.foldl send s
  t.updTm fun tm => { tm with timeSeq := tm.timeSeq + 1 }

/-- A periodic emission when its interval has passed (R59). -/
def State.periodicCell (s : State) (tOut : List Nat) : State :=
  let p := s.fld F.TIME_CELL_CFG_PERIOD_US
  if s.isRoot ∧ p ≠ 0 ∧ s.tm.lastPeriodic + usTicks p ≤ s.tick then
    (s.emitTime (BitVec.allOnes 64) (List.replicate 20 0) fun q => s.stampTime (tOut.getD q 0)).updTm fun tm =>
      { tm with lastPeriodic := s.tick }
  else s

/-- The wingbeat emission of frame `n` with its announcements (R59, R126); the egress stamps are not observed here
and stand free, at or after the wingbeat (log entry 17). -/
def State.wingbeatCell (s : State) (n : Nat) : State :=
  if s.isRoot then
    let ann := (s.announcesAt n).map fun d =>
      (⟨d.src, d.id, BitVec.ofNat 24 d.frame, d.commit, BitVec.ofNat 2 d.phase⟩ : Announce)
    let (k, s) := s.draw
    s.emitTime (BitVec.ofNat 64 n) (announceBytes ann) fun q => s.stampTime (128 * s.tick + Config.free 60 [k, q])
  else s

/-- The standby port (R61): the one of `UPSTREAM` and `ALT_UPSTREAM` that is not followed, while `ALT_EN` is armed. -/
def State.standbyPort (s : State) : Option Nat :=
  if s.bit F.TIME_POLICY_ALT_EN then
    let now := s.fld F.TIME_STAT_UPSTREAM_NOW
    let up := s.fld F.TIME_SRC_UPSTREAM
    let alt := s.fld F.TIME_SRC_ALT_UPSTREAM
    if up ≠ now then some up else if alt ≠ now then some alt else none
  else none

/-- Mean incoming link delay of port `q` in ns (R63). -/
def State.linkDelay (s : State) (q : Nat) : Rat :=
  let l := s.tm.delays.getD q []
  if l.isEmpty then 0 else l.sum / (l.length : Nat)

/-- An announcement received (R127): counted for held and unknown keys, matched against a PREPARED transaction. -/
def State.hearAnnounce (s : State) (a : Announce) : State :=
  if s.txn.txns.any fun t => t.global && t.src == a.src && t.id == a.id && t.state == .prepared then
    let s := s.bump (F.TXN_CNT_COUNT 4)
    let seq := s.txn.seq
    let s1 := { s with txn := { s.txn with seq := seq + 1, txns := s.txn.txns.map fun t =>
      if (t.global && t.src == a.src && t.id == a.id && t.state == .prepared &&
          BitVec.ofNat 24 t.frame == a.frame && BitVec.ofNat 2 t.phase == a.phase) then
        if a.commit then { t with gotCommit := true, accepted := if t.accepted = 0 then seq else t.accepted }
        else { t with gotAbort := true }
      else t } }
    (s.txn.txns.filter fun t => t.global && t.src == a.src && t.id == a.id && t.state == .prepared &&
        !(BitVec.ofNat 24 t.frame == a.frame && BitVec.ofNat 2 t.phase == a.phase)).foldl
      (fun u t => u.log Rec.txnTargetMismatch
        (bytesBE 2 t.src.toNat ++ bytesBE 2 t.id.toNat ++ bytesBE 4 a.frame.toNat ++ bytesBE 4 t.frame) a.phase.toNat)
      s1
  else if s.txn.txns.any fun t => t.global && t.src == a.src && t.id == a.id then
    s.bump (F.TXN_CNT_COUNT 4)
  else s.bump (F.TXN_CNT_COUNT 5)

/-- The tag comparison (R62): skipped within 1 ms after a wingbeat at which a commit applied; the first mismatch after
each match is recorded. -/
def State.checkTag (s : State) (origin : Nat) (tag : Word) (root : BitVec 16) : State :=
  let o := origin * 2 ^ 32
  if s.tm.appliedAt.any fun w => w ≤ o && o ≤ w + usU 1000 then s
  else if tag = s.timingTag then s.updTm fun tm => { tm with mismatch := false }
  else
    let t := s.bump (F.TIME_CNT_COUNT 6)
    let t := if s.tm.mismatch then t
      else t.log Rec.timingMismatch (wordBytes tag ++ wordBytes s.timingTag ++ bytesBE 2 root.toNat)
    t.updTm fun tm => { tm with mismatch := true }

/-- Signed 64-bit correction in units of 2^-16 ns. -/
def corrNs (c : BitVec 64) : Rat := (c.toInt : Rat) / (65536 : Nat)

/-- A received time cell (R39, R40, R61, R62, R127). DESIGN CHOICE (log entry 65): the gap in `TIME_SEQ` is taken among the
cells accepted on `upstream_now`, so one dropped there at the hop limit or for its root counts as missing. -/
def State.timeCell (s : State) (c : TimeCellIn) : State :=
  let u := c.port.toNat
  if s.source ≠ srcFabric then s.bump (F.TIME_CNT_COUNT 5)
  else if ¬ s.tm.marked.getD u false then s
  else
    let now := s.fld F.TIME_STAT_UPSTREAM_NOW
    if u ≠ now ∧ s.standbyPort ≠ some u then s.bump (F.TIME_CNT_COUNT 2)
    else if 64 ≤ c.hops.toNat then s.bump (F.TIME_CNT_COUNT 3)
    else if s.tm.root.any fun r => r != c.root then s.bump (F.TIME_CNT_COUNT 5)
    else
      let s := s.updTm fun tm => { tm with root := some c.root, portSeen := tm.portSeen.set u (some s.tick) }
      let s := s.bump (F.TIME_CNT_COUNT 0)
      let origin := (c.originSec.toNat * 1000000000 + c.originNs.toNat % 2 ^ 30) * 2 ^ 32 + c.originFrac.toNat
      let s := s.checkTag origin c.tag c.root
      let s := c.announce.foldl (fun t a =>
        if a.2.2.2.getLsbD 7 then
          t.hearAnnounce ⟨a.1, a.2.1, a.2.2.1, a.2.2.2.getLsbD 6, a.2.2.2.setWidth 2⟩
        else t) s
      let d := s.linkDelay u
      -- forwarded copies, each with the residence it measures
      let mask := (bitsOf 4 (s.fld F.TIME_SRC_FWD_MASK)).filter fun q =>
        q ≠ u && (u = now || q ≠ now) && (s.lnkState q = 6 || s.lnkState q = 7)
      let annBytes := [BitVec.ofNat 8 (min 2 c.announce.length), 0, 0, 0] ++ (c.announce.take 2).flatMap fun a =>
        bytesBE 2 a.1.toNat ++ bytesBE 2 a.2.1.toNat ++ bytesBE 3 a.2.2.1.toNat ++ [a.2.2.2]
      let fwd (t : State) (q : Nat) : State :=
        let corr := corrNs c.correction + d + ((s.stampTime (c.tOut.getD q 0) : Rat) - (s.stampTime c.tIn : Rat)) / (2 ^ 32 : Nat)
        let corr := BitVec.ofInt 64 (openRound 61 (corr * (65536 : Nat)))
        let cell := cellWithHop (mkCell CellType.time 0xFFFF c.root 0 c.timeSeq (c.wingbeatFrame.setWidth 16)
          (timePayload origin corr c.wingbeatFrame c.timeSeq c.root (c.hops + 1) c.status c.tag
            ((annBytes ++ List.replicate 20 0).take 20))) (c.hop.toNat + 1)
        (t.bump (F.FAB_CNT_COUNT 1)).enqueue q cell false
      let s := mask.foldl fwd s
      if u = now then
        let gap := match s.tm.cellSeq with
          | some p => let g := (c.timeSeq - p - 1).toNat; if g < 2 ^ 31 then g else 0
          | none => 0
        let s := s.bump (F.TIME_CNT_COUNT 1) gap
        let s := s.updTm fun tm => { tm with cellSeq := some c.timeSeq, lastValid := s.tick }
        let s := s.setFld F.TIME_STAT_DEPTH (c.hops.toNat + 1)
        let s := s.setFld F.TIME_STAT_ROOT_STATE (c.status.toNat / 8 % 4)
        let o : Rat := (origin : Rat) / (2 ^ 32 : Nat)
        s.sample o (o + corrNs c.correction + d - (s.stampTime c.tIn : Rat) / (2 ^ 32 : Nat))
      else s

/-! ## Loss of the source or the upstream (R44, R65) -/

/-- The port that an armed switch would follow (R65): `ALT_UPSTREAM`, unless it is followed already; only a write to
`TIME_SRC` goes back to `UPSTREAM`. -/
def State.altPort (s : State) : Option Nat :=
  let alt := s.fld F.TIME_SRC_ALT_UPSTREAM
  if s.bit F.TIME_POLICY_ALT_EN ∧ alt ≠ s.fld F.TIME_STAT_UPSTREAM_NOW then some alt else none

/-- Silence of the upstream (R65): the switch to a qualifying alternate port, or HOLDOVER. DESIGN CHOICE (log entry 66):
the silence of a port newly followed counts from the switch, or from the write of `TIME_SRC`, that made it the one
followed. -/
def State.upstreamLoss (s : State) : State :=
  let loss := usTicks (s.fld F.TIME_CELL_CFG_LOSS_US)
  let silent := s.tm.lastValid + loss ≤ s.tick
  let now := s.fld F.TIME_STAT_UPSTREAM_NOW
  if s.source = srcFabric ∧ silent ∧ (s.timeState = stLocked ∨ s.timeState = stHoldover) then
    let alt := s.altPort.filter fun q =>
      match s.tm.portSeen.getD q none with
      | some t => decide (s.tick ≤ t + loss)
      | none => false
    match alt with
    | some q =>
      let t := s.setFld F.TIME_STAT_UPSTREAM_NOW q
      let t := t.updTm fun tm => { tm with
        prev := none, cellSeq := none, lastValid := s.tick,
        switchTest := decide (s.timeState = stLocked), lockRun := 0 }
      t.log Rec.upstreamSwitch ([BitVec.ofNat 8 now, BitVec.ofNat 8 q] ++ bytesBE 2 (s.tm.root.getD 0).toNat)
    | none => if s.timeState = stLocked then s.enterHoldover 0 else s
  else s

/-- Whether the source's loss time has passed (R44). -/
def State.sourceLost (s : State) : Bool :=
  if s.source = srcPtp then
    match s.tm.ptp.selected with
    | none => false
    | some sel =>
      let heard := s.tm.ptp.masters.any fun m =>
        m.identity == sel.1 && m.portNumber == sel.2 && decide (s.tick < m.last + s.announceTicks m.interval)
      let syncLost := match s.tm.ptp.lastSync with
        | some t => decide (t + (if 0 ≤ s.tm.ptp.syncInterval then 6000000000 * 2 ^ s.tm.ptp.syncInterval.toNat
            else 6000000000 / 2 ^ (-s.tm.ptp.syncInterval).toNat) ≤ s.tick)
        | none => false
      !heard || syncLost
  else if s.source = srcFsync then
    decide (s.tm.lastValid * (2 * nsU) + 9 * s.fld F.TIME_IO_FSYNC_IN_DIV * s.grid.period ≤ s.tick * (2 * nsU))
  else if s.source = srcPps then decide (s.tm.lastValid + 4500000000 ≤ s.tick)
  else false

/-- Expiry of the source's loss time (R43, R44); with `MASTER_CHANGE` armed another PTP master is taken (R50). -/
def State.sourceLoss (s : State) : State :=
  if s.sourceLost then
    let t := if s.timeState = stLocked then s.enterHoldover 0 else s
    if t.source = srcPtp ∧ t.bit F.TIME_POLICY_MASTER_CHANGE then
      match bestMaster (t.liveMasters.filter fun m => t.tm.ptp.selected != some (m.identity, m.portNumber)) with
      | some m => t.selectMaster m
      | none => t
    else t
  else s

/-! ## PTP (R49, R50, R138 to R143); message times in ns -/

/-- Units of 2^-16 ns. -/
def q16 (v : Int) : Rat := (v : Rat) / (65536 : Nat)

/-- Receive and transmit delay removed at media port `m`, ps (R138): by the port mode and its FEC. -/
def State.macDelay (s : State) (m : Nat) (tx : Bool) : Nat :=
  if s.eth.modeNow = 2 then
    match s.eth.fecNow.toNat / 4 ^ m % 4 with
    | 1 => if tx then 58200 else 131100
    | 2 => if tx then 38400 else 41000
    | _ => if tx then 74900 else 238500
  else if tx then 62400 else 146200

/-- A stamp taken at the MAC of port `m` referred to the board's plane (R138, R139), ns. -/
def State.rxStamp (s : State) (m : Nat) (t : Int) : Rat :=
  q16 t - ((s.macDelay m false + s.fld (F.ETH_TS_EXT_RX_PS m) : Nat) : Rat) / (1000 : Nat)

def State.txStamp (s : State) (m : Nat) (t : Int) : Rat :=
  q16 t + ((s.macDelay m true + s.fld (F.ETH_TS_EXT_TX_PS m) : Nat) : Rat) / (1000 : Nat)

/-- A port with an all-zero MAC address transmits nothing (R136). -/
def State.hasMac (s : State) (m : Nat) : Bool := s.fld (F.ETH_MAC_MAC m 0) % 65536 ≠ 0 || s.fld (F.ETH_MAC_MAC m 1) ≠ 0

/-- The VLAN tag of the frames a port sends (spec/05, `ETH_VLAN`). -/
def State.sendTag (s : State) (m : Nat) : Option (BitVec 12) :=
  if s.bit (F.ETH_VLAN_EN m) then some (BitVec.ofNat 12 (s.fld (F.ETH_VLAN_VID m))) else none

/-- Whether the device hears PTP of a domain on a media port (R49, R140). -/
def State.hearsPtp (s : State) (port : BitVec 3) (domain : BitVec 8) : Bool :=
  s.source = srcPtp && 1 ≤ s.mode && decide (s.eth.ptpFrom ≤ s.tick) && port.toNat < 2 && bitOf (s.fld F.TIME_PTP_CFG_PORTS) port.toNat &&
    domain.toNat < 128 && s.fld F.TIME_PTP_CFG_DOMAIN = domain.toNat &&
    s.bit (F.ETH_PORT_STAT_LINK_UP port.toNat)

/-- A received Announce (R50). DESIGN CHOICE (log entry 52): an armed change to a master that ranks better, made while
LOCKED, leaves the state LOCKED. -/
def State.ptpAnnounce (s : State) (m : PtpAnnounce) : State :=
  if s.hearsPtp m.port m.domain ∧ -3 ≤ m.logInterval ∧ m.logInterval ≤ 1 then
    let e : Master := ⟨m.port, m.identity, m.portNumber, m.rank, m.logInterval, s.tick⟩
    let same (x : Master) : Bool := x.port == m.port && x.identity == m.identity && x.portNumber == m.portNumber
    let s := s.updTm fun tm => { tm with ptp := { tm.ptp with masters := e :: tm.ptp.masters.filter fun x => !same x } }
    let s := match s.tm.ptp.selected with
      | none => if s.timeState = stAcquiring then
          (match bestMaster s.liveMasters with | some b => s.selectMaster b | none => s) else s
      | some sel =>
        if s.bit F.TIME_POLICY_MASTER_CHANGE then
          match bestMaster s.liveMasters with
          | some b => if (b.identity, b.portNumber) = sel then s else s.selectMaster b
          | none => s
        else s
    if s.tm.ptp.selected = some (m.identity, m.portNumber) then
      (s.setFld F.TIME_UTC_OFFSET_UTC_OFFSET m.utcOffset.toNat).setBit F.TIME_UTC_OFFSET_VALID m.utcValid
    else s
  else s

/-- The sample of R142 from the latest Sync: t1 and ms; x = mpd - ms. -/
def State.ptpSample (s : State) : State :=
  match s.tm.ptp.ms with
  | some (t1, ms) =>
    let l := s.tm.ptp.means
    if l.isEmpty then s else s.sample t1 (l.sum / (l.length : Nat) - ms)
  | none => s

/-- A received Sync with its Follow_Up (R142). -/
def State.ptpSync (s : State) (m : PtpSync) : State :=
  if s.hearsPtp m.port m.domain ∧ s.tm.ptp.selected = some (m.identity, m.portNumber) ∧ s.tm.ptp.selPort = m.port ∧
      -7 ≤ m.logInterval ∧ m.logInterval ≤ 0 then
    let t2 := s.rxStamp m.port.toNat m.t2
    let s := s.updTm fun tm => { tm with
      lastValid := s.tick,
      ptp := { tm.ptp with
                           lastSync := some s.tick, syncInterval := m.logInterval,
                           ms := some (q16 m.t1, t2 - q16 m.t1 - q16 m.cs) } }
    s.ptpSample
  else s

/-- A received Delay_Resp that answers the last Delay_Req: from the first on, the master's interval governs (R49, R141); with
a Sync before that Delay_Req it completes an exchange (R142). -/
def State.ptpDelayResp (s : State) (m : PtpDelayResp) : State :=
  if s.hearsPtp m.port m.domain ∧ s.tm.ptp.selected = some (m.identity, m.portNumber) ∧ s.tm.ptp.selPort = m.port ∧
      s.tm.ptp.lastReq.isSome then
    let s := s.updTm fun tm => { tm with ptp := { tm.ptp with answered := true, reqInterval := m.logMinDelayReq } }
    match s.tm.ptp.t3s with
    | some t3 =>
      let sm := q16 m.t4 - t3 - q16 m.cr
      let s := s.updTm fun tm => { tm with ptp := { tm.ptp with
        t3s := none, means := ((tm.ptp.reqMs + sm) / (2 : Nat) :: tm.ptp.means).take 16 } }
      s.ptpSample
    | none => s
  else s

/-- The launch of a Delay_Req (R141): originTimestamp t3s, and the actual launch less t3s in its correctionField. One
a second until the first Delay_Resp, then at the master's interval (R49). With no Sync received before it, it leaves and no
exchange comes of it (R142). -/
def State.delayReq (s : State) (t3s launch : Int) : State :=
  let m := s.tm.ptp.selPort.toNat
  let gap := if s.tm.ptp.answered = false then 1500000000
    else if 0 ≤ s.tm.ptp.reqInterval then 1500000000 * 2 ^ s.tm.ptp.reqInterval.toNat
    else 1500000000 / 2 ^ (-s.tm.ptp.reqInterval).toNat
  let due := match s.tm.ptp.lastReq with | some t => decide (t + gap ≤ s.tick) | none => true
  if s.source = srcPtp ∧ s.tm.ptp.selected.isSome ∧ due = true ∧ s.hasMac m ∧ s.bit (F.ETH_PORT_STAT_LINK_UP m) then
    let exchange : Option Rat × Rat := match s.tm.ptp.ms with
      | some (_, ms) => (some (q16 t3s), ms)
      | none => (none, s.tm.ptp.reqMs)
    (s.updTm fun tm => { tm with
      ptp := { tm.ptp with lastReq := some s.tick, t3s := exchange.1, reqMs := exchange.2 } }).emit
        (.delayReq s.tm.ptp.selPort (s.sendTag m)
          (q16 t3s) (openRound 141 ((s.txStamp m launch - q16 t3s) * 65536)) 0)
  else s

/-- Whether the transparent clock between media ports 0 and 1 works (R143). -/
def State.bridges (s : State) : Bool :=
  s.bit F.ETH_BRIDGE_EN && s.bit (F.ETH_PORT_STAT_LINK_UP 0) && s.bit (F.ETH_PORT_STAT_LINK_UP 1)

/-- The transparent clock between media ports 0 and 1 (R143): event messages gain the residence, general messages pass
unchanged, peer-delay messages do not pass. DEDUCED: the spec does not say whether `ETH_CNT` counts a forwarded message on
the port it came from or the port it leaves by: a free value. -/
def State.ptpBridge (s : State) (m : PtpBridged) : State :=
  let out : BitVec 1 := m.port ^^^ 1
  let t := m.msgType.toNat
  if s.bridges ∧ s.hasMac out.toNat ∧
      (m.udpPort = 319 ∨ m.udpPort = 320) ∧ m.dstIp = 0xE0000181 ∧ t ≠ 2 ∧ t ≠ 3 ∧ t ≠ 10 then
    let res := if t = 0 ∨ t = 1 then s.txStamp out.toNat m.tOut - s.rxStamp m.port.toNat m.tIn else 0
    let d := s.draw
    (d.2.bump (F.ETH_CNT_COUNT (Config.free 143 [d.1] % 2) 9)).emit
      (.ptpForward out (s.sendTag out.toNat) m.msgType (m.correction + openRound 143 (res * 65536))
        (if t = 0 ∨ t = 1 then some 0 else none))
  else s

/-! ## Pulses (R51, R52) -/

/-- The member of an ascending pair nearest to `t`, the earlier on a tie. -/
def nearer (t a b : Nat) : Nat := if t - a ≤ b - t then a else b

/-- A rising edge on `FSYNC_IN` (R51): the nearest wingbeat whose frame number is a multiple of `FSYNC_IN_DIV`. -/
def State.fsyncIn (s : State) : State :=
  let d := s.fld F.TIME_IO_FSYNC_IN_DIV
  if s.source = srcFsync ∧ d ≠ 0 then
    let n := (s.grid.frameAt s.clk).getD 0 / d * d
    let w := nearer s.clk (s.beat n) (s.beat (n + d))
    (s.updTm fun tm => { tm with lastValid := s.tick }).sample (nsOf w) (nsOf w - s.nowNs)
  else s

/-- A rising edge on `PPS_IN` (R51): the nearest whole second. -/
def State.ppsIn (s : State) : State :=
  if s.source = srcPps then
    let n := timeSec s.clk
    let w := nearer s.clk (n * secU) ((n + 1) * secU)
    (s.updTm fun tm => { tm with lastValid := s.tick }).sample (nsOf w) (nsOf w - s.nowNs)
  else s

/-- The next rising edge due on `FSYNC_OUT`, or on `PPS_OUT` (R52). -/
def State.nextPulse (s : State) (fsync : Bool) : Option Nat :=
  if fsync then
    let d := s.fld F.TIME_IO_FSYNC_OUT_DIV
    if d = 0 ∨ s.fld F.TIME_IO_FSYNC_OUT_W = 0 then none
    else
      let n := ceilDiv s.tm.nextFrame d * d
      some (if n = s.tm.nextFrame then s.nextBeat else s.beat n)
  else if s.fld F.TIME_IO_PPS_OUT_W = 0 then none else some (s.tm.nextPps * secU)

/-- A pulse whose end was passed over ends before the next one rises (R52). -/
def State.pulseLow (s : State) (fsync : Bool) : State :=
  if (if fsync then s.tm.fsyncEnd else s.tm.ppsEnd).isSome then s.emit (.pulse fsync false) else s

/-- `PPS_OUT` rises at every whole second for its width (R52). -/
def State.ppsOut (s : State) : State :=
  if s.nearest (s.tm.nextPps * secU) then
    let w := s.fld F.TIME_IO_PPS_OUT_W
    let t := s.updTm fun tm => { tm with nextPps := tm.nextPps + 1 }
    if w = 0 then t
    else ((t.pulseLow false).updTm fun tm => { tm with ppsEnd := some (s.tm.nextPps * secU + usU w) }).emit (.pulse false true)
  else s

/-- `FSYNC_OUT` at the wingbeat of frame `n` at instant `t` (R52). -/
def State.fsyncOut (s : State) (n t : Nat) : State :=
  let d := s.fld F.TIME_IO_FSYNC_OUT_DIV
  let w := s.fld F.TIME_IO_FSYNC_OUT_W
  if d ≠ 0 ∧ n % d = 0 ∧ w ≠ 0 then
    ((s.pulseLow true).updTm fun tm => { tm with fsyncEnd := some (t + usU w) }).emit (.pulse true true)
  else s

/-- Where a pulse that ends by its width at `t` ends: one tick before the next rising edge, where that comes first. It is
judged as the pulse runs, by the grid and the local time of the moment, so a change of the grid or a step backward moves it
(R52). -/
def State.pulseStop (s : State) (fsync : Bool) (t : Nat) : Nat :=
  match s.nextPulse fsync with
  | some u => min t (u - s.inc)
  | none => t

/-- The end of a pulse: after its width, or one tick before the next (R52). DESIGN CHOICE (log entry 52): where the clock
steps while it runs, the end of its width stays at the local time it had. -/
def State.pulseEnd (s : State) (fsync : Bool) : State :=
  let e := if fsync then s.tm.fsyncEnd else s.tm.ppsEnd
  match e with
  | some t =>
    if s.nearest (s.pulseStop fsync t) then
      (s.updTm fun tm => if fsync then { tm with fsyncEnd := none } else { tm with ppsEnd := none }).emit
        (.pulse fsync false)
    else s
  | none => s

end Sys2Proof.Machine
end

