-- ==== Sys2Proof/Machine/Mem.lean ====
section
/-! DEFINITION. DRAM, scratchpad banks and error correction (spec/14): the code, the address map, who may access what,
reads and writes of the device address space, scrub, channels, bank owners and power. -/

namespace Sys2Proof.Machine

open Sys2Proof

/-! ## The code (R358, R359) -/

/-- Multiplication by alpha in GF(2^7) with m1(x) = x^7 + x^3 + 1. -/
def gfTimesA (x : Nat) : Nat := let y := 2 * x; if 128 ≤ y then Nat.xor (y - 128) 9 else y

/-- Multiplication in GF(2^7). -/
def gfMul (x y : Nat) : Nat :=
  ((List.range 7).foldl (fun (acc : Nat × Nat) i =>
    (if bitOf y i then Nat.xor acc.1 acc.2 else acc.1, gfTimesA acc.2)) (0, x)).1

/-- alpha^k. -/
def gfPow : Nat → Nat
  | 0 => 1
  | k + 1 => gfTimesA (gfPow k)

/-- The inverse of a non-zero element: its 126th power. -/
def gfInv (x : Nat) : Nat :=
  let x2 := gfMul x x
  let x4 := gfMul x2 x2
  let x8 := gfMul x4 x4
  let x16 := gfMul x8 x8
  let x32 := gfMul x16 x16
  let x64 := gfMul x32 x32
  gfMul x2 (gfMul x4 (gfMul x8 (gfMul x16 (gfMul x32 x64))))

/-- The bit of a code word that position k of the BCH code takes (R358). -/
def bchBit (k : Nat) : Nat := if k < 14 then 64 + k else if k < 78 then k - 14 else 78

/-- Check bits of 64 data bits and poison: x^14 i(x) mod g(x), g = 0x4377 (R358). -/
def bchCheck (d : BitVec 64) (poison : Bool) : Nat :=
  let i := d.toNat + poison.toNat * 2 ^ 64
  (List.range 65).foldl (fun r j =>
    let x := 2 * r + (bitOf i (64 - j)).toNat * 2 ^ 14
    if 2 ^ 14 ≤ x % 2 ^ 15 then Nat.xor (x % 2 ^ 15) 0x4377 else x % 2 ^ 15) 0

/-- The XOR of the low `n` bits. -/
def parityOf (n v : Nat) : Bool := (List.range n).foldl (fun p i => p != bitOf v i) false

/-- The code word W of data and poison (R358). -/
def codeWord (d : BitVec 64) (poison : Bool) : BitVec 80 :=
  let w := d.toNat + bchCheck d poison * 2 ^ 64 + poison.toNat * 2 ^ 78
  BitVec.ofNat 80 (w + (parityOf 79 w).toNat * 2 ^ 79)

/-- What a received word decodes to (R359, R360). -/
structure Decoded where
  word : BitVec 80
  corrected : Nat                            -- errors corrected, 0 to 2
  bad : Bool                                 -- uncorrectable
  s1 : Nat
  s3 : Nat
  p : Bool
deriving DecidableEq, Repr

def flipPos (w : BitVec 80) (k : Nat) : BitVec 80 := w ^^^ (1#80 <<< bchBit k)

/-- The decoder (R359). -/
def decodeWord (w : BitVec 80) : Decoded :=
  let ones := (List.range 79).filter fun k => w.getLsbD (bchBit k)
  let s1 := ones.foldl (fun a k => Nat.xor a (gfPow k)) 0
  let s3 := ones.foldl (fun a k => Nat.xor a (gfPow (3 * k % 127))) 0
  let p := parityOf 80 w.toNat
  let cube := gfMul s1 (gfMul s1 s1)
  let fail : Decoded := ⟨w, 0, true, s1, s3, p⟩
  if s1 = 0 then
    if s3 ≠ 0 then fail
    else if p then ⟨w ^^^ (1#80 <<< 79), 1, false, s1, s3, p⟩ else ⟨w, 0, false, s1, s3, p⟩
  else if s3 = cube then
    match (List.range 79).find? fun k => gfPow k == s1 with
    | some k => if p then ⟨flipPos w k, 1, false, s1, s3, p⟩
      else ⟨flipPos w k ^^^ (1#80 <<< 79), 2, false, s1, s3, p⟩
    | none => fail
  else if p then fail
  else
    let c := gfMul (Nat.xor s3 cube) (gfInv s1)
    match (List.range 79).filter fun k =>
        let x := gfPow k
        Nat.xor (Nat.xor (gfMul x x) (gfMul s1 x)) c == 0 with
    | [i, j] => ⟨flipPos (flipPos w i) j, 2, false, s1, s3, p⟩
    | _ => fail

/-! ## Clients, the address map and who may access what (R28, R94, R363, R367, R371) -/

/-- The clients of R367 and R370. -/
inductive Client where
  | host           -- MEM_READ, MEM_WRITE
  | mover          -- MEM_FILL, MEM_COPY
  | bulk           -- other BULK clients: joins, staging, TABLE_ commands, LAMP_SCAN
  | graphics       -- graphic layer fetch
  | scaler (k : Nat)   -- input fetch and decoder of a scaler
  | filter (k : Nat)   -- vertical filter of a scaler
  | ingest
  | writeback
  | correction
  | lamps
  | slices         -- raster cell writes on a tile
  | verdict
  | controller
  | scrub
deriving DecidableEq, Repr

/-- The class of R367, by rank. -/
def Client.rank : Client → Nat
  | .graphics | .scaler _ | .filter _ | .correction | .lamps => 1
  | .ingest | .slices => 2
  | .writeback | .verdict => 3
  | .host | .mover | .bulk => 4
  | .controller | .scrub => 5

/-- The bank owner a client accesses a bank as (R370). -/
def Client.owner : Client → Option Nat
  | .host | .mover => some 1
  | .scaler k | .filter k => some (2 + k)
  | .correction | .lamps => some 8
  | _ => none

/-- Whether a client works through port B of a bank (R370). -/
def Client.portB : Client → Bool
  | .mover | .filter _ | .lamps | .scrub => true
  | _ => false

/-- Whether an owner value acts as NONE (R370). -/
def actsNone (o : Nat) : Bool := o = 0 || 9 ≤ o

/-- What lies at a device address (R363). -/
inductive Place where
  | dram (c : Nat)
  | bank (b : Nat)
  | table
  | none
deriving DecidableEq, Repr

/-- The capacity of a channel in bytes. -/
def State.capacity (s : State) (c : Nat) : Nat := 2 ^ 30 * 2 ^ s.fld (F.MEM_CH_STAT_SIZE_LOG2 c)

def State.channelIn (s : State) (c : Nat) : Bool := s.bit (F.MEM_CH_CTRL_IN_SERVICE c)

/-- The place of a device address (R363); the on-die tables are those of R205. -/
def State.place (s : State) (a : Nat) : Place :=
  if a < 0x2000000000 then
    let c := a / 0x800000000
    if s.channelIn c ∧ a % 0x800000000 < s.capacity c then .dram c else .none
  else if 0xFE00000000 ≤ a ∧ a < 0xFE01800000 then .bank ((a - 0xFE00000000) / 0x80000)
  else if 0xFF00080000 ≤ a ∧ a < 0xFF00084000 then .table
  else .none

/-- The unit of a place in the records of R361. -/
def Place.unit : Place → Nat
  | .dram c => c
  | .bank b => 0x10 + b
  | _ => 0xFF

/-- The wipe region of a DRAM address (R28, R364). -/
def regionOf (a : Nat) : Nat := a / 0x4000000

/-- Address of bank `b` (R363). -/
def bankBase (b : Nat) : Nat := 0xFE00000000 + 0x80000 * b

def State.bankOn (s : State) (b : Nat) : Bool :=
  s.fld (F.MEM_BANK_STAT_PWR b) = 0 && !s.bit (F.MEM_BANK_STAT_CHANGING b)

/-- The banks an owner owns: those that name it and are ON (R371). -/
def State.banksOf (s : State) (owner : Nat) : List Nat :=
  (List.range 48).filter fun b => s.bankOn b && s.fld (F.MEM_BANK_STAT_OWNER b) == owner

/-- Whether the accesses of a bank's old owner still run (R372). -/
def State.bankDrains (s : State) (b : Nat) : Bool := s.bit (F.MEM_BANK_STAT_DRAINING b)

/-- Whether an access is no violation (R28, R29, R94, R371). -/
def State.mayAccess (s : State) (cl : Client) (a : Nat) : Bool :=
  s.sys.sramReady &&
  match s.place a with
  | .dram _ => s.sys.wiped.getLsbD (regionOf a)
  | .bank b => s.bankOn b && (decide (cl = .scrub) || decide (cl.owner = some (s.fld (F.MEM_BANK_STAT_OWNER b))))
  | .table => true
  | .none => false

/-! ## Stored words -/

/-- The byte stored at an address; unlisted addresses hold 0 (R27). -/
def State.byte (s : State) (a : Nat) : Byte := sparseGet (fun _ => 0) s.mem a

/-- A byte is stored. -/
def State.setByte (s : State) (a : Nat) (b : Byte) : State := { s with mem := sparsePut (fun _ => 0) s.mem a b }

/-- The 64 data bits stored at word address `w`, the byte at `w + i` in bits 8i (R357). -/
def State.data64 (s : State) (w : Nat) : BitVec 64 :=
  BitVec.ofNat 64 (natLE ((List.range 8).map fun i => s.byte (w + i)))

/-- Whether the code covers an address (R358). -/
def Place.coded : Place → Bool
  | .dram _ | .bank _ => true
  | _ => false

/-- What reading the word at `w` gives: data after correction, and the loss: none, or the decoder's result for an
uncorrectable or poisoned word (R359 to R361). -/
structure WordRead where
  data : BitVec 64
  lost : Bool
  dec : Option Decoded
deriving DecidableEq, Repr

/-- The code word stored at `w`, its errors included. -/
def State.storedWord (s : State) (w : Nat) : BitVec 80 :=
  codeWord (s.data64 w) (sparseGet (fun _ => false) s.memc.poison w) ^^^ sparseGet (fun _ => 0) s.memc.flaws w

/-- What a received code word gives its reader. -/
def decoded (v : BitVec 80) : WordRead :=
  let d := decodeWord v
  if d.bad ∨ d.word.getLsbD 78 then ⟨0, true, some d⟩ else ⟨d.word.setWidth 64, false, some d⟩

/-- The write of a scratchpad word by the given port in the current tick (R376). -/
def State.spWrite (s : State) (portB : Bool) (w : Nat) : Option SpWrite :=
  s.memc.spWrites.find? fun e => e.word == w && e.portB == portB && e.tick == s.tick

/-- The write of a scratchpad word by a client's other port in the current tick (R376). The host's two ports never meet on a word:
what R97 lets through in one tick of the model stands one after the other. -/
def State.otherWrite (s : State) (cl : Client) (w : Nat) : Option SpWrite :=
  if cl = .host ∨ cl = .mover then none else s.spWrite (!cl.portB) w

/-- The code word a reader gets in place of the stored one: with `SCR_COMPAT`, a word that the other port writes in the
same tick reads its old data (R376). -/
def State.oldWord (s : State) (cl : Client) (w : Nat) : Option (BitVec 80) :=
  if s.bit F.MEM_SP_CFG_SCR_COMPAT then (s.otherWrite cl w).map SpWrite.old else none

/-- One word as a client reads it (R359 to R361, R376). -/
def State.readWord (s : State) (cl : Client) (w : Nat) : WordRead :=
  if ¬ s.mayAccess cl w then ⟨0, false, none⟩
  else
    match s.oldWord cl w with
    | some v => decoded v
    | none =>
      let flaw := sparseGet (fun _ => (0 : BitVec 80)) s.memc.flaws w
      let poison := sparseGet (fun _ => false) s.memc.poison w
      if flaw = 0 ∧ poison = false then ⟨s.data64 w, false, none⟩
      else if ¬ (s.place w).coded then ⟨s.data64 w, false, none⟩
      else decoded (s.storedWord w)

/-- A read's counts and records for one word (R361): corrections, losses, with the limits of R476. -/
def State.accountWord (s : State) (cl : Client) (w : Nat) : State :=
  match (s.readWord cl w).dec with
  | none => s
  | some d =>
    let pl := s.place w
    let unit := pl.unit
    let grp := if unit < 4 then unit else 4
    if d.bad ∨ d.word.getLsbD 78 then
      let s := match pl with
        | .dram c => s.bump (F.MEM_CH_CNT_COUNT c (if d.bad then 2 else 3))
        | _ => s.bump (F.MEM_SP_CNT_COUNT 3)
      let (ok, s) := s.limit (361 * 16 + grp * 2 + d.bad.toNat) 16
      let client := cl.rank + (if cl = .scrub then 128 else 0)
      if ok then
        s.log (if d.bad then Rec.memUncorrectable else Rec.memPoisonRead)
          (bytesBE 5 w ++ [BitVec.ofNat 8 unit, BitVec.ofNat 8 d.s1, BitVec.ofNat 8 d.s3, BitVec.ofNat 8 d.p.toNat,
            BitVec.ofNat 8 client])
      else s
    else if d.corrected = 0 then s
    else
      let s := match pl with
        | .dram c => s.bump (F.MEM_CH_CNT_COUNT c (d.corrected - 1))
        | _ => s.bump (F.MEM_SP_CNT_COUNT 2)
      let n := ((s.memc.corrected.find? fun e => e.1 == unit).map Prod.snd).getD 0 + 1
      let put (t : State) (v : Nat) : State :=
        { t with memc := { t.memc with corrected := (unit, v) :: t.memc.corrected.filter fun e => e.1 != unit } }
      let (ok, s) := s.limit (3610 * 16 + grp) 1
      if ok then (put s 0).log Rec.memCorrected (bytesBE 5 w ++ [BitVec.ofNat 8 unit] ++ bytesBE 4 n) else put s n

/-- Words of a range that hold an error or poison, or were written in a tick just past; all others read without any
trace. -/
def State.markedWords (s : State) (a n : Nat) : List Nat :=
  let inside (w : Nat) : Bool := decide (0 < n) && decide (a / 8 * 8 ≤ w) && decide (w < a + n)
  let f := ((s.memc.flaws.map Prod.fst) ++ s.memc.spWrites.map SpWrite.word).eraseDups.filter inside
  let p := (s.memc.poison.map Prod.fst).filter fun w => inside w && !f.contains w
  sortBy (fun x y => decide (x < y)) (f ++ p)

/-- Granules of a range served on each channel for a class (R367). -/
def State.serve (s : State) (cl : Client) (a n : Nat) : State :=
  (List.range 4).foldl (fun (t : State) c =>
    let lo := max a (0x800000000 * c)
    let hi := min (a + n) (0x800000000 * c + s.capacity c)
    if s.channelIn c ∧ lo < hi then t.bump (F.MEM_CLS_CNT_COUNT c (cl.rank - 1) 0) ((hi - 1) / 64 + 1 - lo / 64) else t) s

/-- Words of a range whose read meets the other port's write in the same tick (R376). -/
def State.readCollisions (s : State) (cl : Client) (a n : Nat) : Nat :=
  ((s.markedWords a n).filter fun w => s.mayAccess cl w && (s.otherWrite cl w).isSome).length

/-- The words of a range read: corrections and losses (R361), read collisions (R376). -/
def State.accountWords (s : State) (cl : Client) (a n : Nat) : State :=
  ((s.markedWords a n).foldl (fun t w => t.accountWord cl w) s).bump (F.MEM_SP_CNT_COUNT 1) (s.readCollisions cl a n)

/-- The accounting of a range read: its words, and its granules served (R367). -/
def State.accountRead (s : State) (cl : Client) (a n : Nat) : State := (s.accountWords cl a n).serve cl a n

/-- The word address of a byte. -/
def wordOf (a : Nat) : Nat := a / 8 * 8

/-- One byte as a client reads it: zero for a violation or a lost word. -/
def State.readByte (s : State) (cl : Client) (a : Nat) : Byte :=
  BitVec.ofNat 8 ((s.readWord cl (wordOf a)).data.toNat / 256 ^ (a % 8))

/-- Bytes as a client reads them. -/
def State.readBytes (s : State) (cl : Client) (a n : Nat) : List Byte := (List.range n).map fun i => s.readByte cl (a + i)

/-- Whether a byte lies in a lost word. -/
def State.lostByte (s : State) (cl : Client) (a : Nat) : Bool := (s.readWord cl (wordOf a)).lost

/-- Lost words in a range. -/
def State.lostWords (s : State) (cl : Client) (a n : Nat) : Nat :=
  ((s.markedWords a n).filter fun w => (s.readWord cl w).lost).length

/-! ## What a write touches beside its bytes (R291, R350) -/

/-- Base of correction table slot `t` (R291). -/
def State.tblBase (s : State) (t : Nat) : Nat := s.fld (F.LCR_TBL_BASE_BASE_4K t) * 4096

/-- Whether table slot `t` is valid. -/
def State.tblValid (s : State) (t : Nat) : Bool := bitOf (s.fld F.LCR_STAT_VALID) t

/-- Bytes of the image in a valid table slot (R289). -/
def State.tblSize (s : State) (t : Nat) : Nat :=
  let h := s.tile.tables.getD t {}
  256 + 192 * (h.sw * h.sh)

/-- `LCR_STAT.VALID[t]` is cleared, and with it what reads 0 while it is clear. -/
def State.tblInvalidate (s : State) (t : Nat) : State :=
  let v := s.fld F.LCR_STAT_VALID
  let s := s.setFld F.LCR_STAT_VALID (v - if bitOf v t then 2 ^ t else 0)
  ((s.setFld (F.LCR_TBL_GEOM_SW t) 0).setFld (F.LCR_TBL_GEOM_SH t) 0).setFld (F.LCR_TBL_CRC_BODY_CRC t) 0

/-- A write of `n` bytes at `a` clears `VALID` of a table image it meets (R291), and marks the blocks of a join that is
served (R350). -/
def State.noteWrite (s : State) (a n : Nat) : State :=
  let meets (b m : Nat) : Bool := decide (a < b + m) && decide (b < a + n)
  let s := [0, 1].foldl (fun (t : State) k =>
    if t.tblValid k && meets (t.tblBase k) (t.tblSize k) then t.tblInvalidate k else t) s
  match s.red.serve with
  | some r =>
    if r.ranges.any fun g => meets g.1 g.2 then
      let blocks := ((List.range ((a + n - 1) / 65536 + 1 - a / 65536)).map fun i => a / 65536 + i).filter fun b =>
        (r.ranges.any fun g => g.1 ≤ 65536 * b && 65536 * b < g.1 + g.2) && !r.marks.contains b
      { s with red := { s.red with serve := some { r with marks := r.marks ++ blocks } } }
    else s
  | none => s

/-! ## Writes (R360) -/

/-- A word is stored whole with its poison bit; its stored error is gone. A word written with poison counts. -/
def State.storeWord (s : State) (w : Nat) (d : BitVec 64) (poison : Bool) : State :=
  let t := (List.range 8).foldl (fun u i => u.setByte (w + i) (BitVec.ofNat 8 (d.toNat / 256 ^ i))) (s.noteWrite w 8)
  let t := { t with memc := { t.memc with flaws := sparsePut (fun _ => 0) t.memc.flaws w 0,
                                          poison := sparsePut (fun _ => false) t.memc.poison w poison } }
  if poison then
    match s.place w with
    | .dram c => t.bump (F.MEM_CH_CNT_COUNT c 4)
    | .bank _ => t.bump (F.MEM_SP_CNT_COUNT 3)
    | _ => t
  else t

/-- Scrub write-backs that a client's write of word `w` overtakes are dropped (R369): those of its granule in DRAM, that of
the word itself in a bank, whichever port writes it, since a scrub never overwrites newer data. In the tick of the scrubber's
write, port A's write collides with it (R376). -/
def State.dropScrub (s : State) (cl : Client) (w : Nat) : State :=
  let hit (e : ScrubBack) : Bool := match s.place w with
    | .dram _ => e.word / 64 == w / 64
    | .bank _ => e.word == w
    | _ => false
  let gone := s.memc.scrubBack.filter hit
  if gone.isEmpty then s
  else
    let t : State := { s with memc := { s.memc with scrubBack := s.memc.scrubBack.filter fun e => !hit e } }
    match s.place w with
    | .dram c => t.bump (F.MEM_CH_CNT_COUNT c 7) gone.length
    | _ => (t.bump (F.MEM_SP_CNT_COUNT 5)).bump (F.MEM_SP_CNT_COUNT 0) (gone.filter fun e => !cl.portB && e.tick < s.tick).length

/-- A client stores a whole word with its poison bit. In the scratchpad, where both ports write one word in one tick, port
A's data stands, and the collision is counted (R376). -/
def State.putWord (s : State) (cl : Client) (w : Nat) (d : BitVec 64) (poison : Bool) : State :=
  let t := s.dropScrub cl w
  match s.place w with
  | .bank _ =>
    let met := (s.otherWrite cl w).isSome
    let t := if met then t.bump (F.MEM_SP_CNT_COUNT 0) else t
    if met && cl.portB then t
    else
      let e : SpWrite := ⟨w, cl.portB, s.storedWord w, s.tick⟩
      let t := t.storeWord w d poison
      { t with memc := { t.memc with spWrites := e :: t.memc.spWrites.filter fun x => x.tick == s.tick && x.word != w } }
  | _ => t.storeWord w d poison

/-- A write of some bytes of a word: whole, or read, merged and written back; a lost old word leaves poison (R360). A
violation leaves the word unchanged (R94). -/
def State.writeWord (s : State) (cl : Client) (w : Nat) (bs : List (Option Byte)) : State :=
  if ¬ s.mayAccess cl w then s
  else if bs.all Option.isSome then
    s.putWord cl w (BitVec.ofNat 64 (natLE (bs.map fun b => b.getD 0))) false
  else
    let old := s.readWord cl w
    let t := s.accountWord cl w
    let merged := (List.range 8).map fun i => ((bs.getD i none).getD (BitVec.ofNat 8 (old.data.toNat / 256 ^ i)))
    t.putWord cl w (BitVec.ofNat 64 (natLE merged)) old.lost

/-- Bytes are stored from address `a`, word by word. -/
def State.putBytes (s : State) (cl : Client) (a : Nat) (bs : List Byte) : State :=
  if bs.isEmpty then s
  else
    let first := a / 8
    let n := (a + bs.length - 1) / 8 + 1 - first
    (List.range n).foldl (fun t j =>
      let w := 8 * (first + j)
      t.writeWord cl w ((List.range 8).map fun i =>
        if a ≤ w + i ∧ w + i < a + bs.length then bs[w + i - a]? else none)) s

/-- Granules that hold any of some bytes are served (R367), each once. -/
def State.serveBytes (s : State) (cl : Client) (as : List Nat) : State :=
  ((as.map fun a => a / 64 * 64).eraseDups).foldl (fun t g => t.serve cl g 64) s

/-- A client's write of bytes from address `a`, its granules served (R367). -/
def State.writeBytes (s : State) (cl : Client) (a : Nat) (bs : List Byte) : State :=
  (s.putBytes cl a bs).serve cl a bs.length

/-- A copy of one word: a lost source word leaves zero data with poison at the destination (R360). Answers whether the
source was lost and stored so. -/
def State.copyWord (s : State) (rd wr : Client) (src dst : Nat) : Bool × State :=
  let r := s.readWord rd src
  let t := s.accountWord rd src
  if ¬ t.mayAccess wr dst then (false, t) else (r.lost, t.putWord wr dst r.data r.lost)

/-- The contents of a range are lost or wiped: nothing remains listed in it. -/
def State.eraseRange (s : State) (a n : Nat) : State :=
  let out (x : Nat) : Bool := decide (x < a) || decide (a + n ≤ x)
  { s with mem := s.mem.filter fun e => out e.1,
           memc := { s.memc with flaws := s.memc.flaws.filter fun e => out e.1,
                                 poison := s.memc.poison.filter fun e => out e.1,
                                 scrubBack := s.memc.scrubBack.filter fun e => out e.word } }

/-! ## DRAM in service -/

/-- Whether a whole range lies in DRAM in service. -/
def State.inDram (s : State) (a n : Nat) : Bool :=
  decide (a + n ≤ 0x2000000000) && (List.range 4).all fun c =>
    let lo := c * 0x800000000
    decide (a + n ≤ lo ∨ lo + 0x800000000 ≤ a ∨ n = 0) ||
      (s.channelIn c && decide (min (a + n) (lo + 0x800000000) ≤ lo + s.capacity c))

/-- Channels in service. -/
def State.channels (s : State) : Nat := ((List.range 4).filter s.channelIn).length

/-- Region bits of channel `c` (R364). -/
def State.channelRegions (s : State) (c : Nat) : List Nat :=
  (List.range (s.capacity c / 0x4000000)).map fun k => 512 * c + k

def setBits {n : Nat} (v : BitVec n) (ks : List Nat) : BitVec n := ks.foldl (fun b k => b ||| (1#n <<< k)) v

def clearBits {n : Nat} (v : BitVec n) (ks : List Nat) : BitVec n := ks.foldl (fun b k => b &&& ~~~(1#n <<< k)) v

/-- The failure cause of a channel's training (R356, R365). DESIGN CHOICE (log entry 55): a channel that answers and breaks
the size rules fails with SIZE whatever else fails. -/
def trainFailure (r : TrainResult) : Nat :=
  let fits := (List.range 6).any fun k => r.dataMiB == 1024 * 2 ^ k
  if r.cause = 1 then 1
  else if fits ∧ r.dataMiB ≤ 4 * r.sideMiB then r.cause.toNat
  else 2

/-- A channel's training ends (R24, R29, R365): it passes and its wipe starts, or the cause is kept and recorded. -/
def State.trainingDone (s : State) (c : Nat) (r : TrainResult) : State :=
  if s.memc.training.getLsbD c then
    let s := { s with memc := { s.memc with training := s.memc.training &&& ~~~(1#4 <<< c) } }
    let cause := trainFailure r
    if cause = 0 then
      let s := s.setFld (F.MEM_CH_STAT_TRAINED c) 1
      let s := s.setFld (F.MEM_CH_STAT_FAIL c) 0
      let s := s.setFld (F.MEM_CH_STAT_SIZE_LOG2 c) (Nat.log2 (r.dataMiB / 1024))
      let s := s.setFld (F.MEM_CH_STAT_WIPING c) 1
      let s := s.setFld (F.MEM_CH_CTRL_IN_SERVICE c) 1
      let s := s.setFld F.SYS_BOOT_DRAM_TRAINED (s.fld F.SYS_BOOT_DRAM_TRAINED ||| 2 ^ c)
      let ks := s.channelRegions c
      { s with sys := { s.sys with inService := setBits s.sys.inService ks, wiped := clearBits s.sys.wiped ks } }
    else
      let s := s.setFld (F.MEM_CH_STAT_TRAINED c) 0
      let s := s.setFld (F.MEM_CH_STAT_FAIL c) cause
      let v := s.fld F.SYS_BOOT_DRAM_TRAINED
      let s := s.setFld F.SYS_BOOT_DRAM_TRAINED (v - v / 2 ^ c % 2 * 2 ^ c)
      s.log Rec.dramTrain [BitVec.ofNat 8 c, BitVec.ofNat 8 cause]
  else s

/-- A region's wipe ends (R28, R29): every word of it has been written with zero data, and it becomes accessible. -/
def State.regionWiped (s : State) (k : Nat) : State :=
  let c := k / 512
  if s.sys.inService.getLsbD k ∧ ¬ s.sys.wiped.getLsbD k ∧ s.bit (F.MEM_CH_STAT_WIPING c) then
    let s := (s.noteWrite (k * 0x4000000) 0x4000000).eraseRange (k * 0x4000000) 0x4000000
    let s := { s with sys := { s.sys with wiped := setBits s.sys.wiped [k] } }
    if (s.channelRegions c).all fun j => s.sys.wiped.getLsbD j then s.setFld (F.MEM_CH_STAT_WIPING c) 0 else s
  else s

/-- Whether every channel in service has been read to its end in this pass. -/
def State.passDone (s : State) : Bool :=
  decide (0 < s.channels) && (List.range 4).all fun c => !s.channelIn c || decide (s.capacity c ≤ s.memc.scrubNext.getD c 0)

/-- A pass ends once every granule of DRAM in service has been read (R369). -/
def State.endPass (s : State) : State :=
  if s.passDone then
    ({ s with memc := { s.memc with scrubNext := [0, 0, 0, 0] } }).bump F.MEM_SCRUB_STAT_PASSES
  else s

/-- A write of `IN_SERVICE` (R365): writable in M1, M2 and M7 only. A channel that leaves service leaves the scrub's pass to the others
(R369). -/
def State.setInService (s : State) (c : Nat) (on : Bool) : State :=
  if ¬ (s.mode = 1 ∨ s.mode = 2 ∨ s.mode = 7) then s
  else if on then
    if s.channelIn c ∨ s.memc.training.getLsbD c then s
    else { s with memc := { s.memc with training := s.memc.training ||| (1#4 <<< c) } }
  else if s.channelIn c then
    let ks := s.channelRegions c
    let s := s.setFld (F.MEM_CH_CTRL_IN_SERVICE c) 0
    let s := s.setFld (F.MEM_CH_STAT_WIPING c) 0
    let s := { s with sys := { s.sys with inService := clearBits s.sys.inService ks,
                                          wiped := clearBits s.sys.wiped ks }
                      memc := { s.memc with scrubNext := s.memc.scrubNext.set c 0 } }
    ((s.noteWrite (0x800000000 * c) 0x800000000).eraseRange (0x800000000 * c) 0x800000000).endPass
  else s

/-! ## Refresh and scrub (R368, R369) -/

/-- The refresh-rate registers as read (R368), every 16 ms: a change is kept, counted on its crossing and recorded. -/
def State.refreshCheck (s : State) (rates : List (BitVec 3)) : State :=
  if s.tick < s.memc.refreshTick + 24000000 then s
  else
    (List.range 4).foldl (fun t c =>
      let r := (rates.getD c 0).toNat
      if t.bit (F.MEM_CH_STAT_TRAINED c) ∧ t.fld (F.MEM_CH_STAT_REFRESH c) ≠ r then
        ((t.setFld (F.MEM_CH_STAT_REFRESH c) r).crossEvent 13 c).log Rec.dramTemp [BitVec.ofNat 8 c, BitVec.ofNat 8 r]
      else t) { s with memc := { s.memc with refreshTick := s.tick } }

/-- What the scrubber would write back of a word: data and poison (R369). -/
def State.scrubWrite (s : State) (w : Nat) : Option (BitVec 64 × Bool) :=
  match (s.readWord .scrub w).dec with
  | none => none
  | some d =>
    if d.bad then some (0, true)
    else if d.word.getLsbD 78 ∨ d.corrected = 0 then none
    else some (d.word.setWidth 64, false)

/-- The scrubber reads one word (R369): what it found is counted and recorded, and a write-back is on its way, to be written
in the next tick. Where port A has written the word in the same tick, the write-back is dropped. -/
def State.scrubWord (s : State) (w : Nat) : State :=
  let t := s.bump (F.MEM_SP_CNT_COUNT 1) (s.spWrite false w).isSome.toNat
  match s.scrubWrite w with
  | none => t
  | some (d, poison) =>
    let t := t.accountWord .scrub w
    if (s.spWrite false w).isSome then t.bump (F.MEM_SP_CNT_COUNT 5)
    else { t with memc := { t.memc with scrubBack := t.memc.scrubBack ++ [⟨w, d, poison, s.tick⟩] } }

/-- The scrubber's write-backs reach memory at the end of the tick after their read (R369). -/
def State.scrubFlush (s : State) : State :=
  let due := s.memc.scrubBack.filter fun e => e.tick < s.tick
  if due.isEmpty then s
  else
    let s : State := { s with memc := { s.memc with scrubBack := s.memc.scrubBack.filter fun e => !(decide (e.tick < s.tick)) } }
    let s := due.foldl (fun (t : State) e =>
      if t.mayAccess .scrub e.word then
        let t := match t.place e.word with
          | .dram c => t.bump (F.MEM_CH_CNT_COUNT c 6)
          | _ => t.bump (F.MEM_SP_CNT_COUNT 4)
        t.storeWord e.word e.data e.poison
      else t) s
    ((due.map fun e => e.word / 64 * 64).eraseDups).foldl (fun t g => t.serve .scrub g 64) s

/-- The largest capacity in service. -/
def State.largest (s : State) : Nat := ((List.range 4).filter s.channelIn).foldl (fun m c => max m (s.capacity c)) 0

/-- Ticks between two reads so that `n` reads take `PERIOD_H` hours (R369). -/
def State.scrubPace (s : State) (n : Nat) : Nat :=
  s.fld F.MEM_SCRUB_CFG_PERIOD_H * 5400000000000 / max n 1

/-- One paced scrub read (R369): the next granule of a channel or the next scratchpad word, in ascending order; regions
not yet wiped and banks that are not ON are passed over. DESIGN CHOICE (log entry 55): a pass ends when the last channel
in service has been read, and `PROGRESS` is that of the largest. -/
def State.scrubStep (s : State) (a : Nat) : State :=
  match s.place a with
  | .dram c =>
    let off := a % 0x800000000
    let big := s.largest
    if s.bit F.MEM_POLICY_SCRUB_EN ∧ off = s.memc.scrubNext.getD c 0 ∧
        s.memc.scrubTick.getD c 0 + s.scrubPace (big / 64) ≤ s.tick then
      let s := if s.sys.wiped.getLsbD (regionOf a) then
          (((List.range 8).foldl (fun t i => t.scrubWord (a + 8 * i)) s).bump (F.MEM_CH_CNT_COUNT c 5)).serve .scrub a 64
        else s
      let s := { s with memc := { s.memc with scrubNext := s.memc.scrubNext.set c (off + 64),
                                              scrubTick := s.memc.scrubTick.set c s.tick } }
      let s := if s.capacity c = big then s.setFld F.MEM_SCRUB_STAT_PROGRESS ((off + 64) % big * 100 / big) else s
      s.endPass
    else s
  | .bank b =>
    let off := a - 0xFE00000000
    let idle := !(s.memc.spWrites.any fun e => e.portB && e.tick == s.tick && (e.word - 0xFE00000000) / 0x80000 == b)
    if s.bit F.MEM_POLICY_SP_SCRUB_EN ∧ off = s.memc.spNext ∧ s.memc.spTick + s.scrubPace (48 * 65536) ≤ s.tick ∧ idle then
      let s := if s.bankOn b then s.scrubWord a else s
      { s with memc := { s.memc with spNext := if off + 8 < 0x1800000 then off + 8 else 0, spTick := s.tick } }
    else s
  | _ => s

/-! ## Bank owners and power (R372, R373, R378) -/

/-- Whether a pending or prepared transaction holds an entry for a register. -/
def State.entryPending (s : State) (a : Nat) : Bool :=
  s.pendingTxns.any fun t => t.entries.any fun e => match e with
    | .write b _ => b == a
    | .modify b _ _ => b == a
    | _ => false

/-- Whether an owner value names a scaler in use, or correction in M5 (R373). -/
def State.ownerBusy (s : State) (o : Nat) : Bool :=
  (2 ≤ o && o ≤ 7 && s.bit (F.SCL_CTRL_EN (o - 2))) || (o = 8 && s.mode = 5)

/-- The owner of a bank becomes `o`; accesses of the old owner drain (R372). -/
def State.giveBank (s : State) (b o : Nat) : State :=
  if s.fld (F.MEM_BANK_STAT_OWNER b) = o then s
  else (s.setFld (F.MEM_BANK_STAT_OWNER b) o).setFld (F.MEM_BANK_STAT_DRAINING b) 1

/-- Whether `MEM_BANK_SET.OWNER` is read-only for a write of `o` (R373). -/
def State.ownerLocked (s : State) (b o : Nat) : Bool :=
  s.ownerBusy (s.fld (F.MEM_BANK_STAT_OWNER b)) || s.ownerBusy o || s.entryPending (F.MEM_BANK_OWNER_OWNER b).addr ||
    (!s.bankOn b && !actsNone o)

/-- The live and the shadow owner of a bank become `o` at once (R372). -/
def State.putBankOwner (s : State) (b o : Nat) : State :=
  ((s.setFld (F.MEM_BANK_SET_OWNER b) o).setFld (F.MEM_BANK_OWNER_OWNER b) o).giveBank b o

/-- A write of `MEM_BANK_SET.OWNER` (R372, R373). -/
def State.setBankOwner (s : State) (b o : Nat) : State := if s.ownerLocked b o then s else s.putBankOwner b o

/-- The old owner's accesses have completed (R372). -/
def State.bankDrained (s : State) (b : Nat) : State := s.setFld (F.MEM_BANK_STAT_DRAINING b) 0

/-- The contents of a bank that were lost and are not wiped have no stated value: every word of it holds an open code word
(R378, log entry 12). -/
def State.scrambleBank (s : State) (b : Nat) : State :=
  let (n, s) := s.draw
  (List.range 65536).foldl (fun (t : State) i =>
    let w := bankBase b + 8 * i
    let v : BitVec 80 := BitVec.ofNat 80 (Config.free 378 [n, i])
    let poison := v.getLsbD 78
    let d : BitVec 64 := v.setWidth 64
    let t := (List.range 8).foldl (fun u j => u.setByte (w + j) (BitVec.ofNat 8 (d.toNat / 256 ^ j))) t
    { t with memc := { t.memc with flaws := sparsePut (fun _ => 0) t.memc.flaws w (v ^^^ codeWord d poison),
                                   poison := sparsePut (fun _ => false) t.memc.poison w poison } }) s

/-- A write of `MEM_BANK_SET.PWR` (R378). -/
def State.setBankPwr (s : State) (b p : Nat) : State :=
  let a := (F.MEM_BANK_OWNER_OWNER b).addr
  if ¬ actsNone (s.fld (F.MEM_BANK_STAT_OWNER b)) ∨ ¬ actsNone ((F.MEM_BANK_OWNER_OWNER b).get (s.shadowWord a)) ∨
      s.entryPending a ∨ p = 3 ∨ s.fld (F.MEM_BANK_SET_PWR b) = p then s
  else
    let old := s.fld (F.MEM_BANK_STAT_PWR b)
    let s := s.setFld (F.MEM_BANK_SET_PWR b) p
    if p = 0 then
      let wipe := old = 2
      let s := s.setFld (F.MEM_BANK_STAT_CHANGING b) 1
      { s with memc := { s.memc with bankDone := s.memc.bankDone.set b (s.tick + if wipe then 9692 else 1500) } }
    else
      let s := s.setFld (F.MEM_BANK_STAT_PWR b) p
      let s := s.setFld (F.MEM_BANK_STAT_CHANGING b) 0
      if p = 2 then s.eraseRange (bankBase b) 0x80000 else if old = 2 then s.scrambleBank b else s

/-- Whether a bank is being wiped (R378): in the last 8,192 ticks of its change from OFF. -/
def State.bankWiping (s : State) (b : Nat) : Bool :=
  s.bit (F.MEM_BANK_STAT_CHANGING b) && s.fld (F.MEM_BANK_STAT_PWR b) = 2 &&
    decide (s.memc.bankDone.getD b 0 ≤ s.tick + 8192)

/-- A bank reaches ON (R378). -/
def State.bankPowered (s : State) (b : Nat) : State :=
  if s.bit (F.MEM_BANK_STAT_CHANGING b) ∧ s.memc.bankDone.getD b 0 ≤ s.tick then
    (s.setFld (F.MEM_BANK_STAT_PWR b) 0).setFld (F.MEM_BANK_STAT_CHANGING b) 0
  else s

/-- Banks follow `MEM_BANK_OWNER` at a commit, or as a snapshot brings it (R351, R372). -/
def State.banksApplied (s : State) (addrs : List Nat) : State :=
  (List.range 48).foldl (fun (t : State) b =>
    if addrs.contains (F.MEM_BANK_OWNER_OWNER b).addr then
      let o := t.fld (F.MEM_BANK_OWNER_OWNER b)
      (t.setFld (F.MEM_BANK_SET_OWNER b) o).giveBank b o
    else t) s

end Sys2Proof.Machine
end

