-- ==== Sys2Proof/Machine/Ingest.lean ====
section
/-! DEFINITION. Media ports and stream ingest (spec/05): port modes, ARP and IGMP, the packet checks, the merge of two
paths, frame buffers, frame selection. -/

namespace Sys2Proof.Machine

open Sys2Proof

/-! ## Ports (R134 to R137) -/

/-- Whether a media port exists in the mode in force (R134). -/
def State.portValid (s : State) (m : Nat) : Bool :=
  match s.eth.modeNow.toNat with
  | 1 => m < 2
  | 2 => m < 8
  | _ => false

/-- Whether a port carries packets: M1 to M7, not in recovery, valid and up (R14, R25). -/
def State.portRuns (s : State) (m : Nat) : Bool :=
  1 ≤ s.mode && !s.bit F.SYS_BOOT_RECOVERY && s.portValid m && s.bit (F.ETH_PORT_STAT_LINK_UP m)

/-- Frames received on a port that carries packets are counted (`ETH_CNT`). -/
def State.frameIn (s : State) (m : Nat) (n : Nat := 1) : State :=
  if s.portRuns m then s.bump (F.ETH_CNT_COUNT m 0) n else s

/-- The frames of a PTP message (`ETH_CNT`). DEDUCED: with the bridge at work (R143), the same frames arrive as
`BRIDGED_PTP_MESSAGE`, which counts them. -/
def State.ptpFrames (s : State) (port : BitVec 3) (n : Nat := 1) : State :=
  if s.bridges ∧ port.toNat < 2 then s else s.frameIn port.toNat n

/-- Whether anything can leave by UDP: some port carries packets and has a MAC address (R136). DESIGN CHOICE: the spec
does not say by which port a reply leaves. -/
def State.udpOut (s : State) : Bool := (List.range 8).any fun m => s.portRuns m && s.hasMac m

/-- An answer by UDP leaves the device where a port can transmit it (R136). -/
def State.emitUdp (s : State) (o : Out) : State := if s.udpOut then s.emit o else s

def State.updEth (s : State) (f : EthSt → EthSt) : State := { s with eth := f s.eth }

/-- Whether a port runs without FEC (R135): in P25 mode with option 2. -/
def State.noFec (s : State) (m : Nat) : Bool := s.eth.modeNow = 2 && s.eth.fecNow.toNat / 4 ^ m % 4 = 2

/-- A port gains or loses its link (R135). A port that does not exist, or is off, has none, and no codeword
lock either; one without FEC shows that lock with its link. -/
def State.linkUp (s : State) (m : Nat) (up fec : Bool) : State :=
  let up := up && s.portValid m && 1 ≤ s.mode && !s.bit F.SYS_BOOT_RECOVERY
  let fec := if s.noFec m then up else fec && s.portValid m && decide (1 ≤ s.mode) && !s.bit F.SYS_BOOT_RECOVERY
  let s := if s.bit (F.ETH_PORT_STAT_LINK_UP m) ∧ ¬ up then s.bump (F.ETH_PORT_STAT_LINK_DOWNS m) else s
  (s.setBit (F.ETH_PORT_STAT_LINK_UP m) up).setBit (F.ETH_PORT_STAT_FEC_LOCK m) fec

/-- `n` codewords of one kind, as events of crossing 8 (R384). DEDUCED (log entry 78): a codeword lasts longer than the
crossing's round trip (R383), so that of those of one report all but the last have crossed. -/
def State.codewords (s : State) (f : Fld) (n : Nat) : State :=
  if n = 0 then s else (s.bump f (n - 1)).crossEvent 8 0 [f.addr]

/-- FEC codewords that a port has corrected, or found uncorrectable, since it last reported (`ETH_CNT`). -/
def State.fecCount (s : State) (m fixed bad : Nat) : State :=
  if s.portValid m ∧ ¬ s.noFec m then (s.codewords (F.ETH_CNT_COUNT m 2) fixed).codewords (F.ETH_CNT_COUNT m 3) bad else s

/-- Ports restart (R135): their links go down until they report again. -/
def State.restartPorts (s : State) (ms : List Nat) : State :=
  ms.foldl (fun t m => (t.linkUp m false false).setBit (F.ETH_PORT_STAT_PORT_VALID m) (t.portValid m)) s

/-- A write of `ETH_MODE` or `ETH_FEC` (R135): `MODE` 3 acts as OFF and reads back as 0; what is written takes effect 1 ms
after the write's reply has left. DESIGN CHOICE (log entry 70): a value of the provisioning record has no reply; its 1 ms runs
from eclosion's write, and the value in force until then is the reset one. -/
def State.writeEthMode (s : State) (fec : Bool) (v : Word) : State :=
  let s := if fec then s.setWord 0x40004 (v &&& 0xFFFF)
    else
      let m := F.ETH_MODE_MODE.get v
      let s := s.setFld F.ETH_MODE_MODE (if m = 3 then 0 else m)
      let s := s.setFld F.ETH_MODE_RX_POL (F.ETH_MODE_RX_POL.get v)
      s.setFld F.ETH_MODE_TX_POL (F.ETH_MODE_TX_POL.get v)
  s.updEth fun e => { e with
    waiting := e.waiting ++ [⟨fec, s.word (if fec then 0x40004 else 0x40000), false, 0⟩] }

/-- Pixels and bytes of a pixel group by sampling and depth (spec/05). DESIGN CHOICE (log entry 56): for a reserved value, which
only the SIZE row of R146 asks for, the group is that of the last row that shares the other field. -/
def ppg (sampling depth : Nat) : Nat × Nat :=
  if depth = 2 then (1, 6)
  else if sampling = 0 then (if depth = 0 then (2, 5) else (2, 6))
  else if depth = 0 then (4, 15) else (2, 9)

/-- Bytes of a line (R150). -/
def State.lineBytes (s : State) (k : Nat) : Nat :=
  let g := ppg (s.fld (F.ING_S_CTRL_SAMPLING k)) (s.fld (F.ING_S_CTRL_DEPTH k))
  s.fld (F.ING_S_DIM_WIDTH k) / g.1 * g.2

def State.lineStride (s : State) (k : Nat) : Nat := s.fld (F.ING_S_GEOM_LINE_STRIDE_64 k) * 64

def State.bufStride (s : State) (k : Nat) : Nat := s.fld (F.ING_S_GEOM_BUF_STRIDE_4K k) * 4096

def State.bufBase (s : State) (k b : Nat) : Nat := s.fld (F.ING_S_RING_BASE_4K k) * 4096 + b * s.bufStride k

/-- `ING_S_STAT.CFG_ERR` (R146): the first failing row; 0 for a stream that is not enabled. -/
def State.streamErr (s : State) (k : Nat) : Nat :=
  let w := s.fld (F.ING_S_DIM_WIDTH k)
  let h := s.fld (F.ING_S_DIM_HEIGHT k)
  let sam := s.fld (F.ING_S_CTRL_SAMPLING k)
  let dep := s.fld (F.ING_S_CTRL_DEPTH k)
  let n := s.fld (F.ING_S_CTRL_RING_N k)
  let pair := s.bit (F.ING_S_CTRL_PAIR k)
  let pa := s.fld (F.ETH_FLOW_PORT_MEDIA_PORT (2 * k))
  let pb := s.fld (F.ETH_FLOW_PORT_MEDIA_PORT (2 * k + 1))
  if ¬ s.bit (F.ING_S_CTRL_EN k) then 0
  else if w < 16 ∨ 8192 < w ∨ h < 16 ∨ 4352 < h ∨ w % (ppg sam dep).1 ≠ 0 then 1
  else if (dep = 2 ∧ sam ≠ 2) ∨ dep = 3 ∨ sam = 3 ∨ s.fld (F.ING_S_CTRL_COLORIMETRY k) = 3 ∨
      s.fld (F.ING_S_CTRL_TCS k) = 3 then 2
  else if s.lineStride k < s.lineBytes k ∨ s.bufStride k < 4096 + h * s.lineStride k then 3
  else if n < 2 ∨ 16 < n ∨ ¬ s.inDram (s.bufBase k 0) (n * s.bufStride k) then 4
  else if ¬ s.portValid pa ∨ (pair ∧ (¬ s.portValid pb ∨ (pa = pb ∧
      s.fld (F.ETH_FLOW_DST_DST_IP (2 * k)) = s.fld (F.ETH_FLOW_DST_DST_IP (2 * k + 1)) ∧
      s.fld (F.ETH_FLOW_PORT_UDP_PORT (2 * k)) = s.fld (F.ETH_FLOW_PORT_UDP_PORT (2 * k + 1))))) then 5
  else 0

/-- Ingest runs on a sender in M3 and M4 (R14). -/
def State.ingests (s : State) : Bool := s.role = roleSender && (s.mode = 3 || s.mode = 4)

/-- A stream that receives: enabled and valid (R146), with ingest running. -/
def State.streamOn (s : State) (k : Nat) : Bool := s.ingests && s.bit (F.ING_S_CTRL_EN k) && s.streamErr k = 0

/-- An IPv4 multicast address. -/
def isMulticast (ip : Nat) : Bool := ip / 2 ^ 28 = 14

/-- The memberships the configuration asks for (R137). -/
def State.joinsWanted (s : State) : List Join :=
  let flows := (List.range 64).filterMap fun f =>
    let k := f / 2
    let dst := s.fld (F.ETH_FLOW_DST_DST_IP f)
    if s.streamOn k && (f % 2 = 0 || s.bit (F.ING_S_CTRL_PAIR k)) && isMulticast dst then
      some (Join.mk (BitVec.ofNat 3 (s.fld (F.ETH_FLOW_PORT_MEDIA_PORT f))) (BitVec.ofNat 32 dst)
        (BitVec.ofNat 32 (s.fld (F.ETH_FLOW_SRC_SRC_IP f))))
    else none
  let ports := (List.range 8).filter fun m => s.portValid m && s.fld (F.ETH_IP_IP m) ≠ 0
  let cmds := ports.flatMap fun m => ((List.range 4).map fun g => s.fld (F.ETH_CMD_GROUP_GROUP g)).filterMap fun g =>
    if g ≠ 0 then some (Join.mk (BitVec.ofNat 3 m) (BitVec.ofNat 32 g) 0) else none
  let ptp := (bitsOf 2 (s.fld F.TIME_PTP_CFG_PORTS)).filterMap fun m =>
    if s.portValid m then some (Join.mk (BitVec.ofNat 3 m) 0xE0000181 0) else none
  if 1 ≤ s.mode && !s.bit F.SYS_BOOT_RECOVERY then (flows ++ cmds ++ ptp).eraseDups else []

/-- A report leaves a port (R137). DESIGN CHOICE (log entry 56): a report due while the port's link is down is not sent
later; the next query or its repeat finds the membership. -/
def State.igmpSend (s : State) (j : Join) (isJoin : Bool) : State :=
  if s.portRuns j.port.toNat ∧ s.hasMac j.port.toNat then
    (s.bump (F.ETH_CNT_COUNT j.port.toNat 10)).emit (.igmpReport j.port (s.sendTag j.port.toNat) isJoin j.group j.source)
  else s

/-- Memberships follow the configuration: each join and leave is reported, and once more 1 s later (R137). -/
def State.rejoin (s : State) : State :=
  let want := s.joinsWanted
  let have_ := s.eth.joined
  if want = have_ then s
  else
    let change (t : State) (j : Join) (isJoin : Bool) : State :=
      (t.igmpSend j isJoin).updEth fun e =>
        { e with repeats := e.repeats ++ [⟨j, isJoin, s.tick + 1500000000⟩] }
    let t := (have_.filter fun j => !want.contains j).foldl (fun t j => change t j false) s
    let t := (want.filter fun j => !have_.contains j).foldl (fun t j => change t j true) t
    t.updEth fun e => { e with joined := want }

/-- Memberships of a port whose link has returned after a reset of its domain are reported afresh (R386). -/
def State.reportAfresh (s : State) (m : Nat) : State :=
  if s.eth.afresh.getLsbD m ∧ s.bit (F.ETH_PORT_STAT_LINK_UP m) then
    ((s.eth.joined.filter fun j => j.port.toNat == m).foldl (fun t j => t.igmpSend j true) s).updEth fun e =>
      { e with afresh := e.afresh &&& ~~~(1#8 <<< m) }
  else s

/-- The second report of a join or leave (R137). -/
def State.igmpRepeat (s : State) (m : BitVec 3) : State :=
  let due := s.eth.repeats.filter fun r => r.join.port == m && decide (r.due ≤ s.tick)
  (due.foldl (fun t r => t.igmpSend r.join r.isJoin) s).updEth fun e =>
    { e with repeats := e.repeats.filter fun r => !(r.join.port == m && decide (r.due ≤ s.tick)) }

/-- An IGMP query (R137): version 3 is answered, versions 1 and 2 are ignored and counted. -/
def State.igmpQuery (s : State) (m : BitVec 3) (version : BitVec 2) (group : BitVec 32) : State :=
  if ¬ s.portRuns m.toNat then s
  else if version = 3 then
    (s.eth.joined.filter fun j => j.port == m && (group = 0 || j.group == group)).foldl
      (fun t j => t.igmpSend j true) s
  else if version = 1 ∨ version = 2 then s.bump (F.ETH_CNT_COUNT m.toNat 11)
  else s

/-- An ARP request for the port's address is answered (R136). -/
def State.arp (s : State) (m : BitVec 3) (target sender : BitVec 32) (mac : BitVec 48) : State :=
  let ip := s.fld (F.ETH_IP_IP m.toNat)
  if s.portRuns m.toNat ∧ s.hasMac m.toNat ∧ ip ≠ 0 ∧ ip = target.toNat then
    s.emit (.arpReply m (s.sendTag m.toNat) target sender mac)
  else s

/-- The FEC option of a port in an `ETH_FEC` word (R135): 3 acts as 0. -/
def fecOption (w : Word) (m : Nat) : Nat := if w.toNat / 4 ^ m % 4 = 3 then 0 else w.toNat / 4 ^ m % 4

/-- The lanes of a port (R134). -/
def ethLanes (mode : BitVec 2) (m : Nat) : List Nat :=
  if mode = 1 then (List.range 4).map fun l => 4 * m + l else [m]

/-- One written mode or FEC word comes into force (R135): the ports it affects restart. -/
def State.ethForce (s : State) (x : EthWrite) : State :=
  let e := s.eth
  if x.fec then
    let hit := (List.range 8).filter fun m => decide (e.modeNow = 2 ∧ fecOption x.value m ≠ fecOption e.fecNow m)
    (s.updEth fun e => { e with fecNow := x.value }).restartPorts hit
  else
    let mode : BitVec 2 := BitVec.ofNat 2 (F.ETH_MODE_MODE.get x.value)
    let pol : BitVec 16 := BitVec.ofNat 16 (x.value.toNat / 256)
    let turned := bitsOf 16 (pol ^^^ e.polNow).toNat
    let hit := (List.range 8).filter fun m => mode != e.modeNow ||
      (s.portValid m && (ethLanes mode m).any fun l => turned.contains l || turned.contains (8 + l))
    (s.updEth fun e => { e with modeNow := mode, polNow := pol }).restartPorts hit

/-- The written words whose time has come take effect, oldest first (R135). -/
def State.ethApply (s : State) : State :=
  let due := s.eth.waiting.filter fun x => x.answered && decide (x.due ≤ s.tick)
  if due.isEmpty then s
  else
    let s := s.updEth fun e => { e with waiting := e.waiting.filter fun x => !(x.answered && decide (x.due ≤ s.tick)) }
    (due.foldl State.ethForce s).rejoin

/-! ## Streams -/

def State.stream (s : State) (k : Nat) : Stream := s.ing.streams.getD k {}

def State.updStream (s : State) (k : Nat) (f : Stream → Stream) : State :=
  { s with ing := { s.ing with streams := s.ing.streams.modify k f } }

def State.updBuf (s : State) (k b : Nat) (f : Buf → Buf) : State :=
  s.updStream k fun t => { t with bufs := t.bufs.modify b f }

def State.buf (s : State) (k b : Nat) : Buf := (s.stream k).bufs.getD b {}

/-- A counter of R159 grows, saturating. -/
def State.ingCount (s : State) (k i : Nat) (n : Nat := 1) : State :=
  s.updStream k fun t => { t with counts := t.counts.modify i fun c => min (c + n) (2 ^ 32 - 1) }

/-- Signed distance of 32-bit sequence values. -/
def diff32 (a b : Word) : Int := (a - b).toInt

/-- MEDIA_TICKS of a timestamp: the multiple of 2^32 that puts it closest to local time (R151), exactly. Of two that are
equally close the rule names none: a free value (log entry 12). -/
def State.mediaTicks (s : State) (ts : Word) : Int :=
  let base : Int := (s.clk * 90000 / secU / 2 ^ 32 * 2 ^ 32 + ts.toNat : Nat)
  let off (c : Int) : Nat := (c * (secU : Nat) - (s.clk * 90000 : Nat)).natAbs
  let other : Int := if s.clk * 90000 < base * (secU : Nat) then base - (2 ^ 32 : Nat) else base + (2 ^ 32 : Nat)
  if off other < off base ∨ (off other = off base ∧ Config.free 151 [s.tick, ts.toNat] % 2 = 1) then other else base

/-- Pixels and bytes of a pixel group of the frame a buffer holds. -/
def Buf.group (f : Buf) : Nat × Nat := ppg ((F.ING_S_CTRL_SAMPLING 0).get f.ctrl) ((F.ING_S_CTRL_DEPTH 0).get f.ctrl)

/-- Bytes of a line of it (R150). -/
def Buf.lineBytes (f : Buf) : Nat := f.width / f.group.1 * f.group.2

/-- The address of its line `l` (R149). -/
def Buf.lineAddr (f : Buf) (l : Nat) : Nat := f.base + 4096 + l * f.stride

/-- Whether a line of it is complete (R150). -/
def Buf.lineDone (f : Buf) (l : Nat) : Bool := f.lineBytes ≤ f.lines.getD l 0

def Buf.linesDone (f : Buf) : List Nat := (List.range f.height).filter f.lineDone

/-- The line read for line `l`: of a patched buffer, the nearest complete line above, or below (R153). -/
def Buf.readLine (f : Buf) (l : Nat) : Nat :=
  if ¬ f.patched ∨ f.lineDone l then l
  else
    match (f.linesDone.filter (· < l)).getLast? with
    | some x => x
    | none => (f.linesDone.find? fun x => decide (l < x)).getD l

/-- The descriptor of a buffer (R154). -/
def Buf.descriptor (f : Buf) : List Byte :=
  let seqs := f.seqs.getD (0, 0)
  bytesLE 8 (toBits 64 f.ticks) ++ bytesLE 4 (f.st.toNat + 256 * f.patched.toNat) ++ bytesLE 4 f.linesDone.length ++
    bytesLE 8 f.firstNs ++ bytesLE 8 f.closeNs ++ bytesLE 4 seqs.1.toNat ++ bytesLE 4 seqs.2.toNat ++
    List.replicate 24 0 ++ bytesLE 544 (f.linesDone.foldl (fun a l => a + 2 ^ l) 0) ++ List.replicate 3488 0

def State.putDescriptor (s : State) (k b : Nat) : State :=
  s.writeBytes .ingest (s.buf k b).base (s.buf k b).descriptor

/-- Nanoseconds since second 0. -/
def State.nsSince0 (s : State) : Nat := s.clk / nsU

/-- A buffer closes (R151, R153), with its counts and descriptor. -/
def State.closeBuf (s : State) (k b : Nat) : State :=
  let h := (s.buf k b).height
  let done := (s.buf k b).linesDone.length
  let full := decide (done = h)
  let patch := !full && s.bit (F.ING_S_CTRL_FILL k) && decide (0 < done) &&
    decide (h - done ≤ s.fld (F.ING_S_TIMING_MAX_MISSING k))
  let ok := full || patch
  let s := s.updBuf k b fun f => { f with st := if ok then 2 else 3, patched := patch, closeNs := s.nsSince0 }
  let s := if ok then (s.ingCount k 9).setFld (F.ING_S_STAT_LAST_DONE k) b else s.ingCount k 10
  let s := if patch then s.ingCount k 11 else s
  s.putDescriptor k b

/-- The buffer's deadline has come (R151). -/
def State.deadlinePassed (s : State) (k b : Nat) : Bool :=
  let t : Int := (s.buf k b).ticks * (secU : Nat) / (90000 : Nat) + (usU (s.fld (F.ING_S_TIMING_MARGIN_US k)) : Nat)
  t ≤ (s.clk : Int)

def State.bufDeadline (s : State) (k b : Nat) : State :=
  if (s.buf k b).st = 1 ∧ s.deadlinePassed k b then s.closeBuf k b else s

/-- OPEN buffers of a stream, oldest timestamp first. -/
def State.openBufs (s : State) (k : Nat) : List Nat :=
  sortBy (fun a b => decide (diff32 (s.buf k a).ts (s.buf k b).ts < 0))
    ((List.range 16).filter fun b => (s.buf k b).st = 1)

/-- The buffer a new frame takes (R152): the lowest FREE one, else the closed one with the oldest media time that no
layer holds. DESIGN CHOICE (log entry 73): the rule names FREE and closed buffers; an INVALID one (R145) that no layer holds is
taken as a FREE one is. -/
def State.takeBuf (s : State) (k : Nat) : Option Nat :=
  let ring := List.range (s.fld (F.ING_S_CTRL_RING_N k))
  let free (b : Nat) : Bool := !s.ing.held.contains (k, b) && ((s.buf k b).st = 0 || (s.buf k b).st = 4)
  match ring.find? free with
  | some b => some b
  | none =>
    (ring.filter fun b => !s.ing.held.contains (k, b) && ((s.buf k b).st = 2 || (s.buf k b).st = 3)).foldl
      (fun best b => match best with
        | none => some b
        | some x => if (s.buf k b).ticks < (s.buf k x).ticks then some b else some x) none

/-- A frame lost to overrun is remembered (R152) until its timestamp can be that of another frame, 2^31 ticks on. -/
def State.noteOverrun (s : State) (k : Nat) (ts : Word) : State :=
  let m := s.mediaTicks ts
  s.updStream k fun t => { t with
    overruns := (ts, m) :: t.overruns.filter fun o => decide (m < o.2 + (2 ^ 31 : Nat)) }

/-- A buffer opens for a timestamp (R151, R152); a fifth closes the oldest first. -/
def State.openBuf (s : State) (k : Nat) (ts : Word) : Option Nat × State :=
  let opened := s.openBufs k
  let s := if 4 ≤ opened.length then
      match opened.head? with
      | some b => (s.ingCount k 13).closeBuf k b
      | none => s
    else s
  match s.takeBuf k with
  | some b =>
    let s := s.updBuf k b fun _ =>
      { st := 1, ts := ts, ticks := s.mediaTicks ts, lines := List.replicate (s.fld (F.ING_S_DIM_HEIGHT k)) 0,
        firstNs := s.nsSince0, closeNs := 0, seqs := none, patched := false, base := s.bufBase k b,
        stride := s.lineStride k, ctrl := s.word (F.ING_S_CTRL_EN k).addr, width := s.fld (F.ING_S_DIM_WIDTH k),
        height := s.fld (F.ING_S_DIM_HEIGHT k) }
    (some b, s.putDescriptor k b)
  | none =>
    (none, (s.ingCount k 12).noteOverrun k ts)

/-- Whether an SRD is well formed (R149). -/
def State.srdOk (s : State) (k : Nat) (d : Srd) : Bool :=
  let g := ppg (s.fld (F.ING_S_CTRL_SAMPLING k)) (s.fld (F.ING_S_CTRL_DEPTH k))
  !d.field && decide (d.offset.toNat % g.1 = 0) && decide (d.length.toNat % g.2 = 0) &&
    decide (d.row.toNat < s.fld (F.ING_S_DIM_HEIGHT k)) &&
    decide (d.offset.toNat + d.length.toNat / g.2 * g.1 ≤ s.fld (F.ING_S_DIM_WIDTH k)) &&
    decide (d.data.length = d.length.toNat)

/-- An SRD's data is written and counted on its line (R149, R150). -/
def State.putSrd (s : State) (k b : Nat) (d : Srd) : State :=
  let g := ppg (s.fld (F.ING_S_CTRL_SAMPLING k)) (s.fld (F.ING_S_CTRL_DEPTH k))
  let s := s.writeBytes .ingest ((s.buf k b).lineAddr d.row.toNat + d.offset.toNat / g.1 * g.2) d.data
  s.updBuf k b fun f => { f with lines := f.lines.modify d.row.toNat (· + d.data.length) }

/-- A packet with its format checked goes to its buffer (R149 to R152). DESIGN CHOICE (log entry 72): a timestamp that no
buffer has and that lies between those of OPEN buffers, neither newer than all of them (R152) nor older than all (R151), is
LATE. -/
def State.storePacket (s : State) (k : Nat) (p : RtpPacket) : State :=
  if p.srds.length > 3 ∨ ¬ p.srds.all (s.srdOk k) then s.ingCount k 8
  else
    let opened := s.openBufs k
    let hit := opened.find? fun b => (s.buf k b).ts == p.ts
    let closed := (List.range 16).any fun b =>
      ((s.buf k b).st = 2 || (s.buf k b).st = 3) && (s.buf k b).ts == p.ts
    let newer := opened.all fun b => 0 < diff32 p.ts (s.buf k b).ts
    let put (t : State) (b : Nat) : State :=
      let t := p.srds.foldl (fun u d => u.putSrd k b d) t
      let t := t.updBuf k b fun f => { f with seqs := match f.seqs with
        | none => some (p.seq, p.seq)
        | some (lo, hi) => some (if diff32 p.seq lo < 0 then p.seq else lo, if diff32 p.seq hi > 0 then p.seq else hi) }
      if (t.buf k b).linesDone.length = (t.buf k b).height then t.closeBuf k b else t
    match hit with
    | some b => put s b
    | none =>
      if closed then s.ingCount k 6
      else if (s.stream k).overruns.any fun o => o.1 == p.ts then s
      else if newer then
        match s.openBuf k p.ts with
        | (some b, t) => put t b
        | (none, t) => t
      else s.ingCount k 6

/-- The merge by extended sequence number (R148): whether the packet is the first copy, with the counts. -/
def State.mergeSeq (s : State) (k : Nat) (e : Word) : Bool × State :=
  let t := s.stream k
  match t.highest with
  | none => (true, s.updStream k fun t => { t with highest := some e, span := 1, seen := 1 })
  | some hi =>
    let d := diff32 e hi
    if 0 < d then
      let n := d.toNat
      let outN := min n t.span
      let lostIn := (((List.range outN).map fun i => t.span - 1 - i).filter fun i =>
        decide (65536 ≤ i + n) && !t.seen.getLsbD i).length
      let lost := lostIn + (n - 1 - min (n - 1) 65535)
      (true, (s.ingCount k 5 lost).updStream k fun t =>
        { t with highest := some e, span := min 65536 (t.span + n), seen := (t.seen <<< n) ||| 1 })
    else
      let b := d.natAbs
      if 65535 < b then (false, s.ingCount k 6)
      else if t.seen.getLsbD b then (false, s.ingCount k 4)
      else (true, s.updStream k fun t => { t with seen := t.seen ||| (1#65536 <<< b), span := max t.span (b + 1) })

/-- A path's own gaps (R148) and the arrival's skew against the other path (`ING_S_SKEW`). -/
def State.pathSeq (s : State) (k : Nat) (pathB : Bool) (e : Word) : State :=
  let i := pathB.toNat
  let t := s.stream k
  let gap := match t.pathHigh.getD i none with
    | some h => let d := diff32 e h; if 0 < d then d.toNat - 1 else 0
    | none => 0
  let high := match t.pathHigh.getD i none with
    | some h => if 0 < diff32 e h then e else h
    | none => e
  let s := (s.ingCount k i).ingCount k (2 + i) gap
  let other := t.arrivals.find? fun a => a.1 == e && a.2.1 != pathB
  let s := s.updStream k fun t =>
    { t with
             pathHigh := t.pathHigh.set i (some high), lastPkt := t.lastPkt.set i (some s.tick),
             arrivals := ((e, pathB, s.tick) :: t.arrivals).take 65536,
             skews := match other with
               | some a => ((if pathB then (s.tick : Int) - a.2.2 else (a.2.2 : Int) - s.tick) :: t.skews).take 1024
               | none => t.skews }
  let l := (s.stream k).skews
  if l.isEmpty then s
  else s.setFld (F.ING_S_SKEW_SKEW_NS k)
    (toBits 32 (satInt 32 (openRound 159 (((l.sum * 2 : Int) : Rat) / (3 * l.length : Nat)))))

/-- A received video packet (R136, R147 to R152, R158). DESIGN CHOICE (log entry 71): one that matches flows of more than
one enabled stream belongs to the lowest-numbered of those flows alone. -/
def State.rtpPacket (s : State) (p : RtpPacket) : State :=
  let m := p.port.toNat
  if ¬ s.portRuns m then s
  else
    let s := s.bump (F.ETH_CNT_COUNT m 0)
    let vlanOk := match p.vlan with
      | some v => if v = 0 then !s.bit (F.ETH_VLAN_EN m) else v.toNat = s.fld (F.ETH_VLAN_VID m)
      | none => !s.bit (F.ETH_VLAN_EN m)
    if ¬ p.fcsOk then s.crossEvent 8 0 [(F.ETH_CNT_COUNT m 1).addr]
    else if 9216 < p.size ∨ p.stackedTags ∨ vlanOk = false ∨ ¬ p.ipv4 then s.bump (F.ETH_CNT_COUNT m 4)
    else if p.overflow then s.bump (F.ETH_CNT_COUNT m 8)
    else if ¬ p.ipOk then s.bump (F.ETH_CNT_COUNT m 5)
    else if ¬ p.udpOk then s.bump (F.ETH_CNT_COUNT m 6)
    else
      let hit := (List.range 64).find? fun f =>
        s.streamOn (f / 2) && (f % 2 = 0 || s.bit (F.ING_S_CTRL_PAIR (f / 2))) &&
          s.fld (F.ETH_FLOW_PORT_MEDIA_PORT f) = m && s.fld (F.ETH_FLOW_DST_DST_IP f) = p.dstIp.toNat &&
          s.fld (F.ETH_FLOW_PORT_UDP_PORT f) = p.dstPort.toNat &&
          (s.fld (F.ETH_FLOW_SRC_SRC_IP f) = 0 || s.fld (F.ETH_FLOW_SRC_SRC_IP f) = p.srcIp.toNat)
      match hit with
      | none => s.bump (F.ETH_CNT_COUNT m 7)
      | some f =>
        let k := f / 2
        if p.version ≠ 2 ∨ p.pt.toNat ≠ s.fld (F.ING_S_CTRL_PT k) ∨
            (s.bit (F.ING_S_CTRL_SSRC_EN k) ∧ p.ssrc.toNat ≠ s.fld (F.ING_S_SSRC_SSRC k)) then s.ingCount k 7
        else
          let s := if (s.stream k).lost then
              (s.updStream k fun t => { t with lost := false }).log Rec.streamBack [BitVec.ofNat 8 k]
            else s
          let s := s.pathSeq k (f % 2 = 1) p.seq
          match s.mergeSeq k p.seq with
          | (true, t) => t.storePacket k p
          | (false, t) => t

/-- Ticks in 100 ms. -/
def ticks100ms : Nat := 150000000

/-- Whether a path delivered in the last 100 ms. -/
def State.pathAlive (s : State) (k i : Nat) : Bool :=
  match (s.stream k).lastPkt.getD i none with
  | some t => decide (s.tick < t + ticks100ms)
  | none => false

def State.receiving (s : State) (k : Nat) : Bool := s.pathAlive k 0 || s.pathAlive k 1

/-- 100 ms without a packet on either path (R158). -/
def State.streamLost (s : State) (k : Nat) : State :=
  if s.streamOn k ∧ ¬ (s.stream k).lost ∧ ¬ s.receiving k ∧ (s.stream k).since + ticks100ms ≤ s.tick then
    (s.updStream k fun t => { t with lost := true }).log Rec.streamLost [BitVec.ofNat 8 k]
  else s

/-- A stream whose registers changed starts again with an empty ring (R145). -/
def State.restartStream (s : State) (k : Nat) : State :=
  s.updStream k fun t =>
    { t with
             highest := none, span := 0, seen := 0, pathHigh := [none, none], arrivals := [], overruns := [],
             since := s.tick, bufs := t.bufs.map fun b => { b with st := if b.st = 0 then 0 else 4 } }

/-- The stream and flow registers of stream `k`, `ING_S_TIMING` apart (R145). -/
def streamAddrs (k : Nat) : List Nat :=
  [0x50000 + 0x20 * k, 0x50004 + 0x20 * k, 0x5000C + 0x20 * k, 0x50010 + 0x20 * k, 0x50014 + 0x20 * k] ++
    [0, 1].flatMap fun j => [0x41000 + 0x10 * (2 * k + j), 0x41004 + 0x10 * (2 * k + j), 0x41008 + 0x10 * (2 * k + j)]

/-- What a commit does to the streams whose registers it changed (R145). -/
def State.streamsAfter (before s : State) : State :=
  ((List.range 32).filter fun k => (streamAddrs k).any fun a => before.word a != s.word a).foldl
    (fun t k => t.restartStream k) s

/-! ## Frame selection (R155 to R157) -/

/-- Whether a buffer's media time meets the bound of frame `n` (R155): exact arithmetic on W(n) in ns. -/
def State.inBound (s : State) (k n : Nat) (ticks : Int) : Bool :=
  let g := s.grid
  -- W(n) in ns is n * num * 10^9 / den + off; both sides times den
  let w : Int := (n * g.num * 1000000000 + g.off * g.den : Nat)
  ticks * 100000 * (g.den : Int) ≤ 9 * (w - (s.fld (F.ING_S_TIMING_MARGIN_US k) * 1000 * g.den : Nat))

/-- The COMPLETE buffer with the newest media time within the bound. -/
def State.bestBuf (s : State) (k n : Nat) : Option Nat :=
  ((List.range 16).filter fun b => (s.buf k b).st = 2 && s.inBound k n (s.buf k b).ticks).foldl
    (fun best b => match best with
      | none => some b
      | some x => if (s.buf k x).ticks < (s.buf k b).ticks then some b else some x) none

/-- One layer's selection at the wingbeat of frame `n` (R155, R156): the state, and whether it starved. -/
def State.selectFor (s : State) (v k n : Nat) : Bool × State :=
  let s : State := { s with ing := { s.ing with readFrom := s.ing.readFrom.set v k } }
  let cur := s.ing.sel.getD v {}
  let put (t : State) (l : LayerSel) : State := { t with ing := { t.ing with sel := t.ing.sel.set v l } }
  match s.bestBuf k n with
  | some b =>
    if cur.ever ∧ cur.stream = k ∧ cur.buf = b ∧ cur.ticks = (s.buf k b).ticks then
      repeatCase s cur put
    else (false, put s ⟨true, k, b, false, (s.buf k b).ticks⟩)
  | none => repeatCase s cur put
where
  /-- A repeat and its starvation causes (R156). -/
  repeatCase (s : State) (cur : LayerSel) (put : State → LayerSel → State) : Bool × State :=
    let shown : Int := cur.ticks
    let missed := ((List.range 16).any fun b =>
        (s.buf k b).st = 3 && (!cur.ever || shown < (s.buf k b).ticks) && s.inBound k n (s.buf k b).ticks) ||
      ((s.stream k).overruns.any fun o => (!cur.ever || shown < o.2) && s.inBound k n o.2)
    let cause := if missed then 1 else if !s.receiving k then 2 else if !cur.ever then 3 else 0
    let s := if cause ≠ 0 then s.setFld (F.ING_S_STAT_STARVE_CAUSE k) cause else s
    (decide (cause ≠ 0), put s { cur with repeated := true })

end Sys2Proof.Machine
end

