-- ==== Sys2Proof/Machine/OpSlot.lean ====
section
/-! DEFINITION. Sessions as the families see them, and operation slots (R82, R99 to R101). -/

namespace Sys2Proof.Machine

open Sys2Proof

/-- The session on whose behalf a command runs. -/
structure Who where
  uid : Nat
  slot : BitVec 6
  src : BitVec 16
deriving DecidableEq, Repr

def State.updCmd (s : State) (f : CmdSt → CmdSt) : State := { s with cmd := f s.cmd }

/-- An open session of a host identifier. -/
def State.sessionOf (s : State) (src : BitVec 16) : Option Nat :=
  (List.range 64).find? fun k => (s.cmd.sess.getD k {}).isOpen && (s.cmd.sess.getD k {}).src == src

def State.sess (s : State) (k : Nat) : Sess := s.cmd.sess.getD k {}

def State.updSess (s : State) (k : Nat) (f : Sess → Sess) : State :=
  s.updCmd fun c => { c with sess := c.sess.modify k f }

def State.op (s : State) (k : Nat) : OpSlot := s.cmd.ops.getD k {}

def State.setOp (s : State) (k : Nat) (o : OpSlot) : State := s.updCmd fun c => { c with ops := c.ops.set k o }

/-- The lowest-numbered free slot (R99). -/
def State.opFree (s : State) : Option Nat := (List.range 16).find? fun k => (s.op k).st = 0

/-- The refusal while no slot is free (R99). -/
def State.opFull (s : State) : Res := refuse s Status.refusedFull Reason.opSlots 0 [1000]

/-- Slot `k` starts an operation (R99). DESIGN CHOICE (log entry 77): `PROGRESS` of an operation whose chapter does not say how
it advances (R101) reads 0 until the operation is done. -/
def State.startOp (s : State) (w : Who) (k : Nat) (opcode : BitVec 8) (kind : OpKind) : State :=
  s.setOp k { st := 1, gen := (s.op k).gen + 1, opcode := opcode, ownerUid := w.uid, ownerSlot := w.slot,
              kind := kind, start := s.tick }

/-- The `ACCEPTED` reply of the operation in slot `k` (R99). -/
def State.opReply (s : State) (k : Nat) : List Word := [BitVec.ofNat 32 (k + 65536 * (s.op k).gen.toNat)]

/-- A long operation starts in the lowest free slot and is answered `ACCEPTED` (R99). -/
def State.runOp (s : State) (w : Who) (opcode : BitVec 8) (kind : OpKind) (after : Nat → State → State := fun _ t => t) :
    Res :=
  match s.opFree with
  | none => s.opFull
  | some k =>
    let t := s.startOp w k opcode kind
    .done Status.accepted (t.opReply k) (after k t)

/-- A slot becomes FREE; its generation stays (R99, R101). DESIGN CHOICE (log entry 53): PROGRESS, FINAL, OPCODE, OWNER and
VALID of a released slot read 0. -/
def State.freeOp (s : State) (k : Nat) : State := s.setOp k { gen := (s.op k).gen }

/-- The operation in slot `k` reaches DONE with its final status and result (R100). A slot whose session has ended is
released (R84). -/
def State.finishOp (s : State) (k : Nat) (final : BitVec 8) (result : List Word) : State :=
  let o := s.op k
  if o.orphan then s.freeOp k
  else s.setOp k { o with st := 2, progress := 100, final := final, result := result.take 4096, kind := .idle }

/-- An operation ends with a reason: result word 0 is the reason word (R100). -/
def State.failOp (s : State) (k : Nat) (final : BitVec 8) (code detail : Nat) (more : List Word := []) : State :=
  s.finishOp k final (reasonWord code detail :: more)

/-- `CMD_OP_STAT[k]`. -/
def OpSlot.stat (o : OpSlot) : Word :=
  BitVec.ofNat 32 (o.progress.toNat + 2 ^ 8 * o.final.toNat + 2 ^ 16 * o.opcode.toNat + 2 ^ 24 * o.ownerSlot.toNat +
    2 ^ 30 * o.st.toNat)

/-- `CMD_OP_VALID[k]`. -/
def OpSlot.valid (o : OpSlot) : Word := BitVec.ofNat 32 (o.result.length + 65536 * o.gen.toNat)

/-- `OP_STATUS` (R100). -/
def State.opStatus (s : State) (mask : Nat) : Res :=
  okRes s ((bitsOf 16 mask).flatMap fun k => [(s.op k).stat, (s.op k).valid])

/-- `OP_RESULT` (R100, R101). -/
def State.opResult (s : State) (w : Who) (k : Nat) (gen : BitVec 16) (offset count : Nat) : Res :=
  let o := s.op k
  if o.st = 0 ∨ gen ≠ o.gen then .done Status.noResult [] s
  else if o.ownerUid ≠ w.uid then refuse s Status.notOwner Reason.slot k
  else if 4096 < offset then refuse s Status.badParam Reason.range 1
  else if 4096 < count then refuse s Status.badParam Reason.range 2
  else
    let words := (o.result.drop offset).take count
    let head : List Word := [BitVec.ofNat 32 (65536 * o.gen.toNat + 256 * o.final.toNat),
      BitVec.ofNat 32 o.result.length]
    .done (if o.st = 1 then Status.partly else Status.ok) (head ++ words) s

/-- `OP_RELEASE` (R101). -/
def State.opRelease (s : State) (w : Who) (k : Nat) (gen : BitVec 16) : Res :=
  let o := s.op k
  if o.st = 0 ∨ gen ≠ o.gen then .done Status.noResult [] s
  else if o.ownerUid ≠ w.uid then refuse s Status.notOwner Reason.slot k
  else if o.st = 1 then refuse s Status.notReady Reason.running k
  else okRes (s.freeOp k)

/-- The slots of a session that has ended (R84): DONE ones are released, running ones when they finish. -/
def State.endOps (s : State) (uid : Nat) : State :=
  s.updCmd fun c => { c with ops := c.ops.map fun o =>
    if o.st ≠ 0 ∧ o.ownerUid = uid then (if o.st = 2 then { gen := o.gen } else { o with orphan := true }) else o }

/-! ## Memory under running operations (R97, R372) -/

/-- Whether a running `MEM_FILL` or `MEM_COPY` writes any of `n` bytes at `a`. -/
def State.moverWrites (s : State) (a n : Nat) : Bool :=
  (List.range 16).any fun k => (s.op k).st = 1 && match (s.op k).kind with
    | .memFill b m _ => overlaps a n b m
    | .memCopy _ b m => overlaps a n b m
    | _ => false

/-- Whether HOST has just been given a bank of a range that its old owner's accesses still leave (R372). -/
def State.drains (s : State) (a n : Nat) : Bool :=
  (List.range 48).any fun b => s.bit (F.MEM_BANK_STAT_DRAINING b) && s.fld (F.MEM_BANK_STAT_OWNER b) = 1 &&
    overlaps a n (bankBase b) 0x80000

/-- Whether a short memory command waits: for a running operation (R97) that writes bytes the command touches, or reads
bytes the command writes, or for a bank that drains (R372). -/
def State.memWaits (s : State) (a n : Nat) (writes : Bool) : Bool :=
  s.drains a n || s.moverWrites a n || (writes && (List.range 16).any fun k => (s.op k).st = 1 && match (s.op k).kind with
    | .memCopy b _ m => overlaps a n b m
    | _ => false)

end Sys2Proof.Machine
end

