-- ==== Sys2Proof/Machine/Err.lean ====
section
/-! DEFINITION. The commands over the log and the counters (R426 to R428, R431), and the save area of the log (R426). -/

namespace Sys2Proof.Machine

open Sys2Proof

/-- `ERR_READ` (R427). -/
def State.errRead (s : State) (first : Word) (count : Nat) : Res :=
  if 128 < count then refuse s Status.badParam Reason.range 1
  else
    let hits := (s.err.log.filter fun r => decide ((r.seq - first).toNat < 2 ^ 31)).take count
    let oldest := (s.err.log.head?.map ErrRec.seq).getD s.err.next
    okRes s ([oldest, BitVec.ofNat 32 hits.length] ++ hits.flatMap fun r => bytesWords (recBytes r))

/-- `ERR_CLEAR` (R428). -/
def State.errClear (s : State) (upto : Word) : Res :=
  let left := s.err.log.filter fun r => decide (2 ^ 31 ≤ (upto - r.seq).toNat)
  okRes (State.alertEdge s { s with err := { s.err with log := left } }) [BitVec.ofNat 32 left.length]

/-- `ERR_STAT` as it reads. -/
def State.errStat (s : State) : Word :=
  BitVec.ofNat 32 (s.err.log.length + 2 ^ 16 * s.alertLow.toNat +
    2 ^ 18 * (s.err.log.map fun r => r.sev.toNat).foldl max 0)

/-- `n` registers from an address. -/
def regRun (a n : Nat) : List Nat := (List.range n).map fun i => a + 4 * i

/-- The registers of a block that `DIAG_COUNTERS` captures, ascending (R431); none for block 0x05, whose counters lie
behind a window. -/
def diagRegs (block : Nat) : Option (List Nat) :=
  match block with
  | 0x01 => some (regRun 0x10300 8 ++ regRun 0x10400 7)
  | 0x02 => some (regRun 0x20080 8)
  | 0x03 => some (regRun 0x30100 8)
  | 0x04 => some ((List.range 8).flatMap fun m => regRun (0x40200 + 0x40 * m) 12)
  | 0x06 => some (regRun 0x60640 16 ++ regRun 0x60A00 8)
  | 0x07 => some ((List.range 6).flatMap fun k => regRun (0x70500 + 0x10 * k) 4)
  | 0x08 => some (regRun 0x80100 8)
  | 0x09 => some ((List.range 4).flatMap (fun q => (List.range 4).flatMap fun c =>
      regRun (0x90400 + 0x40 * q + 0x10 * c) 4) ++ regRun 0x90600 14)
  | 0x0A => some ((List.range 4).flatMap fun q => regRun (0xA0040 + 0x1000 * q) 12 ++
      (List.range 4).flatMap fun l => regRun (0xA0110 + 0x1000 * q + 0x20 * l) 4)
  | 0x0B => some (regRun 0xB0100 12)
  | 0x0C => some (regRun 0xC0200 12)
  | 0x0D => some ((List.range 4).flatMap (fun c => regRun (0xD0010 + 0x40 * c) 8) ++
      (List.range 4).flatMap (fun c => regRun (0xD0200 + 0x40 * c) 15) ++ regRun 0xD0810 6 ++ regRun 0xD1300 17)
  | 0x0E => some (regRun 0xE0100 8)
  | 0x0F => some (regRun 0xF0100 8)
  | 0x10 => some (regRun 0x100200 12)
  | 0x11 => some (regRun 0x110100 8)
  | _ => none

/-- The third word of each class of `MEM_CLS_CNT`, which a read clears. -/
def readClears (a : Nat) : Bool :=
  decide (0xD0200 ≤ a ∧ a < 0xD0300 ∧ (a - 0xD0200) % 0x40 < 60 ∧ (a - 0xD0200) % 0x40 / 4 % 3 = 2)

/-- `DIAG_COUNTERS` (R431). -/
def State.diagCounters (s : State) (block : Nat) (clear : Bool) : Res :=
  let stamp : List Word := [BitVec.ofNat 32 (timeSec s.clk / 2 ^ 32), BitVec.ofNat 32 (timeSec s.clk),
    BitVec.ofNat 32 (timeNs s.clk)]
  if block = 0x05 then
    let ws := s.ing.streams.flatMap fun t => t.counts.map fun c => BitVec.ofNat 32 c
    let wipe (t : Stream) : Stream := { t with counts := List.replicate 14 0 }
    let cleared : IngSt := { s.ing with streams := s.ing.streams.map wipe }
    let t : State := if clear then { s with ing := cleared } else s
    okRes t (stamp ++ ws)
  else
    match diagRegs block with
    | none => refuse s Status.badParam Reason.range 0
    | some l =>
      okRes (l.foldl (fun (t : State) a => if clear || readClears a then t.setWord a 0 else t) s)
        (stamp ++ l.map s.word)

/-! ## The save area (R426) -/

/-- Bytes 0 to 1,031 of the area: the records, oldest first and the unused slots zero, `NEXT_SEQ`, `COUNT`. -/
def saveBody (keep : List ErrRec) (next : Word) : List Byte :=
  (keep.flatMap recBytes ++ List.replicate 1024 0).take 1024 ++ bytesLE 4 next.toNat ++ bytesLE 1 keep.length ++ bytesLE 3 0

/-- The bytes used of the area, its fields least significant byte first: the body, `CHECK`, and `STATE`, saved and not yet
restored. -/
def saveBytes (keep : List ErrRec) (next : Word) : List Byte :=
  saveBody keep next ++ bytesLE 4 (crc32c (saveBody keep next)).toNat ++ [0x5A]

def State.updSave (s : State) (f : List Byte → List Byte) : State :=
  { s with sec := { s.sec with nvm := { s.sec.nvm with save := f s.sec.nvm.save } } }

/-- The save at a device reset after eclosion: the 32 newest records of severity WARNING or above. -/
def State.saveLog (s : State) : State :=
  let l := s.err.log.filter fun r => decide (2 ≤ r.sev.toNat)
  s.updSave fun b => saveBytes (l.drop (l.length - 32)) s.err.next ++ b.drop 1037

/-- Whether the area holds records to restore: `STATE` is 0x5A and `CHECK` matches. -/
def saveArmed (b : List Byte) : Bool :=
  b.getD 1036 0 == 0x5A && fieldLE b 1032 4 == (crc32c (b.take 1032)).toNat

/-- The saved records, oldest first, as restored: with `PRIOR` = 1. -/
def savedRecs (b : List Byte) : List ErrRec :=
  (List.range (min 32 (fieldLE b 1028 1))).map fun i => { readRec (slice b (32 * i) 32) with prior := true }

/-- The restore at the end of step 4 of R22, of a start that no POWER_ON began; otherwise the log starts empty. -/
def State.restoreLog (s : State) : State :=
  let b := s.sec.nvm.save
  if ¬ s.sys.startPor ∧ saveArmed b then
    let t : State := { s with err := { s.err with log := savedRecs b, next := BitVec.ofNat 32 (fieldLE b 1024 4) } }
    State.alertEdge s (t.bump (F.ERR_CNT_COUNT 7) (savedRecs b).length)
  else State.alertEdge s { s with err := { s.err with log := [], next := 0 } }

/-- Eclosion marks the area consumed. -/
def State.consumeLog (s : State) : State := s.updSave fun b => b.set 1036 0

end Sys2Proof.Machine
end

