-- ==== Sys2Proof/Machine/Wire.lean ====
section
/-! DEFINITION. What stands on a Parrus lane (spec/09): the scrambler (R231), training sets and idle blocks (R230, R242),
cells in data slots (R258), test patterns (R254). -/

namespace Sys2Proof.Machine

open Sys2Proof

/-! ## The scrambler (R231) -/

/-- One byte, bit 7 first. -/
def scramByte (st : BitVec 31) (b : Byte) : BitVec 31 × Byte :=
  (List.range 8).foldl (fun (acc : BitVec 31 × Byte) i =>
    let x := acc.1.getLsbD 30 != acc.1.getLsbD 27
    ((acc.1 <<< 1) ||| (if x then 1#31 else 0#31), if x then acc.2 ^^^ (0x80#8 >>> i) else acc.2)) (st, b)

/-- A run of bytes. -/
def scramBytes (st : BitVec 31) (bs : List Byte) : BitVec 31 × List Byte :=
  bs.foldl (fun acc b => let r := scramByte acc.1 b; (r.1, acc.2 ++ [r.2])) (st, [])

/-- A lane's frame, descrambled from the frame's first payload bit. -/
def descramble (l : Nat) (blocks : List (BitVec 2 × List Byte)) : List (BitVec 2 × List Byte) :=
  (blocks.foldl (fun (acc : BitVec 31 × List (BitVec 2 × List Byte)) b =>
    let r := scramBytes acc.1 b.2
    (r.1, acc.2 ++ [(b.1, r.2)])) (BitVec.ofNat 31 (0x7FFFFFF0 + l), [])).2

/-- Bytes 8 to 15 of the `n`-th block of a run of unscrambled blocks: the register's output, free-running from its start
(R231). DESIGN CHOICE (log entry 59): it starts with the run, at the entry to the state or with the first FTS or EIOS. -/
def transitionFill (n : Nat) : List Byte :=
  ((scramBytes 0x7FFFFFFF#31 (List.replicate (8 * (n + 1)) 0)).2).drop (8 * n)

/-! ## Training sets and idle blocks (R230, R240, R242, R246, R247) -/

/-- What a TS1 or a TS2 says (R242). -/
structure TrainSet where
  typ : Byte                                 -- 0x4B TS1, 0x55 TS2
  lane : BitVec 2
  eqDone : Bool
  confirm : Bool
  deep : Bool
  laneOk : BitVec 4
  maxWidth : BitVec 2
  width : BitVec 2                           -- as LNK_STAT.WIDTH, zero in TS1
  rxNext : BitVec 24
deriving DecidableEq, Repr

/-- Bytes 0 to 6 of a training set (R242). -/
def TrainSet.head (t : TrainSet) : List Byte :=
  [t.typ, BitVec.ofNat 8 (t.lane.toNat + 16 * t.eqDone.toNat + 32 * t.confirm.toNat + 64 * t.deep.toNat),
    BitVec.ofNat 8 (t.laneOk.toNat + 16 * t.maxWidth.toNat + 64 * t.width.toNat), 0] ++ bytesBE 3 t.rxNext.toNat

/-- A training set as the `n`-th control block of its run. -/
def TrainSet.block (t : TrainSet) (n : Nat) : BitVec 2 × List Byte :=
  (2, t.head ++ [crc8 t.head] ++ transitionFill n)

/-- The training set a block holds: a control block of type TS1 or TS2 whose check byte matches (R242). -/
def readTs (b : BitVec 2 × List Byte) : Option TrainSet :=
  let f := b.2.getD 1 0
  let k := b.2.getD 2 0
  if b.1 = 2 ∧ (b.2.getD 0 0 = 0x4B ∨ b.2.getD 0 0 = 0x55) ∧ crc8 (b.2.take 7) = b.2.getD 7 0 then
    some { typ := b.2.getD 0 0, lane := f.setWidth 2, eqDone := f.getLsbD 4, confirm := f.getLsbD 5, deep := f.getLsbD 6,
           laneOk := k.setWidth 4, maxWidth := (k >>> 4).setWidth 2, width := (k >>> 6).setWidth 2,
           rxNext := BitVec.ofNat 24 (fieldBE b.2 4 3) }
  else none

/-- A block received with its polarity inverted (R240). -/
def invertBlock (b : BitVec 2 × List Byte) : BitVec 2 × List Byte := (~~~b.1, b.2.map fun x => ~~~x)

/-- EIOS on a lane (R246, R247): `DEEP` stands where a training set has it (log entry 59), the bytes R242 does not lay out for
it are free. -/
def eiosBlock (deep : Bool) : List Byte :=
  [0x78, BitVec.ofNat 8 (64 * deep.toNat)] ++ ((List.range 6).map fun i => BitVec.ofNat 8 (Config.free 232 [i])) ++
    transitionFill 0

/-- The eight FTS blocks on a lane (R246). -/
def ftsBlocks : List (List Byte) :=
  (List.range 8).map fun n => 0x66 :: ((List.range 7).map fun i => BitVec.ofNat 8 (Config.free 233 [i])) ++ transitionFill n

/-! ## What training sees of the lanes (R240, R242) -/

/-- The blocks a lane has brought lately, oldest first. -/
def laneBrought (o : TrainObs) (l : Nat) : List (BitVec 2 × List Byte) :=
  ((o.rx.find? fun f => f.lane.toNat == l).map LaneFrame.blocks).getD []

/-- The last `n` of a list. -/
def lastOf {α : Type} (n : Nat) (xs : List α) : List α := xs.drop (xs.length - n)

/-- Lanes of which a property holds. -/
def lanesWhere (p : Nat → Bool) : BitVec 4 :=
  (List.range 4).foldl (fun m l => if p l then m ||| (1#4 <<< l) else m) 0

/-- Lanes with 64 valid headers in a row (R240). -/
def lockedLanes (o : TrainObs) : BitVec 4 :=
  lanesWhere fun l =>
    let bs := lastOf 64 (laneBrought o l)
    bs.length == 64 && bs.all fun b => b.1 == 1 || b.1 == 2

/-- Lanes that receive the TS1 type byte as 0xB4 (R240). -/
def invertedLanes (o : TrainObs) : BitVec 4 :=
  lanesWhere fun l => (laneBrought o l).any fun b =>
    b.2.getD 0 0 == 0xB4 && (readTs (invertBlock b)).isSome

/-- What a lane brings as training sets, its polarity set right; none for any other block. -/
def heardSets (inverted : BitVec 4) (o : TrainObs) (l : Nat) : List (Option TrainSet) :=
  (laneBrought o l).map fun b => readTs (if inverted.getLsbD l then invertBlock b else b)

/-- The training set a lane brought last. -/
def heardLast (inverted : BitVec 4) (o : TrainObs) (l : Nat) : Option TrainSet := ((heardSets inverted o l).getLast?).join

/-- The TS2 that a lane has brought sixteen times over (R240). -/
def heardSixteen (inverted : BitVec 4) (o : TrainObs) (l : Nat) : Option TrainSet :=
  let ts := lastOf 16 (heardSets inverted o l)
  match (ts.getLast?).join with
  | some t => if t.typ = 0x55 ∧ ts.length = 16 ∧ ts.all (fun x => x == some t) then some t else none
  | none => none

/-! ## Cells in data slots (R258) -/

/-- A cell read from its bytes (R256). -/
def readCell (bs : List Byte) : Cell :=
  let kind := (bs.getD 4 0)
  let len := fieldBE bs 6 2
  { dst := BitVec.ofNat 16 (fieldBE bs 0 2), src := BitVec.ofNat 16 (fieldBE bs 2 2), cls := (kind >>> 6).setWidth 2,
    typ := kind.setWidth 6, flags := bs.getD 5 0, len := BitVec.ofNat 16 len, seq := BitVec.ofNat 32 (fieldBE bs 8 4),
    frameTxn := BitVec.ofNat 16 (fieldBE bs 12 2), hop := bs.getD 14 0, hchk := bs.getD 15 0, payload := slice bs 16 len,
    crc := BitVec.ofNat 32 (fieldBE bs (16 + 4 * ceilDiv len 4) 4) }

/-- What the slots of a frame come to: whole cells, and headers that fail order 1 or 2 of R259. -/
inductive Parsed where
  | cell (c : Cell)
  | bad (order : Nat) (c : Cell)
deriving DecidableEq, Repr

/-- Four bytes of a data slot (R258): with `skip` the rest of the slot is passed over. -/
def CellRx.group (a : CellRx × Bool × List Parsed) (g : List Byte) : CellRx × Bool × List Parsed :=
  let (r, skip, out) := a
  if skip then a
  else if r.part = [] ∧ g.take 2 = [0, 0] then (r, true, out)
  else
    let bs := r.part ++ g
    let c := readCell bs
    if bs.length = 16 ∧ c.hchk ≠ crc8 (cellHead c) then ({ r with part := [], hunt := true }, true, out ++ [.bad 1 c])
    else if bs.length = 16 ∧ 1024 < c.len.toNat then ({ r with part := [], hunt := true }, true, out ++ [.bad 2 c])
    else if bs.length = 20 + 4 * ceilDiv c.len.toNat 4 then ({ r with part := [] }, false, out ++ [.cell c])
    else ({ r with part := bs }, false, out)

/-- One slot (R258, R259): the data slot after an IDLE slot begins with a cell; after a failure of order 1 or 2, slots up to
the next such one are passed over. -/
def CellRx.slot (a : CellRx × List Parsed) : Option (List Byte) → CellRx × List Parsed
  | none => ({ a.1 with part := [], start := true }, a.2)
  | some d =>
    if a.1.hunt ∧ a.1.start = false then a
    else
      let r : CellRx := if a.1.start then {} else a.1
      let (r, _, out) := ((List.range 4).map fun i => slice d (4 * i) 4).foldl CellRx.group ({ r with start := false }, false, a.2)
      (r, out)

/-! ## Test patterns (R254) -/

/-- Degree and second tap of a PRBS. -/
def prbsTaps : Nat → Option (Nat × Nat)
  | 0 => some (7, 6)
  | 1 => some (15, 14)
  | 2 => some (23, 18)
  | 3 => some (31, 28)
  | _ => none

/-- One period of the clock pattern or of `ARG`, bit 31 first. -/
def patCycle (pattern : Nat) (arg : Word) : List Bool :=
  if pattern = 4 then [true, true, false, false] else (List.range 32).map fun i => arg.getLsbD (31 - i)

/-- The bit that follows the bits `hist`, newest first, of a pattern's sequence; none where they are none of it. -/
def patNext (pattern : Nat) (arg : Word) (hist : List Bool) : Option Bool :=
  match prbsTaps pattern with
  | some (n, m) =>
    if hist.length < n ∨ (hist.take n).any id = false then none
    else some (hist.getD (n - 1) false != hist.getD (m - 1) false)
  | none =>
    let c := patCycle pattern arg
    let n := c.length
    if n ≤ hist.length ∧ (List.range n).any (fun k => c.drop k ++ c.take k == (hist.take n).reverse) then
      some (hist.getD (n - 1) false)
    else none

/-- What stands before a generated sequence: a whole period, or for a PRBS a register that is not zero and that the spec
leaves open (log entry 12). -/
def patStart (pattern : Nat) (arg : Word) (seed : Nat) : List Bool :=
  match prbsTaps pattern with
  | some (n, _) => (List.range n).map fun i => (1 + seed % (2 ^ n - 1)).testBit i
  | none => (patCycle pattern arg).reverse

/-- The next `n` bits of a sequence. -/
def patBits (pattern : Nat) (arg : Word) : Nat → List Bool → List Bool
  | 0, _ => []
  | n + 1, hist =>
    let b := (patNext pattern arg hist).getD false
    b :: patBits pattern arg n ((b :: hist).take 32)

/-- The bits of a block in the order they are sent (R229). -/
def blockBits (b : BitVec 2 × List Byte) : List Bool :=
  [b.1.getLsbD 1, b.1.getLsbD 0] ++ b.2.flatMap fun x => (List.range 8).map fun i => x.getLsbD (7 - i)

/-- A received bit at a checker (R254). It locks by itself once as many bits in a row as Config says continue the pattern, then
runs free and counts the bits that differ; as many of those in a row as Config says end its lock (log entry 12). -/
def PatCheck.bit (pattern : Nat) (arg : Word) (c : PatCheck) (b : Bool) : PatCheck :=
  let want := patNext pattern arg c.hist
  if c.locked then
    let p := want.getD false
    let miss := if p = b then 0 else c.miss + 1
    let errors := if p = b then c.errors else min (2 ^ 24 - 1) (c.errors + 1)
    if Config.free 254 [1] + 1 ≤ miss then { c with locked := false, hist := [], run := 0, miss := 0, errors := errors }
    else { c with hist := (p :: c.hist).take 32, miss := miss, errors := errors }
  else
    let run := if want = some b then c.run + 1 else 0
    { c with hist := (b :: c.hist).take 32, run := run, locked := decide (Config.free 254 [0] + 1 ≤ run), miss := 0 }

/-- A run of received bits at a checker. -/
def PatCheck.bits (pattern : Nat) (arg : Word) (c : PatCheck) (bs : List Bool) : PatCheck :=
  bs.foldl (PatCheck.bit pattern arg) c

end Sys2Proof.Machine
end

