-- ==== Sys2Proof/Machine/Lane.lean ====
section
/-! DEFINITION. Parrus lanes (spec/09): link frames in both directions, replay, training, idle states,
width degrade, receiver taps and recalibration. -/

namespace Sys2Proof.Machine

open Sys2Proof

def State.lane (s : State) (q : Nat) : LaneSt := s.lnk.ports.getD q {}

def State.updLane (s : State) (q : Nat) (f : LaneSt → LaneSt) : State :=
  { s with lnk := { s.lnk with ports := s.lnk.ports.modify q f } }

def State.updPortQ (s : State) (q : Nat) (f : PortQ → PortQ) : State := s.setPortQ q (f (s.portQ q))

def seqMod : Nat := 2 ^ 24

/-- Distance from `a` to `b` in BSEQ (R233). -/
def seqDist (a b : Nat) : Nat := (b + seqMod - a % seqMod) % seqMod

/-! ## States (R240, R244, R272) -/

def lkDisabled : Nat := 0
def lkClock : Nat := 1
def lkBlock : Nat := 2
def lkEq : Nat := 3
def lkDeskew : Nat := 4
def lkConfig : Nat := 5
def lkActive : Nat := 6
def lkLight : Nat := 7
def lkDeep : Nat := 8
def lkService : Nat := 9
def lkFailed : Nat := 10

/-- A port enters a state. -/
def State.setLnk (s : State) (q st : Nat) : State :=
  let up := s.lnkState q = lkActive ∨ s.lnkState q = lkLight
  (s.setFld (F.LNK_STAT_STATE q) st).updLane q fun l => { l with
    since := s.tick, awake := false, downAt := if up then s.tick else l.downAt, eqDone := l.eqDone && decide (st ≠ lkBlock),
    partner := if st = lkBlock then none else l.partner, confirmAt := if st = lkBlock then none else l.confirmAt }

/-- Cells queued on a port, in every class. -/
def PortQ.cells (p : PortQ) : List QCell := p.t0 ++ p.t1 ++ p.t2 ++ p.t3

/-- Credits freed in a receive buffer (R269). -/
def State.freeCredits (s : State) (q : Nat) (c : Cell) : State :=
  if c.cls = 0 then s
  else
    let i := c.cls.toNat - 1
    s.updPortQ q fun p => { p with
      freed := p.freed.modify i fun f => f + BitVec.ofNat 32 (cellCredits c)
      freedTick := match p.freedTick with | none => some s.tick | some t => some t }

/-- Raster cells queued on a port are discarded where the mode allows none on it (R14, M2; log entry 23): those forwarded
leave the receive buffers they stand in. -/
def State.dropRaster (s : State) (q : Nat) : State :=
  let p := s.portQ q
  let gone := p.t1.filter fun e => e.cell.typ == CellType.raster
  (gone.foldl (fun (t : State) e => match e.frees with
    | some a => t.freeCredits a.toNat e.cell
    | none => t) s).updPortQ q fun p => { p with t1 := p.t1.filter fun e => e.cell.typ != CellType.raster }

/-- A port goes down: to DISABLED or FAILED (R239, R272). Its queued cells are discarded and counted, its credits,
replay buffer and sequence values cleared. -/
def State.portDown (s : State) (q st : Nat) : State :=
  let gone := (s.portQ q).cells
  let s := gone.foldl (fun (t : State) e => match e.frees with
    | some a => t.freeCredits a.toNat e.cell
    | none => t) s
  let s := s.bump (F.FAB_CNT_COUNT 9) (gone.length + (s.portQ q).blocked.length)
  let s := s.setPortQ q { ({} : PortQ) with tokTick := s.tick, svcTick := s.tick }
  let s := (s.setFld (F.LNK_STAT_WIDTH q) 0).setFld (F.LNK_STAT_LANES q) 0
  let s := if st = lkDisabled then s.setFld (F.LNK_STAT_CONNECTED q) 0 else s
  (s.updLane q fun l => { ({} : LaneSt) with
    excluded := l.excluded, laneOk := l.laneOk, lastLanes := l.lastLanes, need := l.need,
    calSlot := l.calSlot, downAt := l.downAt }).setLnk q st

/-! ## Stored calibration (R252) -/

/-- The record of a port is valid when its check word matches. -/
def calValid (r : Option (List Byte)) : Bool :=
  match r with
  | some bs => decide (bs.length = 48) && crc32c (bs.take 44) = BitVec.ofNat 32 (fieldLE bs 44 4)
  | none => false

def State.calRecord (s : State) (q : Nat) : Option (List Byte) := (s.sec.nvm.cal[q]?).join

/-- Stored `LNK_SKEW` and `LNK_TAPS` of a lane. -/
def storedSkew (r : List Byte) (l : Nat) : Nat := fieldLE r (4 + 8 * l) 4
def storedTaps (r : List Byte) (l : Nat) : Nat := fieldLE r (8 + 8 * l) 4

/-- The record as it would be stored now. -/
def State.calBytes (s : State) (q : Nat) : List Byte :=
  let body := bytesLE 2 1 ++ bytesLE 1 (s.fld F.LNK_CAL_STAT_T_NOW) ++ bytesLE 1 (s.fld (F.LNK_STAT_WIDTH q)) ++
    ((List.range 4).flatMap fun l =>
      bytesLE 4 (s.word (F.LNK_SKEW_COARSE q l).addr).toNat ++ bytesLE 4 (s.word (F.LNK_TAPS_CTLE q l).addr).toNat) ++
    List.replicate 8 0
  body ++ bytesLE 4 (crc32c body).toNat

/-- The record is written; `VALID` shows it (R252). -/
def State.storeCal (s : State) (q : Nat) (bs : List Byte) : State :=
  let s := { s with sec := { s.sec with nvm := { s.sec.nvm with cal := s.sec.nvm.cal.set q (some bs) } } }
  let v := s.fld F.LNK_CAL_STAT_VALID
  s.setFld F.LNK_CAL_STAT_VALID (if calValid (some bs) then v ||| 2 ^ q else v - (v / 2 ^ q % 2) * 2 ^ q)

/-- EQUALIZE starts from the stored record when it is valid, else from CTLE 8 and no DFE (R240). -/
def State.loadTaps (s : State) (q : Nat) : State :=
  let ok := calValid (s.calRecord q)
  let r := (s.calRecord q).getD []
  let s := s.setBit (F.LNK_STAT_STORED q) ok
  (List.range 4).foldl (fun (t : State) l =>
    if ok then
      (t.setWord (F.LNK_SKEW_COARSE q l).addr (BitVec.ofNat 32 (storedSkew r l))).setWord (F.LNK_TAPS_CTLE q l).addr
        (BitVec.ofNat 32 (storedTaps r l % 2 ^ 28))
    else t.setWord (F.LNK_TAPS_CTLE q l).addr 8) s

/-! ## Leaving ACTIVE (R244) -/

/-- Ports of the automatic recalibration that still run. -/
def State.autoRuns (s : State) : Bool :=
  (List.range 4).any fun p => s.lnk.autoPorts.getLsbD p && (s.lane p).cal.isSome

/-- `LNK_CAL_STAT.STATE` as a run ends: idle, or running while another goes on. -/
def State.calIdle (s : State) : State :=
  s.setFld F.LNK_CAL_STAT_STATE (if (List.range 4).any fun p => (s.lane p).cal.isSome then 1 else 0)

/-- A run of recalibration on a port that leaves ACTIVE is aborted (R251); one of `CAL_RUN` reports so at its end. -/
def State.abortCal (s : State) (q : Nat) : State :=
  if (s.lane q).cal.isSome then
    let s := s.updLane q fun l => { l with cal := none }
    if s.lnk.autoPorts.getLsbD q then
      if s.autoRuns then { s with lnk := { s.lnk with autoAbort := true } }
      else (({ s with lnk := { s.lnk with autoPorts := 0 } } : State).calIdle).setFld F.LNK_CAL_STAT_LAST_RESULT 3
    else s
  else s

/-- Whether a recalibration runs on a port: an automatic one, or a `CAL_RUN` (R251, R253). -/
def State.calibrates (s : State) (q : Nat) : Bool := (s.lane q).cal.isSome

/-- Whether a cause leads to a retrain without `RETRAIN_EN` (R244). -/
def alwaysRetrains (cause : Nat) : Bool := cause = 7 || cause = 8

/-- A port leaves ACTIVE (R244): to BLOCK_LOCK, or to FAILED where retraining is not armed. A retrain starts from the taps
in use (R241), but from the stored values when it ends a recalibration (R251). -/
def State.leaveActive (s : State) (q cause : Nat) : State :=
  let s := if s.calibrates q then (s.abortCal q).loadTaps q else s
  let width := s.fld (F.LNK_STAT_WIDTH q)
  let s := s.setFld (F.LNK_STAT_LAST_FAIL q) cause
  if alwaysRetrains cause ∨ s.bit (F.LNK_POLICY_RETRAIN_EN q) then
    let s := s.bump (F.LNK_CNT_COUNT q 5)
    let s := s.bump (F.LNK_STAT_RETRAINS q)
    let s := s.updPortQ q fun p => { p with retrain := true }
    let s := s.updTm fun tm => { tm with marked := tm.marked.set q false }
    let s := s.updLane q fun l => { l with
      laneOk := ~~~l.excluded, resend := none, replayAck := none, replayRuns := 0, stall := 0, typeFails := 0,
      partnerIdle := false, markOut := none, markHeard := false, markIn := none, markAt := none }
    (s.setLnk q lkBlock).log Rec.linkRetrain [BitVec.ofNat 8 q, BitVec.ofNat 8 cause, BitVec.ofNat 8 width]
  else
    (s.updTm fun tm => { tm with marked := tm.marked.set q false }).portDown q lkFailed

/-- Whether a port carries frames. -/
def State.carries (s : State) (q : Nat) : Bool := s.lnkState q = lkActive || s.lnkState q = lkLight

/-- Active lanes of a port, ascending. -/
def State.activeLanes (s : State) (q : Nat) : List Nat := bitsOf 4 (s.fld (F.LNK_STAT_LANES q))

/-! ## Replay (R238) -/

/-- A replay from the slot that `ACK` names; `k` is the counter of its case. The fourth in a row from one `ACK` value
takes the port out of ACTIVE. -/
def State.startReplay (s : State) (q k : Nat) : State :=
  let l := s.lane q
  if l.unacked = [] then s
  else
    let runs := if l.replayAck = some l.ack then l.replayRuns + 1 else 1
    let s := (s.bump (F.LNK_CNT_COUNT q k)).updLane q fun l => { l with
      resend := some 0, replayAck := some l.ack, replayRuns := runs, stall := 0 }
    if 4 ≤ runs then s.leaveActive q 5 else s

/-- 256 frames without progress of `ACK` (R238). -/
def State.replayTimeout (s : State) (q : Nat) : State :=
  if s.carries q ∧ (s.lane q).unacked ≠ [] ∧ 256 ≤ (s.lane q).stall then s.startReplay q 4 else s

/-- An `ACK` arrives: the slots before it leave the replay buffer. -/
def State.takeAck (s : State) (q a : Nat) : State :=
  let l := s.lane q
  let d := seqDist l.ack a
  if d = 0 ∨ l.unacked.length < d then s
  else s.updLane q fun l => { l with
    acked := ((l.unacked.take d).foldl CellRx.slot (l.acked, [])).1
    unacked := l.unacked.drop d, ack := a, stall := 0,
    resend := match l.resend with | some i => if d ≤ i then some (i - d) else some 0 | none => none }

/-! ## Sending (R232, R234, R235, R238, R258) -/

/-- A cell enters a port's slot stream (R258): aligned to 4 bytes, a TIME cell at byte 0 of a slot, an IDLE slot
before 4,096 data slots have passed without one. -/
def LaneSt.addCell (l : LaneSt) (c : Cell) : LaneSt :=
  let flush (l : LaneSt) : LaneSt :=
    if l.part = [] then l
    else { l with
                  slots := l.slots ++ [some (l.part ++ List.replicate (16 - l.part.length) 0)], part := [],
                  dataRun := l.dataRun + 1 }
  let l := if c.typ = CellType.time then flush l else l
  let l := if 4096 ≤ l.dataRun + 68 then
      let f := flush l
      { f with slots := f.slots ++ [none], dataRun := 0 }
    else l
  let bs := l.part ++ cellBytes c
  let n := bs.length / 16
  { l with slots := l.slots ++ (List.range n).map fun i => some (slice bs (16 * i) 16)
           part := bs.drop (16 * n), dataRun := l.dataRun + n }

/-- The next `n` new slots: waiting ones, a part filled out, IDLE. In M7 only IDLE is sent (R245). -/
def LaneSt.takeSlots (l : LaneSt) (n : Nat) (idleOnly : Bool) : List (Option (List Byte)) × LaneSt :=
  if idleOnly then (List.replicate n none, { l with dataRun := 0 })
  else
    let l := if l.slots.length < n ∧ l.part ≠ [] then
        { l with
          slots := l.slots ++ [some (l.part ++ List.replicate (16 - l.part.length) 0)], part := [], dataRun := l.dataRun + 1 }
      else l
    let got := l.slots.take n
    let idle := n - got.length
    (got ++ List.replicate idle none, { l with slots := l.slots.drop n, dataRun := if idle = 0 then l.dataRun else 0 })

/-- IDLE slots at the end of a list, added to a run before it. -/
def idleTail (run : Nat) (l : List (Option (List Byte))) : Nat :=
  l.foldl (fun r x => if x.isNone then r + 1 else 0) run

/-- `TURN` (R235): from a mark's ingress stamp to the egress of the LCB, its instant in 1/8 tick; in 1/128 tick (R60). -/
def turnOf (egress stamp : Nat) : BitVec 16 := BitVec.ofNat 16 (16 * egress - stamp)

/-- The ingress stamp of a mark that came at a tick, in 1/128 tick (R60): where in the tick is the forwarded clock's phase, a
free value (log entry 12). -/
def State.markStamp (s : State) (q arrival : Nat) : Nat := 128 * arrival + Config.free 60 [s.rnd, q, arrival] % 128

/-- The LCB of the frame in progress leaves at block time 32, 65/8 ticks before the next frame: until then it takes up what
the port has received, `ACK`, `NAK` and a mark to answer (R235, R237). One `MARK_ID` serves both kinds of mark, so a mark of the
port's own gives way to the reply (log entry 59). -/
def State.refreshLcb (s : State) (q : Nat) : State :=
  s.updLane q fun l =>
    if 8 * s.tick + 65 < l.frameAt then
      let l := { l with last := { l.last with ack := l.rxNext, nak := l.nak } }
      match l.markIn, l.last.markReply with
      | some m, none =>
        { l with
          last := { l.last with mark := none, markReply := some (m.1, turnOf (l.frameAt - 65) (s.markStamp q m.2)) }, markIn := none,
          markOut := if l.last.mark.isSome then none else l.markOut,
          markAt := if l.last.mark.isSome then none else l.markAt }
      | _, _ => l
    else l

/-- A frame leaves a port (R232, R234, R238). DESIGN CHOICE (log entry 74): a delay mark that falls due (R63) leaves with the
next frame and ends no LIGHT_IDLE, which only a slot that must be sent does (R246). -/
def State.sendFrame (s : State) (q : Nat) : State :=
  let n := 32 * (s.activeLanes q).length
  let s := if (s.lane q).resend.isNone ∧ 4096 < (s.lane q).unacked.length + n then s.startReplay q 3 else s
  if s.lnkState q ≠ lkActive then s
  else
    let l := s.lane q
    let i := l.resend.getD l.unacked.length
    let old := (l.unacked.drop i).take n
    let (new, l) := l.takeSlots (n - old.length) (s.mode = 7)
    let fb := (l.ack + i) % seqMod
    let startMark := decide (l.markOut.isNone ∧
      (l.markAt.isNone ∨ s.tm.marked.getD q false = false ∨ l.markAt.any fun t => decide (t + 1500000000 ≤ s.tick)))
    let startMark := startMark && l.markIn.isNone
    let id : BitVec 8 := l.markNo + 1
    let fr : TxFrame :=
      { fbseq := fb, ack := l.rxNext, nak := l.nak, retrainReq := false,
        mark := if startMark then some id else none,
        markReply := l.markIn.map fun m => (m.1, turnOf (l.frameAt + 2080) (s.markStamp q m.2)),
        flip := if 0 < l.injectBit then some l.injectLane else none, badChk := decide (0 < l.injectLcb),
        slots := old ++ new }
    let resend := if l.resend.isSome ∧ i + n < l.unacked.length then some (i + n) else none
    let l := { l with
      unacked := l.unacked ++ new, txNext := (l.txNext + new.length) % seqMod, resend := resend,
      replayAck := if resend.isNone ∧ l.unacked = [] then none else l.replayAck,
      stall := l.stall + 1, idleRun := idleTail l.idleRun (old ++ new), markIn := none,
      markAt := if startMark then some s.tick else l.markAt, markNo := if startMark then id else l.markNo,
      markOut := if startMark then some (id, 16) else l.markOut.map fun m => (m.1, m.2 - 1),
      injectBit := l.injectBit - 1, injectLcb := l.injectLcb - 1, last := fr }
    (s.updLane q fun _ => l).bump (F.LNK_CNT_COUNT q 0)

/-- The frames due at this tick: one every 33 block times, 2145/8 ticks (R232). -/
def State.sendDue (s : State) : State :=
  (List.range 4).foldl (fun (t : State) q =>
    if t.lnkState q = lkActive ∧ (t.lane q).frameAt ≤ 8 * t.tick then
      (t.sendFrame q).updLane q fun l => { l with frameAt := l.frameAt + 2145 }
    else t) s

/-- The reply to a delay mark did not come within 16 frames: the mark is void (R235). -/
def State.markTimeout (s : State) (q : Nat) : State :=
  match (s.lane q).markOut with
  | some (_, 0) => s.updLane q fun l => { l with markOut := none }
  | _ => s

/-! ## Link delay (R63, R64) -/

/-- Whether a port has a delay mark's reply to measure: the reply has come, or comes with the measurement, within 16 frames of a
mark that stands (R235). -/
def State.markReplied (s : State) (q : Nat) : Bool :=
  s.carries q && ((s.lane q).markHeard || (s.lane q).markOut.any fun m => decide (0 < m.2))

/-- A delay-mark exchange of port `q` (R63): round trip and partner's turnaround in 1/128 tick (R60, R235). The mean of the
last 16 goes to `TIME_LINK_DELAY`; a change of the mean above 100 ps is recorded (R64). -/
def State.linkMeasure (s : State) (q : Nat) (roundTrip : Int) (turn : Nat) : State :=
  if s.markReplied q then
    let s := s.updLane q fun l => { l with markOut := none, markHeard := false }
    let d : Rat := ((roundTrip - turn : Int) : Rat) * s.tickNs / (256 : Nat) +
      (sext 32 (s.fld (F.TIME_ASYM_ASYM_PS q)) : Rat) / (2000 : Nat)
    let before := s.linkDelay q
    let had := !(s.tm.delays.getD q []).isEmpty
    let s := s.updTm fun tm => { tm with
                                         delays := tm.delays.modify q fun l => (d :: l).take 16,
                                         marked := tm.marked.set q true }
    let after := s.linkDelay q
    let ps (v : Rat) : Nat := toBits 32 (openRound 63 (v * (1000 : Nat)))
    let s := s.setFld (F.TIME_LINK_DELAY_D_PS q) (ps after)
    if had ∧ absQ (after - before) * (1000 : Nat) > (100 : Nat) then
      s.log Rec.linkDelayStep ([BitVec.ofNat 8 q] ++ bytesBE 4 (ps before) ++ bytesBE 4 (ps after))
    else s
  else s

/-! ## A frame on the wire (R230 to R234, R254) -/

/-- The payload of a lane's LCB before scrambling (R234); the delay-mark fields are those of the lowest active lane. -/
def lcbBytes (f : TxFrame) (low : Bool) (crc : Word) : List Byte :=
  let flags := f.nak.toNat + (if low then 2 * f.mark.isSome.toNat + 4 * f.markReply.isSome.toNat else 0) +
    8 * f.retrainReq.toNat
  let id : Byte := if low then (match f.markReply with | some m => m.1 | none => f.mark.getD 0) else 0
  let turn : Nat := if low then f.markReply.elim 0 fun m => m.2.toNat else 0
  let bs := [0x2D, BitVec.ofNat 8 flags] ++ bytesBE 3 f.fbseq ++ bytesBE 3 f.ack ++ wordBytes crc ++ [id] ++ bytesBE 2 turn
  bs ++ [if f.badChk then ~~~(crc8 bs) else crc8 bs]

/-- A slot as a block (R229, R230): a data block, or an IDLE block whose bytes after the type the spec leaves open. -/
def slotBlock : Option (List Byte) → BitVec 2 × List Byte
  | some d => (1, d)
  | none => (2, 0x1E :: (List.range 15).map fun i => BitVec.ofNat 8 (Config.free 230 [i]))

/-- An injected payload error (R254): one bit of a frame's payload inverted, which one the spec leaves open. -/
def flipBit (fb : Nat) (blocks : List (BitVec 2 × List Byte)) : List (BitVec 2 × List Byte) :=
  let n := Config.free 231 [fb] % 4096
  blocks.modify (n / 128) fun b => (b.1, b.2.modify (n / 8 % 16) fun x => x ^^^ (0x80#8 >>> (n % 8)))

/-- Lane `j` of the `w` active ones, lane number `l`, of a frame: 32 slots, the LCB, scrambled (R231, R232, R234). -/
def laneBlocks (f : TxFrame) (w j l : Nat) : List (BitVec 2 × List Byte) :=
  let pay := (List.range 32).map fun i => slotBlock ((f.slots[j + w * i]?).join)
  let crc := crc32 (pay.flatMap fun b => (if b.1 = 1 then (0x01 : Byte) else 0x02) :: b.2)
  let pay := if f.flip = some l then flipBit f.fbseq pay else pay
  descramble l (pay ++ [(2, lcbBytes f (j = 0) crc)])

/-- The link frame that port `q` sent last, as its partner receives it. -/
def State.sentFrame (s : State) (q : Nat) : List LaneFrame :=
  let act := s.activeLanes q
  (List.range act.length).map fun j =>
    ⟨BitVec.ofNat 2 (act.getD j 0), laneBlocks (s.lane q).last act.length j (act.getD j 0)⟩

/-! ## Receiving (R236, R237) -/

/-- A check that ends is locked no more; what it has counted stays. -/
def State.endChecks (s : State) (q : Nat) : State :=
  (List.range 4).foldl (fun (t : State) l => t.setFld (F.LNK_PAT_STAT_LOCK q l) 0) s

/-- What a lane of a received frame comes to. -/
structure LaneRx where
  lane : Nat
  headerErrs : Nat
  typeOk : Bool
  chkOk : Bool
  crcOk : Bool
  fbseq : Nat
  ack : Nat
  flags : Byte
  markId : BitVec 8
  slots : List (Option (List Byte))
deriving DecidableEq, Repr

/-- A lane's share of a frame, judged (R234, R236). -/
def judgeLane (f : LaneFrame) : LaneRx :=
  let bs := descramble f.lane.toNat f.blocks
  let lcb := ((bs[32]?).map Prod.snd).getD []
  let pay := bs.take 32
  let covered := pay.flatMap fun b => (if b.1 = 1 then (0x01 : Byte) else 0x02) :: b.2
  { lane := f.lane.toNat
    headerErrs := (bs.filter fun b => !(b.1 == 1 || b.1 == 2)).length + (33 - bs.length)
    typeOk := lcb.getD 0 0 = 0x2D
    chkOk := decide (lcb.length = 16) && crc8 (lcb.take 15) = lcb.getD 15 0
    crcOk := crc32 covered = BitVec.ofNat 32 (fieldBE lcb 8 4)
    fbseq := fieldBE lcb 2 3
    ack := fieldBE lcb 5 3
    flags := lcb.getD 1 0
    markId := lcb.getD 12 0
    slots := pay.map fun b => if b.1 = 1 then some b.2 else none }

/-- Payload slots of a frame in BSEQ order: slot i on the i mod w-th lane at block time i / w (R232). -/
def frameSlots (ls : List LaneRx) : List (Option (List Byte)) :=
  let w := ls.length
  (List.range (32 * w)).map fun i => ((ls[i % w]?).bind fun l => l.slots[i / w]?).join

/-- Whether a partner sends TS1 on a lane in place of a frame (R242, R244): its blocks are not scrambled. -/
def isTs1 (f : LaneFrame) : Bool :=
  !f.blocks.isEmpty && f.blocks.all fun b => (readTs b).any fun t => t.typ == 0x4B

/-- Lanes received inverted, as `LNK_STAT.POL_INV` shows them. -/
def State.inverted (s : State) (q : Nat) : BitVec 4 := BitVec.ofNat 4 (s.fld (F.LNK_STAT_POL_INV q))

/-- What comes in on a port's lanes, with the polarity that training found set right (R240). -/
def State.righted (s : State) (q : Nat) (lanes : List LaneFrame) : List LaneFrame :=
  lanes.map fun f => if (s.inverted q).getLsbD f.lane.toNat then { f with blocks := f.blocks.map invertBlock } else f

/-- IDLE slots in a row on a lane: 65,536 hold its settings (R249). -/
def State.countIdle (s : State) (q : Nat) (r : LaneRx) : State :=
  let before := (s.lane q).idleBlocks.getD r.lane 0
  let n := idleTail before r.slots
  let s := s.updLane q fun l => { l with idleBlocks := l.idleBlocks.set r.lane n }
  s.setBit (F.LNK_TAPS_HELD q r.lane) (decide (65536 ≤ n))

/-- A lane blamed for a bad frame (R236, R248): whether it is now to be excluded. -/
def State.blame (s : State) (q lane : Nat) : Bool × State :=
  let s := s.crossEvent (9 + q) 0 [(F.LNK_LANE_CNT_COUNT q lane 1).addr]
  let sec := timeSec s.clk
  let old := (s.lane q).blames.getD lane (0, 0)
  let n := (if old.1 = sec then old.2 else 0) + 1
  let deg := s.fld (F.LNK_POLICY_DEG_ERR q)
  (s.bit (F.LNK_POLICY_DEGRADE_EN q) && decide (deg ≠ 0) && decide (deg ≤ n),
   s.updLane q fun l => { l with blames := l.blames.set lane (sec, n) })

/-- Counts and records of a check that a received cell fails (R259). -/
def State.cellFail (s : State) (q : Nat) (c : Cell) (k : Nat) : State :=
  match k with
  | 1 => (s.bump (F.FAB_CNT_COUNT 3)).logMs (2590 + q) Rec.cellFraming [BitVec.ofNat 8 q]
  | 2 => (s.bump (F.FAB_CNT_COUNT 4)).log Rec.cellLen ([BitVec.ofNat 8 q] ++ bytesBE 2 c.len.toNat)
  | 3 => (s.bump (F.FAB_CNT_COUNT 5)).logMs (2594 + q) Rec.cellCrc
      ([BitVec.ofNat 8 q, BitVec.ofNat 8 (c.cls.toNat * 64 + c.typ.toNat)] ++ bytesBE 2 c.src.toNat)
  | 4 => s.bump (F.FAB_CNT_COUNT 6)
  | _ => s.bump (F.FAB_CNT_COUNT 10)

/-- Delivered slots become cells (R258), handed to the commands that take a received cell (log entry 59). -/
def State.takeSlots (s : State) (q : Nat) (slots : List (Option (List Byte))) : State :=
  let r := slots.foldl CellRx.slot ((s.lane q).rx, [])
  let s := s.updLane q fun l => { l with rx := r.1, rowHunt := l.rowHunt && r.1.hunt }
  r.2.foldl (fun (t : State) x => match x with
    | .cell c => t.emit (.cellIn (BitVec.ofNat 2 q) c)
    | .bad k c => t.cellFail q c k) s

/-- Frames of bits received in SERVICE (R254): retransmitted in loopback, or checked on the masked lanes. -/
def State.serviceFrame (s : State) (q : Nat) (lanes : List LaneFrame) : State :=
  match (s.lane q).pat with
  | none => s
  | some p =>
    if p.action = 4 then s.emit (.looped (BitVec.ofNat 2 q) lanes)
    else if p.action = 2 ∨ p.action = 3 then
      lanes.foldl (fun (t : State) f =>
        if p.lanes.getLsbD f.lane.toNat then
          let c := ((t.lane q).checks.getD f.lane.toNat {}).bits p.pattern.toNat p.arg (f.blocks.flatMap blockBits)
          ((t.updLane q fun l => { l with checks := l.checks.set f.lane.toNat c }).setBit
            (F.LNK_PAT_STAT_LOCK q f.lane.toNat) c.locked).setFld (F.LNK_PAT_STAT_ERRORS q f.lane.toNat) c.errors
        else t) s
    else s

/-- A link frame with its polarity right (R236 to R238, R244, R248). A partner in light idle sends none until its FTS (R246);
TS1 from it still counts (R244), on however many lanes it comes. -/
def State.judgeFrame (s : State) (q : Nat) (lanes : List LaneFrame) : State :=
  if ¬ s.carries q then (if s.lnkState q = lkService then s.serviceFrame q lanes else s)
  else if (s.lane q).partnerIdle then (if lanes.any isTs1 then s.leaveActive q 7 else s)
  else
    let act := s.activeLanes q
    let rx := (act.filterMap fun l => lanes.find? fun f => f.lane.toNat == l).map judgeLane
    if rx.length ≠ act.length ∨ rx = [] then (if lanes.any isTs1 then s.leaveActive q 7 else s)
    else
      let fb := (rx.head?.map LaneRx.fbseq).getD 0
      let good := rx.all fun r => r.headerErrs == 0 && r.typeOk && r.chkOk && r.crcOk && r.fbseq == fb
      let s := rx.foldl (fun (t : State) r =>
        let t := (List.range r.headerErrs).foldl (fun u _ => u.crossEvent (9 + q) 0
          [(F.LNK_CNT_COUNT q 10).addr, (F.LNK_LANE_CNT_COUNT q r.lane 0).addr]) t
        if r.chkOk then t else t.bump (F.LNK_CNT_COUNT q 8)) s
      let s := s.bump (F.LNK_CNT_COUNT q (if good then 1 else 2))
      let blamed := if good then [] else rx.filter fun r => r.headerErrs == 0 && r.typeOk && r.chkOk && !r.crcOk
      let (out, s) := blamed.foldl (fun (acc : List Nat × State) r =>
        let (x, t) := acc.2.blame q r.lane
        (if x then acc.1 ++ [r.lane] else acc.1, t)) ([], s)
      let fails := if rx.any fun r => !r.typeOk then (s.lane q).typeFails + 1 else 0
      let s := s.updLane q fun l => { l with
                                      typeFails := fails, nak := if good then l.nak else true,
                                      goodAt := if good then s.tick else l.goodAt }
      -- delivery (R237)
      let next := (s.lane q).rxNext
      let ahead := seqDist next fb
      let s := if good then
          let s := rx.foldl (fun t r => t.countIdle q r) s
          if 0 < ahead ∧ ahead < 2 ^ 23 then
            (s.bump (F.LNK_CNT_COUNT q 11)).updLane q fun l => { l with nak := true }
          else
            let all := frameSlots rx
            let dup := min (seqDist fb next) all.length
            let data := (all.drop dup).filterMap id
            let s := s.bump (F.LNK_CNT_COUNT q 9) ((all.take dup).filterMap id).length
            let s := s.updLane q fun l => { l with
              nak := false, rxNext := if dup = all.length then l.rxNext else (fb + all.length) % seqMod }
            (if data = [] then s else s.emit (.slots (BitVec.ofNat 2 q) data)).takeSlots q (all.drop dup)
        else s
      -- the control block of the lowest active lane
      let s : State := match rx.head? with
        | some r =>
          if r.typeOk ∧ r.chkOk then
            let s := s.takeAck q r.ack
            let s := if r.flags.getLsbD 0 ∧
                ((s.lane q).resend.isNone ∨ (s.lane q).replayAck ≠ some r.ack) ∧ r.ack = (s.lane q).ack then
                s.startReplay q 3
              else s
            let s := if r.flags.getLsbD 1 then s.updLane q fun l => { l with markIn := some (r.markId, s.tick) } else s
            if r.flags.getLsbD 2 ∧ (s.lane q).markOut.any (fun m => m.1 == r.markId && decide (0 < m.2)) then
              s.updLane q fun l => { l with markOut := none, markHeard := true }
            else s
          else s
        | none => s
      let s := s.refreshLcb q
      if ¬ s.carries q then s
      else if out ≠ [] then
        (s.updLane q fun l => { l with excluded := out.foldl (fun e i => e ||| (1#4 <<< i)) l.excluded }).leaveActive q 9
      else if !good && lanes.any isTs1 then s.leaveActive q 7
      else if 4 ≤ fails then s.leaveActive q 6
      else if rx.any fun r => r.typeOk && r.chkOk && r.flags.getLsbD 3 then s.leaveActive q 7
      else s

/-- A received link frame (R236 to R238, R240). -/
def State.linkFrame (s : State) (q : Nat) (lanes : List LaneFrame) : State := s.judgeFrame q (s.righted q lanes)

/-! ## Taps (R249, R250) -/

/-- A step of a value within its full scale, and within the window around the stored value when that is valid: the new
value, whether it stopped at an edge (R250). -/
def stepWithin (lo hi : Int) (stored : Option (Int × Int)) (v step : Int) : Int × Bool :=
  let want := max lo (min hi (v + step))
  match stored with
  | none => (want, false)
  | some (c, w) =>
    let got := max (c - w) (min (c + w) want)
    (got, decide (got ≠ want))

/-- A stop at the edge of a window: `WANDER`, and the record and count at the first one (R250). Quantity as R475. -/
def State.wander (s : State) (q l quantity : Nat) : State :=
  let s := s.setFld (F.LNK_TAPS_WANDER q l) 1
  if (s.lane q).outside.getD l false then s
  else
    ((s.updLane q fun x => { x with outside := x.outside.set l true }).bump (F.LNK_LANE_CNT_COUNT q l 3)).log
      Rec.tapWander [BitVec.ofNat 8 q, BitVec.ofNat 8 l, BitVec.ofNat 8 quantity]

def dfeField (q l i : Nat) : Fld :=
  match i with
  | 0 => F.LNK_TAPS_DFE1 q l
  | 1 => F.LNK_TAPS_DFE2 q l
  | 2 => F.LNK_TAPS_DFE3 q l
  | _ => F.LNK_TAPS_DFE4 q l

/-- Sign of a step. -/
def signOf (v : Int) : Int := if v < 0 then -1 else if 0 < v then 1 else 0

/-- The CTLE and DFE settings that adaptation arrives at are taken, within the windows of R250; whether one stopped shows. -/
def State.putTaps (s : State) (q l : Nat) (ctle : Int) (dfe : List Int) : State :=
  let stored := if calValid (s.calRecord q) then some (storedTaps ((s.calRecord q).getD []) l) else none
  let c := stepWithin 0 15 (stored.map fun w => ((w % 16 : Nat), 2)) ctle 0
  let ds := (List.range 4).map fun i =>
    stepWithin (-31) 31 (stored.map fun w => (sext 6 (w / 2 ^ (4 + 6 * i)), 6)) (dfe.getD i 0) 0
  let s := s.setFld (F.LNK_TAPS_CTLE q l) c.1.toNat
  let s := (List.range 4).foldl (fun (t : State) i => t.setFld (dfeField q l i) (toBits 6 (ds.getD i (0, false)).1)) s
  let stops := (if c.2 then [1] else []) ++ (List.range 4).filterMap fun i =>
    if (ds.getD i (0, false)).2 then some (2 + i) else none
  match stops with
  | k :: _ => s.wander q l k
  | [] => (s.setFld (F.LNK_TAPS_WANDER q l) 0).updLane q fun x => { x with outside := x.outside.set l false }

/-! ## Training (R240 to R243, R247, R248) -/

/-- Lanes a port uses in this training (R248). -/
def State.lanesOk (s : State) (q : Nat) : BitVec 4 := (s.lane q).laneOk &&& ~~~(s.lane q).excluded

/-- Lanes fail in training: dropped, and with `DEGRADE_EN` armed excluded (R248). -/
def State.dropLanes (s : State) (q : Nat) (keep : BitVec 4) (cause : Nat) : State :=
  let lost := s.lanesOk q &&& ~~~keep
  if lost = 0 then s
  else
    let s := s.setFld (F.LNK_STAT_LAST_FAIL q) cause
    let arm := s.bit (F.LNK_POLICY_DEGRADE_EN q)
    s.updLane q fun l => { l with
      laneOk := l.laneOk &&& keep, excluded := if arm then l.excluded ||| lost else l.excluded }

/-- The lane count of a `MAX_WIDTH` or `MIN_WIDTH` code. -/
def widthOf (code : Nat) : Nat := match code with | 1 => 2 | 2 => 1 | _ => 4

/-- The lanes chosen in CONFIG (R243). -/
def chooseLanes (m : BitVec 4) (top : Nat) : Option (BitVec 4) :=
  if m = 15 ∧ 4 ≤ top then some 15
  else if 2 ≤ top ∧ m &&& 3 = 3 then some 3
  else if 2 ≤ top ∧ m &&& 12 = 12 then some 12
  else ((List.range 4).find? fun i => m.getLsbD i).map fun i => 1#4 <<< i

/-- `LNK_STAT.WIDTH` of a lane count. -/
def widthCode (n : Nat) : Nat := match n with | 4 => 3 | 2 => 2 | 1 => 1 | _ => 0

/-- Sending resumes from the slot the partner awaits (R239). DESIGN CHOICE (log entry 59): a partner that awaits a slot the
replay buffer does not hold has started afresh; the count goes on from its value with the first cell not yet begun. -/
def State.resumeAt (s : State) (q a : Nat) : State :=
  if seqDist (s.lane q).ack a ≤ (s.lane q).unacked.length then s.takeAck q a
  else s.updLane q fun l => { l with
    ack := a, txNext := a, unacked := [], slots := [], part := [], dataRun := 0, resend := none, replayAck := none,
    acked := {} }

/-- The first data slot after an entry to ACTIVE begins with a cell (R258). Where the slots to come would begin within one, the
cells not yet whole at the partner are laid into slots again from the awaited BSEQ on, and each still arrives once (R239;
log entry 59). -/
def LaneSt.relay (l : LaneSt) : LaneSt :=
  if l.acked.part = [] then { l with acked := {} }
  else
    let all := l.unacked ++ l.slots ++ (if l.part = [] then [] else [some (l.part ++ List.replicate (16 - l.part.length) 0)])
    let cells := (all.foldl CellRx.slot (l.acked, [])).2
    cells.foldl (fun (m : LaneSt) x => match x with
        | .cell c => m.addCell c
        | .bad _ _ => m)
      { l with unacked := [], slots := [], part := [], dataRun := 0, txNext := l.ack, acked := {} }

/-- A port enters ACTIVE on a set of lanes (R239, R243, R269). -/
def State.enterActive (s : State) (q : Nat) (lanes : BitVec 4) (partnerNext : Nat) : State :=
  let l := s.lane q
  let n := (bitsOf 4 lanes.toNat).length
  let s := if l.fresh then
      s.updPortQ q fun p => { p with
        credits := [1024, 256, 1024], partnerFreed := [0, 0, 0], freed := [0, 0, 0], freedSent := [0, 0, 0],
        freedTick := none, svcTick := s.tick, retrain := false }
    else s.updPortQ q fun p => { p with retrain := false }
  let s := (s.setFld (F.LNK_STAT_WIDTH q) (widthCode n)).setFld (F.LNK_STAT_LANES q) lanes.toNat
  let s := if l.lastLanes ≠ 0 ∧ (bitsOf 4 l.lastLanes.toNat).length ≠ n then
      (s.bump (F.LNK_CNT_COUNT q 6)).log Rec.linkDegrade
        [BitVec.ofNat 8 q, BitVec.ofNat 8 l.lastLanes.toNat, BitVec.ofNat 8 lanes.toNat]
    else s
  let s := (s.resumeAt q partnerNext).updLane q LaneSt.relay
  let s := s.updLane q fun l => { l with
    rx := {}, rowHunt := false, fresh := false, lastLanes := lanes, frameAt := 8 * s.tick, stall := 0, typeFails := 0, nak := false,
    resend := if l.unacked = [] then none else some 0, partnerIdle := false, goodAt := s.tick }
  let s := s.updTm fun tm => { tm with marked := tm.marked.set q false }
  s.setLnk q lkActive

/-- The lanes that both ends' `LANE_OK` and `MAX_WIDTH` allow (R243); none when no width qualifies. -/
def State.chosen (s : State) (q : Nat) (partnerOk : BitVec 4) (partnerMax : BitVec 2) : Option (BitVec 4) :=
  let top := min (widthOf (s.fld (F.LNK_CTRL_MAX_WIDTH q))) (widthOf partnerMax.toNat)
  (chooseLanes (s.lanesOk q &&& partnerOk) top).filter fun lanes =>
    let n := (bitsOf 4 lanes.toNat).length
    (decide (n = 4) || s.bit (F.LNK_POLICY_DEGRADE_EN q) || decide (n = top)) &&
      decide (widthOf (s.fld (F.LNK_POLICY_MIN_WIDTH q)) ≤ n)

/-- CONFIG ends (R243): ACTIVE, or FAILED when no width qualifies. The first frame begins at the first block time after the
`CONFIRM` TS2. -/
def State.configEnd (s : State) (q : Nat) : State :=
  let fail (t : State) : State := (t.setFld (F.LNK_STAT_LAST_FAIL q) 4).portDown q lkFailed
  match (s.lane q).partner, (s.lane q).confirmAt with
  | some (ok, mx, next), some at_ =>
    match s.chosen q ok mx with
    | some lanes => (s.enterActive q lanes next).updLane q fun l => { l with
        frameAt := 8 * at_ + 65 * ceilDiv (8 * (s.tick - at_)) 65 }
    | none => fail s
  | _, _ => fail s

/-! ### What training transmits (R240, R242) -/

/-- The training set of a lane: TS1 in BLOCK_LOCK and EQUALIZE, TS2 in DESKEW and CONFIG. -/
def State.ownSet (s : State) (q l : Nat) : TrainSet :=
  let ts2 := decide (lkDeskew ≤ s.lnkState q)
  let p := (s.lane q)
  let w := match p.partner with
    | some (ok, mx, _) => (s.chosen q ok mx).elim 0 fun lanes => widthCode (bitsOf 4 lanes.toNat).length
    | none => 0
  { typ := if ts2 then 0x55 else 0x4B, lane := BitVec.ofNat 2 l, eqDone := p.eqDone, confirm := p.confirmAt.isSome,
    deep := false, laneOk := s.lanesOk q, maxWidth := BitVec.ofNat 2 (s.fld (F.LNK_CTRL_MAX_WIDTH q)),
    width := if ts2 then BitVec.ofNat 2 w else 0, rxNext := BitVec.ofNat 24 p.rxNext }

/-- The block a lane sends now in training: 65/8 ticks each from the entry to the state; none on an excluded lane and in any
other state (R240). -/
def State.trainBlock (s : State) (q l : Nat) : Option (BitVec 2 × List Byte) :=
  if lkBlock ≤ s.lnkState q ∧ s.lnkState q ≤ lkConfig ∧ (s.lane q).excluded.getLsbD l = false then
    some ((s.ownSet q l).block (8 * (s.tick - (s.lane q).since) / 65))
  else none

/-- Whether the clock lane of a port is driven (R240, R247). -/
def State.clockDriven (s : State) (q : Nat) : Bool :=
  s.lnkState q ≠ lkDisabled && (s.lnkState q ≠ lkDeep || (s.lane q).awake)

/-- The bits a masked lane generates in one tick of SERVICE, sixteen from `n` ticks after its start (R226, R254). -/
def State.patternSent (s : State) (q l n : Nat) : List Bool :=
  match (s.lane q).pat with
  | some p =>
    if s.lnkState q = lkService ∧ (p.action = 1 ∨ p.action = 3) ∧ p.lanes.getLsbD l then
      (patBits p.pattern.toNat p.arg (16 * (n + 1))
        (patStart p.pattern.toNat p.arg (Config.free 256 [q, l, (s.lane q).since]))).drop (16 * n)
    else []
  | none => []

/-! ### What training receives (R240, R242) -/

/-- Lanes a port expects its partner on: its own, less those that a training set of the partner leaves out. -/
def State.expected (s : State) (q : Nat) (o : TrainObs) : BitVec 4 :=
  let heard := (List.range 4).filterMap fun l => heardLast (s.inverted q) o l
  s.lanesOk q &&& (match heard.head? with | some t => t.laneOk | none => 15)

/-- Whether the partner's `EQ_DONE` is seen on every lane expected. -/
def State.partnerEqDone (s : State) (q : Nat) (o : TrainObs) : Bool :=
  (bitsOf 4 (s.expected q o).toNat).all fun l => (heardLast (s.inverted q) o l).any fun t => t.eqDone

/-- The partner's TS2, brought sixteen times over on every lane expected. -/
def State.partnerSet (s : State) (q : Nat) (o : TrainObs) : Option TrainSet :=
  let ls := bitsOf 4 (s.expected q o).toNat
  let ts := ls.filterMap fun l => heardSixteen (s.inverted q) o l
  match ts.head? with
  | some t => if ts.length = ls.length ∧ ts.all (fun x => x == { t with lane := x.lane }) then some t else none
  | none => none

/-- CONFIG on what the lanes bring (R240, R243): once the partner's TS2 has come sixteen times over, `CONFIRM` is sent; after
sixteen blocks with it, 130 ticks, CONFIG ends. -/
def State.config (s : State) (q : Nat) (o : TrainObs) : State :=
  match s.partnerSet q o with
  | some t =>
    let s := s.updLane q fun l => { l with
      partner := some (t.laneOk, t.maxWidth, t.rxNext.toNat), confirmAt := some (l.confirmAt.getD s.tick) }
    if (s.lane q).confirmAt.any fun a => decide (a + 130 ≤ s.tick) then s.configEnd q else s
  | none => s

/-- Whether a port may leave DISABLED (R240, R245). -/
def State.mayTrain (s : State) (q : Nat) : Bool :=
  s.bit (F.LNK_CTRL_EN q) && !s.bit F.SYS_BOOT_RECOVERY &&
    ((2 ≤ s.mode && s.mode ≤ 6) || (s.mode = 7 && (s.lane q).need))

/-- Eye readings and skews as training finds them. -/
def State.noteObs (s : State) (q : Nat) (o : TrainObs) : State :=
  (List.range 4).foldl (fun (t : State) l =>
    let t := t.setFld (F.LNK_EYE_HEIGHT_MV q l) (o.eyes.getD l 0).toNat
    let t := t.setFld (F.LNK_SKEW_COARSE q l) (o.coarse.getD l 0).toNat
    let t := t.setFld (F.LNK_SKEW_FINE q l) (o.fine.getD l 0).toNat
    t.setFld (F.LNK_SKEW_DESKEW_PS q l) (o.deskewPs.getD l 0).toNat) s

/-- Lanes whose eye reaches `EYE_MIN`. -/
def State.goodEyes (s : State) (o : TrainObs) : BitVec 4 :=
  (List.range 4).foldl (fun m l =>
    if s.fld F.LNK_CAL_CFG_EYE_MIN ≤ (o.eyes.getD l 0).toNat then m ||| (1#4 <<< l) else m) 0

/-- EQUALIZE's own adaptation (R240, R250): the settings it has arrived at. -/
def State.equalize (s : State) (q : Nat) (o : TrainObs) : State :=
  (bitsOf 4 (s.lanesOk q).toNat).foldl (fun (t : State) l => match o.ctle[l]? with
    | some c => t.putTaps q l c.toNat (o.dfe.getD l [])
    | none => t) (s.noteObs q o)

/-- Progress of a port's training (R240). -/
def State.trainingAdvance (s : State) (q : Nat) (o : TrainObs) : State :=
  let ok := s.lanesOk q
  let clockBit (t : State) : State := t.setFld F.CLK_STAT_FRX_CLK (t.fld F.CLK_STAT_FRX_CLK ||| 2 ^ q)
  match s.lnkState q with
  | 0 => if s.mayTrain q then (s.updLane q fun l => { l with laneOk := ~~~l.excluded, fresh := true }).setLnk q lkClock else s
  | 1 =>
    if o.clockSeen then
      let s := (clockBit s).setFld (F.LNK_STAT_CONNECTED q) 1
      let s := s.updLane q fun l => { l with laneOk := ~~~l.excluded }
      (s.setFld (F.LNK_STAT_POL_INV q) 0).setLnk q lkBlock
    else s
  | 2 =>
    let s := s.setFld (F.LNK_STAT_POL_INV q) (invertedLanes o).toNat
    if s.expected q o &&& ~~~(lockedLanes o) = 0 then
      -- a retrain starts from the taps in use (R241)
      (if (s.portQ q).retrain then s else s.loadTaps q).setLnk q lkEq
    else s
  | 3 =>
    let s := (s.equalize q o).updLane q fun l => { l with eqDone := l.eqDone || o.eqDone }
    if (s.lane q).eqDone ∧ s.partnerEqDone q o then s.setLnk q lkDeskew else s
  | 4 => if ok &&& ~~~o.aligned = 0 then (s.noteObs q o).setLnk q lkConfig else s
  | 5 => s.config q o
  | 8 =>
    if o.clockSeen then
      ((clockBit s).updPortQ q fun p => { p with retrain := true }).setLnk q lkClock
    else s
  | _ => s

/-- Expiry of a training state's time limit (R240). -/
def State.trainingTimeout (s : State) (q : Nat) (o : TrainObs) : State :=
  let past (us : Nat) : Bool := decide ((s.lane q).since + usTicks us ≤ s.tick)
  match s.lnkState q with
  | 1 => if past 10000 then s.setFld (F.LNK_STAT_CONNECTED q) 0 else s
  | 2 => if past 2000 then (s.dropLanes q (lockedLanes o) 1).setLnk q lkConfig else s
  | 3 =>
    if past (if s.bit (F.LNK_STAT_STORED q) then 1000 else 8000) then
      ((s.equalize q o).dropLanes q (s.goodEyes o) 2).setLnk q lkDeskew
    else s
  | 4 => if past 1000 then (s.dropLanes q o.aligned 3).setLnk q lkConfig else s
  | 5 => if past 1000 then (s.setFld (F.LNK_STAT_LAST_FAIL q) 4).portDown q lkFailed else s
  | _ => s

/-- `LNK_CTRL.RETRAIN` (R240, R244, R248): every lane that `MAX_WIDTH` allows, from ACTIVE or FAILED. -/
def State.hostRetrain (s : State) (q : Nat) : State :=
  let s := s.updLane q fun l => { l with excluded := 0, laneOk := 15 }
  if s.carries q then s.leaveActive q 8
  else if s.lnkState q = lkFailed then
    (s.updLane q fun l => { l with fresh := true }).setLnk q lkClock
  else s

/-! ## Idle states (R246, R247) -/

/-- Whether anything waits to be sent on a port. -/
def State.txEmpty (s : State) (q : Nat) : Bool :=
  (s.portQ q).cells.isEmpty && (s.lane q).slots.isEmpty && (s.lane q).part.isEmpty

def State.lightEntry (s : State) (q : Nat) : State :=
  if s.bit (F.LNK_POLICY_LIDLE_EN q) ∧ s.lnkState q = lkActive ∧ 1024 ≤ (s.lane q).idleRun ∧ s.txEmpty q ∧
      (s.lane q).unacked = [] then
    ((s.setLnk q lkLight).bump (F.LNK_CNT_COUNT q 7)).emit (.control (BitVec.ofNat 2 q) [eiosBlock false])
  else s

def State.lightExit (s : State) (q : Nat) : State :=
  if s.lnkState q = lkLight ∧ ¬ s.txEmpty q then
    ((s.setLnk q lkActive).updLane q fun l => { l with
      frameAt := 8 * s.tick + 8 * 65, idleRun := 0, goodAt := s.tick }).emit
      (.control (BitVec.ofNat 2 q) ftsBlocks)
  else s

/-- EIOS without `DEEP` (R246). -/
def State.lightEios (s : State) (q : Nat) : State :=
  if s.carries q then s.updLane q fun l => { l with partnerIdle := true } else s

/-- FTS (R246). -/
def State.fts (s : State) (q : Nat) : State :=
  if s.carries q then s.updLane q fun l => { l with partnerIdle := false } else s

/-- EIOS on every lane of a port that the mode stops (R245). -/
def State.eiosOut (s : State) (q : Nat) : State :=
  if s.lnkState q = lkDisabled then s else s.emit (.control (BitVec.ofNat 2 q) [eiosBlock false])

/-- A port stops all its lanes (R247). A recalibration ends, and training will start from the stored values (R251). -/
def State.enterDeep (s : State) (q : Nat) : State :=
  if s.carries q then
    let s := if s.calibrates q then (s.abortCal q).loadTaps q else s
    let s := s.updTm fun tm => { tm with marked := tm.marked.set q false }
    let s := (s.setFld (F.LNK_STAT_WIDTH q) 0).setFld (F.LNK_STAT_LANES q) 0
    (s.setLnk q lkDeep).emit (.control (BitVec.ofNat 2 q) [eiosBlock true])
  else s

/-- A write of `LNK_CTRL.DEEP` (R247): set, the lanes stop; cleared, a port in DEEP_IDLE restarts its clock lane. -/
def State.writeDeep (s : State) (q : Nat) (on : Bool) : State :=
  let s := s.setBit (F.LNK_CTRL_DEEP q) on
  if on then s.enterDeep q
  else if s.lnkState q = lkDeep then s.updLane q fun l => { l with awake := true }
  else s

/-! ## Adaptation (R249) -/

/-- The end of a 4,096-UI window (R249): the directions of the sign-sign steps are observed. Taps are held while the partner
is in light idle (R246), and CTLE while a recalibration runs (R251). -/
def State.adaptWindow (s : State) (q l : Nat) (transitions : Nat) (ctle : Int) (dfe : List Int) : State :=
  if ¬ s.carries q ∨ ¬ bitOf (s.fld (F.LNK_STAT_LANES q)) l ∨ (s.lane q).partnerIdle then s
  else if s.bit (F.LNK_TAPS_HELD q l) then s
  else if transitions < s.fld F.LNK_ADAPT_CFG_DENS then s.bump (F.LNK_LANE_CNT_COUNT q l 2)
  else
    s.putTaps q l ((s.fld (F.LNK_TAPS_CTLE q l) : Int) + (if s.calibrates q then 0 else signOf ctle))
      ((List.range 4).map fun i => sext 6 (s.fld (dfeField q l i)) + signOf (dfe.getD i 0))

/-! ## Recalibration (R251) -/

/-- A recalibration begins on the active lanes of a port (R251). -/
def State.startCal (s : State) (q : Nat) : State :=
  s.updLane q fun l => { l with
    stepAt := List.replicate 4 s.tick
    cal := some ((List.range 4).map fun i =>
      { stage := if bitOf (s.fld (F.LNK_STAT_LANES q)) i then 0 else 5,
        fine0 := s.fld (F.LNK_SKEW_FINE q i), ctle0 := s.fld (F.LNK_TAPS_CTLE q i) }) }

/-- The per-second temperature reading (R251): after a fail, the next automatic run also waits until the temperature has
moved a further `CAL_TRIG_C` from that run's reading. -/
def State.tempCheck (s : State) (temp : Int) : State :=
  if s.tick < s.lnk.tempTick + 1500000000 then s
  else
    let s := { s with lnk := { s.lnk with tempTick := s.tick } }
    let s := s.setFld F.LNK_CAL_STAT_T_NOW (toBits 8 temp)
    let trig : Int := s.fld F.LNK_CAL_CFG_CAL_TRIG_C
    let now := sext 8 (s.fld F.LNK_CAL_STAT_T_NOW)
    let far := decide (trig < ((now - sext 8 (s.fld F.LNK_CAL_STAT_T_LAST)).natAbs : Int)) &&
      s.lnk.failTemp.all fun t => decide (trig ≤ ((now - t).natAbs : Int))
    let ports := (List.range 4).filter fun q =>
      s.lnkState q = lkActive && (s.lane q).cal.isNone && (s.lane q).calSlot.isNone
    if s.bit F.LNK_CAL_CFG_AUTO ∧ far = true ∧ s.lnk.autoPorts = 0 ∧ ports ≠ [] then
      let s := ports.foldl (fun (t : State) q => t.startCal q) s
      let mask : BitVec 4 := ports.foldl (fun m q => m ||| (1#4 <<< q)) 0
      let s : State := { s with lnk := { s.lnk with autoPorts := mask, autoFail := false, autoAbort := false } }
      s.setFld F.LNK_CAL_STAT_STATE 1
    else s

/-- The CTLE moves one step toward a setting (R251), at most to the edge of its window, where it stops (R250). -/
def State.moveCtle (s : State) (q l : Nat) (want : Int) : State :=
  let now : Int := s.fld (F.LNK_TAPS_CTLE q l)
  let stored := if calValid (s.calRecord q) then
      some (((storedTaps ((s.calRecord q).getD []) l % 16 : Nat) : Int), (2 : Int)) else none
  let r := stepWithin 0 15 stored now (signOf (want - now))
  let s := s.setFld (F.LNK_TAPS_CTLE q l) r.1.toNat
  if r.2 then s.wander q l 1 else s

/-- The check of a run that a lane fails (R251, R253): 0 the windows of R250, which `FULL` leaves out, 1 the eye's height,
2 its width. -/
def State.calCheck (s : State) (q l : Nat) (full : Bool) (eye : EyeObs) : Option Nat :=
  let rec_ := (s.calRecord q).getD []
  let fine : Int := s.fld (F.LNK_SKEW_FINE q l)
  let ctle : Int := s.fld (F.LNK_TAPS_CTLE q l)
  let dfeIn (i : Nat) : Bool :=
    decide ((sext 6 (s.fld (dfeField q l i)) - sext 6 (storedTaps rec_ l / 2 ^ (4 + 6 * i))).natAbs ≤ 6)
  let inWin := full || !calValid (s.calRecord q) ||
    (decide ((fine - (storedSkew rec_ l / 256 % 32 : Nat)).natAbs ≤ 8) &&
     decide ((ctle - (storedTaps rec_ l % 16 : Nat)).natAbs ≤ 2) && (List.range 4).all dfeIn)
  if inWin = false then some 0
  else if eye.heightMv.toNat < s.fld F.LNK_CAL_CFG_EYE_MIN then some 1
  else if eye.width.toNat < 12 then some 2
  else none

/-- One millisecond of a lane (R251): the fine phase toward the centre, the CTLE settings beside the present one held and
measured, one step at a time, then the best of the three and the checks. -/
def State.calStep (s : State) (q l : Nat) (c : CalLane) (eye : EyeObs) : CalLane × State :=
  let fine := s.fld (F.LNK_SKEW_FINE q l)
  let ctle := s.fld (F.LNK_TAPS_CTLE q l)
  let h := eye.heightMv.toNat
  let below (t : State) : CalLane × State :=
    ({ c with stage := 1, best := c.ctle0, bestEye := h }, t.moveCtle q l ((c.ctle0 : Int) - 1))
  match c.stage with
  | 0 =>
    if eye.centre = 0 then below s
    else
      let stored := if calValid (s.calRecord q) then
          some (((storedSkew ((s.calRecord q).getD []) l / 256 % 32 : Nat) : Int), (8 : Int)) else none
      let (v, stop) := stepWithin 0 31 stored fine (signOf eye.centre)
      let s := if stop then s.wander q l 0 else s
      if v = fine then below s else (c, s.setFld (F.LNK_SKEW_FINE q l) v.toNat)
  | 1 =>
    let c := if c.bestEye < h then { c with best := ctle, bestEye := h } else c
    ({ c with stage := 2 }, s.moveCtle q l c.ctle0)
  | 2 => ({ c with stage := 3 }, s.moveCtle q l ((c.ctle0 : Int) + 1))
  | 3 =>
    let c := if c.bestEye < h then { c with best := ctle, bestEye := h } else c
    ({ c with stage := 4 }, s.moveCtle q l c.best)
  | 4 => if ctle = c.best then ({ c with stage := 5, failed := s.calCheck q l false eye }, s) else (c, s.moveCtle q l c.best)
  | _ => (c, s)

/-- A failed lane's values are restored, one setting a step (R251): whether anything is left to move. -/
def State.restoreStep (s : State) (q l : Nat) (c : CalLane) : Bool × State :=
  let fine := s.fld (F.LNK_SKEW_FINE q l)
  let ct := s.fld (F.LNK_TAPS_CTLE q l)
  if fine ≠ c.fine0 then (true, s.setFld (F.LNK_SKEW_FINE q l) (if fine < c.fine0 then fine + 1 else fine - 1))
  else if ct ≠ c.ctle0 then (true, s.setFld (F.LNK_TAPS_CTLE q l) (if ct < c.ctle0 then ct + 1 else ct - 1))
  else (false, s)

/-- The end of the automatic run (R251). -/
def State.calRunEnd (s : State) : State :=
  let ports := s.lnk.autoPorts
  let fail := s.lnk.autoFail
  let abort := s.lnk.autoAbort
  let s := ({ s with lnk := { s.lnk with autoPorts := 0 } } : State).calIdle
  if abort then s.setFld F.LNK_CAL_STAT_LAST_RESULT 3
  else if fail then
    ({ s with lnk := { s.lnk with failTemp := some (sext 8 (s.fld F.LNK_CAL_STAT_T_NOW)) } }).setFld
      F.LNK_CAL_STAT_LAST_RESULT 2
  else
    let s := s.setFld F.LNK_CAL_STAT_LAST_RESULT 1
    let s := s.setFld F.LNK_CAL_STAT_T_LAST (s.fld F.LNK_CAL_STAT_T_NOW)
    let s := { s with lnk := { s.lnk with failTemp := none } }
    let s := if s.bit F.LNK_CAL_CFG_AUTO_STORE then
        (bitsOf 4 ports.toNat).foldl (fun t q => t.storeCal q (t.calBytes q)) s
      else s
    s.log Rec.calDone [BitVec.ofNat 8 ports.toNat, BitVec.ofNat 8 (s.fld F.LNK_CAL_STAT_T_NOW), 0]

/-- Whether a lane has ended its run: passed, or failed and restored. -/
def State.laneEnded (s : State) (q l : Nat) (c : CalLane) : Bool :=
  c.stage == 5 && (c.failed.isNone || !(s.restoreStep q l c).1)

/-- Whether every lane of a port has ended its run. -/
def State.portEnded (s : State) (q : Nat) (ls : List CalLane) : Bool :=
  (List.range 4).all fun i => s.laneEnded q i (ls.getD i {})

/-- One millisecond of a lane (R249, R251): its eye is measured, and a recalibration that runs on it, automatic or of
`CAL_RUN`, moves on. Both wait while the partner is in light idle: a port that has seen EIOS holds its taps (R246). -/
def State.recalStep (s : State) (q l : Nat) (eye : EyeObs) : State :=
  if s.tick < (s.lane q).stepAt.getD l 0 + msTicks ∨ (s.lane q).partnerIdle = true then s
  else
    let s := s.updLane q fun x => { x with stepAt := x.stepAt.set l s.tick }
    let s := if s.carries q then
        (s.setFld (F.LNK_EYE_HEIGHT_MV q l) eye.heightMv.toNat).setFld (F.LNK_EYE_WIDTH q l) eye.width.toNat
      else s
    match (s.lane q).cal with
    | none => s
    | some ls =>
      let c := ls.getD l {}
      let auto := s.lnk.autoPorts.getLsbD q
      let (c, s) :=
        if c.stage = 5 ∧ c.failed.isSome then (c, ((s.restoreStep q l c).2).setFld F.LNK_CAL_STAT_STATE 2)
        else
          let (d, t) := s.calStep q l c eye
          match d.failed with
          | some k =>
            (d, ({ t with lnk := { t.lnk with autoFail := t.lnk.autoFail || auto } }).log Rec.calFail
              [BitVec.ofNat 8 q, BitVec.ofNat 8 l, BitVec.ofNat 8 k])
          | none => (d, t)
      let ls := ls.set l c
      if auto ∧ s.portEnded q ls then
        let s := s.updLane q fun x => { x with cal := none }
        if s.autoRuns then s else s.calRunEnd
      else s.updLane q fun x => { x with cal := some ls }

end Sys2Proof.Machine
end

