-- ==== Sys2Proof/Machine/LinkOps.lean ====
section
/-! DEFINITION. Commands over the Parrus lanes (R251 to R254): `CAL_RUN`, `CAL_STORE`, `DIAG_PATTERN` with `TARGET` 0. -/

namespace Sys2Proof.Machine

open Sys2Proof

/-! Reason codes of R255. -/

namespace Reason
def linkState : Nat := 0x0400
def calBusy : Nat := 0x0401
def calImplausible : Nat := 0x0402
def nvmReadback : Nat := 0x0403
end Reason

/-! ## Calibration (R251 to R253) -/

/-- The refusal of `CAL_RUN` and `CAL_STORE` (R253): the lowest offending port. -/
def State.calRefusal (s : State) (ports : Nat) : Option Res :=
  (bitsOf 4 ports).findSome? fun q =>
    if s.lnkState q ≠ lkActive then some (refuse s Status.notReady Reason.linkState q)
    else if (s.lane q).cal.isSome || (s.lane q).calSlot.isSome then some (refuse s Status.notReady Reason.calBusy q)
    else none

/-- Ports named take part in the operation of slot `k`. -/
def State.holdCal (s : State) (ports : Nat) (k : Option (BitVec 4)) : State :=
  (bitsOf 4 ports).foldl (fun (t : State) q => t.updLane q fun l => { l with calSlot := k }) s

/-- A run of `CAL_RUN` begins on a port, and in M7 needs it (R245, R251, R253): with `FULL`, a sweep in place of the steps of R251. -/
def State.beginCal (s : State) (q : Nat) (full : Bool) : State :=
  let s := (s.startCal q).updLane q fun l => { l with need := true }
  if full then s.updLane q fun l => { l with cal := l.cal.map fun ls => ls.map fun c => { c with stage := 5 } } else s

/-- `CAL_RUN` (R253). -/
def State.calRun (s : State) (w : Who) (ports : BitVec 4) (full : Bool) : Res :=
  if full = true ∧ s.mode ≠ 7 then refuse s Status.notReady Reason.mode s.mode
  else
    match s.calRefusal ports.toNat with
    | some r => r
    | none =>
      s.runOp w 0x50 (.calRun ports full) fun k t =>
        ((bitsOf 4 ports.toNat).foldl (fun (u : State) q => u.beginCal q full)
          (t.holdCal ports.toNat (some (BitVec.ofNat 4 k)))).setFld F.LNK_CAL_STAT_STATE 1

/-- The sweep of a port ends (R253): each active lane takes what the sweep found, or fails a check on its eye and keeps its
settings. -/
def State.sweepEnd (s : State) (r : CalPort) : State :=
  let q := r.port.toNat
  match (s.lane q).cal with
  | none => s
  | some ls =>
    (s.activeLanes q).foldl (fun (t : State) l =>
      match r.lanes[l]? with
      | some (skew, taps, eye) =>
        match t.calCheck q l true eye with
        | some k => (t.updLane q fun x => { x with cal := x.cal.map fun cs => cs.set l { ls.getD l {} with failed := some k } }).log
            Rec.calFail [BitVec.ofNat 8 q, BitVec.ofNat 8 l, BitVec.ofNat 8 k]
        | none => (t.setWord (F.LNK_SKEW_COARSE q l).addr skew).setWord (F.LNK_TAPS_CTLE q l).addr taps
      | none => t) s

/-- What the run of a port ended with: `LAST_RESULT` (1 pass, 2 fail, 3 aborted) and the first lane that failed. A port that
has left ACTIVE has aborted (R251). -/
def State.calOutcome (s : State) (q : Nat) : Nat × Option Nat :=
  match (s.lane q).cal with
  | none => (3, none)
  | some ls =>
    match (List.range 4).find? fun l => (ls.getD l {}).failed.isSome with
    | some l => (2, some l)
    | none => (1, none)

/-- The result words of one port. -/
def State.calWords (s : State) (q last : Nat) : List Word :=
  BitVec.ofNat 32 last :: (List.range 4).flatMap fun l =>
    [s.word (F.LNK_SKEW_COARSE q l).addr, s.word (F.LNK_TAPS_CTLE q l).addr]

/-- Whether the ports of a run have ended it. -/
def State.calEnded (s : State) (ports : BitVec 4) : Bool :=
  (bitsOf 4 ports.toNat).all fun q => match (s.lane q).cal with
    | none => true
    | some ls => s.portEnded q ls

/-- The end of `CAL_RUN` (R251, R253), once every lane has ended; `found` is what the sweep of `FULL` found. -/
def State.calRunDone (s : State) (k : Nat) (found : List CalPort) : State :=
  match (s.op k).st.toNat, (s.op k).kind with
  | 1, .calRun ports full =>
    if s.calEnded ports then
      let qs := bitsOf 4 ports.toNat
      let s := if full then (found.filter fun r => ports.getLsbD r.port.toNat).foldl State.sweepEnd s else s
      let outs := qs.map fun q => (q, s.calOutcome q)
      let failed := outs.find? fun e => e.2.1 == 2
      let last := if failed.isSome then 2 else if outs.any fun e => e.2.1 == 3 then 3 else 1
      let s := qs.foldl (fun (t : State) q => t.updLane q fun l => { l with cal := none }) (s.holdCal ports.toNat none)
      let s := s.calIdle.setFld F.LNK_CAL_STAT_LAST_RESULT last
      let now := s.fld F.LNK_CAL_STAT_T_NOW
      let s := if last = 2 then { s with lnk := { s.lnk with failTemp := some (sext 8 now) } }
        else if last = 1 then
          let s := ({ s with lnk := { s.lnk with failTemp := none } } : State).setFld F.LNK_CAL_STAT_T_LAST now
          let s := if s.bit F.LNK_CAL_CFG_AUTO_STORE then qs.foldl (fun t q => t.storeCal q (t.calBytes q)) s else s
          s.log Rec.calDone [ports.setWidth 8, BitVec.ofNat 8 now, 1]
        else s
      let words := outs.flatMap fun e => s.calWords e.1 e.2.1
      match failed with
      | some (q, _, l) => s.failOp k Status.verifyFail Reason.calImplausible (4 * q + l.getD 0) words
      | none => s.finishOp k Status.ok words
    else s
  | _, _ => s

/-- `CAL_STORE` (R253). -/
def State.calStore (s : State) (w : Who) (ports : BitVec 4) : Res :=
  match s.calRefusal ports.toNat with
  | some r => r
  | none => s.runOp w 0x51 (.calStore ports) fun k t => t.holdCal ports.toNat (some (BitVec.ofNat 4 k))

/-- The end of `CAL_STORE` (R252, R253): `ok` says of each port whether its record reads back; one that does not is no
valid record. -/
def State.calStoreDone (s : State) (k : Nat) (ok : BitVec 4) : State :=
  match (s.op k).st.toNat, (s.op k).kind with
  | 1, .calStore ports =>
    let qs := bitsOf 4 ports.toNat
    let s := qs.foldl (fun (t : State) q => t.storeCal q (if ok.getLsbD q then t.calBytes q else [])) s
    let s := s.holdCal ports.toNat none
    let words := qs.map fun q => crc32c ((s.calBytes q).take 44)
    match qs.find? fun q => !ok.getLsbD q with
    | some q => s.failOp k Status.verifyFail Reason.nvmReadback q words
    | none => s.finishOp k Status.ok words
  | _, _ => s

/-! ## DIAG_PATTERN with TARGET 0 (R254) -/

/-- Patterns and actions that are not reserved. -/
def patRefused (s : State) (pattern : BitVec 4) : Option Res :=
  if 6 ≤ pattern.toNat then some (refuse s Status.badParam Reason.range 0) else none

/-- Actions 1 to 4: generate, check, both, loopback (R254). A check starts its counts afresh. -/
def State.patternRun (s : State) (q : Nat) (lanes pattern action : BitVec 4) (arg : Word) : Res :=
  if s.mode ≠ 7 then refuse s Status.notReady Reason.mode s.mode
  else
    match patRefused s pattern with
    | some r => r
    | none =>
      let t := (s.abortCal q).endChecks q
      let t := if action = 2 ∨ action = 3 then
          (bitsOf 4 lanes.toNat).foldl (fun (u : State) l => u.setWord (F.LNK_PAT_STAT_LOCK q l).addr 0) t
        else t
      let t := t.updTm fun tm => { tm with marked := tm.marked.set q false }
      okRes ((t.updLane q fun l => { l with
        need := true, pat := some ⟨action, pattern, lanes, arg⟩, checks := List.replicate 4 {} }).setLnk q lkService)

/-- Action 0: the port goes to CLOCK (R254). -/
def State.patternStop (s : State) (q : Nat) (pattern : BitVec 4) : Res :=
  if s.mode ≠ 7 then refuse s Status.notReady Reason.mode s.mode
  else
    match patRefused s pattern with
    | some r => r
    | none =>
      if s.lnkState q ≠ lkService then okRes s
      else okRes (((s.endChecks q).updLane q fun l => { l with pat := none }).setLnk q lkClock)

/-- Actions 5 and 6: injection on an ACTIVE port in M2 to M7 (R254). -/
def State.patternInject (s : State) (q : Nat) (lanes pattern : BitVec 4) (lcb : Bool) (arg : Word) : Res :=
  if s.mode < 2 ∨ s.lnkState q ≠ lkActive then refuse s Status.notReady Reason.mode s.mode
  else
    match patRefused s pattern with
    | some r => r
    | none =>
      let n := arg.toNat % 65536
      okRes (s.updLane q fun l =>
        if lcb then { l with injectLcb := n }
        else { l with injectBit := n, injectLane := ((bitsOf 4 lanes.toNat).head?).getD 0 })

end Sys2Proof.Machine
end

