-- ==== Sys2Proof/Machine/Float.lean ====
section
/-! DEFINITION. IEEE 754 binary16 and binary32 arithmetic, one rounding an operation (R161): decoding, rounding to
nearest with ties to even, saturation, and the nearest binary16 of an exact value given by comparisons. -/

namespace Sys2Proof.Machine

open Sys2Proof

/-- A binary floating-point datum: the magnitude of a finite one is exact. -/
inductive Fp where
  | nan
  | inf (neg : Bool)
  | fin (neg : Bool) (mag : Rat)
deriving DecidableEq, Repr

/-- 2^e. -/
def pow2 (e : Int) : Rat := if 0 ≤ e then ((2 ^ e.toNat : Nat) : Rat) else 1 / ((2 ^ (-e).toNat : Nat) : Rat)

/-- The exponent of the leading bit of a positive rational. -/
def log2Q (q : Rat) : Int :=
  let e : Int := (Nat.log2 q.num.natAbs : Int) - (Nat.log2 q.den : Int)
  if q < pow2 e then e - 1 else e

/-- A magnitude rounded to `p` significant bits with least exponent `emin`, to nearest, ties to even; `top` is the
greatest exponent of a leading bit. -/
def roundFp (p : Nat) (emin top : Int) (neg : Bool) (q : Rat) : Fp :=
  if q = 0 then .fin neg 0
  else
    let u := max (log2Q q - (p - 1 : Nat)) emin
    let v := q / pow2 u
    let r : Rat := ((divRound v.num v.den : Int) : Rat) * pow2 u
    if pow2 (top + 1) ≤ r then .inf neg else .fin neg r

/-- Rounding to binary32. -/
def round32 (neg : Bool) (q : Rat) : Fp := roundFp 24 (-149) 127 neg q

/-- Rounding to binary16 (R161). -/
def toHalf : Fp → Fp
  | .fin neg q => roundFp 11 (-24) 15 neg q
  | x => x

/-- The datum of binary16 bits. -/
def ofHalf (b : BitVec 16) : Fp :=
  let neg := b.getLsbD 15
  let e := b.toNat / 1024 % 32
  let f := b.toNat % 1024
  if e = 31 then (if f = 0 then .inf neg else .nan)
  else if e = 0 then .fin neg ((f : Rat) * pow2 (-24))
  else .fin neg (((1024 + f : Nat) : Rat) * pow2 ((e : Int) - 25))

/-- The bits of a finite magnitude that binary16 holds. -/
def halfMag (q : Rat) : Nat :=
  if q < pow2 (-14) then (q / pow2 (-24)).num.toNat
  else
    let e := log2Q q
    (e + 15).toNat * 1024 + ((q / pow2 (e - 10)).num.toNat - 1024)

/-- The binary16 bits of a datum that binary16 holds; NaN as the quiet NaN. -/
def halfBits : Fp → BitVec 16
  | .nan => 0x7E00
  | .inf neg => BitVec.ofNat 16 (0x7C00 + 0x8000 * neg.toNat)
  | .fin neg q => BitVec.ofNat 16 (halfMag q + 0x8000 * neg.toNat)

/-- Saturation (R161): NaN and every value with its sign bit set to +0, values above 65,504 to 65,504, kept in
binary16. -/
def saturate (x : Fp) : Fp :=
  match toHalf x with
  | .nan => .fin false 0
  | .inf neg => if neg then .fin false 0 else .fin false 65504
  | .fin neg q => if neg then .fin false 0 else .fin false q

/-- The conversion between the scaler's passes (R196): NaN to 0, magnitudes above 65,504 to that with their sign. -/
def toHalfSigned (x : Fp) : Fp :=
  match toHalf x with
  | .nan => .fin false 0
  | .inf neg => .fin neg 65504
  | y => y

/-- A binary32 product. -/
def mul32 : Fp → Fp → Fp
  | .nan, _ | _, .nan => .nan
  | .inf a, .inf b => .inf (a != b)
  | .inf a, .fin b q => if q = 0 then .nan else .inf (a != b)
  | .fin a q, .inf b => if q = 0 then .nan else .inf (a != b)
  | .fin a q, .fin b r => round32 (a != b) (q * r)

/-- The signed value of a finite datum. -/
def signedQ (neg : Bool) (q : Rat) : Rat := if neg then -q else q

/-- A binary32 sum; an exact zero is +0 unless both terms carry the sign bit. -/
def add32 : Fp → Fp → Fp
  | .nan, _ | _, .nan => .nan
  | .inf a, .inf b => if a = b then .inf a else .nan
  | .inf a, .fin _ _ => .inf a
  | .fin _ _, .inf b => .inf b
  | .fin a q, .fin b r =>
    let v := signedQ a q + signedQ b r
    if v = 0 then .fin (a && b) 0 else if v < 0 then round32 true (-v) else round32 false v

/-- The negation of a datum. -/
def neg32 : Fp → Fp
  | .nan => .nan
  | .inf a => .inf (!a)
  | .fin a q => .fin (!a) q

/-- A binary32 difference. -/
def sub32 (x y : Fp) : Fp := add32 x (neg32 y)

/-- A binary32 quotient. -/
def div32 : Fp → Fp → Fp
  | .nan, _ | _, .nan => .nan
  | .inf _, .inf _ => .nan
  | .inf a, .fin b _ => .inf (a != b)
  | .fin a _, .inf b => .fin (a != b) 0
  | .fin a q, .fin b r => if r = 0 then (if q = 0 then .nan else .inf (a != b)) else round32 (a != b) (q / r)

/-- `x ≤ y` of two data; false where either is NaN. -/
def le32 : Fp → Fp → Bool
  | .nan, _ | _, .nan => false
  | .inf a, .inf b => a || !b
  | .inf a, .fin _ _ => a
  | .fin _ _, .inf b => !b
  | .fin a q, .fin b r => decide (signedQ a q ≤ signedQ b r)

/-- `x < y` of two data. -/
def lt32 (x y : Fp) : Bool := le32 x y && !le32 y x

/-- An exact rational as a binary32 constant. -/
def f32 (q : Rat) : Fp := if q < 0 then round32 true (-q) else round32 false q

/-- The magnitude of the binary16 code `c` below 0x7C00, extended by one step to 65,536. -/
def halfVal (c : Nat) : Rat :=
  if c < 1024 then (c : Rat) * pow2 (-24) else ((1024 + c % 1024 : Nat) : Rat) * pow2 ((c / 1024 : Int) - 25)

/-- The binary16 nearest to an exact value that is not negative, ties to even; `cmp m` compares the value with `m`.
The code is found bit by bit: the greatest one whose lower bound the value reaches. -/
def nearestHalf (cmp : Rat → Ordering) : BitVec 16 :=
  let reaches (c : Nat) : Bool :=
    match cmp ((halfVal (c - 1) + halfVal c) / 2) with
    | .gt => true
    | .eq => c % 2 = 0
    | .lt => false
  BitVec.ofNat 16 (((List.range 15).map fun i => 2 ^ (14 - i)).foldl
    (fun c b => if c + b ≤ 0x7C00 ∧ reaches (c + b) then c + b else c) 0)

def ordOf (a b : Rat) : Ordering := if a < b then .lt else if b < a then .gt else .eq

/-- The nearest binary16 of a rational that is not negative. -/
def nearestHalfQ (q : Rat) : BitVec 16 := nearestHalf (ordOf q)

/-- The nearest binary16 of g x^2.4, exact: fifth powers are compared (R170, R192). -/
def nearestPow24 (g x : Rat) : BitVec 16 := nearestHalf fun m => ordOf (g ^ 5 * x ^ 12) (m ^ 5)

/-- A value used as a coefficient or gain: NaN and infinities do not occur where it is used; they count as 0. -/
def finQ : Fp → Rat
  | .fin neg q => signedQ neg q
  | _ => 0

/-- A pixel of the working format: R, G, B (R160). -/
structure Px where
  r : Fp
  g : Fp
  b : Fp
deriving DecidableEq, Repr

def Px.map (f : Fp → Fp) (p : Px) : Px := ⟨f p.r, f p.g, f p.b⟩

def Px.zip (f : Fp → Fp → Fp) (p q : Px) : Px := ⟨f p.r q.r, f p.g q.g, f p.b q.b⟩

def fpZero : Fp := .fin false 0

def Px.zero : Px := ⟨fpZero, fpZero, fpZero⟩

/-- BT.709 to BT.2020 primaries (R171): (c0 R + c1 G) + c2 B, then binary16. -/
def toWide (p : Px) : Px :=
  let row (a b c : Rat) : Fp :=
    toHalf (add32 (add32 (mul32 (f32 a) p.r) (mul32 (f32 b) p.g)) (mul32 (f32 c) p.b))
  ⟨row (6274 / 10000) (3293 / 10000) (433 / 10000), row (691 / 10000) (9195 / 10000) (114 / 10000),
   row (164 / 10000) (880 / 10000) (8956 / 10000)⟩

/-! ## Powers and logarithms (R170, R192)

Fixed point with 256 fraction bits, each operation rounded down: what is returned differs from the exact value by far less
than any binary16 rounding can see (log entry 8). -/

def fxOne : Int := (2 ^ 256 : Nat)

/-- A rational in fixed point. -/
def fxOf (q : Rat) : Int := q.num * fxOne / (q.den : Nat)

/-- 2 atanh z for a fixed-point z of at most 1/3. -/
def fxAtanh2 (z : Int) : Int :=
  let z2 := z * z / fxOne
  2 * ((List.range 90).foldl (fun (acc : Int × Int) i => (acc.1 * z2 / fxOne, acc.2 + acc.1 / ((2 * i + 1 : Nat) : Int)))
    (z, 0)).2

def fxLn2 : Int := fxAtanh2 (fxOne / 3)

/-- The natural logarithm of a positive rational: its mantissa lies in [1, 2). -/
def fxLn (q : Rat) : Int :=
  let k0 : Int := (Nat.log2 q.num.natAbs : Int) - (Nat.log2 q.den : Int)
  let k := if q < pow2 k0 then k0 - 1 else k0
  let m := fxOf (q / pow2 k)
  k * fxLn2 + fxAtanh2 ((m - fxOne) * fxOne / (m + fxOne))

/-- e to a fixed-point power. -/
def fxExp (v : Int) : Rat :=
  let k := v / fxLn2
  let r := v - k * fxLn2
  let s := ((List.range 80).foldl (fun (acc : Int × Int) i =>
    (acc.1 * r / (fxOne * ((i + 1 : Nat) : Int)), acc.2 + acc.1)) (fxOne, 0)).2
  (s : Rat) / (fxOne : Rat) * pow2 k

/-- x to a fixed-point power, for x from 0; 0 stays 0 and 1 stays 1. -/
def fxPow (x : Rat) (e : Int) : Rat := if x = 0 ∨ x = 1 then x else fxExp (fxLn x * e / fxOne)

/-- The EOTF of SMPTE ST 2084 in cd/m², its constants under log entry 8. -/
def pqEotf (e : Rat) : Rat :=
  let x := fxPow e (fxOf (32 / 2523))
  let n := x - 107 / 128
  if n ≤ 0 then 0 else 10000 * fxPow (n / (2413 / 128 - 2392 / 128 * x)) (fxOf (8192 / 1305))

/-- The inverse OETF of BT.2100 HLG, its constants under log entry 8. -/
def hlgInverse (e : Rat) : Rat :=
  if e ≤ 1 / 2 then e ^ 2 / 3
  else (fxExp (fxOf ((e - 55991073 / 100000000) / (17883277 / 100000000))) + 28466892 / 100000000) / 12

/-- What the OOTF multiplies each scene component by, in cd/m² (R170): Lw Ys^(γ - 1), with γ = 1.2 + 0.42 log10(Lw / 1000).
A black pixel stays black. -/
def hlgGain (lw : Nat) (ys : Rat) : Rat :=
  if ys = 0 then 0
  else
    let e := fxOf (1 / 5) + 42 * (fxLn ((lw : Rat) / 1000) * fxOne / fxLn 10) / 100
    (lw : Rat) * fxPow ys e

/-- A transfer function and the parameters of R163. -/
structure Tf where
  kind : Nat                                 -- as `CMP_GL_SURF.TF` (R170)
  gain : Rat
  refWhite : Nat
  hlgPeak : Nat
deriving DecidableEq, Repr

/-- The decoded components of encoded ones in [0, 1] (R170, R192): each the nearest binary16. The constants of
IEC 61966-2-1, ST 2084 and BT.2100 stand under log entry 8. -/
def decodeTf (t : Tf) (r g b : Rat) : Px :=
  let each (f : Rat → BitVec 16) : Px := ⟨ofHalf (f r), ofHalf (f g), ofHalf (f b)⟩
  match t.kind with
  | 0 => each fun e => nearestHalfQ (e * t.gain)
  | 1 => each fun e =>
      if e ≤ 4045 / 100000 then nearestHalfQ (e / (1292 / 100) * t.gain)
      else nearestPow24 t.gain ((e + 55 / 1000) / (1055 / 1000))
  | 2 => each fun e => nearestPow24 t.gain e
  | 3 => each fun e => nearestHalfQ (pqEotf e / t.refWhite)
  | _ =>
    let ys := 2627 / 10000 * hlgInverse r + 6780 / 10000 * hlgInverse g + 593 / 10000 * hlgInverse b
    let k := hlgGain t.hlgPeak ys / t.refWhite
    each fun e => nearestHalfQ (hlgInverse e * k)

end Sys2Proof.Machine
end

