-- ==== Sys2Proof/Machine/Scale.lean ====
section
/-! DEFINITION. Video scalers (spec/07): configuration check, line-buffer requirement, decoding into the working
format, the two filter passes, what a line fetches. A function over an image's configuration takes the state with
that image's registers in force (`withRegs`). -/

namespace Sys2Proof.Machine

open Sys2Proof

/-- The state with another register file in force. -/
def State.withRegs (s : State) (r : List (Nat × Word)) : State := { s with regs := r }

def State.phases (s : State) : Nat := phasesOf s.regs
def State.regionX (s : State) : Nat := s.fld F.CMP_REGION_ORG_X0
def State.regionY (s : State) : Nat := s.fld F.CMP_REGION_ORG_Y0
def State.regionW (s : State) : Nat := s.fld F.CMP_REGION_SIZE_W
def State.regionH (s : State) : Nat := s.fld F.CMP_REGION_SIZE_H

/-- Ticks of one composition line (R162). -/
def State.lineTicks (s : State) : Nat := ceilDiv s.regionW 4 + 32

/-- Whether a layer takes part in phase `p` (R164, R165). -/
def State.layerIn (s : State) (n p : Nat) : Bool :=
  s.bit (F.CMP_LAYER_CTRL_EN n) && bitOf (s.fld (F.CMP_LAYER_CTRL_PHASE_MASK n)) p && p < s.phases

/-- Phases below `PHASES` in which a layer is visible (R184, R204). -/
def State.layerPhases (s : State) (n : Nat) : Nat := ((List.range 4).filter (s.layerIn n)).length

def State.sclStream (s : State) (k : Nat) : Nat := s.fld (F.SCL_CTRL_STREAM k)

/-- Pixels and bytes of a pixel group of a stream. -/
def State.group (s : State) (j : Nat) : Nat × Nat := ppg (s.fld (F.ING_S_CTRL_SAMPLING j)) (s.fld (F.ING_S_CTRL_DEPTH j))

/-- `SCL_STAT.CFG_ERR` (R189): the first failing row. -/
def State.sclErr (s : State) (k : Nat) : Nat :=
  let j := s.sclStream k
  let cx := s.fld (F.SCL_CROP_ORG_CX k)
  let cy := s.fld (F.SCL_CROP_ORG_CY k)
  let cw := s.fld (F.SCL_CROP_SIZE_CW k)
  let ch := s.fld (F.SCL_CROP_SIZE_CH k)
  let hs := s.fld (F.SCL_H_STEP_H_STEP k)
  let vs := s.fld (F.SCL_V_STEP_V_STEP k)
  let ow := s.fld (F.SCL_OUT_SIZE_OW k)
  let oh := s.fld (F.SCL_OUT_SIZE_OH k)
  if ¬ s.bit (F.ING_S_CTRL_EN j) ∨ s.streamErr j ≠ 0 then 1
  else if cw = 0 ∨ ch = 0 ∨ s.fld (F.ING_S_DIM_WIDTH j) < cx + cw ∨ s.fld (F.ING_S_DIM_HEIGHT j) < cy + ch ∨
      cx % (s.group j).1 ≠ 0 ∨ cw % (s.group j).1 ≠ 0 then 2
  else if hs < 65536 ∨ 8388608 < hs ∨ vs < 65536 ∨ 8388608 < vs then 3
  else if ow = 0 ∨ oh = 0 ∨ 32768 < ow ∨ 32768 < oh ∨ 32768 < s.fld (F.SCL_OUT_POS_OX k) + ow ∨
      32768 < s.fld (F.SCL_OUT_POS_OY k) + oh then 4
  else if s.lineTicks < ceilDiv (max (2 ^ 20) vs * cw) (2 ^ 25) + 16 then 5
  else 0

/-- Lines and bytes the line buffer needs (R199). -/
def State.lbLines (s : State) (k : Nat) : Nat := ceilDiv (max (2 ^ 20) (s.fld (F.SCL_V_STEP_V_STEP k))) (2 ^ 17) + 2
def State.lbBytes (s : State) (k : Nat) : Nat := s.lbLines k * s.fld (F.SCL_CROP_SIZE_CW k) * 6

/-! ## Decoding (R190 to R192) -/

/-- Sample `i` of `n` bits in a group of bytes, most significant bit first. -/
def sampleAt (bs : List Byte) (n i : Nat) : Nat := natBE bs / 2 ^ (8 * bs.length - n * (i + 1)) % 2 ^ n

/-- A code normalised (R191). -/
def normCode (full chroma : Bool) (n d : Nat) : Rat :=
  let k := 2 ^ (n - 8)
  let num : Int := if full then (d : Int) - (if chroma then 2 ^ (n - 1) else 0 : Nat)
    else (d : Int) - ((if chroma then 128 else 16) * k : Nat)
  let den : Nat := if full then 2 ^ n - 1 else (if chroma then 224 else 219) * k
  (num : Rat) / (den : Nat)

def clamp01 (q : Rat) : Rat := if q < 0 then 0 else if 1 < q then 1 else q

/-- The bytes of the pixel group that holds column `x` of line `l` of a buffer, as scaler `k` reads them, and whether a
lost word overlaps it (R193); a patched buffer reads the line of R153. -/
def State.groupAt (s : State) (k : Nat) (f : Buf) (l x : Nat) : List Byte × Bool :=
  let g := f.group
  let a := f.lineAddr (f.readLine l) + x / g.1 * g.2
  let bs := (List.range g.2).map fun i => (s.readByte (.scaler k) (a + i), s.lostByte (.scaler k) (a + i))
  (bs.map Prod.fst, bs.any Prod.snd)

/-- Chroma samples of an even column of a 4:2:2 line (R190). -/
def State.chromaAt (s : State) (k : Nat) (f : Buf) (l x n : Nat) (full : Bool) : Rat × Rat :=
  let bs := (s.groupAt k f l x).1
  let i := x % f.group.1 / 2 * 4
  (normCode full true n (sampleAt bs n i), normCode full true n (sampleAt bs n (i + 2)))

/-- R', G' and B' of a pixel of a stream's line (R190, R191), column and line counted in the stream; none where a lost word
overlaps its group (R193). The layout is that in which the buffer was received (R145, log entry 56). -/
def State.videoCodes (s : State) (k : Nat) (f : Buf) (l x : Nat) : Option (Rat × Rat × Rat) :=
  let sam := (F.ING_S_CTRL_SAMPLING 0).get f.ctrl
  let n := match (F.ING_S_CTRL_DEPTH 0).get f.ctrl with | 0 => 10 | 1 => 12 | _ => 16
  let full := (F.ING_S_CTRL_RANGE 0).get f.ctrl = 1
  let col := (F.ING_S_CTRL_COLORIMETRY 0).get f.ctrl
  let (bs, lost) := s.groupAt k f l x
  if lost then none
  else
    let i := x % f.group.1
    some <| if sam = 2 then
        (clamp01 (normCode full false n (sampleAt bs n (3 * i))),
         clamp01 (normCode full false n (sampleAt bs n (3 * i + 1))),
         clamp01 (normCode full false n (sampleAt bs n (3 * i + 2))))
      else
        let (cb, y, cr) : Rat × Rat × Rat :=
          if sam = 1 then
            (normCode full true n (sampleAt bs n (3 * i)), normCode full false n (sampleAt bs n (3 * i + 1)),
             normCode full true n (sampleAt bs n (3 * i + 2)))
          else
            let y := normCode full false n (sampleAt bs n (i / 2 * 4 + i % 2 * 2 + 1))
            let c0 := s.chromaAt k f l (x / 2 * 2) n full
            if x % 2 = 1 ∧ x + 1 < f.width then
              let c1 := s.chromaAt k f l (x + 1) n full
              ((c0.1 + c1.1) / 2, y, (c0.2 + c1.2) / 2)
            else (c0.1, y, c0.2)
        let kr : Rat := if col = 0 then 2126 / 10000 else 2627 / 10000
        let kb : Rat := if col = 0 then 722 / 10000 else 593 / 10000
        let r := y + 2 * (1 - kr) * cr
        let bl := y + 2 * (1 - kb) * cb
        let g := (y - kr * r - kb * bl) / (1 - kr - kb)
        (clamp01 r, clamp01 g, clamp01 bl)

/-- The light of a pixel in the working format (R192, R193), with the image's registers and its frame's `ING_S_CTRL`. -/
def State.videoLight (img : State) (ctrl : Word) (c : Option (Rat × Rat × Rat)) : Px :=
  match c with
  | none => Px.zero
  | some (r, g, b) =>
    let kind := match (F.ING_S_CTRL_TCS 0).get ctrl with | 0 => 2 | 1 => 3 | _ => 4
    let tf : Tf := ⟨kind, finQ (ofHalf (BitVec.ofNat 16 (img.fld F.CMP_SDR_GAIN_SDR_GAIN))),
      img.fld F.CMP_DECODE_REF_WHITE, img.fld F.CMP_DECODE_HLG_PEAK⟩
    let px := decodeTf tf r g b
    if (F.ING_S_CTRL_COLORIMETRY 0).get ctrl = 0 then toWide px else px

/-- A decoded pixel as binary16. -/
def pxHalf (p : Px) : BitVec 16 × BitVec 16 × BitVec 16 := (halfBits p.r, halfBits p.g, halfBits p.b)

/-! ## Accumulators and filters (R194 to R197) -/

/-- Integer position and filter phase of an accumulator (R194). -/
def accPos (acc : Int) : Int × Nat := (acc / (2 ^ 20 : Nat), (acc % (2 ^ 20 : Nat)).toNat / 2 ^ 14)

def State.accH (s : State) (k m : Nat) : Int := sext 32 (s.fld (F.SCL_H_INIT_H_INIT k)) + (m * s.fld (F.SCL_H_STEP_H_STEP k) : Nat)
def State.accV (s : State) (k j : Nat) : Int := sext 32 (s.fld (F.SCL_V_INIT_V_INIT k)) + (j * s.fld (F.SCL_V_STEP_V_STEP k) : Nat)

/-- A position held within the crop (R194). -/
def clampPos (v : Int) (n : Nat) : Nat := (max 0 (min v ((n : Int) - 1))).toNat

/-- A coefficient code (R197). -/
def State.coefH (s : State) (set ph k : Nat) : Fp :=
  let w := ph * 6 + k / 2
  f32 ((sext 16 (if k % 2 = 0 then s.fld (F.SCL_COEF_C_LO set w) else s.fld (F.SCL_COEF_C_HI set w)) : Int) / (16384 : Nat))

def State.coefV (s : State) (set ph k : Nat) : Fp :=
  let w := 384 + ph * 4 + k / 2
  f32 ((sext 16 (if k % 2 = 0 then s.fld (F.SCL_COEF_C_LO set w) else s.fld (F.SCL_COEF_C_HI set w)) : Int) / (16384 : Nat))

/-- Crop lines named by the vertical taps of output line `j` (R195, R196). -/
def State.tapLines (s : State) (k j : Nat) : List Nat :=
  let i := (accPos (s.accV k j)).1
  (List.range 8).map fun t => clampPos (i - 3 + (t : Int)) (s.fld (F.SCL_CROP_SIZE_CH k))

/-- Crop columns named by the horizontal taps of output column `m`. -/
def State.tapCols (s : State) (k m : Nat) : List Nat :=
  let i := (accPos (s.accH k m)).1
  (List.range 12).map fun t => clampPos (i - 5 + (t : Int)) (s.fld (F.SCL_CROP_SIZE_CW k))

/-- Output lines and columns of scaler `k` inside the region. -/
def State.outLines (s : State) (k : Nat) : List Nat :=
  (List.range (s.fld (F.SCL_OUT_SIZE_OH k))).filter fun j =>
    s.regionY ≤ s.fld (F.SCL_OUT_POS_OY k) + j && s.fld (F.SCL_OUT_POS_OY k) + j < s.regionY + s.regionH

def State.outCols (s : State) (k : Nat) : List Nat :=
  (List.range (s.fld (F.SCL_OUT_SIZE_OW k))).filter fun m =>
    s.regionX ≤ s.fld (F.SCL_OUT_POS_OX k) + m && s.fld (F.SCL_OUT_POS_OX k) + m < s.regionX + s.regionW

/-- The crop columns that some horizontal tap names (R195): first and last. -/
def State.usedCols (s : State) (k : Nat) : Option (Nat × Nat) :=
  match (s.outCols k).flatMap (s.tapCols k) with
  | [] => none
  | c :: l => some (l.foldl min c, l.foldl max c)

/-- The crop lines that some vertical tap of an output line inside the region names, ascending (R195). -/
def State.usedLines (s : State) (k : Nat) : List Nat :=
  let named := (s.outLines k).flatMap (s.tapLines k)
  (List.range (s.fld (F.SCL_CROP_SIZE_CH k))).filter named.contains

/-! ## The start window and the line buffer (R199, R200, R374) -/

def State.scaler (s : State) (k : Nat) : ScalerSt := s.cmp.scalers.getD k {}

def State.updScaler (s : State) (k : Nat) (f : ScalerSt → ScalerSt) : State :=
  { s with cmp := { s.cmp with scalers := s.cmp.scalers.modify k f } }

/-- The pieces of a run of line-buffer bytes (R374): byte `off` of the owned banks, concatenated in ascending order, as
device address and length. What lies beyond the banks owned has no place. -/
def State.lbPieces (s : State) (k off n : Nat) : List (Nat × Nat) :=
  let banks := s.banksOf (2 + k)
  let at_ (o m : Nat) : List (Nat × Nat) :=
    match banks[o / 0x80000]? with
    | some b => if m = 0 then [] else [(bankBase b + o % 0x80000, m)]
    | none => []
  let n1 := min n (0x80000 - off % 0x80000)
  at_ off n1 ++ at_ (off + n1) (n - n1)

/-- Decoded pixels are written into the line buffer, as binary16 R, G, B. -/
def State.lbWrite (s : State) (k off : Nat) (bs : List Byte) : State :=
  ((s.lbPieces k off bs.length).foldl (fun (acc : State × List Byte) p =>
    (acc.1.writeBytes (.scaler k) p.1 (acc.2.take p.2), acc.2.drop p.2)) (s, bs)).1

/-- One pixel of the line buffer as the vertical filter reads it. -/
def State.lbPixel (s : State) (k off : Nat) : Px :=
  let bs := (s.lbPieces k off 6).flatMap fun p => s.readBytes (.filter k) p.1 p.2
  let half (i : Nat) : Fp := ofHalf (BitVec.ofNat 16 (natLE (slice bs (2 * i) 2)))
  ⟨half 0, half 1, half 2⟩

/-- Columns `lo` to `hi` of a crop line of a buffer, as codes (R190, R191). -/
def State.cropLine (s img : State) (k : Nat) (f : Buf) (l lo hi : Nat) : List (Option (Rat × Rat × Rat)) :=
  (List.range (hi + 1 - lo)).map fun i =>
    s.videoCodes k f (img.fld (F.SCL_CROP_ORG_CY k) + l) (img.fld (F.SCL_CROP_ORG_CX k) + lo + i)

/-- Columns `lo` to `hi` of a crop line are fetched (R195), with the group from which an odd last column of 4:2:2 takes half its
chroma (R190): lost words count in `SCL_CNT[k][3]` (R193) and at the memory block. -/
def State.fetchInput (s img : State) (k : Nat) (f : Buf) (l lo hi : Nat) : State :=
  let g := f.group
  let x0 := img.fld (F.SCL_CROP_ORG_CX k) + lo
  let x1 := img.fld (F.SCL_CROP_ORG_CX k) + hi
  let x1 := if (F.ING_S_CTRL_SAMPLING 0).get f.ctrl = 0 ∧ x1 % 2 = 1 ∧ x1 + 1 < f.width then x1 + 1 else x1
  let a := f.lineAddr (f.readLine (img.fld (F.SCL_CROP_ORG_CY k) + l)) + x0 / g.1 * g.2
  let n := (x1 / g.1 - x0 / g.1 + 1) * g.2
  (s.bump (F.SCL_CNT_COUNT k 3) (s.lostWords (.scaler k) a n)).accountRead (.scaler k) a n

/-- The buffer a layer shows. -/
def State.shownBuf (s : State) (k : Nat) : Buf :=
  let sel := s.ing.sel.getD k {}
  s.buf sel.stream sel.buf

/-- The start window is loaded with the lines that the first output line inside the region names (R200). DEDUCED (log entry
75): it takes whole crop lines, since no horizontal change is among those that reload it (R201); every phase image decodes
them with its own registers (R192). -/
def State.loadWindow (s img : State) (k : Nat) (key : List Nat × List Word) : State :=
  let ls := match img.outLines k with
    | j :: _ => (img.tapLines k j).eraseDups
    | [] => []
  let f := s.shownBuf k
  let last := img.fld (F.SCL_CROP_SIZE_CW k) - 1
  let win := ls.map fun l => (⟨l, f.ctrl, s.cropLine img k f l 0 last⟩ : WinLine)
  (ls.foldl (fun t l => t.fetchInput img k f l 0 last) s).updScaler k fun c => { c with key := key, window := win }

/-- One input line is requested into slot `j` of the line buffer, decoded and written there (R195, R199, R200). -/
def State.loadSlot (s img : State) (k j l : Nat) : State :=
  let f := s.shownBuf k
  let s := match img.usedCols k with
    | none => s
    | some (lo, hi) =>
      let bs := (s.cropLine img k f l lo hi).flatMap fun c =>
        let p := pxHalf (img.videoLight f.ctrl c)
        bytesLE 2 p.1.toNat ++ bytesLE 2 p.2.1.toNat ++ bytesLE 2 p.2.2.toNat
      (s.fetchInput img k f l lo hi).lbWrite k ((j * img.fld (F.SCL_CROP_SIZE_CW k) + lo) * 6) bs
  s.updScaler k fun c => { c with slots := c.slots.set j (some l) }

/-- Input lines not yet requested are, in ascending order, while a slot is free (R200); none while a bank of the scaler still
serves its old owner (R372). -/
def State.fillSlots (s img : State) (k : Nat) : State :=
  if (s.banksOf (2 + k)).any s.bankDrains then s
  else
    (s.scaler k).todo.foldl (fun (t : State) l =>
      match (t.scaler k).slots.findIdx? Option.isNone with
      | some j => (t.loadSlot img k j l).updScaler k fun c => { c with todo := c.todo.filter (· != l) }
      | none => t) s

/-- A phase image begins for scaler `k` (R200): every slot is free, and the lines that the window does not hold are
requested. -/
def State.beginSlots (s img : State) (k : Nat) : State :=
  let held := (s.scaler k).window.map WinLine.line
  (s.updScaler k fun c => { c with
    slots := List.replicate (img.lbLines k) none,
    todo := (img.usedLines k).filter fun l => !held.contains l }).fillSlots img k

/-- After output line `j` a slot whose line no later output line names is free, and the next lines are requested (R200). -/
def State.freeSlots (s img : State) (k j : Nat) : State :=
  let later := ((img.outLines k).filter fun i => j < i).flatMap (img.tapLines k)
  (s.updScaler k fun c => { c with
    slots := c.slots.map fun o => o.filter later.contains }).fillSlots img k

/-- A decoded pixel of crop line `l`, column `x`, as the vertical filter reads it: from the start window, else from the
line buffer. -/
def State.linePixel (s img : State) (k l x : Nat) : Px :=
  match (s.scaler k).window.find? fun w => w.line == l with
  | some w =>
    let p := pxHalf (img.videoLight w.ctrl (w.px.getD x none))
    ⟨ofHalf p.1, ofHalf p.2.1, ofHalf p.2.2⟩
  | none =>
    match (s.scaler k).slots.findIdx? (· == some l) with
    | some j => s.lbPixel k ((j * img.fld (F.SCL_CROP_SIZE_CW k) + x) * 6)
    | none => Px.zero

/-- Whether every input line that output line `j` needs is on die (R202). -/
def State.lineReady (s img : State) (k j : Nat) : Bool :=
  (img.tapLines k j).all fun l => ((s.scaler k).window.any fun w => w.line == l) || (s.scaler k).slots.contains (some l)

/-- The line-buffer reads of output line `j` are accounted: lost words and read collisions of the banks (R361, R376). -/
def State.accountTaps (s img : State) (k j : Nat) : State :=
  let held := (s.scaler k).window.map WinLine.line
  match img.usedCols k with
  | none => s
  | some (lo, hi) =>
    ((img.tapLines k j).eraseDups.filter fun l => !held.contains l).foldl (fun (t : State) l =>
      match (t.scaler k).slots.findIdx? (· == some l) with
      | some i =>
        (t.lbPieces k ((i * img.fld (F.SCL_CROP_SIZE_CW k) + lo) * 6) ((hi + 1 - lo) * 6)).foldl
          (fun u p => u.accountRead (.filter k) p.1 p.2) t
      | none => t) s

/-- One output line of scaler `k` (R196): column `m` of the output rectangle. -/
def State.scaledLine (s img : State) (k line : Nat) : Nat → Px :=
  let ph := (accPos (img.accV k line)).2
  let taps := (img.tapLines k line).zip ((List.range 8).map (img.coefV (img.fld (F.SCL_CTRL_V_SET k)) ph))
  let mid := (List.range (img.fld (F.SCL_CROP_SIZE_CW k))).map fun x =>
    (taps.foldl (fun (acc : Px) t =>
      acc.zip add32 ((s.linePixel img k t.1 x).map (mul32 t.2))) Px.zero).map toHalfSigned
  fun m =>
    let ph := (accPos (img.accH k m)).2
    let taps := (img.tapCols k m).zip ((List.range 12).map (img.coefH (img.fld (F.SCL_CTRL_H_SET k)) ph))
    (taps.foldl (fun (acc : Px) t => acc.zip add32 ((mid.getD t.1 Px.zero).map (mul32 t.2))) Px.zero).map saturate

end Sys2Proof.Machine
end

