-- ==== Sys2Proof/Machine/Compose.lean ====
section
/-! DEFINITION. Layer composition, fences and flips (spec/06): configuration checks, graphic surfaces, blending, the
entry of a line into blender 0, the fence commands. -/

namespace Sys2Proof.Machine

open Sys2Proof

/-! ## Configuration (R162, R172) -/

/-- `CMP_STAT.CFG_ERR` (R162). -/
def State.composeErr (s : State) : Nat :=
  let w := s.regionW
  let h := s.regionH
  let g := s.grid
  let okGain := match ofHalf (BitVec.ofNat 16 (s.fld F.CMP_SDR_GAIN_SDR_GAIN)) with
    | .fin neg q => !neg || decide (q = 0)
    | _ => false
  let rw := s.fld F.CMP_DECODE_REF_WHITE
  let hp := s.fld F.CMP_DECODE_HLG_PEAK
  if w < 1 ∨ 16384 < w ∨ h < 1 ∨ 16384 < h ∨ 32768 < s.regionX + w ∨ 32768 < s.regionY + h then 1
  else if 3000000000 * g.num < 2 * g.den * (h * s.phases * s.lineTicks + 3000) then 2
  else if rw < 1 ∨ 10000 < rw ∨ hp < 100 ∨ 10000 < hp ∨ okGain = false then 3
  else 0

/-- Bytes per pixel of a surface format (R168). -/
def surfBytes (f : Nat) : Nat := if f = 3 then 8 else 4

/-- The shown buffer's address (R172). -/
def State.glBase (s : State) (n shown : Nat) : Nat := s.fld (F.CMP_GL_BUF_BASE_4K n shown) * 4096

def State.glStride (s : State) (n : Nat) : Nat := s.fld (F.CMP_GL_SURF_STRIDE_64 n) * 64

/-- `CMP_LAYER_STAT.CFG_ERR` (R172) of layer `n` showing buffer `shown`; a video layer can fail only by its `BLEND`. -/
def State.layerErr (s : State) (n shown : Nat) : Nat :=
  let blend := s.fld (F.CMP_LAYER_CTRL_BLEND n)
  if n < 6 then (if blend = 3 then 1 else 0)
  else
    let f := s.fld (F.CMP_GL_SURF_FORMAT n)
    let tf := s.fld (F.CMP_GL_SURF_TF n)
    let sw := s.fld (F.CMP_GL_SIZE_SURF_W n)
    let sh := s.fld (F.CMP_GL_SIZE_SURF_H n)
    let cw := s.fld (F.CMP_GL_CROP_SIZE_CW n)
    let ch := s.fld (F.CMP_GL_CROP_SIZE_CH n)
    if 4 ≤ f ∨ 5 ≤ tf ∨ blend = 3 ∨ (f = 3 ∧ tf ≠ 0) then 1
    else if sw < 1 ∨ 16384 < sw ∨ sh < 1 ∨ 16384 < sh ∨ cw = 0 ∨ ch = 0 ∨
        sw < s.fld (F.CMP_GL_CROP_ORG_CX n) + cw ∨ sh < s.fld (F.CMP_GL_CROP_ORG_CY n) + ch ∨
        s.glStride n < sw * surfBytes f then 2
    else if ¬ s.inDram (s.glBase n shown) ((sh - 1) * s.glStride n + sw * surfBytes f) then 3
    else 0

def State.updCmp (s : State) (f : CmpSt → CmpSt) : State := { s with cmp := f s.cmp }

/-- The buffer a graphic layer shows (R177). -/
def State.shown (s : State) (n : Nat) : Nat := s.fld (F.CMP_LAYER_STAT_SHOWN_BUF n)

/-! ## Fences and flips (R176 to R183) -/

def State.fence (s : State) (k : Nat) : Fence := s.cmp.fences.getD k {}

def State.setFence (s : State) (k : Nat) (f : Fence) : State := s.updCmp fun c => { c with fences := c.fences.set k f }

/-- A graphic layer's pending flip and the registers that show it. -/
def State.setFlip (s : State) (g : Nat) (f : Option Flip) : State :=
  let n := 6 + g
  let s := s.updCmp fun c => { c with flips := c.flips.set g f }
  let s := s.setBit (F.CMP_LAYER_STAT_PENDING n) f.isSome
  let s := s.setFld (F.CMP_LAYER_STAT_PEND_BUF n) (f.elim 0 fun x => x.buf.toNat)
  let s := s.setFld (F.CMP_LAYER_STAT_PEND_FENCE n) (f.elim 0 fun x => x.fence.toNat)
  let s := s.setFld (F.CMP_LAYER_STAT_PEND_NO_FENCE n) (f.elim 0 fun x => x.noFence.toNat)
  let s := s.setFld (F.CMP_PEND_WAIT_WAIT g) (f.elim 0 fun x => x.wait.toNat)
  s.setFld (F.CMP_PEND_FRAME_FRAME g) (f.elim 0 fun x => x.frame)

/-- Whether the wingbeat of a frame has passed. -/
def State.framePassed (s : State) (frame : Nat) : Bool := decide (frame < s.tm.nextFrame)

/-- A timed command past its frame (R179, R181). -/
def State.timedLate (s : State) (opcode n frame effect : Nat) : State :=
  (s.bump (F.CMP_CNT_COUNT 6)).log Rec.timedLate
    ([BitVec.ofNat 8 opcode, BitVec.ofNat 8 n] ++ bytesBE 4 frame ++ bytesBE 4 effect)

/-- `FENCE_SIGNAL` with `RESET` = 0 (R179). -/
def State.fenceSignal (s : State) (k : Nat) (v : Word) (frame : Nat) : Res :=
  let f := s.fence k
  if v ≤ f.visible ∨ f.timed.any (fun t => decide (v ≤ t.2)) then refuse s Status.badParam 0x0200 k
  else if (frame = 0 ∧ f.timed ≠ []) ∨ (frame ≠ 0 ∧ f.timed.any (fun t => decide (frame < t.1))) then
    refuse s Status.badParam 0x0201 k
  else if frame ≠ 0 ∧ 4 ≤ f.timed.length then refuse s Status.refusedFull 0x0210 k
  else
    let s := s.bump (F.CMP_CNT_COUNT 7)
    if frame = 0 then okRes (s.setFence k { f with visible := v }) [v]
    else if s.framePassed frame then
      okRes ((s.setFence k { f with visible := v }).timedLate 0x20 k frame s.tm.curFrame) [v]
    else okRes (s.setFence k { f with timed := f.timed ++ [(frame, v)] }) [f.visible]

/-- `FENCE_SIGNAL` with `RESET` = 1 (R179). -/
def State.fenceReset (s : State) (k : Nat) (v : Word) (frame : Nat) : Res :=
  let f := s.fence k
  if frame ≠ 0 then refuse s Status.badParam 0x0201 k
  else if f.timed ≠ [] ∨ s.cmp.flips.any (fun p => p.any fun x => !x.noFence && x.fence.toNat == k) then
    refuse s Status.notReady 0x0220 k
  else okRes ((s.bump (F.CMP_CNT_COUNT 7)).setFence k { f with visible := v }) [v]

/-- The fences as a command of this tick finds them: where the wingbeat has come already in it, as they stood before (R180). -/
def State.fencesNow (s : State) : List Fence :=
  match s.cmp.gate with
  | some g => if g.tick = s.tick then g.fences else s.cmp.fences
  | none => s.cmp.fences

/-- `FENCE_QUERY`: visible values in ascending fence order. -/
def State.fenceQuery (s : State) (m0 m1 : Word) : Res :=
  okRes s ((bitsOf 64 (m0.toNat + m1.toNat * 2 ^ 32)).map fun k => (s.fencesNow.getD k {}).visible)

/-- `LAYER_FLIP` (R177, R181). -/
def State.layerFlip (s : State) (g : Nat) (f : Flip) : Res :=
  if 9 < g then refuse s Status.badParam Reason.range 0
  else
    let s := if (s.cmp.flips.getD g none).isSome then s.bump (F.CMP_CNT_COUNT 3) else s
    let s := s.setFlip g (some f)
    if f.frame ≠ 0 ∧ s.framePassed f.frame then okRes (s.timedLate 0x22 g f.frame s.tm.nextFrame) else okRes s

/-- Timed signals of frame `n` become visible (R179). -/
def State.showTimed (s : State) (n : Nat) : State :=
  s.updCmp fun c => { c with fences := c.fences.map fun f =>
    { visible := (f.timed.filter fun t => t.1 ≤ n).foldl (fun v t => if v < t.2 then t.2 else v) f.visible,
      timed := f.timed.filter fun t => !(decide (t.1 ≤ n)) } }

/-- Gating of one graphic layer's flip at the wingbeat of frame `n` (R178). -/
def State.gateFlip (s : State) (n g : Nat) : State :=
  let l := 6 + g
  match s.cmp.flips.getD g none with
  | none => s.setFld (F.CMP_LAYER_STAT_LATE_NOW l) 0
  | some f =>
    if n < f.frame then s.setFld (F.CMP_LAYER_STAT_LATE_NOW l) 0
    else if f.noFence ∨ f.wait ≤ (s.fence f.fence.toNat).visible then
      let s := (s.setFld (F.CMP_LAYER_STAT_SHOWN_BUF l) f.buf.toNat).setFlip g none
      (s.setFld (F.CMP_LAYER_STAT_LATE_NOW l) 0).bump (F.CMP_CNT_COUNT 2)
    else
      let s := (s.setFld (F.CMP_LAYER_STAT_LATE l) 1).setFld (F.CMP_LAYER_STAT_LATE_NOW l) 1
      s.bump (F.CMP_LAYER_CNT_LATE_COUNT l)

/-- Selection of every enabled video layer's frame (R155, R183), and what layers hold (R157). -/
def State.selectFrames (s : State) (n : Nat) : State :=
  let selects (v : Nat) : Bool := s.bit (F.CMP_LAYER_CTRL_EN v) && s.ingests
  let s := (List.range 6).foldl (fun (t : State) v =>
    if selects v then
      let (starved, u) := t.selectFor v (t.sclStream v) n
      let now := (u.ing.sel.getD v {}).repeated
      if starved then
        ((u.setFld (F.CMP_LAYER_STAT_STARVED v) 1).setFld (F.CMP_LAYER_STAT_STARVED_NOW v) 1).bump
          (F.CMP_LAYER_CNT_STARVED_COUNT v)
      else if now then u
      else u.setFld (F.CMP_LAYER_STAT_STARVED_NOW v) 0
    else { t with ing := { t.ing with sel := t.ing.sel.modify v fun l => { l with repeated := false } } }) s
  let now := ((List.range 6).filter selects).map fun v => s.ing.sel.getD v {}
  { s with ing := { s.ing with
      held := ((now.filter LayerSel.ever).map fun l => (l.stream, l.buf)).eraseDups } }

/-! ## Flips are gated (R176 to R180) -/

/-- The fields that gating writes beside those of a pending flip. -/
def gateFlds : List Fld :=
  ((List.range 10).flatMap fun g => [F.CMP_LAYER_STAT_SHOWN_BUF (6 + g), F.CMP_LAYER_STAT_LATE (6 + g),
    F.CMP_LAYER_STAT_LATE_NOW (6 + g), F.CMP_LAYER_CNT_LATE_COUNT (6 + g)]) ++ [F.CMP_CNT_COUNT 2]

/-- At the wingbeat of frame `n` timed signals show and flips are gated; every layer is checked for the buffer it shows from
now on (R172, R178, R179). How things stood before is kept for this tick (R180). -/
def State.gateBeat (s : State) (n before : Nat) : State :=
  let g : Gate := ⟨s.tick, n, before, s.cmp.fences, s.cmp.flips, gateFlds.map fun f => (f, s.fld f)⟩
  let s := (s.updCmp fun c => { c with gate := some g }).showTimed n
  let s := (List.range 10).foldl (fun t g => t.gateFlip n g) s
  (List.range 16).foldl (fun (t : State) l => t.setFld (F.CMP_LAYER_STAT_CFG_ERR l) (t.layerErr l (t.shown l))) s

/-- The state as a wingbeat of this tick found fences and flips (R180). -/
def State.ungate (s : State) (g : Gate) : State :=
  let s := (s.updCmp fun c => { c with fences := g.fences }).updTm fun tm => { tm with nextFrame := g.frame, curFrame := g.before }
  let s := (List.zip (List.range 10) g.flips).foldl (fun t e => t.setFlip e.1 e.2) s
  g.flds.foldl (fun t e => t.setFld e.1 e.2) s

/-- A command on fences and flips that takes effect at the tick of a wingbeat counts as before it (R180): where the wingbeat
has come already in this tick, its gating is done again after the command. -/
def State.beforeBeat (s : State) (body : State → Res) : Res :=
  match s.cmp.gate with
  | some g =>
    if g.tick = s.tick then
      match body (s.ungate g) with
      | .done st ws t =>
        .done st ws ((t.gateBeat g.frame g.before).updTm fun tm =>
          { tm with nextFrame := s.tm.nextFrame, curFrame := s.tm.curFrame })
      | r => r
    else body s
  | none => body s

/-! ## A phase image begins (R114, R200, R201) -/

/-- The registers of image (n, p) (R114, R166): those kept for it, with the pending commits up to its instant; a PREPARED
transaction counts once its commit is known. -/
def State.imageRegs (s : State) (p : Nat) : List (Nat × Word) :=
  let base := s.cmp.snaps.getD p s.regs
  let inst := s.beat s.cmp.frame + phaseStartOf base p * nsU
  ((s.pendingBefore inst).filter fun x => x.state = .pending || x.accepted ≠ 0).foldl
    (fun r x => entriesOnRegs x.entries r) base

/-- What a scaler's start window depends on (R201), beside the buffer shown. -/
def State.windowKey (s img : State) (k : Nat) : List Nat × List Word :=
  let sel := s.ing.sel.getD k {}
  let set := img.fld (F.SCL_CTRL_V_SET k)
  ([img.sclStream k, img.fld (F.SCL_CROP_ORG_CX k), img.fld (F.SCL_CROP_ORG_CY k), img.fld (F.SCL_CROP_SIZE_CW k),
    img.fld (F.SCL_CROP_SIZE_CH k), img.fld (F.SCL_OUT_POS_OY k), img.fld (F.SCL_V_INIT_V_INIT k),
    img.fld (F.SCL_V_STEP_V_STEP k), set, sel.stream, sel.buf],
   (List.range 640).map fun w => img.word (F.SCL_COEF_C_LO set w).addr)

/-- Scaler `k` at the beginning of image (n, p). At W(n) every scaler whose layer is visible in some phase loads its start
window; a later image reloads it where a commit has changed what it depends on, or where none was loaded (R200, R201). A
commit that names another stream has its frame selected as of W(n) (DESIGN CHOICE, log entry 56). -/
def State.beginScaler (s img : State) (p k : Nat) : State :=
  let s := if 0 < p ∧ img.bit (F.CMP_LAYER_CTRL_EN k) ∧ img.sclStream k ≠ s.ing.readFrom.getD k 0 ∧ s.ingests then
      let t := (s.selectFor k (img.sclStream k) s.cmp.frame).2
      let l := t.ing.sel.getD k {}
      if l.ever then
        { t with ing := { t.ing with held := (t.ing.held ++ [(l.stream, l.buf)]).eraseDups } }
      else t
    else s
  let works := img.bit (F.SCL_CTRL_EN k) && s.fld (F.SCL_STAT_CFG_ERR k) = 0 && (s.ing.sel.getD k {}).ever
  let key := s.windowKey img k
  let load := works && (if p = 0 then decide (0 < img.layerPhases k) else img.layerIn k p && (s.scaler k).key != key)
  let s := if load then s.loadWindow img k key else s
  if works && img.layerIn k p then s.beginSlots img k else s

/-- Image (n, p) begins: its registers are settled (R114), and the scalers turn to it. DESIGN CHOICE (log entry 56): image
(n, 0) begins at W(n), each later one once the last line of the image before has entered blender 0. -/
def State.beginImage (s : State) (p : Nat) : State :=
  let r := s.imageRegs p
  let s := s.updCmp fun c => { c with img := r, fetched := [], uflow := [] }
  (List.range 6).foldl (fun (t : State) k => t.beginScaler (t.withRegs r) p k) s

/-- The compositor's part of a wingbeat (R162, R172, R175, R178, R179, R183, R189, R200): after the commits of (n, 0). -/
def State.composeBeat (s : State) (n : Nat) : State :=
  if s.role = roleSender then
    let old := s.fld F.CMP_STAT_CFG_ERR
    let err := s.composeErr
    let s := s.setFld F.CMP_STAT_CFG_ERR err
    let s := if err ≠ old then s.log Rec.composeCfg [BitVec.ofNat 8 err, BitVec.ofNat 8 old] else s
    let s := (List.range 6).foldl (fun (t : State) k =>
      let e := t.sclErr k
      let o := t.fld (F.SCL_STAT_CFG_ERR k)
      if e = o then t
      else (t.setFld (F.SCL_STAT_CFG_ERR k) e).log Rec.scaleCfg [BitVec.ofNat 8 k, BitVec.ofNat 8 e, BitVec.ofNat 8 o]) s
    let s := (s.gateBeat n s.tm.curFrame).selectFrames n
    let run := decide ((s.mode = 3 ∨ s.mode = 4) ∧ err = 0)
    let s := s.updCmp fun c => { c with
      running := run, frame := n, start := s.tick, phase := 0, line := 0,
      snaps := List.replicate 4 s.regs, cutFrame := [],
      scalers := c.scalers.map fun x => { x with key := ([], []), window := [] } }
    if run then s.beginImage 0 else s
  else s

/-! ## Graphic surfaces (R168 to R173) -/

/-- Alpha and coefficients that are clamped to [0, 1], NaN as 0 (R167, R169). -/
def clampFp : Fp → Fp
  | .nan => fpZero
  | .inf neg => if neg then fpZero else .fin false 1
  | .fin neg q => if neg then fpZero else if 1 < q then .fin false 1 else .fin false q

def nanZero : Fp → Fp
  | .nan => fpZero
  | x => x

/-- Colour and alpha of a surface pixel from its bytes (R168 to R171). -/
def State.surfPixel (s : State) (n : Nat) (bs : List Byte) : Px × Fp :=
  let w := natLE bs
  let f := s.fld (F.CMP_GL_SURF_FORMAT n)
  let tf : Tf := ⟨s.fld (F.CMP_GL_SURF_TF n), finQ (ofHalf (BitVec.ofNat 16 (s.fld F.CMP_SDR_GAIN_SDR_GAIN))),
    s.fld F.CMP_DECODE_REF_WHITE, s.fld F.CMP_DECODE_HLG_PEAK⟩
  let unit (v b : Nat) : Rat := ((v % 2 ^ b : Nat) : Rat) / ((2 ^ b - 1 : Nat) : Rat)
  let half (i : Nat) : Fp := nanZero (ofHalf (BitVec.ofNat 16 (w / 2 ^ (16 * i))))
  let alpha (v b : Nat) : Fp := ofHalf (nearestHalfQ (unit v b))
  let (px, a) : Px × Fp :=
    match f with
    | 0 => (decodeTf tf (unit w 8) (unit (w / 2 ^ 8) 8) (unit (w / 2 ^ 16) 8), alpha (w / 2 ^ 24) 8)
    | 1 => (decodeTf tf (unit w 8) (unit (w / 2 ^ 8) 8) (unit (w / 2 ^ 16) 8), .fin false 1)
    | 2 => (decodeTf tf (unit w 10) (unit (w / 2 ^ 10) 10) (unit (w / 2 ^ 20) 10), alpha (w / 2 ^ 30) 2)
    | _ => (⟨half 0, half 1, half 2⟩, clampFp (half 3))
  (if s.bit (F.CMP_GL_SURF_PRIM n) then px else toWide px, a)

/-- The part of a line that a graphic layer fetches (R172, R184): address and bytes. -/
def State.glSpan (s : State) (n shown y : Nat) : Nat × Nat :=
  let px := s.fld (F.CMP_GL_POS_X n)
  let py := s.fld (F.CMP_GL_POS_Y n)
  let x0 := max px s.regionX
  let x1 := min (px + s.fld (F.CMP_GL_CROP_SIZE_CW n)) (s.regionX + s.regionW)
  if x0 < x1 ∧ py ≤ y ∧ y < py + s.fld (F.CMP_GL_CROP_SIZE_CH n) then
    let bpp := surfBytes (s.fld (F.CMP_GL_SURF_FORMAT n))
    (s.glBase n shown + (s.fld (F.CMP_GL_CROP_ORG_CY n) + y - py) * s.glStride n +
      (s.fld (F.CMP_GL_CROP_ORG_CX n) + x0 - px) * bpp, (x1 - x0) * bpp)
  else (0, 0)

/-- Bytes of the part of a surface row that graphic layer `n` fetches on a line (R175, R184). -/
def State.rowBytes (s : State) (n : Nat) : Nat :=
  let px := s.fld (F.CMP_GL_POS_X n)
  (min (px + s.fld (F.CMP_GL_CROP_SIZE_CW n)) (s.regionX + s.regionW) - max px s.regionX) *
    surfBytes (s.fld (F.CMP_GL_SURF_FORMAT n))

/-- How many lines ahead a graphic layer requests its bytes (R175). -/
def linesAhead (rowBytes : Nat) : Nat := min 4 (131072 / rowBytes)

/-- The surface bytes of line `l` of the image are requested for layer `n`: read, accounted and kept on die (R173, R175). -/
def State.requestGl (s img : State) (n l : Nat) : State :=
  let y := img.regionY + l
  let (a, b) := img.glSpan n (s.shown n) y
  if l < img.regionH ∧ b ≠ 0 then
    let bpp := surfBytes (img.fld (F.CMP_GL_SURF_FORMAT n))
    let px := (List.range (b / bpp)).map fun i =>
      if (List.range bpp).any fun j => s.lostByte .graphics (a + bpp * i + j) then none
      else some (s.readBytes .graphics (a + bpp * i) bpp)
    let s := (s.bump (F.CMP_CNT_COUNT 5) (s.lostWords .graphics a b)).accountRead .graphics a b
    s.updCmp fun c => { c with
      fetched := c.fetched ++ [⟨n, l, max (img.fld (F.CMP_GL_POS_X n)) img.regionX, px⟩] }
  else s

/-- The requests of graphic layer `n` as line `l` of image (n, p) enters blender 0 (R175): the line k further on. With the
image's first line those before it, which no line of the image precedes, are requested too (DESIGN CHOICE, log entry 56). -/
def State.requestAhead (s img : State) (p l n : Nat) : State :=
  if img.layerIn n p && s.fld (F.CMP_LAYER_STAT_CFG_ERR n) = 0 then
    let k := linesAhead (img.rowBytes n)
    let s := if l = 0 then (List.range k).foldl (fun t j => t.requestGl img n j) s else s
    s.requestGl img n (l + k)
  else s

/-! ## Blending (R164, R167, R174) -/

/-- The enabled layers of phase `p`, from the bottom (R164, R165). -/
def State.stack (s : State) (p : Nat) : List Nat :=
  sortBy (fun a b => decide (s.fld (F.CMP_LAYER_CTRL_Z a) < s.fld (F.CMP_LAYER_CTRL_Z b)))
    ((List.range 16).filter fun n => s.layerIn n p)

/-- One blender (R174): mode, layer alpha g, the layer's colour and alpha, the colour below. -/
def blend (mode : Nat) (g : Fp) (col : Px) (a : Fp) (d : Px) : Px :=
  let one : Fp := .fin false 1
  let each (c dc : Fp) : Fp :=
    let v := mul32 g c
    match mode with
    | 0 => add32 v (mul32 (sub32 one (mul32 g a)) dc)
    | 1 => add32 v dc
    | _ => add32 v (mul32 (sub32 one g) dc)
  (col.zip each d).map saturate

/-- The saturated background (R162). -/
def State.background (s : State) : Px :=
  let h (v : Nat) : Fp := saturate (ofHalf (BitVec.ofNat 16 v))
  ⟨h (s.fld F.CMP_BG_RG_BG_R), h (s.fld F.CMP_BG_RG_BG_G), h (s.fld F.CMP_BG_B_BG_B)⟩

/-- One layer of line `l` of the image, canvas line `y`, as a function of the canvas column: none where it is transparent
(R172, R174). `s` gives what was settled at the wingbeat and what is on die, `img` the image's registers. -/
def State.layerLine (s img : State) (n l y : Nat) : Nat → Option (Px × Fp) :=
  if s.fld (F.CMP_LAYER_STAT_CFG_ERR n) ≠ 0 then fun _ => none
  else if n < 6 then
    let ox := img.fld (F.SCL_OUT_POS_OX n)
    let oy := img.fld (F.SCL_OUT_POS_OY n)
    if img.bit (F.SCL_CTRL_EN n) && s.fld (F.SCL_STAT_CFG_ERR n) = 0 && (s.ing.sel.getD n {}).ever && decide (oy ≤ y) &&
        decide (y < oy + img.fld (F.SCL_OUT_SIZE_OH n)) then
      let out := s.scaledLine img n (y - oy)
      fun x => if ox ≤ x ∧ x < ox + img.fld (F.SCL_OUT_SIZE_OW n) then some (out (x - ox), .fin false 1) else none
    else fun _ => none
  else
    match s.cmp.fetched.find? fun e => e.layer == n && e.line == l with
    | some e => fun x =>
      if e.first ≤ x then (e.px[x - e.first]?).map fun bs => bs.elim (Px.zero, fpZero) (img.surfPixel n) else none
    | none => fun _ => none

/-- Whether a layer fetches for a line: it takes part, is valid and meets the line inside the region (R185). -/
def State.layerFetches (s img : State) (n p y : Nat) : Bool :=
  img.layerIn n p && s.fld (F.CMP_LAYER_STAT_CFG_ERR n) = 0 &&
  (if n < 6 then
    let oy := img.fld (F.SCL_OUT_POS_OY n)
    img.bit (F.SCL_CTRL_EN n) && s.fld (F.SCL_STAT_CFG_ERR n) = 0 && (s.ing.sel.getD n {}).ever && decide (oy ≤ y) &&
      decide (y < oy + img.fld (F.SCL_OUT_SIZE_OH n)) && !(img.outCols n).isEmpty
   else (img.glSpan n (s.shown n) y).2 ≠ 0)

/-- The composite of a line (R174): binary16 bits, one pixel a region column. -/
def State.compositeLine (s img : State) (p l y : Nat) (dark : List Nat) : List (BitVec 16 × BitVec 16 × BitVec 16) :=
  let ls := ((img.stack p).filter fun n => !dark.contains n).map fun n =>
    (img.fld (F.CMP_LAYER_CTRL_BLEND n), clampFp (ofHalf (BitVec.ofNat 16 (img.fld (F.CMP_LAYER_CTRL_ALPHA n)))),
      s.layerLine img n l y)
  (List.range img.regionW).map fun i =>
    let d := ls.foldl (fun (d : Px) (l : Nat × Fp × (Nat → Option (Px × Fp))) =>
      match l.2.2 (img.regionX + i) with
      | some (c, a) => blend l.1 l.2.1 c a d
      | none => d) img.background
    (halfBits d.r, halfBits d.g, halfBits d.b)

/-! ## The entry of a line into blender 0 (R175, R185) -/

/-- A fetch underflow of layer `n` on line `l` of image (n, p) (R185, R202). -/
def State.underflow (s : State) (n p l : Nat) : State :=
  let frame := s.cmp.frame
  let s := (s.bump (F.CMP_CNT_COUNT 4)).setFld (F.CMP_LAYER_STAT_UNDERFLOW n) 1
  let s := if n < 6 then s.bump (F.SCL_CNT_COUNT n 2) else s
  let s := (s.setFld F.CMP_UFLOW_LAST_LAYER n).setFld F.CMP_UFLOW_LAST_PHASE p
  let s := (s.setFld F.CMP_UFLOW_LAST_LINE l).setFld F.CMP_UFLOW_FRAME_FRAME frame
  if s.cmp.uflow.contains n then s
  else (s.updCmp fun c => { c with uflow := n :: c.uflow }).log Rec.cmpUnderflow
    ([BitVec.ofNat 8 n] ++ bytesBE 2 l ++ bytesBE 4 frame) p

/-- What follows the output line of video layer `n` on canvas line `y` (R200, `SCL_CNT`): counts, and slots that become
free. A line that underflows is not filtered. -/
def State.lineFiltered (s img : State) (n y : Nat) (under : Bool) : State :=
  let j := y - img.fld (F.SCL_OUT_POS_OY n)
  let s := if under then s else (s.accountTaps img n j).bump (F.SCL_CNT_COUNT n 1)
  let s := if (img.outLines n).getLast? = some j then s.bump (F.SCL_CNT_COUNT n 0) else s
  s.freeSlots img n j

/-- The next line enters blender 0 (R175): at its tick, in M3 and M4, while the frame is composed. -/
def State.composeLine (s : State) (notOnDie : List (BitVec 4)) : State :=
  let p := s.cmp.phase
  let l := s.cmp.line
  let img := s.withRegs s.cmp.img
  let due := s.cmp.start + 3000 + (p * img.regionH + l) * img.lineTicks
  if s.cmp.running ∧ (s.mode = 3 ∨ s.mode = 4) ∧ s.cmp.frame = s.tm.curFrame ∧ p < img.phases ∧ due ≤ s.tick then
    let s := (List.range 10).foldl (fun (t : State) g => t.requestAhead img p l (6 + g)) s
    let y := img.regionY + l
    let fetching := (List.range 16).filter fun n => s.layerFetches img n p y
    let late (n : Nat) : Bool := decide (n < 6) && !s.lineReady img n (y - img.fld (F.SCL_OUT_POS_OY n))
    let dark := fetching.filter fun n => notOnDie.contains (BitVec.ofNat 4 n) || late n
    let px := s.compositeLine img p l y dark
    let s := fetching.foldl (fun (t : State) n =>
      let u := dark.contains n
      let t := if n < 6 then t.lineFiltered img n y u else t
      if u then t.underflow n p l else t) s
    let lastLine := decide (img.regionH ≤ l + 1)
    let lastPhase := lastLine && decide (img.phases ≤ p + 1)
    let s := if lastLine then s.bump (F.CMP_CNT_COUNT 1) else s
    let s := if lastPhase then s.bump (F.CMP_CNT_COUNT 0) else s
    let bad := (List.range 512).filter fun e => bitOf (s.fld (F.MAP_ENT_BAD_BAD (e / 32))) (e % 32)
    let s := s.updCmp fun c => { c with
      inFlight := c.inFlight ++ [⟨c.frame, p, l, s.tick + 112, img.regs, bad, px⟩],
      phase := if lastLine then p + 1 else p, line := if lastLine then 0 else l + 1,
      fetched := c.fetched.filter fun e => decide (l < e.line),
      running := !lastPhase }
    if lastLine && !lastPhase then s.beginImage (p + 1) else s
  else s

/-- A commit that applies at instant `t` governs the images of the frame from it onward (R114, R166). -/
def State.snapImages (s : State) (t : Nat) : State :=
  let snap (p : Nat) : List (Nat × Word) :=
    let old := s.cmp.snaps.getD p s.regs
    if t ≤ s.beat s.cmp.frame + phaseStartOf old p * nsU then s.regs else old
  s.updCmp fun c => { c with snaps := (List.range 4).map snap }

/-- Planned read demand of a graphic layer in bytes a second, times the grid's denominator cleared (R184): the value
times `FRAME_NUM` / `FRAME_DEN`. -/
def State.glDemand (s : State) (n : Nat) : Nat :=
  let e := s.layerErr n 0
  let px := s.fld (F.CMP_GL_POS_X n)
  let py := s.fld (F.CMP_GL_POS_Y n)
  let w := min (px + s.fld (F.CMP_GL_CROP_SIZE_CW n)) (s.regionX + s.regionW) - max px s.regionX
  let h := min (py + s.fld (F.CMP_GL_CROP_SIZE_CH n)) (s.regionY + s.regionH) - max py s.regionY
  if ¬ s.bit (F.CMP_LAYER_CTRL_EN n) ∨ e = 1 ∨ e = 2 ∨ w = 0 ∨ h = 0 then 0
  else h * 64 * (ceilDiv (w * surfBytes (s.fld (F.CMP_GL_SURF_FORMAT n))) 64 + 1) * s.layerPhases n

/-- The same for video layer `k` (R204). -/
def State.vlDemand (s : State) (k : Nat) : Nat :=
  if ¬ s.bit (F.CMP_LAYER_CTRL_EN k) ∨ ¬ s.bit (F.SCL_CTRL_EN k) ∨ s.sclErr k ≠ 0 ∨
      (s.outLines k).isEmpty ∨ (s.outCols k).isEmpty then 0
  else
    let g := s.group (s.sclStream k)
    s.fld (F.SCL_CROP_SIZE_CH k) * 64 * (ceilDiv (s.fld (F.SCL_CROP_SIZE_CW k) / g.1 * g.2) 64 + 1) * s.layerPhases k

/-- The demand of all sixteen layers. -/
def State.dramDemand (s : State) : Nat :=
  ((List.range 6).map s.vlDemand).sum + (((List.range 10).map fun g => s.glDemand (6 + g))).sum

end Sys2Proof.Machine
end

