-- ==== Sys2Proof/Machine/Sources.lean ====
section
/-! DEFINITION. The sources of a tile (R341, R343, R345, R347): which is in use, its run, changes of it. -/

namespace Sys2Proof.Machine

open Sys2Proof

def State.updRed (s : State) (f : RedSt → RedSt) : State := { s with red := f s.red }

/-- The source in use. -/
def State.using' (s : State) : Nat := s.fld F.RED_TILE_STAT_USING

/-- Whether a tile has two sources (R341), by the value of `RED_TILE_SRC` that governs the image last chosen. -/
def State.twoSources (s : State) : Bool := F.RED_TILE_SRC_SRC1.get s.red.src ≠ 0

/-- The fabric address of a source. -/
def State.sourceAddr (s : State) (k : Nat) : Nat :=
  (if k = 0 then F.RED_TILE_SRC_SRC0 else F.RED_TILE_SRC_SRC1).get s.red.src

def State.redRun (s : State) (k : Nat) : Nat := s.red.run.getD k 0

/-- Whether a source is eligible: not in use, with a run of 8 (R343). -/
def State.eligible (s : State) (k : Nat) : Bool := s.twoSources && s.using' != k && s.redRun k == 8

/-- The eligibility bits follow the runs. -/
def State.redBits (s : State) : State :=
  (s.setBit F.RED_TILE_STAT_ELIG0 (s.eligible 0)).setBit F.RED_TILE_STAT_ELIG1 (s.eligible 1)

/-- Another source comes into use; the run of the source it leaves is 0, and that of the source in use is held at 0
(R343, R346). -/
def State.takeSource (s : State) (k : Nat) : State :=
  ((s.setFld F.RED_TILE_STAT_USING k).updRed fun r => { r with run := [0, 0], switchDue := none, lossSeen := false }).redBits

/-- A commanded switch takes effect (R347); a tile with one source never switches (R341). -/
def State.commandSource (s : State) (sel : Nat) : State :=
  if s.using' = sel ∨ ¬ s.twoSources then s
  else
    let ok := s.eligible sel
    let run := s.redRun sel
    let s := (s.takeSource sel).bump (F.RED_CNT_COUNT 7)
    if ok then s else s.log Rec.switchUneligible [BitVec.ofNat 8 sel, BitVec.ofNat 8 run]

/-- `RED_TILE_SRC` has changed (R341, R342). -/
def State.newSources (s : State) (w : Word) : State :=
  ((s.setFld F.RED_TILE_STAT_USING 0).updRed fun r => { r with
    src := w, run := [0, 0], matched := true, switchDue := none, lossSeen := false,
    compared := 0, differed := false, missedBy := [false, false] }).redBits

/-- A change of the source in use by a commit. -/
def State.sourceChange (s : State) (c : SrcChange) : State :=
  match c with
  | .sel k => s.commandSource k
  | .srcs w => s.newSources w

/-- As a tile leaves M5, the changes of sources that wait for their images take effect, oldest first: outside M5 a commit's
change needs no image (DEDUCED, log entry 24). -/
def State.settleSources (s : State) : State :=
  let due := s.red.changes
  due.foldl (fun (t : State) c => t.sourceChange c.2.2) (s.updRed fun r => { r with changes := [] })

/-- The port on which the most recent raster cell of the source in use arrived (R345). -/
def State.sourcePort (s : State) : Option (BitVec 2) :=
  (s.red.arrival.find? fun e => e.1.toNat == s.sourceAddr s.using').map Prod.snd

/-- A raster cell from `src` has arrived on port `q` (R345): a tile has two sources, and a change of them brings two more. -/
def State.noteArrival (s : State) (src : BitVec 16) (q : BitVec 2) : State :=
  let mine := s.sourceAddr s.using' == src.toNat
  s.updRed fun r => { r with
    arrival := ((src, q) :: r.arrival.filter fun e => e.1 != src).take 4, lossSeen := r.lossSeen && !mine }

end Sys2Proof.Machine
end

