-- ==== Sys2Proof/Machine/Lcr.lean ====
section
/-! DEFINITION. Per-lamp correction on a tile (spec/11): slice images, correction table images and their checks, the
correction of a pixel, lamp-image buffers. -/

namespace Sys2Proof.Machine

open Sys2Proof

def State.updTile (s : State) (f : TileSt → TileSt) : State := { s with tile := f s.tile }

/-! Reason codes of spec/11 (R298). -/

namespace Reason
def ctiLive : Nat := 0x0600
def ctiBusy : Nat := 0x0601
def ctiHeader : Nat := 0x0610
def ctiCrc : Nat := 0x0611
def ctiParams : Nat := 0x0612
def ctiMatrix : Nat := 0x0613
def ctiCurve : Nat := 0x0614
def ctiMap : Nat := 0x0615
def ctiPoison : Nat := 0x0616
end Reason

/-- Image order: (n, p) lies before (m, q). -/
def imgLt (n p m q : Nat) : Bool := decide (n < m) || (n == m && decide (p < q))

/-- The registers of target (n, p): every commit whose target is at or before it, as known now (R57, R114). A commit whose
target lies more than 8 frames ahead of an image is no later one, but one before a change of the grid numbered frames
anew. -/
def State.regsAt (s : State) (n p : Nat) : List (Nat × Word) :=
  match s.tile.hist.reverse.find? fun h => imgLt n p h.1 h.2.1 && decide (h.1 ≤ n + 8) with
  | some h => h.2.2
  | none =>
    (s.pendingTxns.filter fun x => (x.state = .pending || x.accepted ≠ 0) && !imgLt n p x.frame x.phase).foldl
      (fun r x => entriesOnRegs x.entries r) s.regs

/-- The registers that govern image (n, p) (R114): once its processing has begun, those it began with, whatever commit
entries come later. -/
def State.governing (s : State) (n p : Nat) : List (Nat × Word) :=
  match s.tile.begun.find? fun h => h.1 == n && h.2.1 == p with
  | some h => h.2.2
  | none => s.regsAt n p

/-- The tile's processing of image (n, p) begins, with its first raster cell accepted or at its Tc (R114; log entry 68). -/
def State.beginSlice (s : State) (n p : Nat) : State :=
  if s.tile.begun.any fun h => h.1 == n && h.2.1 == p then s
  else
    let regs := s.regsAt n p
    s.updTile fun t => { t with begun := (n, p, regs) :: t.begun.filter fun h => decide (n ≤ h.1 + 8) }

/-- A commit with target (n, p) is about to apply: the registers before it are kept for the images before it. -/
def State.keepHist (s : State) (n p : Nat) : State :=
  s.updTile fun t => { t with hist := (n, p, s.regs) :: t.hist.filter fun h => decide (n ≤ h.1 + 8) }

/-- The registers whose phase layout governs the latch of image (n, p): it falls in frame n + D, and every commit whose
target wingbeat is not after it counts (R57). -/
def State.latchRegs (s : State) (n p : Nat) : List (Nat × Word) := s.regsAt (n + delayOf (s.regsAt n p)) 0

/-- `LIT_NS` of image (n, p) (R57, R67). -/
def State.litNs (s : State) (n p : Nat) : Nat := litOf (s.latchRegs n p) p

/-- T_latch(n, p) (R66), as a local time: registers of the TIME block follow R57, not the image (R114). -/
def State.tLatch (s : State) (n p : Nat) : Int := latchIn (s.regsAt n p) (s.latchRegs n p) n p

/-- The instant at which the latch of (n, p) applies: T_latch, placed on the nearest tick (R66). -/
def State.tApply (s : State) (n p : Nat) : Int := s.onTick (s.tLatch n p)

/-- Tc(n, p) (R280). -/
def State.tCorrect (s : State) (n p : Nat) : Int :=
  s.tLatch n p - (usU (rfld (s.governing n p) F.LCR_CFG_LEAD_US) : Int)

/-- T_load(n, p) (R317). -/
def State.tLoad (s : State) (n p : Nat) : Int :=
  s.tLatch n p - (usU (rfld (s.governing n p) F.LDR_CFG_LOAD_US) : Int)

/-- Whether local time stands at or past a local time that may lie before 0, by the nearest tick (R54). -/
def State.at_ (s : State) (t : Int) : Bool := s.nearest t.toNat

def State.tbl (s : State) (t : Nat) : TblSt := s.tile.tables.getD t {}

/-- The table slot in force. -/
def State.tblNow (s : State) : Nat := s.fld F.LCR_CFG_TABLE

/-- The table in force, empty while its slot is not valid. -/
def State.tblForce (s : State) : TblSt := if s.tblValid s.tblNow then s.tbl s.tblNow else {}

/-- Whether a table slot is selected: the live or the shadow copy of `LCR_CFG.TABLE` names it (R291). -/
def State.tblSelected (s : State) (t : Nat) : Bool :=
  s.tblNow == t || F.LCR_CFG_TABLE.get (s.shadowWord F.LCR_CFG_TABLE.addr) == t

/-- The operation slot that runs a `TABLE_LOAD` or `TABLE_VERIFY`. -/
def State.tblOp (s : State) : Option (Nat × OpSlot) :=
  ((List.range 16).map fun k => (k, s.cmd.ops.getD k {})).find? fun o =>
    o.2.st = 1 && match o.2.kind with
      | .tableLoad .. | .tableVerify _ => true
      | _ => false

/-- The table slot under `TABLE_LOAD`, with the bytes of its new image. -/
def State.tblLoading (s : State) : Option (Nat × Nat) :=
  match s.tblOp with
  | some (_, o) => match o.kind with
    | .tableLoad t _ _ n => some (t.toNat, n)
    | _ => none
  | none => none

/-- The table slot that a host write of `n` bytes at `a` may not touch (R291): selected or under `TABLE_LOAD`. -/
def State.tblLocked (s : State) (a n : Nat) : Option Nat :=
  [0, 1].find? fun t =>
    let meets (m : Nat) : Bool := overlaps a n (s.tblBase t) m
    (s.tblSelected t && s.tblValid t && meets (s.tblSize t)) ||
      (s.tblLoading.any fun l => l.1 == t && meets l.2)

/-! ## Slices (R276 to R279) -/

/-- What a raster payload holds (R214). -/
structure RasterIn where
  frame : Nat
  format : Nat
  dir : Nat
  p : Nat
  phases1 : Nat
  sig : Bool
  sw : Nat
  sh : Nat
  start : Nat
  count : Nat
  cell : Nat
  data : List Byte
deriving DecidableEq, Repr

def parseRaster (bs : List Byte) : RasterIn :=
  let c := fieldBE bs 4 1
  { frame := fieldBE bs 0 4, format := c / 64, dir := c / 16 % 4, p := c / 4 % 4, phases1 := c % 4,
    sig := bitOf (fieldBE bs 5 1) 0, sw := fieldBE bs 6 2, sh := fieldBE bs 8 2, start := fieldBE bs 10 3,
    count := fieldBE bs 13 1, cell := fieldBE bs 14 2, data := bs.drop 16 }

/-- The frame with low bits `f` nearest to the current frame (R276). -/
def State.nearFrame (s : State) (f : Nat) : Int :=
  let m := s.tm.curFrame
  (m : Int) + sext 32 ((f + 2 ^ 32 - m % 2 ^ 32) % 2 ^ 32)

/-- Slice index of the k-th pixel of a cell (R212). -/
def RasterIn.pixel (r : RasterIn) (k : Nat) : Int :=
  match r.dir with
  | 0 => (r.start : Int) + k
  | 1 => (r.start : Int) - k
  | 2 => (r.start : Int) + (k * r.sw : Nat)
  | _ => (r.start : Int) - (k * r.sw : Nat)

/-- The first row of R277 that a cell fails; 0 for none. -/
def RasterIn.row (r : RasterIn) (len : Nat) (g : TblSt) (phases : Nat) (first : Option Nat) : Nat :=
  let n := g.sw * g.sh
  let bits := if r.format = 0 then 36 else 48
  if 2 ≤ r.format ∨ first.any fun f => f != r.format then 1
  else if r.sw ≠ g.sw ∨ r.sh ≠ g.sh then 2
  else if r.phases1 + 1 ≠ phases ∨ phases ≤ r.p then 3
  else if r.sig then (if len = 20 ∧ r.start = n ∧ r.count = 0 then 0 else 4)
  else if r.count = 0 ∨ (if r.format = 0 then 224 else 168) < r.count ∨ len ≠ 16 + ceilDiv (r.count * bits) 8 then 5
  else
    let lo := r.pixel 0
    let hi := r.pixel (r.count - 1)
    if lo < 0 ∨ hi < 0 ∨ (n : Int) ≤ lo ∨ (n : Int) ≤ hi then 6
    else if r.dir ≤ 1 ∧ lo.toNat / max g.sw 1 ≠ hi.toNat / max g.sw 1 then 6
    else 0

/-- The six bytes a pixel takes in a slot (R278). -/
def RasterIn.slotBytes (r : RasterIn) (k : Nat) : List Byte :=
  if r.format = 0 then
    let bit := 36 * k
    let v := natBE (slice r.data (bit / 8) 5) / 2 ^ (4 - bit % 8) % 2 ^ 36
    bytesLE 2 (v / 2 ^ 24) ++ bytesLE 2 (v / 2 ^ 12 % 4096) ++ bytesLE 2 (v % 4096)
  else
    let b := slice r.data (6 * k) 6
    bytesLE 2 (fieldBE b 0 2) ++ bytesLE 2 (fieldBE b 2 2) ++ bytesLE 2 (fieldBE b 4 2)

/-- Address of a slot of the slice store for image (n, p) (R278). -/
def State.sliceAddr (s : State) (n p slot : Nat) : Nat :=
  rfld (s.governing n p) F.LCR_SLICE_BASE_BASE_4K * 4096 + slot * 0x200000

def SliceImg.is (g : SliceImg) (src n p : Nat) : Bool := g.src == src && g.frame == n && g.phase == p

def State.sliceImg (s : State) (src n p : Nat) : Option SliceImg := s.tile.imgs.find? fun g => g.is src n p

def State.setSlice (s : State) (g : SliceImg) : State :=
  s.updTile fun t => { t with imgs := t.imgs.filter (fun h => !h.is g.src g.frame g.phase) ++ [g] }

/-- A slot for a new image of a source: a free one, else that of the image whose Tc is earliest and past (R278). -/
def State.takeSlot (s : State) (src : Nat) : Option Nat × State :=
  let own := s.tile.imgs.filter fun g => g.src == src && g.slot.isSome
  match (List.range 16).find? fun k => !own.any fun g => g.slot == some (16 * src + k) with
  | some k => (some (16 * src + k), s)
  | none =>
    let past := (own.map fun g => (s.tCorrect g.frame g.phase, g)).filter fun e => s.at_ e.1
    match sortBy (fun a b => decide (a.1 < b.1)) past with
    | e :: _ => (e.2.slot, s.updTile fun t => { t with imgs := t.imgs.filter fun h => !h.is e.2.src e.2.frame e.2.phase })
    | [] => (none, s)

/-- The fabric address of a source of image (n, p) (R341). -/
def State.imgSource (s : State) (src n p : Nat) : Nat :=
  rfld (s.governing n p) (if src = 0 then F.RED_TILE_SRC_SRC0 else F.RED_TILE_SRC_SRC1)

/-- The image's state once a cell has been added: complete, or failed by its signature (R279). -/
def State.judgeSlice (s : State) (g : SliceImg) (n : Nat) : State :=
  match g.sig with
  | some (crc, k) =>
    let cs := g.cells.filter fun c => decide (c.1 < k)
    if g.complete ∨ g.failed ∨ cs.length ≠ k ∨ (cs.map fun c => c.2.1).sum ≠ n then s.setSlice g
    else if crc32c (cs.flatMap fun c => c.2.2) = crc then
      (s.setSlice { g with complete := true }).bump (F.LCR_CNT_COUNT 5)
    else
      ((s.setSlice { g with failed := true }).bump (F.LCR_CNT_COUNT 6)).log Rec.sliceSignature
        (bytesBE 2 (s.imgSource g.src g.frame g.phase) ++ bytesBE 4 g.frame ++
          wordBytes crc) g.phase
  | none => s.setSlice g

/-- The source of a cell under a register file (R341). -/
def sourceOf (regs : List (Nat × Word)) (a : BitVec 16) : Option Nat :=
  if a = 0 then none
  else if rfld regs F.RED_TILE_SRC_SRC0 = a.toNat then some 0
  else if rfld regs F.RED_TILE_SRC_SRC1 = a.toNat then some 1
  else none

/-- A raster cell delivered on a tile (R276 to R279, R341); `q` is its port of arrival. -/
def State.rasterIn (s : State) (q : BitVec 2) (c : Cell) : State :=
  if s.role ≠ roleTile ∨ s.mode ≠ 5 then s
  else
    let r := parseRaster (c.payload.take c.len.toNat)
    let n' := s.nearFrame r.frame
    let n := n'.toNat
    let regs := s.governing n r.p
    match sourceOf regs c.src with
    | none => s.bump (F.LCR_CNT_COUNT 4)
    | some src =>
      let s := s.noteArrival c.src q
      if n' < 0 ∨ s.tm.curFrame + 1 < n ∨
          s.tLatch n r.p ≤ ((s.clk + usU (rfld regs F.LCR_CFG_LEAD_US) : Nat) : Int) then
        s.bump (F.LCR_CNT_COUNT 2)
      else
        let s := (s.bump (F.LCR_CNT_COUNT 0)).beginSlice n r.p
        let g := (s.sliceImg src n r.p).getD { src := src, frame := n, phase := r.p, format := some r.format }
        let t := rfld regs F.LCR_CFG_TABLE
        let h := if s.tblValid t then s.tbl t else {}
        let row := r.row c.len.toNat h (phasesOf regs) g.format
        if row ≠ 0 then
          let s := s.bump (F.LCR_CNT_COUNT 1)
          if g.geometry then s.setSlice g
          else (s.setSlice { g with geometry := true }).log Rec.cellGeometry
            (bytesBE 2 c.src.toNat ++ bytesBE 4 n ++ [BitVec.ofNat 8 row]) r.p
        else
          let (slot, s) : Option Nat × State := if g.slot.isSome ∨ g.noSlot then (g.slot, s) else s.takeSlot src
          match slot with
          | none => (s.setSlice { g with noSlot := true }).bump (F.LCR_CNT_COUNT 2)
          | some k =>
            let g := { g with slot := some k }
            if (g.cells.any fun e => e.1 == r.cell) ∨ g.sig.any fun e => e.2 == r.cell then
              (s.setSlice g).bump (F.LCR_CNT_COUNT 3)
            else if r.sig then s.judgeSlice { g with sig := some (BitVec.ofNat 32 (fieldBE r.data 0 4), r.cell) } (h.sw * h.sh)
            else
              let base := s.sliceAddr n r.p k
              let at_ (i : Nat) : Nat := base + 6 * (r.pixel i).toNat
              let s := (List.range r.count).foldl (fun (u : State) i => u.putBytes .slices (at_ i) (r.slotBytes i)) s
              let s := s.serveBytes .slices ((List.range r.count).flatMap fun i => [at_ i, at_ i + 5])
              s.judgeSlice { g with
                cells := insertBy (fun a b => decide (a.1 < b.1)) (r.cell, r.count, r.data) g.cells } (h.sw * h.sh)

/-! ## Arithmetic of a lamp (R282 to R286) -/

/-- The binary32 value nearest 2^((c - 3072)/256) for a LOG36 code c from 1 (R283): its 24-bit significand M is the
greatest with (2M - 1)^256 at or below 2^(24 * 256 + f). -/
def log36Value (c : Nat) : Fp :=
  if c = 0 then fpZero
  else
    let k : Int := (c : Int) - 3072
    let e := k / 256
    let f := (k % 256).toNat
    let m := ((List.range 24).map fun i => 2 ^ (23 - i)).foldl (fun m d =>
      if (2 * (m + d) - 1) ^ 256 ≤ 2 ^ (24 * 256 + f) then m + d else m) 0
    .fin false ((m : Rat) * pow2 (e - 23))

/-- A LIN48 component (R283). -/
def lin48Value (v : Nat) : Fp :=
  match ofHalf (BitVec.ofNat 16 v) with
  | .nan => fpZero
  | .inf neg => if neg then fpZero else .fin false 65504
  | .fin neg q => if neg then fpZero else .fin false q

/-- A factor clamped to [0, 1], NaN as 0. -/
def unitFp : Fp → Fp
  | .nan => fpZero
  | .inf neg => if neg then fpZero else .fin false 1
  | .fin neg q => if neg then fpZero else if 1 < q then .fin false 1 else .fin false q

def halfFp (b : BitVec 16) : Fp := ofHalf b

/-- The matrix of a pixel for its band key (R284): nine elements. -/
def bandMatrix (h : TblSt) (bands : List (List Fp)) (yk : Fp) : List Fp :=
  let e (i : Nat) : Fp := halfFp (h.edges.getD (i - 1) 0)
  let one : Fp := .fin false 1
  let z := halfFp h.z
  let lo (i : Nat) : Fp := mul32 (e i) (sub32 one z)
  let hi (i : Nat) : Fp := mul32 (e i) (add32 one z)
  let m (b : Nat) : List Fp := bands.getD b []
  let i := [1, 2, 3].foldl (fun i j => if le32 (lo j) yk then j else i) 0
  if 1 ≤ i ∧ lt32 yk (hi i) = true then
    let w := div32 (sub32 yk (lo i)) (sub32 (hi i) (lo i))
    List.zipWith (fun a b => add32 a (mul32 w (sub32 b a))) (m (i - 1)) (m i)
  else m i

/-- Negative values and NaN as 0 (R285). -/
def lightFp : Fp → Fp
  | .nan => fpZero
  | .inf neg => if neg then fpZero else .inf false
  | .fin neg q => if neg then fpZero else .fin false q

/-- The code of a lamp for light y on its curve (R286), and whether q is at or above 1. -/
def curveCode (peak : BitVec 16) (cs : List Nat) (y : Fp) : Nat × Bool :=
  let c (j : Nat) : Nat := cs.getD j 0
  let q := div32 y (halfFp peak)
  let one : Fp := .fin false 1
  if le32 one q then (c 16, true)
  else
    let v := finQ q
    let (j, t) : Nat × Fp :=
      if v < pow2 (-15) then (0, mul32 q (f32 (pow2 15)))
      else
        let j := (16 + log2Q v).toNat
        (j, sub32 (mul32 q (f32 (pow2 ((16 : Int) - j)))) one)
    let x := finQ (add32 (f32 (c j)) (mul32 (f32 ((c (j + 1) : Int) - (c j : Int) : Int)) t))
    let r := (divRound x.num x.den).toNat
    (max (c j) (min r (c (j + 1))), false)

/-- The identity matrix (R288). -/
def identity3 : List Fp := [1, 0, 0, 0, 1, 0, 0, 0, 1].map fun (v : Nat) => .fin false v

/-- The three lights of a pixel (R284, R285): drive factor k, the bands, the decoded pixel. -/
def pixelLights (h : TblSt) (bands : List (List Fp)) (k : Fp) (p : Px) : List Fp :=
  let y := add32 (add32 (mul32 (f32 (2627 / 10000)) p.r) (mul32 (f32 (6780 / 10000)) p.g)) (mul32 (f32 (593 / 10000)) p.b)
  let m := bandMatrix h bands (mul32 y k)
  (List.range 3).map fun r =>
    let e (c : Nat) : Fp := m.getD (3 * r + c) fpZero
    lightFp (mul32 (add32 (add32 (mul32 (e 0) p.r) (mul32 (e 1) p.g)) (mul32 (e 2) p.b)) k)

/-! ## A lamp-map word (R290) -/

def mapChain (w : Nat) : Nat := w % 128
def mapEn (w : Nat) : Bool := bitOf w 7
def mapDriver (w : Nat) : Nat := w / 2 ^ 8 % 64
def mapChannel (w : Nat) : Nat := w / 2 ^ 16 % 64
def mapRow (w : Nat) : Nat := w / 2 ^ 24 % 16
def mapGroup (w : Nat) : Nat := w / 2 ^ 28 % 16

/-- Position of a lamp on its driver: 64 w + h (R287). -/
def mapPos (w : Nat) : Nat := 64 * mapRow w + mapChannel w

/-- Key of a lamp's driver. -/
def mapKey (w : Nat) : Nat := 64 * mapChain w + mapDriver w

/-- The share length of driver d on chain c (R287). -/
def TblSt.share (h : TblSt) (c d : Nat) : Nat := ((h.shares.find? fun e => e.1 == 64 * c + d).map Prod.snd).getD 0

/-- `DRIVERS` of a chain. -/
def TblSt.drivers (h : TblSt) (c : Nat) : Nat :=
  ((h.shares.filter fun e => e.1 / 64 == c).map fun e => e.1 % 64 + 1).foldl max 0

/-- `WORDS` of a chain. -/
def TblSt.words (h : TblSt) (c : Nat) : Nat := ((h.shares.filter fun e => e.1 / 64 == c).map Prod.snd).sum

/-- S(c, d): the share lengths of drivers 0 to d - 1 (R287). -/
def TblSt.offset (h : TblSt) (c d : Nat) : Nat :=
  ((h.shares.filter fun e => e.1 / 64 == c && decide (e.1 % 64 < d)).map Prod.snd).sum

/-! ## Correcting an image (R280 to R288) -/

/-- Lamp-image buffer `k` (R287): its first bank, by the `IMG_BANK` that governs the image in it (R114), and its base. -/
def State.imgBank (s : State) (k : Nat) : Nat := s.tile.banks.getD k 0 + 4 * k

def State.imgBase (s : State) (k : Nat) : Nat := bankBase (s.imgBank k)

/-- Zero-fill of a lamp-image buffer (R280); scrub write-backs of its words are dropped (R369). -/
def State.zeroBuf (s : State) (k : Nat) : State :=
  (List.range 4).foldl (fun (t : State) i =>
    let a := bankBase (t.imgBank k + i)
    if t.mayAccess .correction a then
      let gone := t.memc.scrubBack.filter fun e => decide (a ≤ e.word ∧ e.word < a + 0x80000)
      (t.bump (F.MEM_SP_CNT_COUNT 5) gone.length).eraseRange a 0x80000
    else t) s

/-- Whether a bank of a buffer, of which `b` is the first, still serves its old owner (R372). -/
def State.bufDrains (s : State) (b : Nat) : Bool := (List.range 4).any fun i => s.bankDrains (b + i)

/-- An affected lamp or pixel of a poisoned record (R288): reported once a table selection, at most 64. -/
def State.corrPoison (s : State) (kind pixel comp sw : Nat) (pos : Option Nat) : State :=
  if 64 ≤ s.tile.poisons.length ∨ s.tile.poisons.contains (kind, pixel, comp) then s
  else
    let s := s.updTile fun t => { t with poisons := (kind, pixel, comp) :: t.poisons }
    let w := pos.getD 0
    let s := s.setFld F.LCR_POISON_LAMP_CHAIN (mapChain w)
    let s := s.setBit F.LCR_POISON_LAMP_PLACED pos.isSome
    let s := s.setFld F.LCR_POISON_LAMP_DRIVER (mapDriver w)
    let s := s.setFld F.LCR_POISON_LAMP_CHANNEL (mapChannel w)
    let s := s.setFld F.LCR_POISON_LAMP_ROW (mapRow w)
    let s := s.setFld F.LCR_POISON_PIX_PIXEL pixel
    let s := s.setFld F.LCR_POISON_PIX_COMP comp
    let s := s.setFld F.LCR_POISON_PIX_KIND kind
    s.log Rec.corrPoison ([BitVec.ofNat 8 kind] ++ bytesBE 2 (pixel % max sw 1) ++ bytesBE 2 (pixel / max sw 1) ++
      [BitVec.ofNat 8 comp] ++ bytesBE 4 (pos.getD 0xFFFFFFFF))

/-- What the correction of one pixel gives: codes with their word in the buffer, whether a lamp stands at or above
`PEAK`, poisoned records as kind, component and map word. -/
structure PixOut where
  codes : List (Nat × Nat)
  atPeak : Bool
  notes : List (Nat × Nat × Option Nat)
deriving DecidableEq, Repr

/-- The correction of pixel i (R283 to R288): slot and table addresses, the words lost in them, b, F and D by group. -/
def State.correctPixel (s : State) (h : TblSt) (slot tbl format : Nat) (lost : List Nat) (b : Fp)
    (fade derate : List (BitVec 16)) (i : Nat) : PixOut :=
  let n := h.sw * h.sh
  let hit (a m : Nat) : Bool := lost.any fun w => decide (w < a + m) && decide (a < w + 8)
  let sa := slot + 6 * i
  let ma := tbl + 256 + 72 * i
  let ca (c : Nat) : Nat := tbl + 256 + 72 * n + 36 * (3 * i + c)
  let la (c : Nat) : Nat := tbl + 256 + 180 * n + 4 * (3 * i + c)
  let pos (c : Nat) : Option Nat := if hit (la c) 4 then none else some (natLE (s.readBytes .correction (la c) 4))
  let g := ((([0, 1, 2].filterMap pos).head?).map mapGroup).getD 0
  let px : Px :=
    if hit sa 6 then Px.zero
    else
      let bs := s.readBytes .correction sa 6
      let v (c : Nat) : Fp :=
        let w := fieldLE bs (2 * c) 2
        if format = 0 then log36Value (w % 4096) else lin48Value w
      ⟨v 0, v 1, v 2⟩
  let bands : List (List Fp) :=
    if hit ma 72 then List.replicate 4 identity3
    else (List.range 4).map fun k => (List.range 9).map fun e =>
      halfFp (BitVec.ofNat 16 (natLE (s.readBytes .correction (ma + 18 * k + 2 * e) 2)))
  let k := mul32 (mul32 b (halfFp (fade.getD g 0))) (halfFp (derate.getD g 0))
  let ys := pixelLights h bands k px
  let lamps := (List.range 3).map fun c =>
    let cs := if hit (ca c) 36 then h.nominal.getD c []
      else (List.range 17).map fun j => natLE (s.readBytes .correction (ca c + 2 * j) 2)
    curveCode h.peak cs (ys.getD c fpZero)
  { codes := (List.range 3).filterMap fun c =>
      match pos c with
      | some w => if mapEn w then
          some (8192 * mapChain w + h.offset (mapChain w) (mapDriver w) + mapPos w, (lamps.getD c (0, false)).1)
        else none
      | none => none
    atPeak := lamps.any Prod.snd
    notes := (if hit sa 6 then [(1, 3, pos 0)] else []) ++ (if hit ma 72 then [(2, 3, pos 0)] else []) ++
      ((List.range 3).filter fun c => hit (ca c) 36).map (fun c => (3, c, pos c)) ++
      ((List.range 3).filter fun c => hit (la c) 4).map fun c => (4, c, none) }

/-- The lamp image of a job, written into its buffer (R280 to R288). -/
def State.correctImage (s : State) (j : Job) (k : Nat) : State :=
  let regs := s.governing j.frame j.phase
  let t := rfld regs F.LCR_CFG_TABLE
  let h := s.tbl t
  let n := h.sw * h.sh
  let slot := s.sliceAddr j.frame j.phase j.slot
  let tbl := s.tblBase t
  let lostOf (a m : Nat) : List Nat := (s.markedWords a m).filter fun w => (s.readWord .correction w).lost
  let lost := lostOf slot (6 * n) ++ lostOf (tbl + 256) (192 * n)
  let b := unitFp (halfFp (BitVec.ofNat 16 (rfld regs F.LCR_BRIGHT_BRIGHT)))
  let outs := (List.range n).map fun i => (i, s.correctPixel h slot tbl j.format lost b j.fade j.derate i)
  let s := (s.accountRead .correction slot (6 * n)).accountRead .correction (tbl + 256) (192 * n)
  let s := s.bump (F.LCR_CNT_COUNT 10) lost.length
  let s := s.zeroBuf k
  let s := outs.foldl (fun (u : State) o =>
    let u := o.2.codes.foldl (fun (v : State) c => v.writeBytes .correction (v.imgBase k + 2 * c.1) (bytesLE 2 c.2)) u
    o.2.notes.foldl (fun (v : State) e => v.corrPoison e.1 o.1 e.2.1 h.sw e.2.2) u) s
  if outs.any fun o => o.2.atPeak then s.bump (F.LCR_CNT_COUNT 11) else s

/-- Step 1 of R280: the oldest waiting job takes a free buffer while none is being built, once its banks serve no old owner
(R372). Nothing is corrected while `CFG_ERR` is not NONE (R296). -/
def State.startJob (s : State) : State :=
  if s.tile.bufs.contains .building ∨ s.fld F.LCR_STAT_CFG_ERR ≠ 0 then s
  else
    match s.tile.jobs.head?, (List.range 3).find? fun k => s.tile.bufs.getD k .free == .free with
    | some j, some k =>
      let bank := rfld (s.governing j.frame j.phase) F.LCR_CFG_IMG_BANK
      if s.bufDrains (bank + 4 * k) then s
      else
        (s.updTile fun t => { t with
          bufs := t.bufs.set k .building, banks := t.banks.set k bank,
          jobs := { j with buf := some k, start := s.tick } :: t.jobs.drop 1 }).setFld
          F.LCR_STAT_CORRECTING 1
    | _, _ => s

/-- Ticks from step 1 until the last code is written, with pixels as fast as the pipeline takes them (R280). -/
def State.jobTicks (s : State) (j : Job) : Nat :=
  let h := s.tbl (rfld (s.governing j.frame j.phase) F.LCR_CFG_TABLE)
  1024 + ceilDiv (h.sw * h.sh) 2 + 48

/-- The lamp image is complete (R280, step 4), its banks serving no old owner (R372). A late one, whose load instant has passed, leaves its buffer free. -/
def State.correctionDone (s : State) : State :=
  match s.tile.jobs with
  | j :: rest =>
    match j.buf with
    | some k =>
      if s.tick < j.start + s.jobTicks j ∨ s.bufDrains (s.imgBank k) then s
      else
        let s := s.correctImage j k
        let addr := s.imgSource j.src j.frame j.phase
        let s := (s.setFld F.LCR_IMG_LAST_FRAME j.frame).bump (F.LCR_CNT_COUNT 7)
        let s := s.setFld F.LCR_IMG_LAST_INFO_PHASE j.phase
        let s := s.setFld F.LCR_IMG_LAST_INFO_FORMAT j.format
        let s := s.setFld F.LCR_IMG_LAST_INFO_SRC addr
        let s := (s.updTile fun t => { t with
          jobs := rest, bufs := t.bufs.set k (if j.late then .free else .ready j.frame j.phase),
          lays := t.lays.set k (s.tbl (rfld (s.governing j.frame j.phase) F.LCR_CFG_TABLE)) }).setFld
          F.LCR_STAT_CORRECTING 0
        s.startJob
    | none => s
  | [] => s

/-- `LCR_STAT.CFG_ERR` (R296). -/
def State.lcrErr (s : State) : Nat :=
  let b := s.fld F.LCR_CFG_IMG_BANK
  if ¬ s.tblValid s.tblNow then 1
  else if ¬ s.inDram (s.fld F.LCR_SLICE_BASE_BASE_4K * 4096) 0x4000000 then 2
  else if 36 < b ∨ (List.range 12).any fun i => !(s.banksOf 8).contains (b + i) then 3
  else 0

/-- Correction stops (R296): the images that wait for it or are being corrected go, and the buffer under way is free. -/
def State.stopJobs (s : State) : State :=
  (s.updTile fun t => { t with jobs := [], bufs := t.bufs.map fun b => if b = .building then .free else b }).setFld
    F.LCR_STAT_CORRECTING 0

/-- Correction's part of a wingbeat (R296). -/
def State.lcrBeat (s : State) : State :=
  if s.role = roleTile then
    let old := s.fld F.LCR_STAT_CFG_ERR
    let e := s.lcrErr
    let s := if e = 0 then s else s.stopJobs
    if e = old then s
    else (s.setFld F.LCR_STAT_CFG_ERR e).log Rec.corrCfg [BitVec.ofNat 8 e, BitVec.ofNat 8 old]
  else s

/-! ## Checking a table (R293, R294) -/

/-- The outcome of the checks: status, the eight words, and what a valid table keeps on die. -/
structure TblCheck where
  status : BitVec 8
  words : List Word
  kept : TblSt
  bodyCrc : Word
deriving DecidableEq, Repr

/-- The determinant of a band's matrix (R293). -/
def det3 (m : List Fp) : Fp :=
  let e (r c : Nat) : Fp := m.getD (3 * r + c) fpZero
  let minor (a b c d : Fp) : Fp := sub32 (mul32 a b) (mul32 c d)
  add32 (sub32 (mul32 (e 0 0) (minor (e 1 1) (e 2 2) (e 1 2) (e 2 1)))
    (mul32 (e 0 1) (minor (e 1 0) (e 2 2) (e 1 2) (e 2 0))))
    (mul32 (e 0 2) (minor (e 1 0) (e 2 1) (e 1 1) (e 2 0)))

def isFin : Fp → Bool
  | .fin _ _ => true
  | _ => false

/-- The first j at which a curve fails rule 5 (R293). -/
def curveFail (cs : List Nat) : Option Nat :=
  if cs.getD 0 0 ≠ 0 then some 0 else (List.range 16).find? fun j => decide (cs.getD (j + 1) 0 < cs.getD j 0)

/-- The number of the first true condition, counted from 1. -/
def firstBad (l : List Bool) : Option Nat := (l.findIdx? id).map (· + 1)

/-- Share lengths of a lamp map (R287). -/
def sharesOf (ws : List Nat) : List (Nat × Nat) :=
  (ws.filter mapEn).foldl (fun (acc : List (Nat × Nat)) w => sparsePut (fun _ => 0) acc (mapKey w)
    (max (sparseGet (fun _ => 0) acc (mapKey w)) (mapPos w + 1))) []

/-- The header's part of the checks of R293 on table slot `t`: the reason and detail where it is lost or fails rule 1. `size`
is that of a `TABLE_LOAD`. -/
def State.tableHead (s : State) (t : Nat) (size : Option Nat) : Option (Nat × Nat) :=
  let base := s.tblBase t
  let hd := s.readBytes .bulk base 256
  let sw := fieldLE hd 8 2
  let sh := fieldLE hd 10 2
  let n := sw * sh
  let serial := fieldLE hd 24 8
  if s.lostWords .bulk base 256 ≠ 0 then some (Reason.ctiPoison, 0)
  else (firstBad [
    hd.take 4 != [0x45, 0x58, 0x43, 0x54], fieldLE hd 4 2 != 1,
    (crc32c (hd.take 252)).toNat != fieldLE hd 252 4,
    sw == 0 || sh == 0 || decide (16384 < sw) || decide (16384 < sh) || decide (349525 < n),
    fieldLE hd 12 4 != 3 * n,
    fieldLE hd 16 4 != 192 * n || size.any (fun z => z != 256 + fieldLE hd 16 4),
    serial != 0 && serial != s.sec.fuses.serial.toNat]).map fun d => (Reason.ctiHeader, d)

/-- Bytes of a table slot that the checks read: a header that fails them ends the reading (R293, R367). -/
def State.tableReads (s : State) (t : Nat) (size : Option Nat) : Nat :=
  let hd := s.readBytes .bulk (s.tblBase t) 256
  if (s.tableHead t size).isSome then 256 else 256 + 192 * (fieldLE hd 8 2 * fieldLE hd 10 2)

/-- The checks of R293 on table slot `t`; `size` is that of a `TABLE_LOAD`. -/
def State.checkTable (s : State) (t : Nat) (size : Option Nat) : TblCheck :=
  let base := s.tblBase t
  let hd := s.readBytes .bulk base 256
  let lostAny (a m : Nat) : Bool := decide (s.lostWords .bulk a m ≠ 0)
  let sw := fieldLE hd 8 2
  let sh := fieldLE hd 10 2
  let n := sw * sh
  let half (i : Nat) : Fp := ofHalf (BitVec.ofNat 16 (fieldLE hd i 2))
  let fail (reason detail : Nat) (crc : Word) (count first extra : Nat) : TblCheck :=
    ⟨Status.verifyFail, [reasonWord reason detail, crc, BitVec.ofNat 32 (sw + 65536 * sh),
      BitVec.ofNat 32 (fieldLE hd 150 4), BitVec.ofNat 32 (fieldLE hd 154 4), BitVec.ofNat 32 count,
      BitVec.ofNat 32 first, BitVec.ofNat 32 extra], {}, 0⟩
  match s.tableHead t size with
  | some (r, d) => fail r d 0 0 0 0
  | none =>
    let body := s.readBytes .bulk (base + 256) (192 * n)
    let crc := crc32c body
    let one : Fp := .fin false 1
    let z := half 42
    let e (i : Nat) : Fp := half (34 + 2 * i)
    let nominal := (List.range 3).map fun c => (List.range 17).map fun j => fieldLE hd (48 + 34 * c + 2 * j) 2
    let gap (i : Nat) : Bool := lt32 (mul32 (e i) (add32 one z)) (mul32 (e (i + 1)) (sub32 one z))
    let bad2 := firstBad [
      !(isFin (half 34) && lt32 fpZero (half 34)),
      !(isFin (e 1) && isFin (e 2) && isFin (e 3) && lt32 fpZero (e 1) && lt32 (e 1) (e 2) && lt32 (e 2) (e 3)),
      !(le32 fpZero z && le32 z (.fin false (1 / 2)) && gap 1 && gap 2),
      !(isFin (half 44) && isFin (half 46) && lt32 fpZero (half 44) && le32 (half 44) (half 46)),
      nominal.any fun c => (curveFail c).isSome]
    match bad2 with
    | some d => fail Reason.ctiParams d crc 0 0 0
    | none =>
      if lostAny (base + 256) (192 * n) then fail Reason.ctiPoison 0 crc 0 0 0
      else if crc.toNat ≠ fieldLE hd 20 4 then fail Reason.ctiCrc 0 crc 0 0 0
      else
        let matOf (i b : Nat) : List Fp := (List.range 9).map fun k =>
          ofHalf (BitVec.ofNat 16 (fieldLE body (72 * i + 18 * b + 2 * k) 2))
        let matBad (m : List Fp) : Bool := !(m.all isFin && le32 (half 44) (det3 m) && le32 (det3 m) (half 46))
        let badM := (List.range n).filterMap fun i =>
          ((List.range 4).find? fun b => matBad (matOf i b)).map fun b => (i, b)
        match badM with
        | (i, b) :: _ => fail Reason.ctiMatrix b crc badM.length i b
        | [] =>
          let badC := (List.range (3 * n)).filterMap fun l =>
            (curveFail ((List.range 17).map fun j => fieldLE body (72 * n + 36 * l + 2 * j) 2)).map fun j => (l, j)
          match badC with
          | (l, j) :: _ => fail Reason.ctiCurve j crc badC.length l j
          | [] =>
            let ws := (List.range (3 * n)).map fun l => fieldLE body (180 * n + 4 * l) 4
            let at_ (l : Nat) : Nat := ws.getD l 0
            let place (w : Nat) : Nat := 1024 * mapKey w + mapPos w
            let shares := sharesOf ws
            let words (c : Nat) : Nat := ((shares.filter fun e => e.1 / 64 == c).map Prod.snd).sum
            let ls := List.range (3 * n)
            let p1 := ls.filter fun l => at_ l / 2 ^ 14 % 4 != 0 || at_ l / 2 ^ 22 % 4 != 0
            let p2 := ls.filter fun l => mapEn (at_ l) &&
              ((ws.take l).any fun w => mapEn w && place w == place (at_ l))
            let p3 := ls.filter fun l => mapEn (at_ l) && decide (8192 < words (mapChain (at_ l)))
            let p4 := ((List.range n).filter fun i =>
              mapGroup (at_ (3 * i)) != mapGroup (at_ (3 * i + 1)) || mapGroup (at_ (3 * i)) != mapGroup (at_ (3 * i + 2))).map
              fun i => 3 * i
            let all := ls.filter fun l => p1.contains l || p2.contains l || p3.contains l || p4.contains l
            let bad (part extra : Nat) : TblCheck := fail Reason.ctiMap part crc all.length (all.headD 0) extra
            match p1, p2, p3, p4 with
            | _ :: _, _, _, _ => bad 1 1
            | [], _ :: _, _, _ => bad 2 2
            | [], [], l :: _, _ => bad 3 (mapChain (at_ l))
            | [], [], [], _ :: _ => bad 4 4
            | [], [], [], [] =>
              ⟨Status.ok, [0, crc, BitVec.ofNat 32 (sw + 65536 * sh), BitVec.ofNat 32 (fieldLE hd 150 4),
                BitVec.ofNat 32 (fieldLE hd 154 4), 0, 0, 0],
                { sw := sw, sh := sh, peak := BitVec.ofNat 16 (fieldLE hd 34 2),
                  edges := (List.range 3).map fun i => BitVec.ofNat 16 (fieldLE hd (36 + 2 * i) 2),
                  z := BitVec.ofNat 16 (fieldLE hd 42 2), nominal := nominal, shares := shares,
                  groups := ((ws.filter mapEn).map fun w => (mapGroup w, mapKey w)).eraseDups }, crc⟩

/-- The end of a `TABLE_LOAD` that has been copied into slot `t` (R292): on a pass the slot becomes valid. -/
def State.tableLoaded (s : State) (t size : Nat) : TblCheck × State :=
  let c := s.checkTable t (some size)
  let s := s.accountRead .bulk (s.tblBase t) (s.tableReads t (some size))
  if c.status = Status.ok then
    let s := s.updTile fun u => { u with tables := u.tables.set t c.kept }
    let v := s.fld F.LCR_STAT_VALID
    let s := s.setFld F.LCR_STAT_VALID (if bitOf v t then v else v + 2 ^ t)
    let s := (s.setFld (F.LCR_TBL_GEOM_SW t) c.kept.sw).setFld (F.LCR_TBL_GEOM_SH t) c.kept.sh
    (c, s.setFld (F.LCR_TBL_CRC_BODY_CRC t) c.bodyCrc.toNat)
  else (c, s)

/-- The read demand of correction times `FRAME_NUM` / `FRAME_DEN` (R297), and the bytes a second. -/
def State.lcrDemand (s : State) : Nat :=
  let h := s.tblForce
  198 * (h.sw * h.sh) * phasesOf s.regs

end Sys2Proof.Machine
end

