-- ==== Sys2Proof/Machine/Ldr.lean ====
section
/-! DEFINITION. Lamp chains (spec/12): typed words, loads, timed symbols, measurement, reports and the verdict store,
fades, derating, the diagnostic window, lamp scans. -/

namespace Sys2Proof.Machine

open Sys2Proof

/-! Reason codes of spec/12 (R334). -/

namespace Reason
def lampBusy : Nat := 0x0700
def noTable : Nat := 0x0701
end Reason

def State.chain (s : State) (c : Nat) : Chain := s.tile.chains.getD c {}

def State.updChain (s : State) (c : Nat) (f : Chain → Chain) : State :=
  s.updTile fun t => { t with chains := t.chains.modify c f }

/-- A change of every chain. -/
def State.allChains (s : State) (f : Chain → Chain) : State := s.updTile fun t => { t with chains := t.chains.map f }

def Chain.driver (h : Chain) (d : Nat) : Driver := h.drivers.getD d {}

/-! ## Symbols (R300, R301) -/

/-- A symbol on a line. -/
inductive LdSymbol where
  | d0
  | d1
  | sync
deriving DecidableEq, Repr

/-- High time of a symbol in ticks (R300). -/
def LdSymbol.high : LdSymbol → Nat
  | .d0 => 4
  | .d1 => 8
  | .sync => 24

/-- Low time of a symbol in ticks (R300). -/
def LdSymbol.low : LdSymbol → Nat
  | .d0 => 8
  | .d1 => 4
  | .sync => 12

/-- The symbols of a word, most significant bit first (R302). -/
def wordSymbols (w : BitVec 16) : List LdSymbol :=
  (List.range 16).map fun i => if w.getLsbD (15 - i) then .d1 else .d0

/-- The symbols of SYNC and the words behind it. -/
def burstSymbols (ws : List (BitVec 16)) : List LdSymbol := .sync :: ws.flatMap wordSymbols

/-- What the transmitter puts on a line: high and low time of each symbol in ticks (R300). -/
def lineTimes (l : List LdSymbol) : List (Nat × Nat) := l.map fun x => (x.high, x.low)

/-- Whether a time in 1/16 tick lies within 1.5 ticks of a nominal value in ticks (R301). -/
def nearTicks (t n : Nat) : Bool := decide (t ≤ 16 * n + 24) && decide (16 * n ≤ t + 24)

/-- What a receiver makes of a high and a low time in 1/16 tick: the symbol, and whether the burst ends behind it; none for
any other timing (R301). -/
def classify (high low : Nat) : Option (LdSymbol × Bool) :=
  match [LdSymbol.d0, .d1, .sync].find? fun x => nearTicks high x.high with
  | some x => if 256 < low then some (x, true) else if nearTicks low x.low then some (x, false) else none
  | none => none

/-! ## Words (R302, R303, R310) -/

/-- A 16-bit word with its parity bit set so that its ones are odd (R302); `v` has bit 0 clear. -/
def oddWord (v : Nat) : BitVec 16 := BitVec.ofNat 16 (v + (!parityOf 16 v).toNat)

/-- A typed word (R302). -/
def typedWord (typ phase count arg : Nat) : BitVec 16 :=
  oddWord (typ % 16 * 4096 + phase % 4 * 1024 + count % 64 * 16 + arg % 8 * 2)

/-- A delay word (R302). -/
def delayWord (e : Nat) : BitVec 16 := oddWord (e % 32768 * 2)

/-! Types of R303. -/

def ldStart : Nat := 1
def ldLatch : Nat := 2
def ldBlank : Nat := 3
def ldDiag : Nat := 4
def ldReport : Nat := 5
def ldEcho : Nat := 6
def ldEnd : Nat := 7
def ldRecord : Nat := 8

/-- A share (R310): header, words, check word. -/
def shareWords (typ : Nat) (ws : List (BitVec 16)) : List (BitVec 16) :=
  let body := BitVec.ofNat 16 (typ * 4096 + ws.length) :: ws
  body ++ [crc16 body]

/-- Ticks of a burst of one SYNC and `n` words (R300). -/
def burstTicks (n : Nat) : Nat := 36 + 192 * n

/-- A load on a chain (R310): START and its shares, as soon as the line is free of other symbols and of the load before it;
not before tick `first` (R308). -/
def State.sendLoad (s : State) (c phase arg : Nat) (shares : List (List (BitVec 16))) (first : Nat := 0) : State :=
  let ws := typedWord ldStart phase 0 arg :: shares.flatten
  let start := max (max s.tick first) (max (s.chain c).lineEnd (s.chain c).loadEnd)
  (s.emit (.lampBurst (BitVec.ofNat 7 c) start ws)).updChain c fun h => { h with
    loadAt := start, loadEnd := start + burstTicks ws.length }

/-- Whether a chain is driven under a layout: it has drivers and its last measurement passed (R307, R317). -/
def State.driven (s : State) (h : TblSt) (c : Nat) : Bool :=
  decide (0 < h.drivers c) && s.bit (F.LDR_CHAIN_STAT_MEAS_OK c)

def State.drivenChains (s : State) (h : TblSt) : List Nat := (List.range 128).filter (s.driven h)

/-- Q of R304 in ns. -/
def symbolQ (typ : Nat) : Rat := if typ = ldLatch then 160 else 288

/-- What a timed symbol's launch leads its instant by on a chain, with E = 0 (R308, log entry 21). -/
def State.launchLead (s : State) (h : TblSt) (c typ : Nat) : Rat :=
  symbolQ typ + 16 * ((h.drivers c - 1 : Nat) : Rat) + (s.chain c).a0

/-- The longest lead over the driven chains. -/
def State.lead (s : State) (h : TblSt) (typ : Nat) : Rat :=
  (s.drivenChains h).foldl (fun m c => max m (s.launchLead h c typ)) (symbolQ typ)

/-- A local time in ns. -/
def nsAt (t : Int) : Rat := (t : Rat) / (nsU : Nat)

/-- A timed symbol leaves on a chain in this tick. While a load is in progress it stands between two words of it (R308): the
word that would still be on the line does not begin, and what is left of the load follows the symbol. -/
def Chain.insert (k : Chain) (now ticks : Nat) : Option Nat × Chain :=
  if now < k.loadEnd ∧ k.loadAt + 36 ≤ now then
    let n := (now - k.loadAt - 36) / 192
    let left := (k.loadEnd - k.loadAt - 36) / 192 - n
    (some n, { k with loadAt := now + ticks - 36 - 192 * n, loadEnd := now + ticks + 192 * left })
  else (none, { k with lineEnd := now + ticks })

/-- A timed symbol on every driven chain, to apply at local time `t`, its delay `e` units of 128 ns (R308). -/
def State.launch (s : State) (h : TblSt) (typ phase arg : Nat) (t : Int) (e : Nat := 0) : State :=
  (s.drivenChains h).foldl (fun (u : State) c =>
    let w := typedWord typ phase (h.drivers c - 1) arg
    let ws := if typ = ldLatch then [w] else [w, delayWord e]
    let k := (u.chain c).insert u.tick (burstTicks ws.length)
    (u.emit (.lampTimed (BitVec.ofNat 7 c) ws (nsAt t - s.launchLead h c typ - 128 * (e : Rat)) k.1)).updChain c fun _ =>
      { k.2 with timedEnd := max k.2.timedEnd t }) s

/-- Whether the launch of a symbol for instant `t` is due and its instant has not passed. -/
def State.launchDue (s : State) (h : TblSt) (typ : Nat) (t : Int) (e : Nat := 0) : Bool :=
  decide (nsAt t - s.lead h typ - 128 * (e : Rat) ≤ nsAt s.clk) && decide ((s.clk : Int) ≤ t)

/-- Whether lamp chains are driven: M5 on a tile, or a lamp pattern in M7 (R14, R333). -/
def State.lampsOn (s : State) : Bool :=
  s.role == roleTile && !s.sys.blankThenLow && (s.mode == 5 || (s.mode == 7 && s.tile.pat.isSome))

/-- `LC_OUT` is held low (R14, R18, R333): no measurement, report or configuration load goes on. -/
def State.quietChains (s : State) : State :=
  s.allChains fun c => { c with
    report := none, reportDue := none, measuring := false, cfgDue := false, rxWords := none, rxBits := [] }

/-! ## Measurement (R307 to R309) -/

/-- Chains begin a measurement. -/
def State.startMeasure (s : State) (which : Nat → Bool) : State :=
  (List.range 128).foldl (fun (t : State) c =>
    if which c then t.updChain c fun h => { h with measuring := true } else t) s

/-- `SHORT` of every chain, with CHAIN_SHORT at each change to 1. -/
def State.refreshShort (s : State) : State :=
  (List.range 128).foldl (fun (t : State) c =>
    let d := t.fld (F.LDR_CHAIN_STAT_DETECTED c)
    let k := t.tblForce.drivers c
    let now := decide (d < k)
    if now = t.bit (F.LDR_CHAIN_STAT_SHORT c) then t
    else
      let t := t.setBit (F.LDR_CHAIN_STAT_SHORT c) now
      if now then t.log Rec.chainShort [BitVec.ofNat 8 c, BitVec.ofNat 8 d, BitVec.ofNat 8 k] else t) s

/-- a_d in ns from the sum of eight round trips in 1/16 tick (R307). -/
def arrivalDelay (sum : Nat) : Rat := (((sum : Rat) / 128) * (2 / 3) - 64) / 2

/-- τ_d in units of 62.5 ps (R307). -/
def trimOf (d : Nat) (a0 a : Rat) : Int :=
  let v : Rat := (16 * (d : Rat) - (a - a0)) * 16
  divRound v.num v.den

/-- Whether the return line of a chain is idle (R307): nothing on it for 1 µs, and no report frame under way. DESIGN CHOICE
(log entry 21): a frame without END is over 10 µs after its last activity. -/
def State.returnIdle (s : State) (c : Nat) : Bool :=
  let h := s.chain c
  decide (h.returnTick + 1500 ≤ s.tick) && (h.report.isNone || decide (h.returnTick + 15000 ≤ s.tick))

/-- The ECHO words of a measurement in which `n` drivers answer (R307): one for each driver up to the first that does not,
then eight for each that does. -/
def echoWords (n : Nat) : List (BitVec 16) :=
  ((List.range (min (n + 1) 64)) ++ (List.range n).flatMap fun d => List.replicate 8 d).map fun d => typedWord ldEcho 0 d 0

/-- The measurement of a chain (R307), once no load is in progress on it (R318) and its return line is idle, while lamp
chains are driven (R14). -/
def State.chainMeasure (s : State) (c : Nat) (rt : List Nat) : State :=
  if ¬ s.lampsOn ∨ ¬ (s.chain c).measuring ∨ s.tick < (s.chain c).loadEnd ∨ s.returnIdle c = false then s
  else
    let rt := rt.take 64
    let as := rt.map arrivalDelay
    let a0 := as.headD 0
    let trims := (List.range rt.length).map fun d => trimOf d a0 (as.getD d 0)
    let far := trims.findIdx? fun t => decide (256 < t ∨ t < -256)
    let s := (s.emit (.lampEcho (BitVec.ofNat 7 c) (echoWords rt.length))).updChain c fun h => { h with measuring := false }
    let s := s.setFld (F.LDR_CHAIN_STAT_DETECTED c) rt.length
    let s := s.setFld (F.LDR_CHAIN_STAT_A0 c) (openRound 307 (a0 * 16)).toNat
    let fail (t : State) (cause d : Nat) : State :=
      (t.setFld (F.LDR_CHAIN_STAT_MEAS_OK c) 0).log Rec.chainMeasure
        [BitVec.ofNat 8 c, BitVec.ofNat 8 cause, BitVec.ofNat 8 d]
    let s := if rt = [] then fail s 0 0
      else match far with
      | some d => fail s 1 d
      | none =>
        let s := s.setFld (F.LDR_CHAIN_STAT_MEAS_OK c) 1
        s.updChain c fun h => { h with
          a0 := a0, cfgDue := true,
          drivers := h.drivers.mapIdx fun d v =>
            if d < rt.length then { v with trim := trims.getD d 0, measTemp := v.seen.map fun _ => v.temp } else v }
    s.refreshShort

/-- The image that latches next after (n, p); a pattern of M7 latches once per frame, as phase 0 (R333). -/
def State.nextImage (s : State) (n p : Nat) : Nat × Nat :=
  if s.mode ≠ 7 ∧ p + 1 < phasesOf (s.governing n p) then (n, p + 1) else (n + 1, 0)

/-- The image that latches before (n, p). -/
def State.prevImage (s : State) (n p : Nat) : Nat × Nat :=
  if s.mode = 7 then (n - 1, 0)
  else if p = 0 then (n - 1, phasesOf (s.governing (n - 1) 0) - 1)
  else (n, p - 1)

/-- The end of the lit window of (n, p) and the time from it to the next latch (R67). -/
def State.litEnd (s : State) (n p : Nat) : Int × Int :=
  let e := s.tApply n p + (s.litNs n p * nsU : Nat)
  let m := s.nextImage n p
  (e, s.tApply m.1 m.2 - e)

/-- Whether DIAG follows the lit window of (n, p), as far as its phase and the time to the next latch go (R330). -/
def State.diagFollows (s : State) (n p : Nat) : Bool :=
  let r := s.governing n p
  s.bit F.LDR_POLICY_DIAG_WIN_EN && bitOf (rfld r F.LDR_DIAG_WIN_PHASE_MASK) p &&
    decide ((((rfld r F.LDR_DIAG_OFFSET_OFFSET_NS + 1000 * rfld r F.LDR_DIAG_WIN_PULSE_US + 1000) * nsU : Nat) : Int) ≤
      (s.litEnd n p).2)

/-! ### Line times of timed symbols (R304, R308) -/

/-- A timed symbol of an image's window, for the choice of its delay: its image, its kind (0 LATCH, or the BLANK DARK in its
place; 1 BLANK END; 2 BLANK DARK of a dark phase; 3 DIAG), its instant, its delay in units of 128 ns. -/
structure Timed where
  frame : Nat
  phase : Nat
  kind : Nat
  at_ : Int
  e : Nat := 0
deriving DecidableEq, Repr

/-- When a timed symbol is on the line, the hops of its chain apart: from the start of its SYNC to the end of its delay word;
a LATCH, which has none, lies within that time (R304). -/
def Timed.slot (x : Timed) : Int × Int :=
  (x.at_ - ((288 + 128 * x.e) * nsU : Nat), x.at_ - ((8 + 128 * x.e) * nsU : Nat))

/-- Whether two spans of time meet. -/
def spansMeet (a b : Int × Int) : Bool := decide (a.1 < b.2) && decide (b.1 < a.2)

/-- The timed symbols that image (n, p) may bring (R67, R317, R330). -/
def State.timedOf (s : State) (n p : Nat) : List Timed :=
  if s.litNs n p = 0 then [⟨n, p, 2, s.tApply n p, 0⟩]
  else
    let e := s.litEnd n p
    [⟨n, p, 0, s.tApply n p, 0⟩] ++ (if ((8 * nsU : Nat) : Int) ≤ e.2 then [⟨n, p, 1, e.1, 0⟩] else []) ++
      (if s.diagFollows n p then [⟨n, p, 3, e.1 + (rfld (s.governing n p) F.LDR_DIAG_OFFSET_OFFSET_NS * nsU : Nat), 0⟩] else [])

/-- The images about (n, p): the four before it, itself, the four after it. At most three dark phases of a frame can lie
closer together than their symbols are long. -/
def State.imagesAbout (s : State) (n p : Nat) : List (Nat × Nat) :=
  let run (f : Nat × Nat → Nat × Nat) : List (Nat × Nat) :=
    ((List.range 4).foldl (fun (l : List (Nat × Nat)) _ => f (l.headD (n, p)) :: l) [(n, p)])
  (run (fun i => s.prevImage i.1 i.2) ++ run (fun i => s.nextImage i.1 i.2)).eraseDups

/-- A symbol takes the least delay at which it meets none of those placed (R308). -/
def Timed.place (x : Timed) (placed : List Timed) : Timed :=
  { x with e := ((List.range 256).find? fun e => placed.all fun y => !spansMeet { x with e := e }.slot y.slot).getD 0 }

/-- The timed symbols about image (n, p) with their delays, so that no two meet on a line (R308; DESIGN CHOICE, log entry 21):
the places of LATCHes stand, and the symbols with a delay word are placed from the latest instant to the earliest, each with
the least delay. -/
def State.timedAbout (s : State) (n p : Nat) : List Timed :=
  let l := (s.imagesAbout n p).flatMap fun i => s.timedOf i.1 i.2
  let free := sortBy (fun a b => decide (b.at_ < a.at_ ∨ (b.at_ = a.at_ ∧ b.kind < a.kind))) (l.filter fun x => x.kind ≠ 0)
  free.foldl (fun acc x => x.place acc :: acc) (l.filter fun x => x.kind = 0)

/-- The delay `E` of a timed symbol of image (n, p), in units of 128 ns (R308). -/
def State.symbolDelay (s : State) (n p kind : Nat) : Nat :=
  (((s.timedAbout n p).find? fun x => x.frame == n && x.phase == p && x.kind == kind).map Timed.e).getD 0

/-- A span of `n` ticks from tick `t`, with the times at which timed symbols about image (n, p) are on chain `c`: the tick
from which the line is free for it (R308). -/
def State.lineFrom (s : State) (h : TblSt) (n p c t ticks : Nat) : Nat :=
  let hops := s.launchLead h c ldBlank - symbolQ ldBlank
  let tickAt (v : Int) : Int := (s.tick : Int) + (((nsAt (v - (s.clk : Int)) - hops) * 3 / 2).ceil)
  (sortBy (fun (a b : Int × Int) => decide (a.1 < b.1)) ((s.timedAbout n p).map fun x => (tickAt x.slot.1, tickAt x.slot.2))).foldl
    (fun (t : Nat) v => if spansMeet ((t : Int), ((t + ticks : Nat) : Int)) v then v.2.toNat else t) t

/-! ## Configuration loads (R312, R318) -/

/-- The words of a CFG share (R312). -/
def State.cfgWords (s : State) (trim : Int) : List (BitVec 16) :=
  [BitVec.ofNat 16 (toBits 16 trim), BitVec.ofNat 16 (s.fld F.LDR_DIAG_DIAG_IMIN),
   BitVec.ofNat 16 (s.fld F.LDR_DIAG_DIAG_TMIN), BitVec.ofNat 16 (s.fld F.LDR_DIAG_WIN_DIAG_CODE),
   BitVec.ofNat 16 (s.fld F.LDR_POLICY_DIAG_WIN_EN), 0, 0, 0]

/-- A configuration load (R318); PHASE of its START is 0 (log entry 22). -/
def State.configLoad (s : State) (c : Nat) : State :=
  let h := s.chain c
  let k := s.tblForce.drivers c
  if ¬ s.lampsOn ∨ ¬ h.cfgDue ∨ ¬ s.driven s.tblForce c ∨ s.tick < h.loadEnd ∨ (s.clk : Int) < h.timedEnd ∨ h.measuring then s
  else
    let s := s.sendLoad c 0 1 ((List.range k).map fun d => shareWords 2 (s.cfgWords (h.driver d).trim))
    s.updChain c fun h => { h with
      cfgDue := false, drivers := h.drivers.mapIdx fun d v => if d < k then { v with sent := v.trim } else v }

/-! ## Reports (R314, R315, R320 to R324) -/

/-- `REPORT_ERR` and CHAIN_REPORT, once a chain and second (R321, R322). -/
def State.reportErr (s : State) (c d cause : Nat) : State :=
  let s := s.setFld (F.LDR_CHAIN_STAT_REPORT_ERR c) 1
  let (ok, s) := s.limit (3220000 + c) 1
  if ok then s.log Rec.chainReport [BitVec.ofNat 8 c, BitVec.ofNat 8 d, BitVec.ofNat 8 cause] else s

/-- A record is discarded. -/
def State.dropRecord (s : State) (c d cause : Nat) (stop : Bool) : State :=
  let s := (s.bump (F.LDR_CNT_COUNT 3)).reportErr c d cause
  if stop then s.updChain c fun h => { h with report := h.report.map fun r => { r with broken := true } } else s

/-- A report frame ends (R321): a driver below `DETECTED` without an accepted record. -/
def State.endReport (s : State) (c : Nat) : State :=
  match (s.chain c).report with
  | some r =>
    let miss := (List.range (s.fld (F.LDR_CHAIN_STAT_DETECTED c))).find? fun d => !r.got.contains d
    let s := s.updChain c fun h => { h with report := none }
    match miss with
    | some d => s.reportErr c d 4
    | none => s
  | none => s

/-- REPORT is sent, or skipped while the return line is busy (R320); it meets no timed symbol on the line (R308). -/
def State.reportSend (s : State) (c : Nat) : State :=
  let h := s.chain c
  match h.reportDue with
  | some (t, f) =>
    let near := s.tile.lastWindow.all fun w => s.lineFrom s.tblForce w.1 w.2 c s.tick (burstTicks 1) == s.tick
    if ¬ s.lampsOn ∨ ¬ s.driven s.tblForce c ∨ (s.clk : Int) < t ∨ s.tick < h.loadEnd ∨ s.tick < h.lineEnd ∨ near = false then s
    else
      let s := s.updChain c fun h => { h with reportDue := none }
      if s.tick < h.returnTick + 1500 ∨ h.measuring then s.bump (F.LDR_CNT_COUNT 10)
      else
        let c0 := s.tblForce.drivers c - 1
        let s := s.endReport c
        (s.emit (.lampBurst (BitVec.ofNat 7 c) s.tick [typedWord ldReport 0 c0 0])).updChain c fun h =>
          { h with report := some { c0 := c0, latchFrame := f }, returnTick := s.tick, lineEnd := s.tick + burstTicks 1 }
  | none => s

/-- Address of a lamp position's verdict record (R323). -/
def State.verdictAddr (s : State) (c d k : Nat) : Nat :=
  s.fld F.LDR_VERDICT_BASE_BASE_4K * 4096 + 8 * (65536 * c + 1024 * d + k)

/-- A verdict enters the store (R323, R324). -/
def State.verdict (s : State) (c d k v frame : Nat) : State :=
  let a := s.verdictAddr c d k
  let s := s.accountRead .verdict a 8
  let old := natLE (s.readBytes .verdict a 8)
  let kept := old / 4 % 4
  let measured := bitOf old 4
  let new := if v = 3 then v + kept * 4 + measured.toNat * 16 + 32 + old / 2 ^ 16 * 2 ^ 16
    else v + v * 4 + 16 + 32 + frame % 2 ^ 48 * 2 ^ 16
  let s := s.writeBytes .verdict a (bytesLE 8 new)
  if (v = 1 ∨ v = 2) ∧ ¬ (measured = true ∧ kept = v) then
    let s := s.bump (F.LDR_CNT_COUNT 8)
    let (ok, s) := s.limit 324 16
    if ok then s.log Rec.lampFault [BitVec.ofNat 8 c, BitVec.ofNat 8 d, BitVec.ofNat 8 (k % 64), BitVec.ofNat 8 (k / 64),
      BitVec.ofNat 8 v] else s
  else s

/-- T_g and `STALE` of group g (R327). -/
def State.groupTemp (s : State) (g : Nat) : Option Int :=
  let fresh := (s.tblForce.groups.filter fun e => e.1 == g).filterMap fun e =>
    let v := (s.chain (e.2 / 64)).driver (e.2 % 64)
    v.seen.bind fun x => if s.tick ≤ x.2 + 1500000000 then some v.temp else none
  match fresh with
  | [] => none
  | t :: l => some (l.foldl max t)

def State.tempOf (s : State) (g : Nat) : Int := sext 15 (s.fld (F.LDR_DERATE_NOW_TEMP g))

/-- T_g of every group (R327) and THERMAL_WARN (R329). -/
def State.groupTemps (s : State) : State :=
  (List.range 16).foldl (fun (t : State) g =>
    match t.groupTemp g with
    | none => t.setFld (F.LDR_DERATE_NOW_STALE g) 1
    | some v =>
      let t := (t.setFld (F.LDR_DERATE_NOW_STALE g) 0).setFld (F.LDR_DERATE_NOW_TEMP g) (toBits 15 v)
      let warn := 8 * sext 8 (t.fld F.LDR_THERM0_WARN_C)
      let was := t.tile.warned.getD g false
      let put (u : State) (b : Bool) : State := u.updTile fun x => { x with warned := x.warned.set g b }
      if warn ≤ v then
        if was then t else (put t true).log Rec.thermalWarn ([BitVec.ofNat 8 g] ++ bytesBE 2 (toBits 16 v))
      else if v < warn - 16 then put t false
      else t) s

/-- The flags of an accepted record (R321, R322). -/
def State.recordFlags (s : State) (c d : Nat) (f : BitVec 3) : State :=
  let s := if f.getLsbD 2 then (s.setFld (F.LDR_CHAIN_STAT_SHARE_ERR c) 1).bump (F.LDR_CNT_COUNT 4) else s
  let s := if f.getLsbD 1 then (s.setFld (F.LDR_CHAIN_STAT_SYM_ERR c) 1).bump (F.LDR_CNT_COUNT 5) else s
  let s := if f.getLsbD 0 then (s.setFld (F.LDR_CHAIN_STAT_MISSED c) 1).bump (F.LDR_CNT_COUNT 6) else s
  if f = 0 then s
  else
    let (ok, s) := s.limit (3210000 + c) 1
    if ok then s.log Rec.chainShare [BitVec.ofNat 8 c, BitVec.ofNat 8 d, BitVec.ofNat 8 f.toNat] else s

/-- A driver's record at `LC_IN` (R321 to R324, R309). -/
def State.takeRecord (s : State) (c : Nat) (r : ReportRun) (ws : List (BitVec 16)) : State :=
  let w (i : Nat) : Nat := (ws.getD i 0).toNat
  let n := w 0 / 16 % 64
  let size := w 2
  let whole := ws.dropLast
  if r.broken then (s.bump (F.LDR_CNT_COUNT 3)).setFld (F.LDR_CHAIN_STAT_REPORT_ERR c) 1
  else if ws.length ≠ 4 + ceilDiv size 8 ∨ w 0 / 4096 ≠ ldRecord ∨ ¬ parityOf 16 (w 0) ∨
      crc16 whole ≠ ws.getLastD 0 then s.dropRecord c 64 0 false
  else if r.c0 < n ∨ r.last.any fun l => decide (n ≤ l) then
    s.dropRecord c (if n ≤ r.c0 then r.c0 - n else 64) 2 true
  else
    let d := r.c0 - n
    if size ≠ s.tblForce.share c d then s.dropRecord c d 1 false
    else
      let flags := BitVec.ofNat 3 (w 0 / 2)
      let temp := sext 16 (w 1)
      let s := s.bump (F.LDR_CNT_COUNT 2)
      let frame := s.tm.curFrame
      let s := s.updChain c fun h => { h with
        report := some { r with last := some n, got := d :: r.got },
        drivers := h.drivers.modify d fun v => { v with temp := temp, flags := flags, seen := some (frame, s.tick) } }
      let s := s.recordFlags c d flags
      let s := (List.range size).foldl (fun (t : State) k =>
        t.verdict c d k (w (3 + k / 8) / 2 ^ (14 - 2 * (k % 8)) % 4) r.latchFrame) s
      let s := s.groupTemps
      -- DESIGN CHOICE (log entry 58): a driver that had never reported when its chain was measured had the temperature it
      -- reports first
      match ((s.chain c).driver d).measTemp with
      | some m =>
        if s.bit F.LDR_POLICY_REMEASURE_EN ∧ (40 < temp - m ∨ temp - m < -40) then
          s.updChain c fun h => { h with measuring := true }
        else s
      | none =>
        s.updChain c fun h => { h with drivers := h.drivers.modify d fun v => { v with measTemp := some temp } }

/-- A record, END or a symbol error at `LC_IN` (R321). -/
def State.returnItem (s : State) (c : Nat) (i : ReturnItem) : State :=
  match i with
  | .symbolError =>
    let s := s.bump (F.LDR_CNT_COUNT 7)
    match (s.chain c).report with
    | some r => if r.broken then s.setFld (F.LDR_CHAIN_STAT_REPORT_ERR c) 1 else
        (s.updChain c fun h => { h with report := some { r with broken := true } }).reportErr c 64 3
    | none => s
  | .endFrame => s.endReport c
  | .record ws =>
    match (s.chain c).report with
    | some r => s.takeRecord c r ws
    | none => s.bump (F.LDR_CNT_COUNT 3)

/-- What the words received since a SYNC are, once they are whole: a record by its length (R315), END, an ECHO; any other
typed word stands as a record that fails its check. -/
def returnWhole (ws : List (BitVec 16)) : Bool :=
  let w := (ws.getD 0 0).toNat
  if w / 4096 = ldRecord ∧ parityOf 16 w then
    decide (3 ≤ ws.length) && ws.length == 4 + ceilDiv (ws.getD 2 0).toNat 8
  else true

/-- The words received since a SYNC are taken. -/
def State.takeWords (s : State) (c : Nat) (ws : List (BitVec 16)) : State :=
  let s := s.updChain c fun h => { h with rxWords := none, rxBits := [] }
  let w := (ws.getD 0 0).toNat
  if w / 4096 = ldEnd ∧ parityOf 16 w then s.returnItem c .endFrame
  else if w / 4096 = ldEcho ∧ parityOf 16 w then s
  else s.returnItem c (.record ws)

/-- Timing that is no symbol's, or a symbol where none may stand (R301). -/
def State.lineError (s : State) (c : Nat) : State :=
  (s.updChain c fun h => { h with rxWords := none, rxBits := [] }).returnItem c .symbolError

/-- One symbol at `LC_IN` (R301, R302): SYNC and the end of a burst stand at word boundaries only. -/
def State.returnSymbol (s : State) (c : Nat) (x : LdSymbol) (ends : Bool) : State :=
  let h := s.chain c
  let s : State := match x with
    | .sync =>
      if h.rxBits ≠ [] then s.lineError c
      else
        let s := match h.rxWords with
          | some (w :: ws) => s.takeWords c (w :: ws)
          | _ => s
        s.updChain c fun h => { h with rxWords := some [], rxBits := [] }
    | _ =>
      let bits := h.rxBits ++ [x == .d1]
      if bits.length < 16 then s.updChain c fun h => { h with rxBits := bits }
      else
        let w : BitVec 16 := BitVec.ofNat 16 (bits.foldl (fun a b => 2 * a + b.toNat) 0)
        match h.rxWords with
        | some ws =>
          if returnWhole (ws ++ [w]) then s.takeWords c (ws ++ [w])
          else s.updChain c fun h => { h with rxWords := some (ws ++ [w]), rxBits := [] }
        | none => s.updChain c fun h => { h with rxBits := [] }
  if ends ∧ (s.chain c).rxBits ≠ [] then s.lineError c else s

/-- What arrives at `LC_IN`, as high and low times in 1/16 tick (R301, R321). -/
def State.returnBurst (s : State) (c : Nat) (edges : List (BitVec 16 × BitVec 16)) : State :=
  if ¬ s.lampsOn then s
  else
    edges.foldl (fun (t : State) e =>
      match classify e.1.toNat e.2.toNat with
      | some (x, ends) => t.returnSymbol c x ends
      | none => t.lineError c) (s.updChain c fun h => { h with returnTick := s.tick })

/-! ## Fades and derating (R325, R326, R328) -/

def maxFp (a b : Fp) : Fp := if le32 a b then b else a
def minFp (a b : Fp) : Fp := if le32 a b then a else b

/-- F_g of frame n under a fade, and the frames left (R325). -/
def Fade.value (f : Fade) (n : Nat) (from_ : BitVec 16) : BitVec 16 × Nat :=
  let k := n + 1 - f.n0
  let t := unitFp (halfFp f.target)
  if f.frames = 0 ∨ f.frames ≤ k then (halfBits (toHalf t), 0)
  else
    let fs := halfFp from_
    let v := add32 fs (mul32 (sub32 t fs) (div32 (f32 (k : Rat)) (f32 (f.frames : Rat))))
    (halfBits (unitFp (toHalf v)), f.frames - k)

/-- The fade values of frame n (R325, R326). -/
def State.fadeBeat (s : State) (n : Nat) : State :=
  (List.range 16).foldl (fun (t : State) g =>
    match t.tile.fades.getD g none with
    | some f =>
      if n < f.n0 then t
      else
        let start := f.from_.getD (BitVec.ofNat 16 (t.fld (F.LDR_FADE_NOW_F g)))
        let (v, left) := f.value n start
        let t := (t.setFld (F.LDR_FADE_NOW_F g) v.toNat).setFld (F.LDR_FADE_NOW_LEFT g) left
        t.updTile fun x => { x with fades := x.fades.set g (if left = 0 then none else some { f with from_ := some start }) }
    | none => t) s

/-- A field that counts as 0 when negative or NaN. -/
def nonNeg : Fp → Fp
  | .nan => fpZero
  | .inf neg => if neg then fpZero else .inf false
  | .fin neg q => if neg then fpZero else .fin false q

/-- D_g of the next frame (R328). -/
def State.derateOf (s : State) (g : Nat) : BitVec 16 :=
  if ¬ s.bit F.LDR_POLICY_DERATE_EN then 0x3C00
  else
    let h (f : Fld) : Fp := halfFp (BitVec.ofNat 16 (s.fld f))
    let one : Fp := .fin false 1
    let knee : Int := sext 8 (s.fld F.LDR_THERM0_KNEE_C)
    let x := sub32 (f32 ((s.tempOf g : Rat) / 8)) (f32 (knee : Rat))
    let target := if le32 x fpZero then one
      else maxFp (unitFp (h F.LDR_THERM1_DMIN)) (sub32 one (mul32 (nonNeg (h F.LDR_THERM0_SLOPE)) x))
    let step := nonNeg (h F.LDR_THERM1_STEP)
    let prev := h (F.LDR_DERATE_NOW_D g)
    let delta := minFp step (maxFp (neg32 step) (sub32 target prev))
    halfBits (unitFp (toHalf (add32 prev delta)))

/-- F_g and D_g fixed at W(n) (R326). -/
def State.driveBeat (s : State) (n : Nat) : State :=
  let s := s.fadeBeat n
  let s := s.groupTemps
  let s := (List.range 16).foldl (fun (t : State) g => t.setFld (F.LDR_DERATE_NOW_D g) (t.derateOf g).toNat) s
  let f := (List.range 16).map fun g => BitVec.ofNat 16 (s.fld (F.LDR_FADE_NOW_F g))
  let d := (List.range 16).map fun g => BitVec.ofNat 16 (s.fld (F.LDR_DERATE_NOW_D g))
  s.updTile fun t => { t with drives := (n, f, d) :: t.drives.take 15 }

/-- F and D of an image whose Tc has come: those of frame n, or of the last wingbeat (R326). -/
def State.driveOf (s : State) (n : Nat) : List (BitVec 16) × List (BitVec 16) :=
  match s.tile.drives.find? fun e => e.1 == n with
  | some e => e.2
  | none => (s.tile.drives.head?.map Prod.snd).getD (List.replicate 16 0x3C00, List.replicate 16 0x3C00)

/-- A commit with target (n, p) writes fade registers (R325). -/
def State.fadeCommit (s : State) (n p : Nat) (addrs : List Nat) : State :=
  (List.range 16).foldl (fun (t : State) g =>
    if addrs.contains (F.LDR_FADE_TARGET g).addr then
      t.updTile fun x => { x with fades := x.fades.set g (some
        { n0 := if p = 0 then n else n + 1, target := BitVec.ofNat 16 (t.fld (F.LDR_FADE_TARGET g)),
          frames := t.fld (F.LDR_FADE_FRAMES g) }) }
    else t) s

/-! ## Configuration in force (R319) -/

/-- `LDR_STAT.CFG_ERR` and the first failing item (R319). -/
def State.ldrErr (s : State) : Nat × Nat :=
  let r := s.regs
  let p := phasesOf r
  let load := s.fld F.LDR_CFG_LOAD_US * 1000
  let f := (gridOf r).period / nsU
  let gap (i : Nat) : Int :=
    if i = 0 then (f : Int) + (phaseStartOf r 0 : Nat) - (phaseStartOf r (p - 1) : Nat)
    else (phaseStartOf r i : Int) - (phaseStartOf r (i - 1) : Nat)
  let h := s.tblForce
  match (List.range p).find? fun i => decide (0 < litOf r i) && decide (gap i < (load + 100000 : Nat)) with
  | some i => (1, i)
  | none =>
    match (List.range 128).find? fun c =>
        decide (load < 8 * (89 + 16 * (h.words c + 2 * h.drivers c)) + 20 * h.drivers c + 32000) with
    | some c => (2, c)
    | none => if s.inDram (s.fld F.LDR_VERDICT_BASE_BASE_4K * 4096) 0x4000000 then (0, 0) else (3, 0)

/-- While a configuration error stands every phase is dark (R296, R317): images loaded and not yet latched become dark, and
their buffers are free. -/
def State.darkPlans (s : State) : State :=
  if s.fld F.LDR_STAT_CFG_ERR = 0 ∧ s.fld F.LCR_STAT_CFG_ERR = 0 then s
  else
    let dim (x : Plan) : Bool := x.load == 1 && !x.latched
    let own := s.tile.plans.filter fun x => dim x && x.own
    (s.updTile fun t => { t with
      plans := t.plans.map fun x => if dim x then { x with load := 2 } else x
      bufs := t.bufs.map fun b => match b with
        | .ready n p => if own.any fun x => x.frame == n && x.phase == p then .free else b
        | _ => b }).startJob

/-- The lamp chains' part of a wingbeat (R319, R326). -/
def State.ldrBeat (s : State) (n : Nat) : State :=
  if s.role = roleTile then
    let old := s.fld F.LDR_STAT_CFG_ERR
    let (e, item) := s.ldrErr
    let s := if e = old then s
      else (s.setFld F.LDR_STAT_CFG_ERR e).log Rec.chainCfg [BitVec.ofNat 8 e, BitVec.ofNat 8 old, BitVec.ofNat 8 item]
    (s.driveBeat n).refreshShort.darkPlans
  else s

/-! ## Loads, latches, blanks (R317, R67, R330) -/

def State.plan (s : State) (n p : Nat) : Option Plan := s.tile.plans.find? fun x => x.frame == n && x.phase == p

/-- A plan takes its place; those of frames long past go. -/
def State.setPlan (s : State) (x : Plan) : State :=
  s.updTile fun t => { t with
    plans := x :: t.plans.filter fun y => !(y.frame == x.frame && y.phase == x.phase) && decide (x.frame ≤ y.frame + 8) }

/-- The data of a chain's shares in lamp-image buffer `k` (R287, R317). -/
def State.bufferShares (s : State) (h : TblSt) (k c : Nat) : List (List (BitVec 16)) :=
  (List.range (h.drivers c)).map fun d =>
    shareWords 1 ((List.range (h.share c d)).map fun i =>
      BitVec.ofNat 16 (natLE (s.readBytes .lamps (s.imgBase k + 2 * (8192 * c + h.offset c d + i)) 2)))

/-- A data load of every driven chain from a buffer, for image (n, p); its START meets no timed symbol (R308). -/
def State.loadBuffer (s : State) (h : TblSt) (k n p : Nat) : State :=
  (s.drivenChains h).foldl (fun (t : State) c =>
    (t.accountRead .lamps (t.imgBase k + 16384 * c) (2 * h.words c)).sendLoad c p 0 (t.bufferShares h k c)
      (s.lineFrom h n p c s.tick (burstTicks 1)))
    (s.bump (F.LDR_CNT_COUNT 0))

/-- Lamps of the table in force, and the address of its lamp map. -/
def State.lampCount (s : State) : Nat := 3 * (s.tblForce.sw * s.tblForce.sh)

def State.lampMapAddr (s : State) : Nat := s.tblBase s.tblNow + 256 + 60 * s.lampCount

/-- The words of a lamp map that lie in readable words: lamp index and word. -/
def State.lampMap (s : State) (cl : Client) : List (Nat × Nat) :=
  let a (l : Nat) : Nat := s.lampMapAddr + 4 * l
  ((List.range s.lampCount).filter fun l => !s.lostByte cl (a l)).map fun l => (l, natLE (s.readBytes cl (a l) 4))

/-- A client has read the whole lamp map (R361, R367). -/
def State.accountMap (s : State) (cl : Client) : State := s.accountRead cl s.lampMapAddr (4 * s.lampCount)

/-- A pattern's codes on a driver (R333). -/
def patternShare (m : List (Nat × Nat)) (h : TblSt) (x : LampPat) (n c d : Nat) : List (BitVec 16) :=
  (List.range (h.share c d)).map fun k =>
    let code := BitVec.ofNat 16 x.arg.toNat
    let lit := m.any fun e => mapEn e.2 && mapKey e.2 == 64 * c + d && mapPos e.2 == k
    match x.pattern with
    | 0 => if lit then code else 0
    | 1 => if lit ∧ c = x.arg.toNat / 2 ^ 16 % 128 then code else 0
    | 2 => if k = n % 1024 then code else 0
    | _ => 0

/-- A missing image (R344, R348): the first after a corrected one starts the hold. -/
def State.noteMissing (s : State) (n p : Nat) : State :=
  if s.red.holding.isSome ∨ ¬ s.red.latched then s
  else
    (({ s with red := { s.red with holding := some (n, p) } }).bump (F.RED_CNT_COUNT 8)).log Rec.holdStart
      (bytesBE 4 n) p

/-- Whether the fallback calls for black (R348). -/
def State.fallbackBlack (s : State) (n p : Nat) : Bool :=
  let hold := rfld (s.governing n p) F.RED_TILE_CFG_HOLD_FRAMES
  s.bit F.RED_TILE_POLICY_FALLBACK && (hold == 0 || decide (hold < s.fld F.RED_TILE_HOLD_FRAMES))

/-- An image that is not complete at its load instant (R280): a job still corrects it, or its Tc is still to come. -/
def State.lateJob (s : State) (n p : Nat) : State :=
  match s.tile.jobs.find? fun j => j.frame == n && j.phase == p with
  | none =>
    if (s.clk : Int) < s.tCorrect n p then
      ((s.bump (F.LCR_CNT_COUNT 9)).log Rec.corrLate
        (bytesBE 2 (s.imgSource (s.fld F.RED_TILE_STAT_USING) n p) ++ bytesBE 4 n) p).noteMissing n p
    else s
  | some j =>
    let addr := s.imgSource j.src n p
    let s := s.updTile fun t => { t with jobs := t.jobs.filterMap fun k =>
      if k.frame == n && k.phase == p then (if k.buf.isSome then some { k with late := true } else none) else some k }
    ((s.bump (F.LCR_CNT_COUNT 9)).log Rec.corrLate (bytesBE 2 addr ++ bytesBE 4 n) p).noteMissing n p

/-- The buffer of an image, and that of the last latched one. -/
def State.readyBuf (s : State) (n p : Nat) : Option Nat :=
  (List.range 3).find? fun k => s.tile.bufs.getD k .free == .ready n p

def State.latchedBuf (s : State) : Option Nat := (List.range 3).find? fun k => s.tile.bufs.getD k .free == .latched

def State.setBuf (s : State) (k : Nat) (b : ImgBuf) : State := s.updTile fun t => { t with bufs := t.bufs.set k b }

/-- Whether the image at T_load(n, p) is dark: a window of no length, or a `CFG_ERR` (R296, R317). -/
def State.loadDark (s : State) (n p : Nat) : Bool :=
  decide (s.litNs n p = 0 ∨ s.fld F.LDR_STAT_CFG_ERR ≠ 0 ∨ s.fld F.LCR_STAT_CFG_ERR ≠ 0)

/-- Whether a bank of the buffer that T_load(n, p) reads still serves its old owner (R372): in M7 no buffer is read. -/
def State.loadDrains (s : State) (n p : Nat) : Bool :=
  s.mode != 7 && !s.loadDark n p && match s.readyBuf n p with
    | some k => s.bufDrains (s.imgBank k)
    | none => s.latchedBuf.any fun k => s.bufDrains (s.imgBank k)

/-- Reaching T_load(n, p) (R317). -/
def State.chainLoad (s : State) (n p : Nat) : State :=
  let fresh := s.tile.lastLoad.all fun l => imgLt l.1 l.2 n p
  let regs := s.governing n p
  if ¬ s.lampsOn ∨ ¬ fresh ∨ phasesOf regs ≤ p ∨ ¬ s.at_ (s.tLoad n p) ∨ s.tLatch n p ≤ (s.clk : Int) ∨
      (s.mode = 7 ∧ p ≠ 0) ∨ s.loadDrains n p then s
  else
    let s := s.updTile fun t => { t with lastLoad := some (n, p) }
    let x := (s.plan n p).getD { frame := n, phase := p }
    let dark := s.loadDark n p
    let free (t : State) : State := match t.readyBuf n p with
      | some k => (t.setBuf k .free).startJob
      | none => t
    let asDark (t : State) : State := t.setPlan { x with load := 2, lay := t.tblForce }
    if s.mode = 7 then
      let h := s.tblForce
      match s.tile.pat with
      | some y =>
        if s.litNs n p = 0 ∨ s.fld F.LDR_STAT_CFG_ERR ≠ 0 ∨ 3 ≤ y.pattern then asDark s
        else
          let m := s.lampMap .correction
          let s := s.accountMap .correction
          let s := (s.drivenChains h).foldl (fun (t : State) c => t.sendLoad c p 0 ((List.range (h.drivers c)).map fun d =>
            shareWords 1 (patternShare m h y n c d))) (s.bump (F.LDR_CNT_COUNT 0))
          s.setPlan { x with load := 1, buf := 3, lay := h }
      | none => s
    else if dark then asDark (free (s.lateJob n p))
    else
      match s.readyBuf n p with
      | some k =>
        let h := s.tile.lays.getD k {}
        (s.loadBuffer h k n p).setPlan { x with load := 1, buf := k, own := true, lay := h }
      | none =>
        let s := (s.lateJob n p).noteMissing n p
        if s.fallbackBlack n p then
          let first := !s.bit F.RED_TILE_STAT_BLACK
          let s := (s.bump (F.RED_CNT_COUNT 9)).setFld F.RED_TILE_STAT_BLACK 1
          let s := if first then s.log Rec.fallbackBlack (bytesBE 4 n) p else s
          asDark s
        else
          match s.latchedBuf with
          | some k =>
            let h := s.tile.lays.getD k {}
            ((s.bump (F.LDR_CNT_COUNT 11)).loadBuffer h k n p).setPlan { x with load := 1, buf := k, lay := h }
          | none => asDark s

/-- Frame number of the wingbeat at or before a latch (R323). -/
def State.latchFrame (s : State) (n p : Nat) : Nat :=
  ((gridOf (s.governing n p)).frameAt (s.tLatch n p).toNat).getD n

/-- A lit window has ended at `t`: the report of its verdicts may go 4 µs later (R320). -/
def State.windowEnded (s : State) (n p : Nat) (t : Int) : State :=
  let f := s.latchFrame n p
  s.allChains fun h => { h with reportDue := some (t + (usU 4 : Nat), f) }

/-- Launch of LATCH for image (n, p) (R308, R317). -/
def State.latchLaunch (s : State) (n p : Nat) : State :=
  match s.plan n p with
  | some x =>
    let t := s.tApply n p
    if ¬ s.lampsOn ∨ x.load ≠ 1 ∨ x.latched ∨ ¬ s.launchDue x.lay ldLatch t then s
    else
      let s := (s.launch x.lay ldLatch p 0 t).bump (F.LDR_CNT_COUNT 1)
      let before := s.tile.lastWindow.bind fun w => s.plan w.1 w.2
      let s := match before with
        | some y => if y.ended then s else s.windowEnded y.frame y.phase t
        | none => s
      let s := s.updTile fun u => { u with
        lastWindow := some (n, p),
        bufs := u.bufs.mapIdx fun k b => if k = x.buf then .latched else if b = .latched then .free else b }
      let s := if p = 0 then s.allChains fun h => { h with cfgDue := true } else s
      let s := s.setPlan { x with latched := true }
      let s := if x.own then
          let s := (s.setFld F.RED_TILE_HOLD_FRAMES 0).setFld F.RED_TILE_STAT_BLACK 0
          { s with red := { s.red with latched := true, lastLatch := some t,
                                       holding := s.red.holding.filter fun e => !imgLt e.1 e.2 n p } }
        else s
      s.startJob
  | none => s

/-- When the lit window of (n, p) ends, or the diagnostic pulse that follows it (R320, R330). -/
def State.windowOver (s : State) (n p : Nat) : Int :=
  let r := s.governing n p
  let us := rfld r F.LDR_DIAG_WIN_PULSE_US
  let e := (s.litEnd n p).1
  if s.diagFollows n p ∧ us ≠ 0 then e + (rfld r F.LDR_DIAG_OFFSET_OFFSET_NS * nsU : Nat) + (usU us : Nat) else e

/-- Launch of BLANK END, or of BLANK DARK for a dark phase or on the way out of M5 (R67, R317, R18). -/
def State.blankLaunch (s : State) (n p : Nat) (dark : Bool) : State :=
  let t := s.tApply n p
  let k := s.symbolDelay n p 2
  if dark && s.sys.blankThenLow then
    let h := s.tblForce
    if s.launchDue h ldBlank t k then
      let s := (s.launch h ldBlank p 1 t k).emit .lampLow
      let y := s.sys
      { s with sys := { y with
          blankThenLow := false, blankThenReset := false
          resetReq := if y.blankThenReset then some 4 else y.resetReq
          resetFrom := if y.blankThenReset then t.toNat else y.resetFrom } }
    else s
  else
    match s.plan n p with
    | some x =>
      if ¬ s.lampsOn ∨ x.ended then s
      else if dark then
        if x.load = 2 ∧ s.launchDue x.lay ldBlank t k then (s.launch x.lay ldBlank p 1 t k).setPlan { x with ended := true }
        else s
      else
        let (e, gap) := s.litEnd n p
        let k := s.symbolDelay n p 1
        if x.load = 1 ∧ (x.latched ∨ s.litNs n p < 280 + 128 * k) ∧ ((8 * nsU : Nat) : Int) ≤ gap ∧
            s.launchDue x.lay ldBlank e k then
          ((s.launch x.lay ldBlank p 0 e k).setPlan { x with ended := true }).windowEnded n p (s.windowOver n p)
        else s
    | none => s

/-- Launch of DIAG after a lit window that BLANK END ended (R330). -/
def State.diagLaunch (s : State) (n p : Nat) : State :=
  match s.plan n p with
  | some x =>
    let r := s.governing n p
    let off := rfld r F.LDR_DIAG_OFFSET_OFFSET_NS
    let us := rfld r F.LDR_DIAG_WIN_PULSE_US
    let t := (s.litEnd n p).1 + (off * nsU : Nat)
    let k := s.symbolDelay n p 3
    if s.lampsOn ∧ s.diagFollows n p ∧ x.load = 1 ∧ (x.ended ∨ s.symbolDelay n p 1 < k) ∧ ¬ x.pulsed ∧
        s.launchDue x.lay ldDiag t k then
      let s := (s.launch x.lay ldDiag p us t k).setPlan { x with pulsed := true }
      if us = 0 then s else (s.windowEnded n p (t + (usU us : Nat))).bump (F.LDR_CNT_COUNT 9)
    else s
  | none => s

/-! ## Commands (R331 to R333) -/

/-- A lamp's verdict record and its age in frames (R323, R331). -/
def State.verdictOf (s : State) (c d k : Nat) : Nat × Nat :=
  let v := natLE (s.readBytes .bulk (s.verdictAddr c d k) 8)
  (v, if bitOf v 4 then min ((s.tm.curFrame + 2 ^ 48 - v / 2 ^ 16 % 2 ^ 48) % 2 ^ 48) (2 ^ 32 - 1) else 2 ^ 32 - 1)

/-- The scan itself (R331): its result words, and the state with the list written. -/
def State.lampScan (s : State) (mask : BitVec 128) (faults stale all : Bool) (ageMin addr limit : Nat) :
    List Word × State :=
  let ls := sortBy (fun a b => decide (65536 * mapChain a.2 + 1024 * mapDriver a.2 + mapPos a.2 <
      65536 * mapChain b.2 + 1024 * mapDriver b.2 + mapPos b.2))
    ((s.lampMap .bulk).filter fun e => mapEn e.2 && mask.getLsbD (mapChain e.2))
  let vs := ls.map fun e => (e, s.verdictOf (mapChain e.2) (mapDriver e.2) (mapPos e.2))
  let measured (v : Nat) : Bool := bitOf v 4
  let kept (v : Nat) : Nat := v / 4 % 4
  let aged (v : Nat × Nat) : Bool := measured v.1 && decide (ageMin ≤ v.2)
  let hits := vs.filter fun e => all || (faults && measured e.2.1 && (kept e.2.1 == 1 || kept e.2.1 == 2)) ||
    (stale && (!measured e.2.1 || aged e.2))
  let out := hits.take limit
  let bytes := out.flatMap fun e => bytesLE 4 e.1.2 ++ bytesLE 4 e.1.1 ++
    bytesLE 4 (e.2.1 % 16) ++ bytesLE 4 e.2.2
  let recs := vs.map fun e => s.verdictAddr (mapChain e.1.2) (mapDriver e.1.2) (mapPos e.1.2)
  let t := (recs.foldl (fun (t : State) a => t.accountWords .bulk a 8) (s.accountMap .bulk)).serveBytes .bulk recs
  let cnt (p : Nat × Nat → Bool) : Word := BitVec.ofNat 32 (vs.filter fun e => p e.2).length
  ([BitVec.ofNat 32 vs.length, cnt fun v => measured v.1 && kept v.1 == 0, cnt fun v => measured v.1 && kept v.1 == 1,
    cnt fun v => measured v.1 && kept v.1 == 2, cnt fun v => !measured v.1, cnt aged, BitVec.ofNat 32 hits.length,
    BitVec.ofNat 32 out.length], t.writeBytes .bulk addr bytes)

/-- `LAMP_REPORT` (R332). -/
def State.lampReport (s : State) (c d first count : Nat) : Res :=
  if 1024 < first + count then refuse s Status.badParam Reason.range 1
  else
    let v := (s.chain c).driver d
    let since := match v.seen with
      | some e => min (s.tm.curFrame - e.1) (2 ^ 32 - 1)
      | none => 2 ^ 32 - 1
    let m := s.lampMap .bulk
    let present := decide (d < s.fld (F.LDR_CHAIN_STAT_DETECTED c))
    let head : List Word := [BitVec.ofNat 32 (toBits 16 v.temp + 65536 * present.toNat), BitVec.ofNat 32 since,
      BitVec.ofNat 32 (toBits 16 v.sent + 65536 * s.tblForce.share c d), BitVec.ofNat 32 v.flags.toNat]
    let pos := (List.range count).flatMap fun i =>
      let k := first + i
      let (w, age) := s.verdictOf c d k
      let lamp := m.find? fun e => mapEn e.2 && mapKey e.2 == 64 * c + d && mapPos e.2 == k
      [BitVec.ofNat 32 (w % 64 + 64 * lamp.isSome.toNat + 4096 * (lamp.elim 0xFFFFF Prod.fst)), BitVec.ofNat 32 age]
    okRes ((s.accountMap .bulk).accountRead .bulk (s.verdictAddr c d first) (8 * count)) (head ++ pos)

/-- `DIAG_PATTERN` on lamp chains: start (R333). -/
def State.lampPatternStart (s : State) (pattern : Nat) (arg : Word) : Res :=
  if s.mode ≠ 7 then refuse s Status.notReady Reason.mode s.mode
  else if ¬ s.tblValid s.tblNow then refuse s Status.notReady Reason.noTable 0
  else if 4 ≤ pattern then refuse s Status.badParam Reason.range 0
  else okRes ((s.updTile fun t => { t with pat := some ⟨pattern, arg⟩ }).startMeasure fun _ => true)

/-- `DIAG_PATTERN` on lamp chains: stop (R333). BLANK DARK goes out as soon as no symbol is on a line (R308). -/
def State.lampPatternStop (s : State) (pattern : Nat) : Res :=
  if s.mode ≠ 7 then refuse s Status.notReady Reason.mode s.mode
  else if ¬ s.tblValid s.tblNow then refuse s Status.notReady Reason.noTable 0
  else if 4 ≤ pattern then refuse s Status.badParam Reason.range 0
  else
    let h := s.tblForce
    let busy := (s.drivenChains h).foldl (fun m c => max m (s.chain c).lineEnd) s.tick
    let t : Int := (s.clk : Int) + ((busy - s.tick) * s.inc : Nat) + (((s.lead h ldBlank).ceil * (nsU : Nat)) : Int)
    okRes (((s.launch h ldBlank 0 1 t).emit .lampLow).quietChains.updTile fun x => { x with pat := none })

end Sys2Proof.Machine
end

