-- ==== Sys2Proof/Machine/Modes.lean ====
section
/-! DEFINITION. Operating modes (R13 to R19): requests and their checks, what entering and leaving a mode does, the
automatic target, the role a host sets. -/

namespace Sys2Proof.Machine

open Sys2Proof

def State.updSys (s : State) (f : SysSt → SysSt) : State := { s with sys := f s.sys }

/-- A device reset is due, with its cause (R20); `waits` while its command's reply has to leave (R33, R93). -/
def State.requestReset (s : State) (cause : BitVec 3) (waits : Bool) : State :=
  s.updSys fun y => { y with resetReq := some cause, resetWaits := waits, resetFrom := 0 }

/-- The paths of R15 that a request takes. -/
def modePath (cur target : Nat) : Bool :=
  (cur == 1 && (target == 2 || target == 7)) || (cur == 2 && decide (3 ≤ target ∧ target ≤ 6)) ||
    (decide (3 ≤ cur ∧ cur ≤ 6) && target == 2) || (decide (2 ≤ cur ∧ cur ≤ 7) && target == 1)

/-- The exchange of R15 that only `RED_SWITCH` or a policy makes. -/
def pairPath (cur target : Nat) : Bool := (cur == 3 && target == 4) || (cur == 4 && target == 3)

/-- The role a mode belongs to. -/
def modeRole (target : Nat) : Nat :=
  if target = 3 ∨ target = 4 then roleSender else if target = 5 then roleTile else if target = 6 then roleRelay else 0

/-- The code of `REQ_ERR` for a request: the first failure in the order of R16. `pair` also opens the paths between
M3 and M4. -/
def State.modeErr (s : State) (target : Nat) (pair : Bool) : Nat :=
  let cur := s.mode
  let intoRole := decide (cur = 2 ∧ 3 ≤ target)
  if s.sys.change.isSome then 7
  else if !(modePath cur target || (pair && pairPath cur target)) then 1
  else if (cur = 1 ∧ target = 2 ∨ intoRole) ∧ s.role = 0 then 2
  else if intoRole ∧ s.role ≠ modeRole target then 3
  else if intoRole ∧ s.addr = 0 then 4
  else if intoRole ∧ target ≠ 6 ∧ s.timeState ≠ stLocked ∧ s.timeState ≠ stHoldover then 5
  else if cur = 1 ∧ 3 < s.instar ∧ target ≠ 1 then 6
  else 0

/-- Whether a change takes effect at a wingbeat (R17). -/
def atBeat (cur target : Nat) : Bool := decide (3 ≤ cur ∧ cur ≤ 5 ∨ 3 ≤ target ∧ target ≤ 5)

/-- A port stops as the mode leaves those in which ports train (R245); a check that runs on it ends (R254). -/
def State.disablePort (s : State) (q : Nat) : State :=
  if s.lnkState q = lkDisabled then s else (((s.abortCal q).endChecks q).eiosOut q).portDown q lkDisabled

/-- A tile leaves M5: changes of its sources no longer wait for an image, what it held of images goes, and a BLANK is due at
the next phase boundary (R18). -/
def State.leaveTile (s : State) : State :=
  let s := s.settleSources.stopJobs.updSys fun y => { y with blankThenLow := true }
  s.quietChains.updTile fun t => { t with
    imgs := [], begun := [], bufs := [.free, .free, .free], plans := [], lastTc := none, lastLoad := none,
    lastWindow := none }

/-- The patterns of M7 end with it. DESIGN CHOICE (log entry 69): where a lamp pattern runs as M7 is left, `LC_OUT` is held
low with no BLANK sent; R14 holds the line idle, and R18 and R333 name a BLANK for leaving M5 and for a stop only. -/
def State.leaveService (s : State) : State :=
  let s := if s.tile.pat.isSome then (s.quietChains.updTile fun t => { t with pat := none }).emit .lampLow else s
  (List.range 4).foldl (fun (t : State) q =>
    (if (t.lane q).pat.isSome then t.endChecks q else t).updLane q fun l => { l with
      pat := none, injectBit := 0, injectLane := 0, injectLcb := 0, need := false }) s

/-- The device enters a mode (R14). -/
def State.enterMode (s : State) (m : Nat) : State :=
  let old := s.mode
  let was := s.ingests
  let s := s.setFld F.SYS_MODE_CUR m
  let s := if m ≤ 1 then (List.range 4).foldl State.disablePort s else s
  let s := if m = 2 then (List.range 4).foldl State.dropRaster s else s
  let s := if old = 5 ∧ m ≠ 5 then s.leaveTile else s
  let s := if old = 7 ∧ m ≠ 7 then s.leaveService else s
  let s := if m = 5 ∧ old ≠ 5 then
      (s.updSys fun y => { y with blankThenLow := false }).startMeasure fun _ => true
    else s
  let s := if s.ingests ∧ ¬ was then (List.range 32).foldl State.restartStream s else s
  let s := if was ∧ ¬ s.ingests then
      (s.updCmp fun c => { c with running := false, inFlight := [], captures := [] }).setFld F.MAP_WB_STAT_ACTIVE 0
    else s
  s.rejoin

/-- The mode requested is in force (R16). -/
def State.modeDone (s : State) : State :=
  (s.updSys fun y => { y with
    change := none, auto := if y.auto.any fun t => t.toNat == s.mode then none else y.auto }).setFld F.SYS_MODE_BUSY 0

/-- A request for a mode (R16). From its acceptance on a change into M2 has `CUR` read 2 and the device work as in M2,
whatever the mode it leaves (R16; log entry 23). -/
def State.requestMode (s : State) (target : Nat) (pair : Bool := false) : State :=
  let e := s.modeErr target pair
  let s := (s.setFld F.SYS_MODE_LAST_REQ target).setFld F.SYS_MODE_REQ_ERR e
  if e ≠ 0 then s
  else
    let s := (s.updSys fun y => { y with change := some { target := BitVec.ofNat 3 target, origin := BitVec.ofNat 3 s.mode, at_ := s.clk } }).setFld F.SYS_MODE_BUSY 1
    if target = 2 then s.enterMode 2 else s

/-- A write of `SYS_MODE_REQ` by the host: the pursuit of an automatic target ends (R16, R19). -/
def State.writeModeReq (s : State) (target : Nat) : State :=
  let s := s.updSys fun y => { y with auto := none }
  (s.setFld F.SYS_MODE_REQ_TARGET target).requestMode target

/-- The mode's part of a wingbeat at instant `t` (R17): the first at least 1 ms after the request. A change into M2 has
been in force since its acceptance (R16); what is left of it is its completion. -/
def State.modeBeat (s : State) (t : Nat) : State :=
  match s.sys.change with
  | some c =>
    if atBeat c.origin.toNat c.target.toNat ∧ c.at_ + usU 1000 ≤ t then
      if c.target = 2 then s.updSys fun y => { y with change := some { c with beat := true } }
      else (s.enterMode c.target.toNat).modeDone
    else s
  | none => s

/-- Whether training has ended on a port (R17, R240): ACTIVE or FAILED, or no partner after 10 ms. -/
def State.trainingEnded (s : State) (q : Nat) : Bool :=
  let st := s.lnkState q
  !s.bit (F.LNK_CTRL_EN q) || decide (lkActive ≤ st) ||
    (st == lkClock && decide ((s.lane q).since + usTicks 10000 ≤ s.tick))

/-- A change that no wingbeat makes is complete (R17). -/
def State.modeComplete (s : State) : State :=
  match s.sys.change with
  | some c =>
    if c.target = 2 then
      if (atBeat c.origin.toNat 2 → c.beat = true) ∧ (List.range 4).all s.trainingEnded then s.modeDone else s
    else if atBeat c.origin.toNat c.target.toNat then s
    else (s.enterMode c.target.toNat).modeDone
  | none => s

/-- A step of the pursuit of an automatic target (R19). -/
def State.autoStep (s : State) : State :=
  match s.sys.auto with
  | some t =>
    if s.sys.change.isSome then s
    else if s.mode = t.toNat then s.updSys fun y => { y with auto := none }
    else if s.mode = 1 then s.requestMode 2
    else if s.mode = 2 then s.requestMode t.toNat
    else s
  | none => s

/-- A write of `SYS_ROLE.ROLE_SET` (R12, R13). -/
def State.setRole (s : State) (role : Nat) : State :=
  if s.role ≠ 0 then s
  else
    let s := s.setFld F.SYS_ROLE_ROLE_SET role
    if role = 0 then s else (s.setFld F.SYS_ROLE_ROLE role).setFld F.SYS_ROLE_SOURCE 3

end Sys2Proof.Machine
end

