-- ==== Sys2Proof/Machine/Fabric.lean ====
section
/-! DEFINITION. The fabric layer (spec/10): checks on a received cell, delivery, routing, holds, probes, path tests,
credits, arbitration. -/

namespace Sys2Proof.Machine

open Sys2Proof

/-! ## Reason codes (R274) -/

namespace Reason
def bulkFull : Nat := 0x0500
def portDown : Nat := 0x0501
def noAnswer : Nat := 0x0502
def assignRefused : Nat := 0x0503
end Reason

def State.updFab (s : State) (f : FabSt → FabSt) : State := { s with fab := f s.fab }

/-! ## Delivery and routing (R260, R261, R263) -/

/-- Copies of a received cell on ports, `HOP` grown by one; the last copy takes the cell's place in the receive
buffer of `arrival` with it (R261, R269). -/
def State.forwardOn (s : State) (c : Cell) (arrival : Option (BitVec 2)) (ps : List Nat) : State :=
  let d := cellWithHop c (c.hop.toNat + 1)
  let s := s.bump (F.FAB_CNT_COUNT 1) ps.length
  match ps.getLast? with
  | none => s
  | some z => (ps.dropLast.foldl (fun (t : State) q => t.enqueue q d false) s).enqueue z d false arrival

/-- A cell routed by table leaves, or is discarded and counted (R261). A cell of the device itself has no port of
arrival; one that is `buffered` stands in the receive buffer of its port, and frees its place as it goes. -/
def State.routeCell (s : State) (c : Cell) (arrival : Option (BitVec 2)) (buffered : Bool) : State :=
  let ps := s.routePorts s.fab.routes c.dst arrival
  match arrival with
  | none => s.sendOwn c
  | some a =>
    let freed := if buffered then s.freeCredits a.toNat c else s
    if ps = [] then (if freed.toSelf c.dst then freed else freed.bump (F.FAB_CNT_COUNT 7))
    else if 64 ≤ c.hop.toNat then freed.bump (F.FAB_CNT_COUNT 8)
    else s.forwardOn c (if buffered then arrival else none) ps

/-- A received cell that is to be routed: held, kept on its port while the hold queue is full, or routed. -/
def State.forwardCell (s : State) (q : Nat) (c : Cell) (buffered : Bool) : State :=
  let from_ := some (BitVec.ofNat 2 q)
  if s.mustHold c ∨ (s.portQ q).blocked.any (fun b => b.cell.dst == c.dst) then
    if s.holdRoom c ∧ (s.portQ q).blocked.all (fun b => b.cell.dst != c.dst) then
      let t := s.holdCell c from_
      if buffered then t.freeCredits q c else t
    else s.updPortQ q fun p => { p with blocked := p.blocked ++ [⟨c, s.tick, false, if buffered then from_ else none⟩] }
  else s.routeCell c from_ buffered

/-- The end of the last `ROUTE_HOLD_US` (R263): the hold queue, then the cells that waited for it, leave in order. DESIGN
CHOICE (log entry 52): where the table changes again while a hold runs, everything held leaves at the end of the last one. -/
def State.holdExpiry (s : State) : State :=
  match s.fab.holdEnd with
  | some e =>
    if e ≤ s.tick then
      let held := s.fab.hold
      let own := s.fab.ownWait
      let s := s.updFab fun f => { f with holdEnd := none, hold := [], oldRoutes := [], ownWait := [] }
      -- a held cell has left its receive buffer already
      let s := held.foldl (fun (t : State) h => t.routeCell h.cell h.arrival false) s
      let s := own.foldl State.sendOwn s
      (List.range 4).foldl (fun (t : State) q =>
        let b := (t.portQ q).blocked
        b.foldl (fun (u : State) e => u.routeCell e.cell (some (BitVec.ofNat 2 q)) e.frees.isSome)
          (t.updPortQ q fun p => { p with blocked := [] })) s
    else s
  | none => s

/-- A table with entries `first` onward replaced, and the default where it is set (R262). -/
def RouteTable.put (t : RouteTable) (first : Nat) (setDef : Bool) (defPorts : BitVec 4) (es : List RouteEntry) :
    RouteTable :=
  { entries := (List.range es.length).foldl (fun l i => l.set (first + i) (es.getD i ⟨0, 0, 0, false⟩)) t.entries,
    defPorts := if setDef then defPorts else t.defPorts }

/-- The route table changes (R262, R263): between two cells, and a hold begins. -/
def State.setRoutes (s : State) (first : Nat) (setDef : Bool) (defPorts : BitVec 4) (es : List RouteEntry) : State :=
  if es = [] ∧ setDef = false then s
  else
    let e := s.tick + usTicks (s.fld F.FAB_CFG_ROUTE_HOLD_US)
    s.updFab fun f => { f with
      routes := f.routes.put first setDef defPorts es
      oldRoutes := (f.oldRoutes.filter fun o => decide (s.tick < o.2)) ++ [(f.routes, e)], holdEnd := some e }

/-! ## Checks (R14, R257, R259) -/

/-- The cell types a mode allows on a fabric port (R14). -/
def typeAllowed (mode : Nat) (t : BitVec 6) : Bool :=
  if mode = 2 then t != CellType.raster
  else 3 ≤ mode && mode ≤ 6

/-- The first check of R259 that a cell fails, 0 when it passes. -/
def State.cellCheck (s : State) (c : Cell) : Nat :=
  if c.hchk ≠ crc8 (cellHead c) then 1
  else if 1024 < c.len.toNat then 2
  else if c.crc ≠ cellCrc c then 3
  else if classOf c.typ ≠ some c.cls then 4
  else if typeAllowed s.mode c.typ = false then 5
  else 0

/-! ## Probes (R264 to R267) -/

/-- Payload bytes with one replaced. -/
def putByte (bs : List Byte) (i : Nat) (b : Byte) : List Byte := bs.set i b

/-- Entry `h` of a route list that starts at byte `base` (R264). -/
def hopGet (bs : List Byte) (base h : Nat) : Nat := (bs.getD (base + h / 4) 0).toNat / 4 ^ (3 - h % 4) % 4

def hopSet (bs : List Byte) (base h v : Nat) : List Byte :=
  let i := base + h / 4
  let b := (bs.getD i 0).toNat
  let w := 4 ^ (3 - h % 4)
  putByte bs i (BitVec.ofNat 8 (b - b / w % 4 * w + v % 4 * w))

/-- A probe payload (R264). -/
def probeBytes (kind routeLen : Nat) (id : BitVec 16) (fwd ret : List Byte) (body : List Byte) : List Byte :=
  ([BitVec.ofNat 8 kind, BitVec.ofNat 8 routeLen] ++ bytesBE 2 id.toNat ++ fwd.take 16 ++ ret.take 16 ++ body ++
    List.replicate 28 0).take 64

/-- A probe of the device itself: counted, numbered, sent on a port that is ACTIVE (R257, R265). -/
def State.sendProbe (s : State) (q : Nat) (dst : BitVec 16) (payload : List Byte) : State :=
  let c := mkCell CellType.probe dst s.addr 1 s.fab.probeCount 0 payload
  (((s.bump (F.FAB_CNT_COUNT 0)).updFab fun f => { f with probeCount := f.probeCount + 1 })).enqueue q c true

/-- `ASSIGN_REQ` at its end of route (R267): the result code, and the state with the address set. -/
def State.assignSelf (s : State) (serial : BitVec 64) (newAddr : BitVec 16) : Nat × State :=
  if serial ≠ s.sec.fuses.serial then (1, s)
  else if s.mode = 1 ∨ s.mode = 2 then
    (0, (s.setFld F.FAB_ADDR_ADDR newAddr.toNat).setFld F.FAB_ADDR_VALID 1)
  else (2, s)

/-- `TIME_ROOT.ROOT`: the root followed, or on a root the device's own address. -/
def State.rootAddr (s : State) : BitVec 16 := if s.isRoot then s.addr else s.tm.root.getD 0

/-- `BODY` of PROBE_ANS (R266), arriving on port `q`. -/
def State.probeBody (s : State) (q : Nat) : List Byte :=
  bytesBE 8 s.sec.fuses.serial.toNat ++ bytesBE 2 s.addr.toNat ++
    [BitVec.ofNat 8 (s.role + 4 * s.fld F.FAB_ADDR_VALID), BitVec.ofNat 8 (s.mode + 16 * s.instar)] ++
    ((List.range 4).map fun p => BitVec.ofNat 8 (s.lnkState p + 16 * s.fld (F.LNK_STAT_WIDTH p) +
      64 * s.fld (F.LNK_STAT_CONNECTED p))) ++
    [BitVec.ofNat 8 q, BitVec.ofNat 8 (s.fld F.TIME_STAT_STATE + 4 * s.fld F.TIME_STAT_SOURCE)] ++
    bytesBE 2 s.rootAddr.toNat

/-- An answer that reaches the end of its route is the result of the operation that waits for its `PROBE_ID`. -/
def State.takeAnswer (s : State) (p : List Byte) : State :=
  let id : BitVec 16 := BitVec.ofNat 16 (fieldBE p 2 2)
  if s.fab.probes.any fun w => w.id == id && w.answer.isNone then
    s.updFab fun f => { f with probes := f.probes.map fun w =>
      if w.id == id && w.answer.isNone then { w with answer := some p } else w }
  else s.bump (F.FAB_CNT_COUNT 13)

/-- A source-routed probe (R265, R267); one that is not forwarded frees its place in the receive buffer at once. -/
def State.probeHop (s : State) (q : Nat) (c : Cell) : State :=
  let k := c.hop.toNat + 1
  let len := (c.payload.getD 1 0).toNat
  let freed := s.freeCredits q c
  let drop := freed.bump (F.FAB_CNT_COUNT 13)
  if c.payload.length ≠ 64 ∨ 64 < len ∨ len < k then drop
  else
    let p := hopSet c.payload 20 (k - 1) q
    if k < len then
      let out := hopGet p 4 k
      if s.lnkState out = lkActive then
        let d := cellSeal { c with payload := p, hop := BitVec.ofNat 8 k }
        (s.bump (F.FAB_CNT_COUNT 1)).enqueue out d false (some (BitVec.ofNat 2 q))
      else drop
    else
      let kind := (p.getD 0 0).toNat
      let id : BitVec 16 := BitVec.ofNat 16 (fieldBE p 2 2)
      if kind = 0 ∨ kind = 2 ∨ kind = 4 then
        let fwd := (List.range len).foldl (fun b i => hopSet b 0 i (hopGet p 20 (len - 1 - i))) (List.replicate 16 0)
        let (body, t) : List Byte × State :=
          if kind = 0 then (freed.probeBody q, freed)
          else if kind = 2 then
            let (r, t) := freed.assignSelf (BitVec.ofNat 64 (fieldBE p 36 8)) (BitVec.ofNat 16 (fieldBE p 44 2))
            (bytesBE 8 t.sec.fuses.serial.toNat ++ bytesBE 2 t.addr.toNat ++ [BitVec.ofNat 8 r], t)
          else (slice p 36 12 ++ [BitVec.ofNat 8 k], freed)
        let out := hopGet fwd 0 0
        if t.lnkState out = lkActive then
          t.sendProbe out 0xFFFF (probeBytes (kind + 1) len id fwd (List.replicate 16 0) body)
        else t.bump (F.FAB_CNT_COUNT 13)
      else if kind = 1 ∨ kind = 3 ∨ kind = 5 then freed.takeAnswer p
      else drop

/-! ## Path tests (R268) -/

/-- Local time in whole ns since second 0. -/
def State.nowWholeNs (s : State) : Nat := s.clk / nsU

/-- A PATH_ANS for the device (R268): the test that waits for its `PROBE_ID` counts it. -/
def State.pathAnswer (s : State) (p : List Byte) : State :=
  let id : BitVec 16 := BitVec.ofNat 16 (fieldBE p 2 2)
  if s.fab.tests.any fun t => t.id == id then
    let seq := fieldBE p 36 4
    let rtt := s.nowWholeNs - fieldBE p 40 8
    s.updFab fun f => { f with tests := f.tests.map fun t =>
      if t.id == id then
        { t with
          answered := t.answered + 1, outOfOrder := if seq < t.expect then t.outOfOrder + 1 else t.outOfOrder,
          expect := max t.expect (seq + 1), least := if t.answered = 0 then rtt else min t.least rtt,
          sum := t.sum + rtt, greatest := max t.greatest rtt, hops := p.getD 48 0 }
      else t }
  else s.bump (F.FAB_CNT_COUNT 13)

/-- A PATH_REQ or PATH_ANS delivered to the device (R266, R268). The answer to the device itself stays in it (R260). -/
def State.pathProbe (s : State) (c : Cell) : State :=
  let p := c.payload
  let kind := (p.getD 0 0).toNat
  if kind = 4 then
    let ans := probeBytes 5 (p.getD 1 0).toNat (BitVec.ofNat 16 (fieldBE p 2 2)) (List.replicate 16 0) (List.replicate 16 0)
      (slice p 36 12 ++ [BitVec.ofNat 8 (c.hop.toNat + 1)])
    let d := mkCell CellType.probe c.src s.addr 0 s.fab.probeCount 0 ans
    let t := (s.updFab fun f => { f with probeCount := f.probeCount + 1 }).originate d
    if c.src ≠ 0 ∧ c.src = s.addr then (t.bump (F.FAB_CNT_COUNT 2)).pathAnswer ans else t
  else if kind = 5 then s.pathAnswer p
  else s.bump (F.FAB_CNT_COUNT 13)

/-- The next PATH_REQ of a running path test, one every 10 µs (R268); one to the device itself is
delivered in it (R260), and without an address none leaves. -/
def State.pathTestSend (s : State) (slot : BitVec 4) (target plen count : Nat) : State :=
  match s.fab.tests.find? fun t => t.slot == slot with
  | some t =>
    if t.sent < count ∧ (t.sent = 0 ∨ t.last + usTicks 10 ≤ s.tick) then
      let s := s.updFab fun f => { f with tests := f.tests.map fun x =>
        if x.slot == slot then { x with sent := x.sent + 1, last := s.tick } else x }
      if s.addr = 0 then s
      else
        let body := bytesBE 4 t.sent ++ bytesBE 8 s.nowWholeNs
        let p := (probeBytes 4 0 t.id (List.replicate 16 0) (List.replicate 16 0) body ++ List.replicate plen 0).take plen
        let d := mkCell CellType.probe (BitVec.ofNat 16 target) s.addr 0 s.fab.probeCount 0 p
        let t := (s.updFab fun f => { f with
          probeCount := f.probeCount + 1
          tests := f.tests.map fun x => if x.slot == slot then { x with left := x.left + 1 } else x }).originate d
        if s.toSelf (BitVec.ofNat 16 target) then (t.bump (F.FAB_CNT_COUNT 2)).pathProbe d else t
    else s
  | none => s

/-! ## Credits (R269) -/

/-- An SVC cell's counts restore the transmitter's credits. -/
def State.svcCell (s : State) (q : Nat) (c : Cell) : State :=
  if c.payload.length = 16 then
    let counts := (List.range 3).map fun i => (BitVec.ofNat 32 (fieldBE c.payload (4 * i) 4) : Word)
    s.updPortQ q fun p => { p with
      credits := (List.range 3).map fun i =>
        p.credits.getD i 0 + ((counts.getD i 0) - (p.partnerFreed.getD i 0)).toNat
      partnerFreed := counts }
  else s

/-- Whether an SVC cell is due (R269). -/
def State.svcDue (s : State) (q : Nat) : Bool :=
  let p := s.portQ q
  s.carries q &&
    ((List.range 3).any (fun i => decide (16 ≤ (p.freed.getD i 0 - p.freedSent.getD i 0).toNat)) ||
     p.freedTick.any (fun t => decide (t + usTicks 1 ≤ s.tick)) || decide (p.svcTick + usTicks 100 ≤ s.tick))

/-- Credits are returned in an SVC cell (R269). -/
def State.creditReturn (s : State) (q : Nat) : State :=
  if s.svcDue q then
    let p := s.portQ q
    let c := mkCell CellType.svc 0xFFFF s.addr 0 0 0
      ((p.freed.flatMap wordBytes ++ List.replicate 16 0).take 16)
    let s := s.updPortQ q fun p => { p with freedSent := p.freed, freedTick := none, svcTick := s.tick }
    (s.bump (F.FAB_CNT_COUNT 0)).enqueue q c true
  else s

/-! ## Arbitration (R270) -/

/-- Cells of a class queued on a port. -/
def PortQ.queue (p : PortQ) (c : Nat) : List QCell :=
  match c with | 0 => p.t0 | 1 => p.t1 | 2 => p.t2 | _ => p.t3

def PortQ.setQueue (p : PortQ) (c : Nat) (l : List QCell) : PortQ :=
  match c with | 0 => { p with t0 := l } | 1 => { p with t1 := l } | 2 => { p with t2 := l } | _ => { p with t3 := l }

/-- Whether the head of a class has the credits it needs. -/
def PortQ.canSend (p : PortQ) (c : Nat) : Bool :=
  match (p.queue c).head? with
  | some e => c = 0 || decide (cellCredits e.cell ≤ p.credits.getD (c - 1) 0)
  | none => false

/-- T2 against T3 by deficit round robin with quanta of 3,072 and 1,024 bytes: the class whose cell is sent, with the
deficits after. A class without credits is passed over and gains nothing; an empty one loses its deficit. -/
def PortQ.roundRobin (p : PortQ) : Nat → Option Nat × PortQ
  | 0 => (none, p)
  | n + 1 =>
    let c := if p.turn3 then 3 else 2
    let d := if p.turn3 then p.deficit3 else p.deficit2
    let size := ((p.queue c).head?.map fun e => cellOccupied e.cell).getD 0
    if p.canSend c ∧ size ≤ d then
      (some c, if p.turn3 then { p with deficit3 := d - size } else { p with deficit2 := d - size })
    else
      let p := if (p.queue c) = [] then (if p.turn3 then { p with deficit3 := 0 } else { p with deficit2 := 0 }) else p
      let p := { p with turn3 := !p.turn3 }
      let p := if p.turn3 then (if p.canSend 3 then { p with deficit3 := p.deficit3 + 1024 } else p)
        else (if p.canSend 2 then { p with deficit2 := p.deficit2 + 3072 } else p)
      PortQ.roundRobin p n

/-- The T1 tokens of a port at a tick: `RES` / 120 payload bytes a tick, at most 8,192; in 1/120 byte. -/
def State.tokens (s : State) (q : Nat) : Nat :=
  let p := s.portQ q
  min (8192 * 120) (p.tokens + s.fld (F.MAP_PORT_RES_RES q) * (s.tick - p.tokTick))

/-- The tokens gained so far are taken at the rates in force, before a commit changes `MAP_PORT_RES` (R270). -/
def State.settleTokens (s : State) : State :=
  (List.range 4).foldl (fun (t : State) q => t.updPortQ q fun p => { p with tokens := s.tokens q, tokTick := s.tick }) s

/-- The class whose head leaves next, and the port with tokens and deficits after the choice. -/
def State.choose (s : State) (q : Nat) : Option Nat × PortQ :=
  let tok := s.tokens q
  let p := { s.portQ q with tokens := tok, tokTick := s.tick }
  if p.t0 ≠ [] then (some 0, p)
  else
    let len := ((p.t1.head?.map fun e => e.cell.len.toNat).getD 0) * 120
    if p.canSend 1 ∧ len ≤ tok then (some 1, { p with tokens := tok - len })
    else
      -- deficits change only where a cell can be sent
      let other := if p.canSend 2 ∨ p.canSend 3 then p.roundRobin 8 else (none, p)
      match other with
      | (some c, p) => (some c, p)
      | (none, _) => if p.canSend 1 then (some 1, p) else (none, p)

/-- The choice at a cell boundary of the next cell to send (R270): while less than one frame's slots wait. -/
def State.arbitrate (s : State) (q : Nat) : State :=
  if s.lnkState q ≠ lkActive ∨ s.mode = 7 ∨ 32 * (s.activeLanes q).length < (s.lane q).slots.length then s
  else
    match s.choose q with
    | (none, _) => s
    | (some c, p) =>
      match p.queue c with
      | [] => s
      | e :: rest =>
        let rest := match rest with | [] => [] | x :: t => { x with since := s.tick } :: t
        let p := p.setQueue c rest
        let p := if c = 0 then p else { p with credits := p.credits.modify (c - 1) fun v => v - cellCredits e.cell }
        let s := s.setPortQ q p
        let s := (s.bump (F.FAB_CLS_CNT_COUNT q c 0)).bump (F.FAB_CLS_CNT_COUNT q c 1) e.cell.len.toNat
        let s := if s.fld F.FAB_CFG_DELAY_THR < s.tick - e.since then s.bump (F.FAB_CLS_CNT_COUNT q c 2) else s
        let s := if c = 3 then s.updPortQ q fun p => { p with
            t3Sent := (s.tick, cellOccupied e.cell) :: p.t3Sent.filter fun x => decide (s.tick < x.1 + msTicks) }
          else s
        let s := match e.frees with | some a => s.freeCredits a.toNat e.cell | none => s
        (s.updLane q fun l => l.addCell e.cell).emit (.cell (BitVec.ofNat 2 q) e.cell)

/-! ## Receipt (R259 to R261) -/

/-- Whether a relaying sender takes a reply: its `SRC` stands in the relay table (R78, R79). -/
def State.relayTakes (s : State) (c : Cell) : Bool :=
  s.relays && c.typ == CellType.reply && s.cmd.relay.any fun e => e.1 == c.dst

/-- Whether a reply has reached a relaying sender that has no entry for its `SRC`: the route table leads no further. It is
discarded as any cell that goes nowhere (R261), and counted as R78 says of it. -/
def State.relayLost (s : State) (c : Cell) (q : Nat) : Bool :=
  s.relays && c.typ == CellType.reply && !s.toSelf c.dst && !s.relayTakes c &&
    (s.routePorts s.fab.routes c.dst (some (BitVec.ofNat 2 q))).isEmpty && !s.mustHold c

/-- A failure of order 1 or 2 has the port pass over what follows up to a slot that begins with a cell (R259): later slots, and
the cells that come with no frame between. -/
def State.resync (s : State) (q k : Nat) : State :=
  if k = 1 ∨ k = 2 then
    s.updLane q fun l => { l with rx := { part := [], start := false, hunt := true }, rowHunt := true }
  else s

/-- A received cell as far as the fabric layer takes it: checked, its route taken, probes and credits handled. What
is left for the device itself is answered with the state: a raster cell, a command or bulk segment, a reply. -/
def State.recvCell (s : State) (q : Nat) (c : Cell) : Option Cell × State :=
  if ¬ s.carries q then (none, s)
  else if (s.lane q).rowHunt then (none, s.freeCredits q c)
  else
    let s := s.bump (F.FAB_CLS_CNT_COUNT q c.cls.toNat 3)
    match s.cellCheck c with
    | 0 =>
      if c.typ = CellType.svc then (none, s.svcCell q c)
      else if c.typ = CellType.time then (none, s)
      else if c.typ = CellType.probe ∧ c.flags.getLsbD 0 then
        (none, s.probeHop q c)
      else
        let mine := s.toSelf c.dst || s.relayTakes c
        let lost := s.relayLost c q
        let here : Bool := (c.dst == s.addr && s.addr != 0) || (!s.toSelf c.dst && mine)
        let s := if mine then s.bump (F.FAB_CNT_COUNT 2) else s
        let s := if here then s.freeCredits q c else s.forwardCell q c true
        if mine ∧ c.typ = CellType.probe then (none, s.pathProbe c)
        else (if mine || lost then some c else none, s)
    | k => (none, ((s.freeCredits q c).cellFail q c k).resync q k)

/-! ## Commands (R262, R267, R268) -/

/-- Whether `FWD` entry 0 of a command's route words names a port that is not ACTIVE (R268). -/
def routeBytes (fwd : BitVec 128) : List Byte := bytesBE 16 fwd.toNat

/-- `FAB_ROUTE_SET` outside a transaction (R262). -/
def State.routeSet (s : State) (first : Nat) (setDef : Bool) (defPorts : BitVec 4) (es : List RouteEntry) : Res :=
  if 64 < first + es.length then refuse (s.bump (F.TXN_CNT_COUNT 1)) Status.infeasible 0x0134 2
  else okRes (s.setRoutes first setDef defPorts es)

/-- A request probe for an operation or a session; a device without an address originates none (R260). -/
def State.startProbe (s : State) (who : ProbeFor) (kind routeLen : Nat) (fwd : BitVec 128) (body : List Byte) : State :=
  let id := s.fab.probeId
  let s := s.updFab fun f => { f with
    probeId := f.probeId + 1, probes := f.probes ++ [⟨id, who, s.tick, none⟩] }
  if s.addr = 0 then s
  else s.sendProbe (hopGet (routeBytes fwd) 0 0) 0xFFFF
    (probeBytes kind routeLen id (routeBytes fwd) (List.replicate 16 0) body)

/-- Checks of `FAB_PROBE` and `FAB_ASSIGN` at dispatch (R268): the refusal, if any. -/
def State.probeRefused (s : State) (least routeLen : Nat) (fwd : BitVec 128) : Option Res :=
  if routeLen < least ∨ 64 < routeLen then some (refuse s Status.badParam Reason.range 0)
  else
    let p := hopGet (routeBytes fwd) 0 0
    if routeLen ≠ 0 ∧ s.lnkState p ≠ lkActive then some (refuse s Status.notReady Reason.portDown p) else none

end Sys2Proof.Machine
end

