-- ==== Sys2Proof/Machine/Raster.lean ====
section
/-! DEFINITION. Region map, raster cells, the fabric check and write-back (spec/08). -/

namespace Sys2Proof.Machine

open Sys2Proof

/-! ## Region map tables (R205 to R208) -/

namespace Reason
def tableLive : Nat := 0x0300
end Reason

/-- Address of region-map table `t` (R205). -/
def mapBase (t : Nat) : Nat := 0xFF00080000 + 0x2000 * t

/-- An entry of a region-map table (R205). -/
structure MapEntry where
  dst : Nat
  rot : Nat
  mirror : Bool
  format : Nat
  en : Bool
  x : Nat
  y : Nat
  rw : Nat
  rh : Nat
deriving DecidableEq, Repr

def State.mapWord (s : State) (t e w : Nat) : Nat :=
  natLE ((List.range 4).map fun i => s.byte (mapBase t + 16 * e + 4 * w + i))

def State.mapEntry (s : State) (t e : Nat) : MapEntry :=
  let w0 := s.mapWord t e 0
  let w1 := s.mapWord t e 1
  let w2 := s.mapWord t e 2
  { dst := w0 % 2 ^ 16, rot := w0 / 2 ^ 16 % 4, mirror := bitOf w0 18, format := w0 / 2 ^ 19 % 4, en := bitOf w0 31,
    x := w1 % 2 ^ 15, y := w1 / 2 ^ 16 % 2 ^ 15, rw := w2 % 2 ^ 16, rh := w2 / 2 ^ 16 % 2 ^ 16 }

/-- Slice dimensions (R208). -/
def MapEntry.sw (e : MapEntry) : Nat := if e.rot % 2 = 0 then e.rw else e.rh
def MapEntry.sh (e : MapEntry) : Nat := if e.rot % 2 = 0 then e.rh else e.rw

/-- Rows 1 to 4 of R207 for one entry. -/
def State.entryRow (s : State) (e : MapEntry) : Nat :=
  if e.dst = 0 ∨ 0xFFF0 ≤ e.dst then 1
  else if 2 ≤ e.format then 2
  else if e.rw = 0 ∨ e.rh = 0 ∨ 349525 < e.rw * e.rh then 3
  else if e.x < s.regionX ∨ e.y < s.regionY ∨ s.regionX + s.regionW < e.x + e.rw ∨
      s.regionY + s.regionH < e.y + e.rh then 4
  else 0

/-- The enabled entries below `COUNT` in ascending index, each with its row of R207. -/
def State.mapRows (s : State) : List (Nat × MapEntry × Nat) :=
  let t := s.fld F.MAP_CTRL_TABLE
  let all := ((List.range (min 512 (s.fld F.MAP_CTRL_COUNT))).map fun k => (k, s.mapEntry t k)).filter fun e => e.2.en
  (all.foldl (fun (acc : List (Nat × MapEntry × Nat) × List Nat) e =>
    let r := s.entryRow e.2
    if r ≠ 0 then (acc.1 ++ [(e.1, e.2, r)], acc.2)
    else if acc.2.contains e.2.dst then (acc.1 ++ [(e.1, e.2, 5)], acc.2)
    else (acc.1 ++ [(e.1, e.2, 0)], e.2.dst :: acc.2)) ([], [])).1

/-- Valid enabled entries. -/
def State.mapValid (s : State) : List (Nat × MapEntry) :=
  (s.mapRows.filter fun e => e.2.2 == 0).map fun e => (e.1, e.2.1)

/-- The region map's part of a wingbeat (R207): `MAP_STAT`, `MAP_ENT_BAD` and the record of a change. -/
def State.mapBeat (s : State) : State :=
  if s.role = roleSender then
    let rows := s.mapRows
    let bad := rows.filter fun e => e.2.2 ≠ 0
    let words := (List.range 16).map fun k =>
      (bad.filter fun e => e.1 / 32 = k).foldl (fun w e => w + 2 ^ (e.1 % 32)) 0
    let old := (List.range 16).map fun k => s.fld (F.MAP_ENT_BAD_BAD k)
    let first := bad.head?
    let s := (List.range 16).foldl (fun (t : State) k => t.setFld (F.MAP_ENT_BAD_BAD k) (words.getD k 0)) s
    let s := s.setFld F.MAP_STAT_VALID (rows.length - bad.length)
    let s := s.setFld F.MAP_STAT_FIRST_BAD (first.elim 0 fun e => e.1)
    let s := s.setFld F.MAP_STAT_FIRST_ERR (first.elim 0 fun e => e.2.2)
    let s := s.setBit F.MAP_STAT_BAD first.isSome
    if words = old then s
    else s.log Rec.mapEntryCfg (bytesBE 2 (first.elim 0xFFFF fun e => e.1) ++
      [BitVec.ofNat 8 (first.elim 0 fun e => e.2.2)] ++ bytesBE 2 bad.length)
  else s

/-- Tables that neither copy of `MAP_CTRL.TABLE` selects are writable (R206). -/
def State.mapWritable (s : State) (t : Nat) : Bool :=
  s.fld F.MAP_CTRL_TABLE ≠ t && F.MAP_CTRL_TABLE.get (s.shadowWord F.MAP_CTRL_TABLE.addr) ≠ t

/-- A write of `n` bytes at `a` that would touch a region-map table that is not writable: its number (R206). -/
def State.mapLocked (s : State) (a n : Nat) : Option Nat :=
  [0, 1].find? fun t => overlaps a n (mapBase t) 0x2000 && !s.mapWritable t

/-! ## Formats (R209 to R211) -/

/-- LOG36 code of a composite component, exact (R209): code c needs x^512 > 2^(2(c - 3072) - 1). -/
def log36 (b : BitVec 16) : Nat :=
  let x := halfVal (b.toNat % 0x8000)
  if x = 0 ∨ x ^ 256 < pow2 (-3327) then 0
  else
    max 1 (((List.range 12).map fun i => 2 ^ (11 - i)).foldl (fun c d =>
      if c + d ≤ 4095 ∧ pow2 (2 * (((c + d : Nat) : Int) - 3072) - 1) ≤ x ^ 512 then c + d else c) 0)

/-- Bits of a pixel. -/
def pixelBits (format : Nat) : Nat := if format = 0 then 36 else 48

/-- A pixel's bits, R in the most significant place (R211). -/
def encodePixel (format : Nat) (p : BitVec 16 × BitVec 16 × BitVec 16) : Nat :=
  if format = 0 then log36 p.1 * 2 ^ 24 + log36 p.2.1 * 2 ^ 12 + log36 p.2.2
  else p.1.toNat * 2 ^ 32 + p.2.1.toNat * 2 ^ 16 + p.2.2.toNat

/-- The pixel data of a cell: pixels packed most significant bit first, the last byte filled with zeros (R211). -/
def packPixels (format : Nat) (ps : List (BitVec 16 × BitVec 16 × BitVec 16)) : List Byte :=
  let bits := pixelBits format * ps.length
  let v := ps.foldl (fun a p => a * 2 ^ pixelBits format + encodePixel format p) 0
  bytesBE (ceilDiv bits 8) (v * 2 ^ (8 * ceilDiv bits 8 - bits))

/-! ## Cells (R212 to R216, R338) -/

/-- Pixels of a full cell (R212). -/
def cellPixels (format : Nat) : Nat := if format = 0 then 224 else 168

/-- The run of canvas line `b` of an entry: index of its first pixel, `DIR`, step (R212). -/
def MapEntry.run (e : MapEntry) (b : Nat) : Nat × Nat × Int :=
  let w := e.sw
  let h := e.sh
  let at_ (u v : Nat) : Nat := v * w + u
  match e.rot, e.mirror with
  | 0, false => (at_ 0 b, 0, 1)
  | 0, true => (at_ (w - 1) b, 1, -1)
  | 1, false => (at_ (w - 1 - b) 0, 2, w)
  | 1, true => (at_ b 0, 2, w)
  | 2, false => (at_ (w - 1) (h - 1 - b), 1, -1)
  | 2, true => (at_ 0 (h - 1 - b), 0, 1)
  | _, false => (at_ b (h - 1), 3, -(w : Int))
  | _, true => (at_ (w - 1 - b) (h - 1), 3, -(w : Int))

/-- The 16 bytes that begin a raster payload (R214). -/
def rasterHead (frame : Nat) (e : MapEntry) (dir p phases sig start count cell : Nat) : List Byte :=
  bytesBE 4 frame ++ [BitVec.ofNat 8 (e.format * 64 + dir * 16 + p * 4 + (phases - 1)), BitVec.ofNat 8 sig] ++
    bytesBE 2 e.sw ++ bytesBE 2 e.sh ++ bytesBE 3 start ++ [BitVec.ofNat 8 count] ++ bytesBE 2 cell

/-- Payload bytes in a port's raster queue (R217). -/
def State.rasterLevel (s : State) (q : Nat) : Nat :=
  (((s.portQ q).t1.filter QCell.own).map fun e => e.cell.payload.length).sum

/-- A raster cell of an image of frame `n` is queued on each port the route table gives (R217, R220); one that the table gives
no port is not sent and takes no number (R257, R261). A cell to the device's own address is forwarded nowhere (R261). -/
def State.queueRaster (s : State) (entry n p : Nat) (c : Cell) (sig : Bool) : State :=
  let ps := s.routePorts s.fab.routes c.dst none
  if c.dst = s.addr then s
  else if ps = [] then (s.bump (F.MAP_CNT_COUNT 4)).bump (F.FAB_CNT_COUNT 7)
  else
    let s := (s.bump (F.FAB_CNT_COUNT 0)).updFab fun f => { f with rasterCount := f.rasterCount + 1 }
    let (queued, s) := ps.foldl (fun (acc : Bool × State) q =>
      let t := acc.2
      let cut := t.cmp.cut.contains (q, entry)
      if cut then (acc.1, t.bump (F.MAP_CNT_COUNT 2))
      else if 524288 < t.rasterLevel q + c.payload.length then
        let t := (t.bump (F.MAP_CNT_COUNT 2)).bump (F.MAP_CNT_COUNT 3)
        let first := !t.cmp.cutFrame.contains q
        let t := t.updCmp fun m => { m with
                                            cut := (q, entry) :: m.cut,
                                            cutFrame := if first then q :: m.cutFrame else m.cutFrame }
        (acc.1, if first then
            t.log Rec.rasterCut ([BitVec.ofNat 8 q] ++ bytesBE 2 entry ++ bytesBE 4 n) p
          else t)
      else
        let t := t.enqueue q c true
        let l := t.rasterLevel q
        (true, if t.fld (F.MAP_Q_PEAK_PEAK q) < l then t.setFld (F.MAP_Q_PEAK_PEAK q) l else t)) (false, s)
    if queued then s.bump (F.MAP_CNT_COUNT (if sig then 1 else 0)) else s

/-- A raster cell of an entry (R214). -/
def State.rasterCell (s : State) (e : MapEntry) (frame : Nat) (payload : List Byte) : Cell :=
  mkCell CellType.raster (BitVec.ofNat 16 e.dst) s.addr 0 s.fab.rasterCount (BitVec.ofNat 16 frame) payload

/-- The cells of one entry's run on a line, and its signature cell after its last run (R212, R213, R215). A sender that is not
READY numbers and signs them as they pass and queues none (R338), so that `CELL` and the signature are those of the whole
image wherever in it sending begins again. -/
def State.sendRun (s : State) (k : Nat) (e : MapEntry) (o : LineOut) (x0 y0 phases : Nat) (ready : Bool) : State :=
  let b := y0 + o.line - e.y
  let (start, dir, step) := e.run b
  let px := (o.px.drop (e.x - x0)).take e.rw
  let ppc := cellPixels e.format
  let sg := (s.cmp.sigs.find? fun g => g.entry == k).getD { entry := k }
  let (sg, s) := (List.range (ceilDiv e.rw ppc)).foldl (fun (acc : EntrySig × State) i =>
    let ps := (px.drop (ppc * i)).take ppc
    let data := packPixels e.format ps
    let head := rasterHead o.frame e dir o.phase phases 0 (((start : Int) + (ppc * i : Nat) * step).toNat) ps.length acc.1.cell
    let c := acc.2.rasterCell e o.frame (head ++ data)
    let t := if ready then acc.2.queueRaster k o.frame o.phase c false else acc.2
    ({ acc.1 with crc := data.foldl (crcByteR 0x82F63B78#32) acc.1.crc, cell := acc.1.cell + 1 }, t)) (sg, s)
  let s := s.updCmp fun m => { m with sigs := sg :: m.sigs.filter fun g => g.entry != k }
  if b + 1 = e.rh ∧ ready = true then
    let head := rasterHead o.frame e dir o.phase phases 1 (e.sw * e.sh) 0 sg.cell
    let c := s.rasterCell e o.frame (head ++ wordBytes (~~~sg.crc))
    s.queueRaster k o.frame o.phase c true
  else s

/-- The entries that an image sends: those enabled below `COUNT` that did not fail at its frame's wingbeat (R207, R216). -/
def State.mapSent (s : State) (bad : List Nat) : List (Nat × MapEntry) :=
  (((List.range (min 512 (s.fld F.MAP_CTRL_COUNT))).map fun k => (k, s.mapEntry (s.fld F.MAP_CTRL_TABLE) k)).filter
    fun e => e.2.en && !bad.contains e.1)

/-- The region map's part of a line (R213, R216): runs in ascending entry index. -/
def State.sendLine (s : State) (o : LineOut) (ready : Bool) : State :=
  let img := s.withRegs o.regs
  let y := img.regionY + o.line
  let s := if o.line = 0 then s.updCmp fun m => { m with sigs := [], cut := [] } else s
  ((img.mapSent o.bad).filter fun e => e.2.y ≤ y && y < e.2.y + e.2.rh).foldl
    (fun t e => t.sendRun e.1 e.2 o img.regionX img.regionY img.phases ready) s

/-! ## The fabric check (R218, R219) -/

/-- Payload bytes of a run of `n` pixels (R219). -/
def runBytes (format n : Nat) : Nat :=
  let ppc := cellPixels format
  n / ppc * 1024 + if n % ppc = 0 then 0 else 16 + ceilDiv (n % ppc * pixelBits format) 8

/-- The greatest legal `RES` of a port (R218). -/
def State.resMax (s : State) (q : Nat) : Nat :=
  match s.fld (F.LNK_STAT_WIDTH q) with | 1 => 202 | 2 => 405 | _ => 810

/-- The queue model of R219 for port `q` under route table `rt`, in 1/120 byte: whether it passes, and the peak. -/
def State.queuePlan (s : State) (rt : RouteTable) (q : Nat) : Bool × Nat :=
  let res := s.fld (F.MAP_PORT_RES_RES q)
  let c := s.lineTicks
  let h := s.regionH
  let es := (s.mapValid.map Prod.snd).filter fun e => (rt.look (BitVec.ofNat 16 e.dst)).getLsbD q
  let bytes (l : Nat) : Nat :=
    let y := s.regionY + l
    (es.map fun e => if e.y ≤ y ∧ y < e.y + e.rh then
      runBytes e.format e.rw + (if y + 1 = e.y + e.rh then 20 else 0) else 0).sum
  let lines := (List.range s.phases).flatMap fun _ => List.range h
  let (qlen, peak) := lines.foldl (fun (acc : Nat × Nat) l =>
    let n := (acc.1 - res * c) + 120 * bytes l
    (n, max acc.2 n)) (0, 0)
  let g := s.grid
  let ft : Int := (1500000000 * g.num / max g.den 1 : Nat)
  (decide (peak ≤ 524288 * 120) && decide ((qlen : Int) ≤ (res : Int) * (ft - 3000 - (s.phases * h * c : Nat))), peak)

/-! ## Write-back (R221 to R224) -/

def State.wbK (s : State) : Nat := 2 ^ s.fld F.MAP_WB_CTRL_DECIM
def State.wbWidth (s : State) : Nat := ceilDiv s.regionW s.wbK
def State.wbHeight (s : State) : Nat := ceilDiv s.regionH s.wbK
def State.wbStride (s : State) : Nat := s.fld F.MAP_WB_LINE_LINE_STRIDE_64 * 64
def State.wbBuf (s : State) (b : Nat) : Nat :=
  s.fld F.MAP_WB_BASE_BASE_4K * 4096 + b * (s.fld F.MAP_WB_BUF_BUF_STRIDE_4K * 4096)

/-- `MAP_WB_STAT.CFG_ERR` (R221). -/
def State.wbErr (s : State) : Nat :=
  let n := s.fld F.MAP_WB_CTRL_WB_N
  let bs := s.fld F.MAP_WB_BUF_BUF_STRIDE_4K * 4096
  if s.phases ≤ s.fld F.MAP_WB_CTRL_PHASE then 1
  else if n < 2 ∨ 16 < n ∨ ¬ s.inDram (s.wbBuf 0) (n * bs) then 2
  else if s.wbStride < s.wbWidth * 8 ∨ bs < 4096 + s.wbHeight * s.wbStride then 3
  else 0

/-- The choice of a buffer at W(n) (R222): the next one that is not held. How things stood before is kept for this tick. -/
def State.wbChoose (s : State) (n : Nat) : State :=
  let c := s.cmp
  let s := s.updCmp fun m => { m with
    wbGate := some ⟨s.tick, n, c.captures, c.wbLast, c.wbCount, s.word (F.MAP_CNT_COUNT 7).addr⟩ }
  let m := s.fld F.MAP_WB_CTRL_WB_N
  let next := if s.cmp.wbLast + 1 < m then s.cmp.wbLast + 1 else 0
  let order := (List.range m).map fun i => (next + i) % m
  match order.find? fun b => !bitOf (s.fld F.MAP_WB_HOLD_HOLD) b with
  | some b =>
    let s := s.updCmp fun c => { c with
      captures := c.captures ++ [{ buf := b, m := c.wbCount, frame := n }], wbLast := b, wbCount := c.wbCount + 1 }
    s.setFld F.MAP_WB_STAT_ACTIVE 1
  | none => s.bump (F.MAP_CNT_COUNT 7)

/-- A write of `MAP_WB_HOLD` at the tick of a wingbeat counts as before it (R222): a choice made in this tick is made
again. -/
def State.wbHeld (s : State) : State :=
  match s.cmp.wbGate with
  | some g =>
    if g.tick = s.tick then
      let s := s.updCmp fun c => { c with captures := g.captures, wbLast := g.wbLast, wbCount := g.wbCount }
      ((s.setWord (F.MAP_CNT_COUNT 7).addr g.missed).setBit F.MAP_WB_STAT_ACTIVE (!g.captures.isEmpty)).wbChoose g.frame
    else s
  | none => s

/-- Write-back's part of the wingbeat of frame `n` (R221, R222). -/
def State.wbBeat (s : State) (n : Nat) : State :=
  if s.role = roleSender then
    let s := s.setFld F.MAP_WB_STAT_CFG_ERR s.wbErr
    let skip := s.fld F.MAP_WB_CTRL_SKIP + 1
    -- the last lines of frame n - 1 may still be on their way
    let live := s.cmp.captures.filter fun c => s.cmp.inFlight.any fun o => o.frame == c.frame
    let s := (s.updCmp fun c => { c with captures := live }).setBit F.MAP_WB_STAT_ACTIVE (!live.isEmpty)
    if s.cmp.running ∧ s.bit F.MAP_WB_CTRL_EN ∧ s.fld F.MAP_WB_STAT_CFG_ERR = 0 ∧ n % skip = 0 then s.wbChoose n else s
  else s

/-- The descriptor as capture `c` begins (R223, R224). -/
def State.wbDescriptor (s img : State) (c : Capture) (p : Nat) : List Byte :=
  bytesLE 8 c.frame ++ bytesLE 4 (1 + 4 * p + 16 * img.fld F.MAP_WB_CTRL_DECIM) ++ bytesLE 4 (2 * c.m + 1) ++
    bytesLE 4 (img.wbWidth + 65536 * img.wbHeight) ++ bytesLE 4 (img.regionX + 65536 * img.regionY) ++
    bytesLE 4 0 ++ bytesLE 4 0 ++ bytesLE 8 s.nsSince0 ++ bytesLE 8 0 ++ List.replicate 16 0 ++
    List.replicate 2048 0 ++ List.replicate 1984 0

/-- A line leaves blender 15 for write-back (R221, R224); `room` is whether its on-die buffer has room. -/
def State.wbLine (s : State) (o : LineOut) (room : Bool) : State :=
  match s.cmp.captures.find? fun c => c.frame == o.frame with
  | none => s
  | some c =>
    let others := s.cmp.captures.filter fun c => c.frame != o.frame
    let img := s.withRegs o.regs
    let k := img.wbK
    if o.phase ≠ img.fld F.MAP_WB_CTRL_PHASE then s
    else
      let base := img.wbBuf c.buf
      let s := if c.started then s else s.writeBytes .writeback base (s.wbDescriptor img c o.phase)
      let c := { c with started := true }
      let (c, s) : Capture × State :=
        if o.line % k ≠ 0 then (c, s)
        else
          let j := o.line / k
          if room then
            let px := (List.range img.wbWidth).map fun i => o.px.getD (i * k) (0, 0, 0)
            let bytes := px.flatMap fun p => bytesLE 2 p.1.toNat ++ bytesLE 2 p.2.1.toNat ++ bytesLE 2 p.2.2.toNat ++ [0, 0]
            let s := s.writeBytes .writeback (base + 4096 + j * img.wbStride) bytes
            let a := base + 64 + j / 8
            (c, s.writeBytes .writeback a [s.readByte .writeback a ||| BitVec.ofNat 8 (2 ^ (j % 8))])
          else
            let s := s.bump (F.MAP_CNT_COUNT 6)
            let s := if c.dropped = 0 then
                s.log Rec.wbDrop ([BitVec.ofNat 8 c.buf] ++ bytesBE 2 j ++ bytesBE 4 c.frame) o.phase
              else s
            ({ c with dropped := c.dropped + 1 }, s)
      if img.wbHeight * k ≤ o.line + k ∧ o.line % k = 0 then
        let s := s.writeBytes .writeback (base + 24) (bytesLE 4 c.dropped)
        let s := s.writeBytes .writeback (base + 40) (bytesLE 8 s.nsSince0)
        let s := s.writeBytes .writeback (base + 8)
          (bytesLE 4 (2 + 4 * o.phase + 16 * img.fld F.MAP_WB_CTRL_DECIM) ++ bytesLE 4 (2 * c.m + 2))
        let s := (s.bump (F.MAP_CNT_COUNT 5)).setFld F.MAP_WB_STAT_LAST c.buf
        (s.updCmp fun m => { m with captures := others }).setBit F.MAP_WB_STAT_ACTIVE (!others.isEmpty)
      else s.updCmp fun m => { m with captures := others ++ [c] }

/-- A composition line leaves blender 15, 112 ticks after it entered (R175, R213): to the region map and to write-back
(R186). Outside M3 and M4 nothing is sent (R216), and cells only by a sender that is READY (R338). -/
def State.lineLeaves (s : State) (room : Bool) : State :=
  match s.cmp.inFlight with
  | o :: rest =>
    if o.left ≤ s.tick then
      let s := s.updCmp fun m => { m with inFlight := rest }
      if (s.mode = 3 ∨ s.mode = 4) ∧ s.role = roleSender then
        (s.sendLine o (decide (s.fld F.RED_SND_STAT_STATE = 0))).wbLine o room
      else s
    else s
  | [] => s

end Sys2Proof.Machine
end

