-- ==== Sys2Proof/Machine/Red.lean ====
section
/-! DEFINITION. Redundant senders (spec/13): sources of a tile, comparison and eligibility, choice at Tc, switchover,
promotion, joins and snapshots, the state digest. -/

namespace Sys2Proof.Machine

open Sys2Proof

/-! Reason codes of spec/13 (R355). -/

namespace Reason
def joinBusy : Nat := 0x0800
def pairSession : Nat := 0x0801
def pairState : Nat := 0x0802
def joinRefused : Nat := 0x0810
def joinLost : Nat := 0x0811
def snapshotLate : Nat := 0x0812
end Reason

/-- What a transaction's entries change of the sources (R341, R347). -/
def redChanges (before : List (Nat × Word)) (es : List Entry) : List SrcChange :=
  let a := F.RED_TILE_SRC_SRC0.addr
  let w := sparseGet resetWord (entriesOnRegs es before) a
  (if w = sparseGet resetWord before a then [] else [.srcs w]) ++
    es.filterMap fun e => match e with
      | .redSwitch sel => some (.sel sel.toNat)
      | _ => none

/-- The changes that govern image (n, p) come into force: those of commits that have applied, then those of pending ones
whose target is at or before it (R114, R341, R347). -/
def State.takeChanges (s : State) (n p : Nat) : State :=
  let due := s.red.changes.filter fun c => !imgLt n p c.1 c.2.1
  let s := s.updRed fun r => { r with changes := r.changes.filter fun c => imgLt n p c.1 c.2.1 }
  let s := due.foldl (fun (t : State) c => t.sourceChange c.2.2) s
  (s.pendingTxns.filter fun x => (x.state = .pending || x.accepted ≠ 0) && !imgLt n p x.frame x.phase &&
      !s.red.early.contains (x.uid, x.began)).foldl (fun (t : State) x =>
    match redChanges (t.regsOf x) x.entries with
    | [] => t
    | cs => (cs.foldl State.sourceChange t).updRed fun r => { r with early := r.early ++ [(x.uid, x.began)] }) s

/-- The changes of a transaction that applies on a tile: in M5 from its image, else at once (R341, R347). -/
def State.redCommit (s : State) (x : Txn) (before : List (Nat × Word)) : State :=
  if s.red.early.contains (x.uid, x.began) then
    s.updRed fun r => { r with early := r.early.filter fun e => e != (x.uid, x.began) }
  else
    let cs := redChanges before x.entries
    if s.mode = 5 then s.updRed fun r => { r with changes := r.changes ++ cs.map fun c => (x.frame, x.phase, c) }
    else cs.foldl State.sourceChange s

/-! ## Choice of the image at Tc (R342 to R346) -/

/-- A loss of the source in use has been detected: cause 0 link loss, 1 image loss (R345, R346). -/
def State.sourceLossSeen (s : State) (cause : BitVec 1) : State :=
  if s.bit F.RED_TILE_POLICY_SWITCH_EN ∧ s.eligible (1 - s.using') ∧ s.red.switchDue = none then
    s.updRed fun r => { r with switchDue := some (cause, s.tick) }
  else s

/-- Both copies of image (n, p) are complete: their signatures are compared (R342). -/
def State.compareCopies (s : State) (n p : Nat) (sig0 sig1 : Word) : State :=
  let s := (s.bump (F.RED_CNT_COUNT 0)).updRed fun r => { r with compared := r.compared + 1 }
  if sig0 = sig1 then (s.bump (F.RED_CNT_COUNT 1)).updRed fun r => { r with matched := true }
  else
    let first := s.red.matched
    let s := (s.bump (F.RED_CNT_COUNT 2)).updRed fun r => { r with differed := true, matched := false }
    let s := s.setFld F.RED_TILE_STAT_OUT_OF_STEP 1
    let s := s.setFld (F.RED_TILE_MISMATCH_VALUE 0) (n / 2 ^ 32)
    let s := s.setFld (F.RED_TILE_MISMATCH_VALUE 1) n
    let s := s.setFld (F.RED_TILE_MISMATCH_VALUE 2) p
    if first then s.log Rec.outOfStep (bytesBE 4 n ++ wordBytes sig0 ++ wordBytes sig1) p else s

/-- The run of the source not in use at the last Tc of a frame (R343). -/
def State.judgeRun (s : State) : State :=
  let o := 1 - s.using'
  let run := s.redRun o
  let bad := s.red.differed || s.red.missedBy.getD o false
  let s := if ¬ s.twoSources then s
    else if bad then
      let s := s.updRed fun r => { r with run := r.run.set o 0 }
      if run = 8 then s.log Rec.standbyLost ([BitVec.ofNat 8 o] ++ bytesBE 2 (s.sourceAddr o)) else s
    else if s.red.compared = 0 then s
    else s.updRed fun r => { r with run := r.run.set o (min 8 (run + 1)) }
  (s.updRed fun r => { r with compared := 0, differed := false, missedBy := [false, false] }).redBits

/-- Slice images that take no slot go once they lie well behind. -/
def State.pruneSlices (s : State) (n : Nat) : State :=
  s.updTile fun t => { t with imgs := t.imgs.filter fun g => g.slot.isSome || decide (n ≤ g.frame + 8) }

/-- The image chosen waits for its correction (R280); one whose load instant has passed leaves its buffer free. -/
def State.queueJob (s : State) (g : SliceImg) : State :=
  let d := s.driveOf g.frame
  (s.updTile fun t => { t with jobs := t.jobs ++ [{
    frame := g.frame, phase := g.phase, src := g.src, slot := g.slot.getD 0, format := g.format.getD 0,
    fade := d.1, derate := d.2, late := s.tile.lastLoad.any fun l => !imgLt l.1 l.2 g.frame g.phase }] }).startJob

/-- Reaching Tc(n, p): comparison, choice and start of the correction (R280, R342 to R345). -/
def State.correctionDeadline (s : State) (n p : Nat) : State :=
  let fresh := s.tile.lastTc.all fun l => imgLt l.1 l.2 n p
  let regs := s.governing n p
  if s.role ≠ roleTile ∨ s.mode ≠ 5 ∨ ¬ fresh ∨ phasesOf regs ≤ p ∨ ¬ s.at_ (s.tCorrect n p) ∨
      s.tLatch n p ≤ (s.clk : Int) then s
  else
    let s := ((s.updTile fun t => { t with lastTc := some (n, p) }).beginSlice n p).takeChanges n p
    let two := s.twoSources
    let copy (k : Nat) : Option SliceImg := (s.sliceImg k n p).filter fun g => g.complete
    let u := s.using'
    let c0 := copy 0
    let c1 := if two then copy 1 else none
    let mine := if u = 0 then c0 else c1
    let other := if u = 0 then c1 else c0
    let s := match c0, c1 with
      | some a, some b => s.compareCopies n p ((a.sig.map Prod.fst).getD 0) ((b.sig.map Prod.fst).getD 0)
      | _, _ => s
    let s := s.updRed fun r => { r with missedBy := [r.missedBy.getD 0 false || c0.isNone, r.missedBy.getD 1 false || c1.isNone] }
    let s := if two ∧ other.isNone then s.bump (F.RED_CNT_COUNT 4) else s
    let off := s.fld F.LCR_STAT_CFG_ERR ≠ 0
    let s := match mine with
      | some g => if off then s else s.queueJob g
      | none =>
        let s := ((s.bump (F.RED_CNT_COUNT 3)).bump (F.LCR_CNT_COUNT 8)).noteMissing n p
        if other.isSome then s.sourceLossSeen 1 else s
    let s := if p + 1 = phasesOf regs then s.judgeRun else s
    s.pruneSlices n

/-- Loss of the port that carries the source in use (R345): it has left ACTIVE and LIGHT_IDLE, or has delivered no good
link frame for 2 µs in ACTIVE. -/
def State.linkLost (s : State) : State :=
  if s.role ≠ roleTile ∨ s.mode ≠ 5 ∨ s.red.lossSeen then s
  else
    match s.sourcePort with
    | some q =>
      let q := q.toNat
      if ¬ s.carries q ∨ (s.lnkState q = lkActive ∧ (s.lane q).goodAt + usTicks 2 ≤ s.tick) then
        ((((s.updRed fun r => { r with lossSeen := true }).bump (F.RED_CNT_COUNT 5)).setFld
          F.RED_TILE_STAT_LINK_LOSS 1)).sourceLossSeen 0
      else s
    | none => s

/-- The automatic switch (R346). -/
def State.autoSwitch (s : State) (cause : BitVec 1) : State :=
  match s.red.switchDue with
  | some (c, _) =>
    if c ≠ cause then s
    else
      let old := s.using'
      let s := ((s.takeSource (1 - old)).setFld F.RED_TILE_STAT_SWITCHED 1).bump (F.RED_CNT_COUNT 6)
      s.log Rec.redSwitched [BitVec.ofNat 8 old, BitVec.ofNat 8 (1 - old), BitVec.ofNat 8 cause.toNat]
  | none => s

/-! ## RED_SWITCH, promotion, state (R339, R347, R354) -/

/-- `RED_SND_STAT.STATE`. -/
def State.pairState (s : State) : Nat := s.fld F.RED_SND_STAT_STATE

/-- The exchange of M3 and M4 at an apply instant (R347). -/
def State.exchangeNow (s : State) : State :=
  let t := 7 - s.mode
  let e := s.modeErr t true
  let s := (s.setFld F.SYS_MODE_LAST_REQ t).setFld F.SYS_MODE_REQ_ERR e
  if e = 0 then s.enterMode t else s

/-- The effect of `RED_SWITCH` outside a transaction (R347). The tile's change may come up to 4,096 ticks later; it is
made at dispatch (log entry 24). -/
def State.redSwitch (s : State) (sel : Nat) : Res :=
  if s.role = roleSender then okRes (s.requestMode (7 - s.mode) true) else okRes (s.commandSource sel)

/-- Promotion of a standby (R339). -/
def State.promote (s : State) : State :=
  let q := s.fld F.RED_CFG_PAIR_PORT
  if s.role = roleSender ∧ s.mode = 4 ∧ s.pairState = 0 ∧ s.bit F.RED_POLICY_PROMOTE_EN ∧ ¬ s.carries q ∧
      (s.lane q).downAt + usTicks (1000 * s.fld F.RED_POLICY_PROMOTE_MS) ≤ s.tick then
    s.requestMode 3 true
  else s

/-- `RED_SND_STAT` as it reads. -/
def State.sndStat (s : State) : Word :=
  let w := s.word F.RED_SND_STAT_STATE.addr
  let w := F.RED_SND_STAT_ACTIVE.put w (s.mode = 3 : Bool).toNat
  F.RED_SND_STAT_SERVING.put w s.red.serve.isSome.toNat

/-- `RED_TILE_STAT` as it reads. -/
def State.tileStat (s : State) : Word :=
  F.RED_TILE_STAT_HOLDING.put (s.word F.RED_TILE_STAT_USING.addr) (s.fld F.RED_TILE_HOLD_FRAMES ≠ 0 : Bool).toNat

/-- `RED_STATE` (R354). -/
def State.redState (s : State) : Res :=
  if s.role = roleSender then
    let expected := ((s.red.pairSrc.bind s.sessionOf).map fun k => (s.sess k).expected).getD 0
    okRes s [s.sndStat, s.word F.RED_DIGEST_DIGEST.addr, s.word (F.RED_DIGEST_FRAME_FRAME 0).addr,
      s.word (F.RED_DIGEST_FRAME_FRAME 1).addr, BitVec.ofNat 32 (s.fld F.RED_CFG_PARTNER), expected]
  else
    okRes s [s.tileStat, BitVec.ofNat 32 (s.sourceAddr s.using'), s.word (F.RED_TILE_MISMATCH_VALUE 0).addr,
      s.word (F.RED_TILE_MISMATCH_VALUE 1).addr, s.word F.RED_TILE_HOLD_FRAMES.addr,
      BitVec.ofNat 32 (s.redRun 0 + 256 * s.redRun 1)]

/-- `ING_LAYER_SEL[v][1]`: `MEDIA_TICKS`[31:0] of the buffer shown. -/
def State.layerTicks (s : State) (v : Nat) : Word :=
  let l := s.ing.sel.getD v {}
  if l.ever then BitVec.ofNat 32 (toBits 32 l.ticks) else 0

/-- The digest of the pair (R354): each item a word, most significant byte first (log entry 25). -/
def State.digestBytes (s : State) : List Byte :=
  (shadowAddrs.flatMap fun a => wordBytes (s.word a)) ++
    ((List.range 64).flatMap fun k => wordBytes (s.fence k).visible) ++
    ((List.range 10).flatMap fun g => bytesBE 4 (s.shown (6 + g))) ++
    (List.range 6).flatMap fun v => wordBytes (s.layerTicks v)

/-- The digest of a sender at the wingbeat of frame `n` (R354). -/
def State.redDigest (s : State) (n : Nat) : State :=
  if s.role = roleSender then
    ((s.setWord F.RED_DIGEST_DIGEST.addr (crc32c s.digestBytes)).setFld (F.RED_DIGEST_FRAME_FRAME 0) (n / 2 ^ 32)).setFld
      (F.RED_DIGEST_FRAME_FRAME 1) n
  else s

/-- A command on fences and flips at the tick of a wingbeat counts as before it (R180): the digest is taken again after the
gating (R354). -/
def State.gatedBody (s : State) (body : State → Res) : Res :=
  match s.beforeBeat body with
  | .done st ws t => .done st ws (match s.cmp.gate with
    | some g => if g.tick = s.tick then t.redDigest g.frame else t
    | none => t)
  | r => r

/-- Whether frame `n`, at its wingbeat, has begun after the latch of the last image corrected in M5 (R348, log entry 44). -/
def State.beganSinceLatch (s : State) (n : Nat) : Bool :=
  s.role == roleTile && s.mode == 5 && s.red.latched && s.red.lastLatch.all fun t => decide (t < (s.beat n : Int))

/-- The redundancy part of the wingbeat of frame `n` (R348, R350, R354). -/
def State.redBeat (s : State) (n : Nat) : State :=
  let s := s.redDigest n
  let s := if s.beganSinceLatch n then s.bump F.RED_TILE_HOLD_FRAMES else s
  let s := if s.red.joinWait.any fun m => decide (m ≤ n) then
      (s.setFld F.RED_SND_STAT_STATE 0).updRed fun r => { r with joinWait := none }
    else s
  if s.red.serve.any fun v => v.captured.any fun f => decide (f + 2 ≤ n) then
    s.updRed fun r => { r with serve := none }
  else s

/-! ## Joining (R349 to R352) -/

/-- The checks of `RED_JOIN` at dispatch (R349), in order; the range index gives the payload word. -/
def State.joinRefusal (s : State) (w : Who) (pairSrc : BitVec 16) (ranges : List (Nat × Nat)) : Option Res :=
  let running := (List.range 16).find? fun k => (s.op k).st = 1 && (s.op k).opcode == 0x58
  let idx := List.zip (List.range ranges.length) ranges
  let bad (f : Nat × Nat → Bool) : Option (Nat × Nat × Nat) := idx.find? fun e => f e.2
  match running with
  | some k => some (refuse s Status.notReady Reason.joinBusy k)
  | none =>
    if (s.sessionOf pairSrc).isNone ∨ pairSrc = w.src then some (refuse s Status.notReady Reason.pairSession 0)
    else if s.lnkState (s.fld F.RED_CFG_PAIR_PORT) ≠ lkActive then
      some (refuse s Status.notReady Reason.portDown (s.fld F.RED_CFG_PAIR_PORT))
    else if 16 < ranges.length then some (refuse s Status.badParam Reason.range 0)
    else
      match bad fun r => decide (r.1 % 65536 ≠ 0 ∨ r.2 % 65536 ≠ 0) with
      | some (i, r) =>
        some (refuse s Status.badParam Reason.align (if r.1 % 65536 ≠ 0 then 3 + 4 * i else 5 + 4 * i))
      | none =>
        match bad fun r => !s.inDram r.1 r.2 with
        | some (i, _) => some (refuse s Status.badParam Reason.range (2 + 4 * i))
        | none =>
          if idx.any fun a => idx.any fun b => decide (a.1 < b.1 ∧ a.2.1 < b.2.1 + b.2.2 ∧ b.2.1 < a.2.1 + a.2.2) then
            some (refuse s Status.badParam Reason.overlap 0)
          else none

/-- Bytes of the ranges of a join. -/
def rangesSize (r : List (Nat × Nat)) : Nat := (r.map Prod.snd).sum

/-- The address of byte `k` of ranges. -/
def rangeAddr : List (Nat × Nat) → Nat → Option Nat
  | [], _ => none
  | (a, n) :: r, k => if k < n then some (a + k) else rangeAddr r (k - n)

/-- Whether `n` bytes at `a` lie within one of the ranges. -/
def inRanges (r : List (Nat × Nat)) (a n : Nat) : Bool := r.any fun g => decide (g.1 ≤ a ∧ a + n ≤ g.1 + g.2)

/-- Ranges in ascending address order (R350, step 2). -/
def ascending (r : List (Nat × Nat)) : List (Nat × Nat) := sortBy (fun a b => decide (a.1 < b.1)) r

/-- A sender that is not READY sends no raster cells (R338): its own that are queued go. -/
def State.dropOwnRaster (s : State) : State :=
  (List.range 4).foldl (fun (t : State) q =>
    t.updPortQ q fun p => { p with t1 := p.t1.filter fun e => !(e.own && e.cell.typ == CellType.raster) }) s

/-- Step 3 of a join, once the last range has been copied: the pair session is held (R350). -/
def State.joinHold (s : State) : State :=
  match s.red.join with
  | some j =>
    if j.held.isSome ∨ j.copied < rangesSize j.ranges then s
    else
      let e := ((s.sessionOf j.pairSrc).map fun k => (s.sess k).expected).getD 0
      (s.updRed fun r => { r with join := some { j with held := some e } }).emit
        (.joinHeld (BitVec.ofNat 2 (s.fld F.RED_CFG_PAIR_PORT)) e)
  | none => s

/-- `RED_JOIN` (R349, R350 step 1). -/
def State.redJoin (s : State) (w : Who) (pairSrc : BitVec 16) (ranges : List (Nat × Nat)) : Res :=
  match s.joinRefusal w pairSrc ranges with
  | some r => r
  | none =>
    s.runOp w 0x58 (.redJoin pairSrc ranges) fun k t =>
      let prior := t.pairState
      let t := (t.setFld F.RED_SND_STAT_STATE 1).dropOwnRaster
      let t := t.updRed fun r => { r with
        pairSrc := some pairSrc, joinWait := none,
        join := some { slot := BitVec.ofNat 4 k, pairSrc := pairSrc, ranges := ascending ranges, prior := prior,
                       lastCell := t.tick } }
      (t.emit (.joinRequest (BitVec.ofNat 2 (t.fld F.RED_CFG_PAIR_PORT)) pairSrc ranges)).joinHold

/-- Whether a sender serves a join of device `src` on port `q` (R349). -/
def State.serves (s : State) (q : BitVec 2) (src : BitVec 16) : Bool :=
  s.mode == 3 && s.bit F.RED_CFG_SERVE_EN && s.fld F.RED_CFG_PARTNER == src.toNat && s.fld F.RED_CFG_PAIR_PORT == q.toNat

/-- A join request at the active sender (R349, R350). -/
def State.joinRequest (s : State) (q : BitVec 2) (src pairSrc : BitVec 16) (ranges : List (Nat × Nat)) : State :=
  if s.serves q src then
    s.updRed fun r => { r with
      serve := some { pairSrc := pairSrc, joiner := src, port := q, ranges := ranges, todo := ascending ranges },
      pairSrc := some pairSrc }
  else s.emit (.joinRefused q)

/-- Words that one copy packet carries from address `a`: at most 512, all lost or none (R350, R360). -/
def State.copyRun (s : State) (a n : Nat) : List (BitVec 64 × Bool) :=
  let ws := (List.range (min 512 (n / 8))).map fun i =>
    let r := s.readWord .bulk (a + 8 * i)
    (r.data, r.lost)
  ws.takeWhile fun e => some e.2 == (ws.head?).map Prod.snd

/-- The T3 cells of a copy packet: a `MEM_WRITE` of an internal session (R350, step 2). DESIGN CHOICE (log entry 57): it has
`NO_REPLY` set, and `TAG` 1 marks words to be written with poison. -/
def State.copyCells (s : State) (seq : Word) (a : Nat) (data : List (BitVec 64 × Bool)) : List Cell :=
  let poison := data.any Prod.snd
  let ws : List Word := data.flatMap fun e => [BitVec.ofNat 32 e.1.toNat, BitVec.ofNat 32 (e.1.toNat / 2 ^ 32)]
  let dst := BitVec.ofNat 16 (s.fld F.RED_CFG_PARTNER)
  let body : List Word := [0x12#8 ++ 0x11#8 ++ (if poison then 1#16 else 0#16), s.addr ++ dst, seq,
    0#16 ++ BitVec.ofNat 16 (2 + ws.length), BitVec.ofNat 32 (a / 2 ^ 32), BitVec.ofNat 32 a] ++ ws
  (segmentsOf (seq.setWidth 16) (wordsBytes body ++ wordBytes (crc32c (wordsBytes body)))).map fun g =>
    mkCell CellType.bulk dst s.addr 0 seq 0 (wordBytes (segmentWord g) ++ g.bytes)

/-- The active sender's part of a join in one tick (R350, steps 2 and 4): the next words are read as host bulk traffic and
their cells queued on `PAIR_PORT`, where the T3 queue of R271 has room; a snapshot follows the blocks marked for it. A sender
serves only while the conditions of R349 hold, and refuses the join as they end. DESIGN CHOICE (log entry 57): the join is no
longer served once `PAIR_PORT` has left ACTIVE and LIGHT_IDLE. -/
def State.servePump (s : State) : State :=
  match s.red.serve with
  | none => s
  | some v =>
    let q := v.port.toNat
    if ¬ s.carries q then s.updRed fun r => { r with serve := none }
    else if ¬ s.serves v.port v.joiner then
      (s.updRed fun r => { r with serve := none }).emit (.joinRefused v.port)
    else
      match v.todo with
      | (a, n) :: rest =>
        let data := s.copyRun a n
        let cells := s.copyCells v.seq a data
        let level := (((s.portQ q).t3.filter QCell.own).map fun e => cellOccupied e.cell).sum
        let m := 8 * data.length
        if m = 0 then s.updRed fun r => { r with serve := some { v with todo := rest } }
        else if 73728 < level + (cells.map cellOccupied).sum then s
        else
          let s := (s.accountRead .bulk a m).emit (.joinCopy v.port a data)
          let s := cells.foldl (fun (t : State) c => (t.bump (F.FAB_CNT_COUNT 0)).enqueue q c true) s
          s.updRed fun r => { r with
            serve := some { v with seq := v.seq + 1, todo := if n ≤ m then rest else (a + m, n - m) :: rest } }
      | [] =>
        match v.snap with
        | some sn => (s.emit (.snapshot v.port sn)).updRed fun r => { r with serve := some { v with snap := none } }
        | none => s

/-- A `MEM_WRITE` packet of the join's internal session executes (R350, R360): words it may not write are left unchanged,
and lost ones become zero with poison. -/
def State.joinWrite (s : State) (a : Nat) (data : List (BitVec 64 × Bool)) : State :=
  let s := ((List.zip (List.range data.length) data).foldl (fun (t : State) e =>
    let b := a + 8 * e.1
    if t.mayAccess .bulk b then t.putWord .bulk b (if e.2.2 then 0 else e.2.1) e.2.2 else t) s).serve .bulk a (8 * data.length)
  match s.red.join with
  | some j =>
    let j := if j.held.isSome then { j with marked := j.marked + (a % 65536 = 0 : Bool).toNat }
      else { j with copied := j.copied + 8 * data.length }
    let k := j.slot.toNat
    (s.updRed fun r => { r with join := some j }).setOp k
      { s.op k with progress := BitVec.ofNat 8 (100 * j.copied / max 1 (rangesSize j.ranges)) }
  | none => s

/-- The packets of the join's internal session execute in order, each once no running operation stands against it (R97). -/
def State.joinWork (s : State) : State :=
  match s.red.join with
  | some j =>
    let r := j.work.foldl (fun (acc : State × List (Nat × List (BitVec 64 × Bool))) e =>
      if acc.2 ≠ [] ∨ acc.1.memWaits e.1 (8 * e.2.length) true then (acc.1, acc.2 ++ [e])
      else (acc.1.joinWrite e.1 e.2, [])) (s, [])
    (r.1.updRed fun x => { x with join := x.join.map fun j => { j with work := r.2 } }).joinHold
  | none => s

/-- Whether copy data is what the joiner expects next (R350): the copy in ascending address order, then marked blocks. -/
def JoinRun.expects (j : JoinRun) (a n : Nat) : Bool :=
  decide (0 < n) && inRanges j.ranges a n &&
    (if j.held.isSome then decide (j.markNext ≤ a) else rangeAddr j.ranges j.taken == some a)

/-- Copy data at the joiner: words with their poison, executed as a `MEM_WRITE` packet (R350 steps 2 and 5). DESIGN CHOICE
(log entry 57): data out of order is discarded. -/
def State.joinCell (s : State) (addr : Nat) (data : List (BitVec 64 × Bool)) : State :=
  match s.red.join with
  | some j =>
    let n := 8 * data.length
    let j := { j with lastCell := s.tick }
    let j := if j.expects addr n then
        { j with work := j.work ++ [(addr, data)], markNext := if j.held.isSome then addr + n else 0,
                 taken := if j.held.isSome then j.taken else j.taken + n }
      else j
    (s.updRed fun r => { r with join := some j }).joinWork
  | none => s

/-- The snapshot of a pair session (R351). -/
def State.snapshot (s : State) (uid : Nat) (e : Sess) (n : Nat) : Snapshot :=
  { frame := n
    regs := shadowAddrs.map fun a => (a, s.word a)
    shadows := shadowAddrs.map fun a => (a, s.shadowWord a)
    tables := [0, 1].map fun t => (List.range 0x2000).map fun i => s.byte (mapBase t + i)
    txns := s.txn.txns.filter fun x => x.uid == uid && (x.state = .opened || x.state = .pending || x.state = .prepared ||
      x.state = .uncertain)
    lastBegin := e.lastBegin
    actions := s.txn.actions.filter fun a => a.uid == uid
    nextAction := s.txn.nextAction
    fences := s.cmp.fences
    shown := (List.range 10).map fun g => BitVec.ofNat 2 (s.shown (6 + g))
    flips := s.cmp.flips
    wbCount := s.cmp.wbCount
    wbLast := s.cmp.wbLast
    ops := ((List.range 16).filter fun k => (s.op k).st ≠ 0 && (s.op k).ownerUid == uid).map fun k =>
      (BitVec.ofNat 4 k, s.op k)
    kept := e.kept
    expected := e.expected }

/-- A header as numbers. -/
def hdrCode (h : Hdr) : List Nat :=
  [h.barrier.toNat, h.noReply.toNat, h.tag.toNat, h.src.toNat, h.dst.toNat, h.seq.toNat, h.txnId.toNat]

/-- An entry as numbers. -/
def Entry.code : Entry → List Nat
  | .write a v => [0, a, v.toNat]
  | .modify a m v => [1, a, m.toNat, v.toNat]
  | .routeSet f d p l => [2, f.toNat, d.toNat, p.toNat] ++ l.flatMap fun e => [e.value.toNat, e.mask.toNat, e.ports.toNat, e.en.toNat]
  | .redSwitch k => [3, k.toNat]
  | .molt a => [4, a.toNat]

/-- A transaction as numbers: all of it that an installation takes over. -/
def Txn.code (t : Txn) : List Nat :=
  [t.src.toNat, t.id.toNat, t.global.toNat, t.state.number, t.began, t.frame, t.phase, t.at_, t.beat, t.begun.toNat,
    t.accepted, t.gotCommit.toNat, t.gotAbort.toNat, t.ended, t.reason.toNat, t.entries.length] ++ t.entries.flatMap Entry.code

/-- A scheduled action as numbers. -/
def Action.code (a : Action) : List Nat :=
  [a.id.toNat, a.src.toNat, a.frame, a.phase, a.at_, a.opcode.toNat] ++ hdrCode a.hdr ++ a.payload.map BitVec.toNat

/-- What an operation does, as numbers. -/
def OpKind.code : OpKind → List Nat
  | .idle => [0]
  | .memFill a n p => [1, a, n, p.toNat]
  | .memCopy a b n => [2, a, b, n]
  | .fabProbe n f => [3, n.toNat, f.toNat]
  | .fabPathTest a n c => [4, a.toNat, n.toNat, c.toNat]
  | .tableLoad t f a n => [5, t.toNat, f.toNat, a, n]
  | .tableVerify t => [6, t.toNat]
  | .lampScan c f e l g a m => [7, c.toNat, f.toNat, e.toNat, l.toNat, g.toNat, a, m.toNat]
  | .calRun p f => [8, p.toNat, f.toNat]
  | .calStore p => [9, p.toNat]
  | .redJoin p r => [10, p.toNat] ++ r.flatMap fun e => [e.1, e.2]
  | .fwStage r d o n a l => [11, r.toNat, d.toNat, o.toNat, n.toNat, a] ++ l.map BitVec.toNat
  | .fwVerify => [12]
  | .attest l p => [13, p.toNat] ++ l.map BitVec.toNat

/-- An operation slot as numbers, its owner apart. -/
def OpSlot.code (o : OpSlot) : List Nat :=
  [o.st.toNat, o.gen.toNat, o.opcode.toNat, o.progress.toNat, o.final.toNat, o.start, o.processed, o.orphan.toNat,
    o.result.length] ++ o.result.map BitVec.toNat ++ o.kind.code

/-- A kept reply as numbers. -/
def Reply.code (r : Reply) : List Nat :=
  [r.opcode.toNat, r.tag.toNat, r.src.toNat, r.dst.toNat, r.seq.toNat, r.status.toNat] ++ r.payload.map BitVec.toNat

/-- The items of a snapshot as numbers (R351), each field that an installation takes over among them: what its encoding
encodes. -/
def Snapshot.items (x : Snapshot) : List (List Nat) :=
  [[x.frame, x.nextAction.toNat, x.wbCount, x.wbLast, x.expected.toNat],
   (match x.lastBegin with | some i => [i.toNat] | none => []),
   x.regs.flatMap fun e => [e.1, e.2.toNat], x.shadows.flatMap fun e => [e.1, e.2.toNat],
   x.tables.flatMap fun t => t.map BitVec.toNat, x.shown.map BitVec.toNat,
   x.fences.flatMap fun f => f.visible.toNat :: f.timed.length :: f.timed.flatMap fun e => [e.1, e.2.toNat],
   x.flips.flatMap fun f => match f with
     | some g => [1, g.buf.toNat, g.fence.toNat, g.noFence.toNat, g.wait.toNat, g.frame]
     | none => [0]] ++
  [x.txns.length, x.actions.length, x.ops.length, x.kept.length] :: x.txns.map Txn.code ++ x.actions.map Action.code ++
  x.ops.map (fun o => o.1.toNat :: o.2.code) ++ x.kept.map Reply.code

/-- The CRC-32C of a snapshot's encoding (R72, R351). -/
def Snapshot.check (x : Snapshot) : Word := crc32c (Config.snapshotBytes x.items)

/-- Capture of the snapshot at a wingbeat (R350, steps 3 and 4); `e` is e_j. The marked blocks are read and sent from then
on, and the snapshot after them. -/
def State.snapshotCapture (s : State) (e : Word) : State :=
  match s.red.serve with
  | some v =>
    match s.sessionOf v.pairSrc with
    | some k =>
      let x := s.sess k
      let n := s.tm.curFrame
      let atWing := s.beat n ≤ s.clk + s.inc ∧ s.clk ≤ s.beat n + s.inc
      let reached := (x.expected - e).toNat < 2 ^ 31
      let busy := (List.range 16).any fun i => (s.op i).st = 1 && (s.op i).ownerUid == x.uid
      if s.serves v.port v.joiner ∧ atWing ∧ reached ∧ ¬ busy ∧ v.captured ≠ some n ∧ (v.captured ≠ none ∨ v.todo = []) then
        let sn := s.snapshot x.uid x n
        s.updRed fun r => { r with serve := some { v with
          marks := [], captured := some n, snap := some { sn with crc := sn.check },
          todo := ascending (v.todo ++ v.marks.map fun b => (65536 * b, 65536)) } }
      else s
    | none => s
  | none => s

/-- The places of TXN_PEND of what a snapshot brings: the lowest free ones. -/
def State.installPending (s : State) (k : Nat) (sn : Snapshot) : State :=
  let uid := (s.sess k).uid
  let slot := BitVec.ofNat 6 k
  let top := (sn.txns.flatMap fun x => [x.began, x.accepted]).foldl max 0
  let s : State := { s with txn := { s.txn with
    txns := s.txn.txns.filter (fun x => x.uid != uid), actions := s.txn.actions.filter (fun a => a.uid != uid),
    nextAction := sn.nextAction, seq := max s.txn.seq (top + 1) } }
  let s := sn.txns.foldl (fun (t : State) x =>
    let y := { x with uid := uid, slot := slot, pend := if x.state = .opened then 0 else t.pendFree }
    { t with txn := { t.txn with txns := t.txn.txns ++ [y] } }) s
  sn.actions.foldl (fun (t : State) a =>
    let b := { a with uid := uid, slot := slot, pend := t.pendFree }
    { t with txn := { t.txn with actions := t.txn.actions ++ [b] } }) s

/-- What a snapshot brings (R351). -/
def State.installState (s : State) (k : Nat) (sn : Snapshot) : State :=
  let before := s
  let uid := (s.sess k).uid
  let s := s.settleTokens
  let s := sn.regs.foldl (fun (t : State) r => if isShadowed r.1 then t.setWord r.1 r.2 else t) s
  let s := (List.zip [0, 1] sn.tables).foldl (fun (t : State) e =>
    (List.zip (List.range 0x2000) e.2).foldl (fun (u : State) b => u.setByte (mapBase e.1 + b.1) b.2) t) s
  let s := s.banksApplied ((List.range 48).map (fun b => (F.MEM_BANK_OWNER_OWNER b).addr) |>.filter fun a =>
    s.word a != before.word a)
  let s := s.installPending k sn
  let s : State := { s with txn := { s.txn with shadows := [] } }
  let s : State := { s with txn := { s.txn with
    shadows := sn.shadows.filter fun e => isShadowed e.1 && s.shadowWord e.1 != e.2 } }
  let s := s.updCmp fun c => { c with fences := sn.fences, wbCount := sn.wbCount, wbLast := sn.wbLast }
  let s := (List.zip (List.range 10) (List.zip sn.shown sn.flips)).foldl (fun (t : State) e =>
    (t.setFld (F.CMP_LAYER_STAT_SHOWN_BUF (6 + e.1)) e.2.1.toNat).setFlip e.1 e.2.2) s
  let s := (List.range 16).foldl (fun (t : State) i => if (t.op i).st ≠ 0 ∧ (t.op i).ownerUid = uid then t.freeOp i else t) s
  let s := sn.ops.foldl (fun (t : State) e =>
    if (t.op e.1.toNat).st = 0 then t.setOp e.1.toNat { e.2 with ownerUid := uid, ownerSlot := BitVec.ofNat 6 k } else t) s
  let s := s.updSess k fun x => { x with expected := sn.expected, kept := sn.kept, lastBegin := sn.lastBegin }
  ((s.streamsAfter before).snapImages s.clk).rejoin

/-- The result words of `RED_JOIN` (R355). -/
def joinResult (reason : Word) (j : JoinRun) (n : Nat) : List Word :=
  [reason, BitVec.ofNat 32 (j.copied / 2 ^ 32), BitVec.ofNat 32 j.copied, BitVec.ofNat 32 j.marked,
    BitVec.ofNat 32 (n / 2 ^ 32), BitVec.ofNat 32 n]

/-- Installation of a snapshot at the joiner (R350 step 5): before W(n + 1) - 1 ms and once the marked blocks are written,
else it is discarded, as is one whose CRC-32C does not match (R351). The held packets are the caller's. -/
def State.installSnapshot (s : State) (sn : Snapshot) : Option Nat × State :=
  match s.red.join with
  | some j =>
    match s.sessionOf j.pairSrc with
    | some k =>
      if j.held = none ∨ 8 ≤ j.attempts then (none, s)
      else if s.beat (sn.frame + 1) ≤ s.clk + usU 1000 then
        (none, s.updRed fun r => { r with join := some { j with attempts := j.attempts + 1, markNext := 0 } })
      else if j.work ≠ [] ∨ sn.crc ≠ sn.check then (none, s)
      else
        let s := (s.installState k sn).bump (F.RED_CNT_COUNT 10)
        let s := s.finishOp j.slot.toNat Status.ok (joinResult 0 j sn.frame)
        (some k, s.updRed fun r => { r with join := none, joinWait := some (sn.frame + 1) })
    | none => (none, s)
  | none => (none, s)

/-- Failure of a join (R352): cause 0 the pair link, 1 no copy cell for 10 ms, 2 the eighth snapshot late, 3 refused by the
partner (R349), at the request or as the partner stops serving; a refusal is none of the failures of R352, and `STATE` goes
back (DESIGN CHOICE, log entry 57). Answers the pair session's slot, whose held packets the caller dispatches. -/
def State.joinFailed (s : State) (cause : Nat) : Option Nat × State :=
  match s.red.join with
  | some j =>
    let q := s.fld F.RED_CFG_PAIR_PORT
    let real : Bool := match cause with
      | 0 => !s.carries q
      | 1 => j.held.isNone && decide (j.lastCell + usTicks 10000 ≤ s.tick)
      | 2 => decide (8 ≤ j.attempts)
      | _ => true
    if real = false then (none, s)
    else
      let k := s.sessionOf j.pairSrc
      let code := if cause = 3 then Reason.joinRefused else if cause = 2 then Reason.snapshotLate else Reason.joinLost
      let s := (s.finishOp j.slot.toNat Status.verifyFail (joinResult (reasonWord code 0) j 0)).updRed fun r =>
        { r with join := none }
      if cause = 3 then (k, s.setFld F.RED_SND_STAT_STATE j.prior)
      else
        (k, ((s.setFld F.RED_SND_STAT_STATE 2).bump (F.RED_CNT_COUNT 11)).log Rec.joinFail
          (bytesBE 2 code ++ [BitVec.ofNat 8 j.attempts]))
  | none => (none, s)

end Sys2Proof.Machine
end

