-- ==== Sys2Proof/Machine/Ring.lean ====
section
/-! DEFINITION. The service ring (R417 to R419): frames received, forwarded, originated. -/

namespace Sys2Proof.Machine

open Sys2Proof

def State.updRing (s : State) (f : RingSt → RingSt) : State := { s with ring := f s.ring }

/-- A frame's header and payload as bytes (R417). -/
def ringBytes (f : RingFrame) : List Byte :=
  [BitVec.ofNat 8 (f.dir.toNat * 64 + f.kind.toNat * 16 + f.zero.toNat * 4 + f.count.toNat / 256),
    BitVec.ofNat 8 f.count.toNat] ++ bytesBE 2 f.len.toNat ++ f.payload

/-- A frame with its CRC. -/
def ringSeal (f : RingFrame) : RingFrame := { f with crc := crc32c (ringBytes f) }

/-- A frame whose count changes on its way. -/
def ringHop (f : RingFrame) (count : BitVec 10) : RingFrame := ringSeal { f with count := count }

/-- The device's own frame (R418). -/
def ringOwn (kind : BitVec 2) (payload : List Byte) : RingFrame :=
  ringSeal { dir := 1, kind := kind, zero := 0, count := 0, len := BitVec.ofNat 16 payload.length, payload := payload,
             crc := 0 }

/-- Ticks a frame takes on the line (R417): its bytes, two delimiters and an idle pair, 40 ns each. -/
def ringTicks (f : RingFrame) : Nat := 60 * (12 + f.payload.length)

/-- Whether a domain is in reset (R386). -/
def State.domBusy (s : State) (kind : Nat) : Bool := s.cdc.resets.any fun r => r.kind.toNat == kind

/-- Whether a reply of the device has still to leave (R76): a frame of its own on the ring or waiting for it, or a REPLY cell
in a port's queue or held for a route (R263). -/
def State.replyQueued (s : State) : Bool :=
  (s.fab.hold.any fun h => h.arrival.isNone && h.cell.typ == CellType.reply) ||
    (s.fab.ownWait.any fun c => c.typ == CellType.reply) ||
  s.ring.own.isEmpty == false || (decide (s.tick < s.ring.busyTo) && !s.ring.busyFwd) ||
    (List.range 4).any fun q => s.portUp q && (s.portQ q).t2.any fun e => e.own && e.cell.typ == CellType.reply

/-- Whether the ring's hardware runs: from step 2 of R22 (R411), whatever its PLL does since (R381). Steps 2 to 6 pass in
one transition of the model, at whose end the SRAM is ready. -/
def State.ringRuns (s : State) : Bool := s.sys.sramReady && !s.bit F.SYS_IO_STAT_RING_OFF

/-- The next frame leaves while the line is free and its domain is not in reset: forwarded and own frames in turn when both
wait (R418, R386). -/
def State.ringSend (s : State) : State :=
  if s.tick < s.ring.busyTo ∨ s.domBusy 10 then s
  else
    let own := match s.ring.own, s.ring.forward with
      | [], _ => false
      | _, [] => true
      | _, _ => s.ring.ownTurn
    if own then
      match s.ring.own with
      | f :: t => (s.updRing fun r => { r with
          own := t, ownTurn := false, busyTo := s.tick + ringTicks f, busyFwd := false }).emit (.ring f)
      | [] => s
    else
      match s.ring.forward with
      | f :: t => (s.updRing fun r => { r with
          forward := t, ownTurn := true, busyTo := s.tick + ringTicks f, busyFwd := true }).emit (.ring f)
      | [] => s

/-- The device originates a frame; with the ring pads off nothing leaves (R448). -/
def State.ringPush (s : State) (f : RingFrame) : State :=
  if s.bit F.SYS_IO_STAT_RING_OFF then s
  else ((s.updRing fun r => { r with own := r.own ++ [f] }).bump (F.CMD_RING_CNT_COUNT 2)).ringSend

/-- A frame goes on its way, unless both forward buffers are full (R418; R384, crossing 5). -/
def State.ringForward (s : State) (f : RingFrame) : State :=
  let used := s.ring.forward.length + (s.ring.busyFwd && decide (s.tick < s.ring.busyTo)).toNat
  if 2 ≤ used then s.bump (F.CMD_RING_CNT_COUNT 4)
  else ((s.updRing fun r => { r with forward := r.forward ++ [f] }).bump (F.CMD_RING_CNT_COUNT 0)).ringSend

/-- The serial number. -/
def State.serial (s : State) : BitVec 64 := s.sec.fuses.serial

/-- The answer to an enumerate frame (R419). -/
def State.ringEnumerate (s : State) : State :=
  s.ringPush (ringOwn 1 (bytesBE 8 s.serial.toNat ++ bytesBE 2 s.addr.toNat ++
    [BitVec.ofNat 8 s.role, BitVec.ofNat 8 s.mode, BitVec.ofNat 8 s.instar, BitVec.ofNat 8 (s.fld F.SYS_BOOT_RECOVERY)] ++
    bytesBE 2 0))

/-- A frame received whole: the payload of a command segment the device consumes, if any, and the state after (R418,
R419); none while the ring pads are off (R448). -/
def State.ringIn (s : State) (f : RingFrame) : Option (List Byte) × State :=
  let bad := f.crc ≠ crc32c (ringBytes f) ∨ f.dir = 3 ∨ f.kind = 3 ∨ f.zero ≠ 0 ∨ 1080 < f.len.toNat ∨
    f.payload.length ≠ f.len.toNat
  let consume (t : State) : Option (List Byte) × State :=
    if t.mode = 0 then (none, t.bump (F.CMD_RING_CNT_COUNT 6))
    else
      let t := t.bump (F.CMD_RING_CNT_COUNT 1)
      match f.kind.toNat with
      | 0 => (some f.payload, t)
      | 1 => (none, t.ringEnumerate)
      | _ => (none, t)
  if ¬ s.ringRuns then (none, s)
  else if bad then (none, s.crossEvent 14 0 [(F.CMD_RING_CNT_COUNT 3).addr])
  else if f.dir = 0 then
    if f.count = 0 then consume s else (none, s.ringForward (ringHop f (f.count - 1)))
  else if f.count = 1023 then (none, s.bump (F.CMD_RING_CNT_COUNT 5))
  else if f.dir = 1 then (none, s.ringForward (ringHop f (f.count + 1)))
  else consume (s.ringForward (ringHop f (f.count + 1)))

/-- What crossing 5, two frames deep, does to the frames that wait in it when the ring's domain is reset: they are lost, kept
or sent twice, which the manual leaves open (R384, R386; log entry 12). -/
def crossFrames (n : Nat) (l : List RingFrame) : List RingFrame :=
  match n % 3 with
  | 0 => l.drop 2
  | 1 => l
  | _ => l.take 2 ++ l

/-- A reset of the ring's domain: its line is idle, and what waits in the crossing is resolved (R384, R386). -/
def State.ringReset (s : State) : State :=
  let (n, s) := s.draw
  s.updRing fun r => { r with
    own := crossFrames (Config.free 386 [n, 0]) r.own, forward := crossFrames (Config.free 386 [n, 1]) r.forward,
    busyTo := s.tick, busyFwd := false }

/-- A request on crossing 7 at the ring side: the notices join the total and one alarm frame leaves (R383, R419). -/
def State.ringAlarm (s : State) (n : Nat) (ovf : Bool) : State :=
  ({ s with cdc := { s.cdc with alarmTotal := s.cdc.alarmTotal + n } }).ringPush
    (ringOwn 2 (bytesBE 8 s.serial.toNat ++ [BitVec.ofNat 8 n, BitVec.ofNat 8 ovf.toNat] ++ bytesBE 2 0))

end Sys2Proof.Machine
end

