-- ==== Sys2Proof/Machine/Clk.lean ====
section
/-! DEFINITION. Clock domains (spec/15): loss of the reference and of PLL lock, event crossings, domain resets. -/

namespace Sys2Proof.Machine

open Sys2Proof

/-! Reason codes of spec/15 (R389). -/

namespace Reason
def domainBusy : Nat := 0x0900
end Reason

/-! ## Reference and PLLs (R381). PLL 0 CPLL, 1 MPLL, 2 DPLL0, 3 DPLL1. -/

/-- Whether a PLL is locked. -/
def State.pllLocked (s : State) (p : Nat) : Bool :=
  match p with
  | 0 => s.bit F.CLK_STAT_CPLL_LOCK
  | 1 => s.bit F.CLK_STAT_MPLL_LOCK
  | n => bitOf (s.fld F.CLK_STAT_DPLL_LOCK) (n - 2)

def State.setPll (s : State) (p : Nat) (b : Bool) : State :=
  match p with
  | 0 => s.setBit F.CLK_STAT_CPLL_LOCK b
  | 1 => s.setBit F.CLK_STAT_MPLL_LOCK b
  | n =>
    let v := s.fld F.CLK_STAT_DPLL_LOCK
    let k := n - 2
    s.setFld F.CLK_STAT_DPLL_LOCK (v - v / 2 ^ k % 2 * 2 ^ k + b.toNat * 2 ^ k)

/-- PLLs begin to hold their last control value, or end it (R381). -/
def State.setHolding (s : State) (f : BitVec 4 → BitVec 4) : State :=
  { s with cdc := { s.cdc with holding := f s.cdc.holding } }

/-- `REFCLK` absent for more than 1 µs: every PLL holds its last control value. Its lock bit follows PLL_UNLOCK alone (log
entry 60). -/
def State.refclkLost (s : State) : State :=
  if s.bit F.CLK_STAT_REFCLK_OK then
    (((s.setFld F.CLK_STAT_REFCLK_OK 0).setFld F.CLK_STAT_REFCLK_LOST 1).setHolding fun _ => 15).log Rec.refclkLost []
  else s

/-- A PLL leaves lock. -/
def State.pllUnlock (s : State) (p : Nat) : State :=
  if s.pllLocked p then
    let s := (s.setPll p false).setHolding fun h => h ||| (1#4 <<< p)
    let s := match p with
      | 0 => s.setFld F.CLK_STAT_CPLL_UNLOCK 1
      | 1 => s.setFld F.CLK_STAT_MPLL_UNLOCK 1
      | n => s.setFld F.CLK_STAT_DPLL_UNLOCK (Nat.lor (s.fld F.CLK_STAT_DPLL_UNLOCK) (2 ^ (n - 2)))
    s.log Rec.pllUnlock [BitVec.ofNat 8 p]
  else s

/-- A PLL that has lost its lock, or holds since `REFCLK` was lost, locks again; `REFCLK` is present. -/
def State.pllRelock (s : State) (p : Nat) : State :=
  if s.pllLocked p ∧ ¬ s.cdc.holding.getLsbD p then s
  else
    (((s.setPll p true).setHolding fun h => h &&& ~~~(1#4 <<< p)).setFld F.CLK_STAT_REFCLK_OK 1).log Rec.pllRelock
      [BitVec.ofNat 8 p]

/-! ## Domain resets (R385, R386) -/

/-- Ticks of a domain's reset: 64 cycles of its clock, then 8 of the slower clock of a crossing (R386). -/
def domTicks (kind : Nat) : Nat :=
  if kind = 1 then 277 else if kind ≤ 5 then 72 else if kind ≤ 9 then 102 else if kind = 10 then 4320 else 540

/-- The last of those ticks: the 8 cycles after release in which the crossing's flags are undefined (R386). -/
def domSpan (kind : Nat) : Nat := if kind = 1 then 31 else if kind ≤ 5 then 8 else if kind ≤ 9 then 12 else if kind = 10 then 480 else 60

/-- What comes into CCLK out of a domain (R384, R386): nothing while it is held in reset; until the crossing's flags are
defined again a word may be lost, or come twice (log entry 12, place 386). -/
def State.crossIn (s : State) (kind : Nat) (f : State → State) : State :=
  match s.cdc.resets.find? fun r => r.kind.toNat == kind with
  | none => f s
  | some r =>
    if s.tick + domSpan kind < r.done then s
    else
      let (n, s) := s.draw
      match Config.free 386 [n] % 3 with
      | 0 => s
      | 1 => f s
      | _ => f (f s)

/-- Whether an operation that reads or writes flash is RUNNING (R385, R411). -/
def State.flashBusy (s : State) : Bool :=
  (List.range 16).any fun k => (s.op k).st = 1 && match (s.op k).kind with
    | .fwStage .. | .fwVerify => true
    | .tableLoad _ f _ _ => f
    | _ => false

/-- The event crossings whose source lies in a domain: what is counted there and not sent is lost (R384). -/
def domCrossings (kind : Nat) : List (Nat × Nat) :=
  if kind = 1 then [(8, 0)] else if kind ≤ 5 then [(9 + (kind - 2), 0)] else if kind ≤ 9 then [(13, kind - 6)]
  else if kind = 10 then [(14, 0)] else []

/-- Status that a domain handed over reads its reset values until it reports again (R384, crossing 16): the media ports'
links; the eyes, the skews and the polarities of a fabric port's lanes; a DRAM channel's training. -/
def State.statusLost (s : State) (kind : Nat) : State :=
  if kind = 1 then s.restartPorts (List.range 8)
  else if kind ≤ 5 then
    (List.range 4).foldl (fun (t : State) l => (t.setWord (F.LNK_EYE_HEIGHT_MV (kind - 2) l).addr 0).setWord
      (F.LNK_SKEW_COARSE (kind - 2) l).addr 0) (s.setFld (F.LNK_STAT_POL_INV (kind - 2)) 0)
  else if kind ≤ 9 then s.setWord (F.MEM_CH_STAT_TRAINED (kind - 6)).addr 0
  else s

/-- The far side of a domain's crossings (R384): its status is lost, and so are the events counted at the source and not
yet sent; a request that is outstanding stays. -/
def State.crossingsLost (s : State) (kind : Nat) : State :=
  (domCrossings kind).foldl (fun (t : State) k => t.updCross k.1 k.2 fun c => { c with count := [], sat := false })
    (s.statusLost kind)

/-- A domain is held in reset from here on (R386), with the non-CCLK side of its crossings (R384). -/
def State.domainHold (s : State) (kind : Nat) : State :=
  let s := s.crossingsLost kind
  let s := if kind = 10 then s.ringReset else s
  let s : State := { s with cdc := { s.cdc with
    due := s.cdc.due.filter fun d => d.toNat != kind
    resets := (s.cdc.resets.filter fun (r : DomReset) => r.kind.toNat != kind) ++
      [{ kind := BitVec.ofNat 4 kind, done := s.tick + domTicks kind }] } }
  let s := s.setFld F.CLK_DOM_STAT_IN_RESET (Nat.lor (s.fld F.CLK_DOM_STAT_IN_RESET) (2 ^ (kind - 1)))
  (s.setFld F.CLK_DOM_STAT_LAST_KIND kind).bump F.CLK_DOM_STAT_RESETS

/-- Loss of the forwarded clock for 100 ns in ACTIVE (R387): as FRAME_LOCK, from CLOCK, with what its crossings lose. -/
def State.clockLoss (s : State) (q : Nat) : State :=
  let v := s.fld F.CLK_STAT_FRX_CLK
  let s := s.setFld F.CLK_STAT_FRX_CLK (v - v / 2 ^ q % 2 * 2 ^ q)
  if s.carries q then
    let t := (s.leaveActive q 6).crossingsLost (2 + q)
    if t.lnkState q = lkBlock then t.setLnk q lkClock else t
  else s

/-- `RESET` with `KIND` 1 to 11 (R385, R386): the reset waits until its reply has left; with `NO_REPLY` it is at once. -/
def State.domainReset (s : State) (kind : Nat) (noReply : Bool) : Res :=
  if kind = 0 ∨ 11 < kind then refuse s Status.badParam Reason.range 0
  else if (6 ≤ kind ∧ kind ≤ 9 ∧ (s.channelIn (kind - 6) ∨ s.memc.training.getLsbD (kind - 6))) ∨
      (kind = 11 ∧ s.flashBusy) then refuse s Status.notReady Reason.domainBusy kind
  else if noReply then okRes (s.domainHold kind)
  else okRes { s with cdc := { s.cdc with
      due := (s.cdc.due.filter fun d => d.toNat != kind) ++ [BitVec.ofNat 4 kind] } }

/-- The resets that wait begin once no reply of the device has still to leave (R386). -/
def State.domainDue (s : State) : State :=
  if s.replyQueued then s else s.cdc.due.foldl (fun t d => t.domainHold d.toNat) s

/-- Every media port restarts, and its joins are reported afresh as its link returns; PTP received in the first 1 ms is
discarded (R384, R386). -/
def State.mediaRestart (s : State) : State :=
  (s.restartPorts (List.range 8)).updEth fun e => { e with ptpFrom := s.tick + usTicks 1000, afresh := 0xFF }

/-- The restart of a domain whose reset has ended (R386). -/
def State.domainRestart (s : State) (kind : Nat) : State :=
  if s.cdc.resets.any fun r => r.kind.toNat == kind && decide (r.done ≤ s.tick) then
    let s : State := { s with cdc := { s.cdc with resets := s.cdc.resets.filter fun (r : DomReset) => r.kind.toNat != kind } }
    let v := s.fld F.CLK_DOM_STAT_IN_RESET
    let s := s.setFld F.CLK_DOM_STAT_IN_RESET (v - v / 2 ^ (kind - 1) % 2 * 2 ^ (kind - 1))
    let s := if kind = 1 then s.mediaRestart
      else if kind ≤ 5 then s.hostRetrain (kind - 2)
      else s
    s.log Rec.domainReset [BitVec.ofNat 8 kind]
  else s

/-! ## Event crossings (R383) -/

/-- The destination takes a request of crossing `k`: its events join their counters, an overflow is counted and recorded,
and the source sends what it has counted since. -/
def State.eventCrossing (s : State) (k j : Nat) : State :=
  let c := (s.cdc.cross.getD (k - 7) []).getD j {}
  let held := (k = 7 ∧ s.domBusy 10) ∨ ((List.range 12).any fun r => s.domBusy r && (domCrossings r).contains (k, j))
  if ¬ c.busy ∨ k < 7 ∨ held then s
  else
    let s := s.updCross k j fun c => ({ c with busy := false, sent := [], sentOvf := false }).request
    let s := c.sent.foldl (fun (t : State) e => e.foldl (fun (u : State) a => u.bump ⟨a, 0, 32⟩) t) s
    let s := if k = 7 then s.ringAlarm c.sent.length c.sentOvf else s
    if c.sentOvf then (s.bump (F.CLK_EVT_OVF_COUNT (k - 7))).log Rec.eventOverflow [BitVec.ofNat 8 k] else s

end Sys2Proof.Machine
end

