-- ==== Sys2Proof/Machine/Sec.lean ====
section
/-! DEFINITION. The cocoon (spec/16) and the instar's advance (R32, R33): owner keys, the ring proof, flash, the slot
directory, image checks, staging, molts, attestation, the provisioning record. -/

namespace Sys2Proof.Machine

open Sys2Proof

/-! Reason codes of spec/16 (R420) and spec/01 (R478). -/

namespace Reason
def ringOnly : Nat := 0x0A00
def notVerified : Nat := 0x0A01
def moltPending : Nat := 0x0A02
def keyExhausted : Nat := 0x0A03
def ownerSession : Nat := 0x0A04
def imgHeader : Nat := 0x0A10
def imgKey : Nat := 0x0A11
def imgSignature : Nat := 0x0A12
def svnRollback : Nat := 0x0A13
def imgBlock : Nat := 0x0A14
def imgDecrypt : Nat := 0x0A15
def imgSection : Nat := 0x0A16
def flashWrite : Nat := 0x0A17
def nvmWrite : Nat := 0x0A18
def instarBusy : Nat := 0x0B00
def noProvRecord : Nat := 0x0B01
def noOwner : Nat := 0x0B02
def fuseVerify : Nat := 0x0B03
end Reason

def State.updSec (s : State) (f : SecSt → SecSt) : State := { s with sec := f s.sec }

/-- The bytes of a text in ASCII. -/
def ascii (t : String) : List Byte := t.toList.map fun c => BitVec.ofNat 8 c.toNat

/-- Words of a byte string, most significant byte first. -/
def digestWords (d : BitVec 256) : List Word := bytesWords (bytesBE 32 d.toNat)

/-! ## Fuses (R30, R390) -/

/-- Steps of a redundant pair that read blown. -/
def blownSteps (l : List (Bool × Bool)) : Nat := (l.filter fun p => p.1 || p.2).length

/-- `KEY_REVOKED`. -/
def revokedMask (l : List (Bool × Bool)) : Nat :=
  ((List.zip (List.range 4) l).map fun e => if e.2.1 || e.2.2 then 2 ^ e.1 else 0).sum

/-! ## Owner keys (R397 to R399) -/

/-- K_i (R398), while an owner master key is held. -/
def State.ownerKeyOf (s : State) (i : Nat) : Option (List Byte) :=
  s.sec.nvm.ownerKey.map fun k =>
    let prf (j : Nat) : List Byte := bytesBE 16 (Config.aesCmac (bytesBE 32 k.toNat)
      (bytesBE 1 j ++ ascii "EXVAS-OSK" ++ [0] ++ bytesBE 2 s.sec.nvm.epoch.toNat ++ bytesBE 1 i ++ bytesBE 2 256)).toNat
    prf 1 ++ prf 2

/-- Whether a session is on the service ring. -/
def State.ringSession (s : State) (k : Nat) : Bool :=
  (s.sess k).isOpen && match (s.sess k).via with
    | .ring => true
    | _ => false

/-- Whether a session is an owner session (R399): opened by UDP, which needs a key from 1 to 255 (R77), or proven. -/
def State.ownerSession (s : State) (k : Nat) : Bool :=
  (s.sess k).isOpen && ((s.sess k).owner || match (s.sess k).via with
    | .udp .. => true
    | _ => false)

/-- Whether session `k` may enrol an owner: on the ring, at instar 0 or 1 (R397). -/
def State.mayEnrol (s : State) (k : Nat) : Bool := s.ringSession k && decide (s.instar ≤ 1)

/-- A write of 1 to `SEC_OWNER_CTRL.ENROL` by session `k` (R397); `ok` is whether the key reads back. -/
def State.enrol (s : State) (k : Nat) (ok : Bool) : State :=
  if ¬ s.mayEnrol k then s
  else if ok then
    let key := BitVec.ofNat 256 (natBE (wordsBytes s.sec.ownerKeyIn))
    ((s.updSec fun c => { c with nvm := { c.nvm with ownerKey := some key, epoch := 0 } }).setFld F.SEC_STAT_ENROLLED 1).setFld
      F.SEC_STAT_ENROL_ERR 0
  else s.setFld F.SEC_STAT_ENROL_ERR 1

/-- A write of `SEC_OWNER_CTRL.EPOCH` by session `k` (R398). -/
def State.setEpoch (s : State) (k : Nat) (v : BitVec 16) : State :=
  if s.ownerSession k ∧ s.sec.nvm.epoch < v then s.updSec fun c => { c with nvm := { c.nvm with epoch := v } } else s

/-- A fresh challenge (R399). -/
def State.newChallenge (s : State) : State :=
  let (n, s) := s.draw
  s.updSec fun c => { c with chal := Config.random n }

/-- The proof a ring session must give (R399). -/
def State.ringProof (s : State) (k : Nat) : Option (BitVec 128) :=
  (s.ownerKeyOf 0).map fun key => Config.aesCmac key (ascii "EXPF" ++ bytesBE 8 s.sec.fuses.serial.toNat ++
    bytesBE 16 s.sec.chal.toNat ++ bytesBE 2 (s.sess k).src.toNat)

/-- A write of `SEC_PROOF[3]` by session `k`: the check (R399). -/
def State.proof (s : State) (k : Nat) (word3 : Word) : State :=
  let got := BitVec.ofNat 128 (natBE (wordsBytes (s.sec.proofIn.take 3 ++ [word3])))
  let pass := s.ringSession k && s.ringProof k == some got
  let s := (s.updSec fun c => { c with proofIn := c.proofIn.set 3 word3 }).newChallenge
  if pass then (s.updSess k fun e => { e with owner := true }).bump (F.SEC_CNT_COUNT 0)
  else (s.bump (F.SEC_CNT_COUNT 1)).log Rec.ownerProofFail (bytesBE 2 (s.sess k).src.toNat ++ [BitVec.ofNat 8 k])

/-! ## Flash (R404) -/

def flashByte (l : List Host.Cell) (a : Nat) : Byte := sparseGet (fun _ => 0xFF) l a

def State.flashBytes (s : State) (a n : Nat) : List Byte := (List.range n).map fun i => flashByte s.sec.flash (a + i)

/-- A range of flash takes bytes. -/
def State.flashPut (s : State) (a : Nat) (bs : List Byte) : State :=
  s.updSec fun c => { c with
    flash := (List.zip (List.range bs.length) bs).foldl (fun l e => sparsePut (fun _ => 0xFF) l (a + e.1) e.2) c.flash }

/-- A range of flash is erased. -/
def State.flashErase (s : State) (a n : Nat) : State :=
  s.updSec fun c => { c with flash := c.flash.filter fun e => decide (e.1 < a ∨ a + n ≤ e.1) }

def State.flashLE (s : State) (a n : Nat) : Nat := natLE (s.flashBytes a n)

/-- Start and size of a staging area: 0 chrysalis, 1 provisioning record, 2 table area (R404). -/
def slotBase (slot : Nat) : Nat := 0x100000 + 0x1000000 * slot

def State.activeSlot (s : State) : Nat := s.fld F.SEC_STAT_ACTIVE_SLOT

def State.chrysSlot (s : State) : Nat := 1 - s.activeSlot

def State.areaOf (s : State) (area : Nat) : Nat × Nat :=
  match area with
  | 0 => (slotBase s.chrysSlot, 0x1000000)
  | 1 => (0x10000, 0x10000)
  | _ => (0x2100000, s.sec.flashSize - 0x2100000)

/-! ## The slot directory (R405, R406) -/

/-- A directory copy. -/
structure Directory where
  seq : Nat := 0
  active : Nat := 0
  advance : Bool := false
  digest : BitVec 256 := 0
deriving DecidableEq, Repr

/-- Copy `k`, when its check word matches. -/
def State.dirCopy (s : State) (k : Nat) : Option Directory :=
  let a := 0x1000 * k
  if s.flashLE (a + 60) 4 = (crc32c (s.flashBytes a 60)).toNat then
    some { seq := s.flashLE (a + 8) 4, active := s.flashLE (a + 12) 1 % 2, advance := bitOf (s.flashLE (a + 13) 1) 0,
           digest := BitVec.ofNat 256 (natBE (s.flashBytes (a + 16) 32)) }
  else none

/-- The copy in force: its number and content. -/
def State.directory (s : State) : Option (Nat × Directory) :=
  match s.dirCopy 0, s.dirCopy 1 with
  | some a, some b => if a.seq < b.seq then some (1, b) else some (0, a)
  | some a, none => some (0, a)
  | none, some b => some (1, b)
  | none, none => none

/-- The bytes of a copy (R405). -/
def dirBytes (d : Directory) : List Byte :=
  let b := ascii "EXSD" ++ bytesLE 2 1 ++ bytesLE 2 0 ++ bytesLE 4 d.seq ++ bytesLE 1 d.active ++ bytesLE 1 d.advance.toNat ++
    bytesLE 2 0 ++ bytesBE 32 d.digest.toNat ++ List.replicate 12 0
  b ++ bytesLE 4 (crc32c b).toNat

/-- A directory write goes to the copy not in force; a write that does not read back leaves that copy erased (R406). -/
def State.writeDirectory (s : State) (d : Directory) (ok : Bool) : State :=
  let k := match s.directory with
    | some (0, _) => 1
    | _ => 0
  let s := s.flashErase (0x1000 * k) 0x1000
  if ok then s.flashPut (0x1000 * k) (dirBytes d) else s

/-! ## Images (R407 to R409, R412, R413) -/

/-- What the checks of an image answer: the reason and detail of the first failure, or 0, and the header's fields. -/
structure ImgCheck where
  reason : Nat := 0
  detail : Nat := 0
  info : ImgInfo := {}
deriving DecidableEq, Repr

/-- Bytes of an LM-OTS signature of a type from W1 to W8 (RFC 8554; log entry 7). -/
def lmotsBytes (t : Nat) : Option Nat :=
  match t with
  | 1 => some (36 + 32 * 265)
  | 2 => some (36 + 32 * 133)
  | 3 => some (36 + 32 * 67)
  | 4 => some (36 + 32 * 34)
  | _ => none

/-- Levels of an LMS tree of a type from H5 to H25 (RFC 8554). -/
def lmsHeight (t : Nat) : Option Nat := if 5 ≤ t ∧ t ≤ 9 then some (5 * (t - 4)) else none

/-- Walks `n` LMS signatures, each but the last with the public key of the next tree, under the types of the present tree:
whether every type lies within the bounds of R412 and agrees with its key, and the bytes end with the last. -/
def lmsChain : Nat → Nat → Nat → List Byte → Bool
  | 0, _, _, l => l.isEmpty
  | n + 1, tree, ots, l =>
    match lmotsBytes ots, lmsHeight tree with
    | some o, some h =>
      let rest := l.drop (8 + o + 32 * h)
      decide (8 + o + 32 * h ≤ l.length) && natBE ((l.drop 4).take 4) == ots && natBE ((l.drop (4 + o)).take 4) == tree &&
        (if n = 0 then rest.isEmpty
         else decide (56 ≤ rest.length) && lmsChain n (natBE (rest.take 4)) (natBE ((rest.drop 4).take 4)) (rest.drop 56))
    | _, _ => false

/-- The bounds of R412 on an HSS signature: 1 to 3 levels, its types, and exactly the bytes it is given as. -/
def hssBounds (pub sig : List Byte) : Bool :=
  let levels := natBE (pub.take 4)
  decide (1 ≤ levels ∧ levels ≤ 3) && natBE (sig.take 4) + 1 == levels &&
    lmsChain levels (natBE ((pub.drop 4).take 4)) (natBE ((pub.drop 8).take 4)) (sig.drop 4)

/-- The first failing part of the header check, 0 for none (R412). -/
def State.headerPart (s : State) (a : Nat) : Nat :=
  let v (o n : Nat) : Nat := s.flashLE (a + o) n
  let blocks := v 28 4
  let sigOff := v 32 4
  let sigLen := v 36 4
  let zero (o n : Nat) : Bool := v o n == 0
  if s.flashBytes a 4 ≠ ascii "EXFW" then 1
  else if v 4 2 ≠ 1 then 2
  else if v 8 2 ≠ 0x4160 ∨ 0xB0 < v 10 1 then 3
  else if 64 < v 12 1 ∨ 3 < v 13 1 then 4
  else if blocks = 0 ∨ sigOff ≠ 256 + 16 * blocks ∨ sigLen = 0 ∨ 65536 < sigLen then 5
  else if 4096 < ceilDiv (sigOff + sigLen) 4096 + blocks then 6
  else if !(zero 6 2 && zero 11 1 && zero 14 2 && zero 52 4 && zero 156 4 && zero 224 32 &&
      (List.range 4).all fun i => zero (161 + 16 * i) 3) then 7
  else 0

/-- Byte `x` of the key stream of a body (R408): byte x mod 16 of AES-256 of the nonce with the number of the 16 bytes. -/
def keyStream (key nonce : List Byte) (x : Nat) : Byte :=
  (bytesBE 16 (Config.aesBlock key (BitVec.ofNat 128 (natBE (nonce ++ bytesBE 4 (x / 16))))).toNat).getD (x % 16) 0

/-- Plaintext of `n` body bytes from offset `o` (R408). -/
def State.imgPlain (s : State) (body : Nat) (key nonce : List Byte) (o n : Nat) : List Byte :=
  (List.range n).map fun i => flashByte s.sec.flash (body + o + i) ^^^ keyStream key nonce (o + i)

/-- The checks of R412 on the image in a slot, in order. -/
def State.checkImage (s : State) (slot : Nat) : ImgCheck :=
  let a := slotBase slot
  let v (o n : Nat) : Nat := s.flashLE (a + o) n
  let blocks := v 28 4
  let sigOff := v 32 4
  let sigLen := v 36 4
  let message := s.flashBytes a sigOff
  let info : ImgInfo := {
    id := BitVec.ofNat 64 (v 16 8), release := BitVec.ofNat 32 (v 24 4), svn := BitVec.ofNat 8 (v 12 1),
    digest := Config.sha256 message }
  let part := s.headerPart a
  if part ≠ 0 then ⟨Reason.imgHeader, part, info⟩
  else
    let slotKey := v 13 1
    let pub := s.flashBytes (a + 96) 60
    let pair := s.sec.fuses.revoked.getD slotKey (false, false)
    let fused := blownSteps s.sec.fuses.svn
    let body := a + 4096 * ceilDiv (sigOff + sigLen) 4096
    let badBlock := (List.range blocks).find? fun j =>
      bytesBE 16 ((Config.sha256 (s.flashBytes (body + 4096 * j) 4096)).toNat / 2 ^ 128) != s.flashBytes (a + 256 + 16 * j) 16
    if Config.sha256 pub ≠ s.sec.fuses.keyHash.getD slotKey 0 ∨ pair.1 ∨ pair.2 then ⟨Reason.imgKey, slotKey, info⟩
    else if ¬ (hssBounds pub (s.flashBytes (a + sigOff) sigLen) ∧
        Config.hssVerify pub message (s.flashBytes (a + sigOff) sigLen)) then ⟨Reason.imgSignature, 0, info⟩
    else if v 12 1 < fused then ⟨Reason.svnRollback, fused, info⟩
    else
      match badBlock with
      | some j => ⟨Reason.imgBlock, j, info⟩
      | none =>
        match Config.aesUnwrap (bytesBE 32 s.sec.fuses.imageKey.toNat) (s.flashBytes (a + 56) 40) with
        | none => ⟨Reason.imgDecrypt, 0, info⟩
        | some key =>
          let nonce := s.flashBytes (a + 40) 12
          let entry (i : Nat) : Nat := 160 + 16 * i
          let bad := (List.range 4).find? fun i =>
            let t := v (entry i) 1
            let o := v (entry i + 4) 4
            let n := v (entry i + 8) 4
            t == 0 || decide (4 < t) || ((List.range i).any fun j => v (entry j) 1 == t) || decide (o % 16 ≠ 0) ||
              decide (4096 * blocks < o + n) || (crc32c (s.imgPlain body key nonce o n)).toNat != v (entry i + 12) 4
          match bad with
          | some i => ⟨Reason.imgSection, i, info⟩
          | none => ⟨0, 0, info⟩

/-- `SEC_IMG[1]` and the chrysalis state follow a check or a stage (R412). -/
def State.setChrys (s : State) (st : Nat) (info : ImgInfo := {}) : State :=
  (s.updSec fun c => { c with chrys := if st = 1 then info else {} }).setFld F.SEC_STAT_CHRYS_STATE st

/-! ## Molts pending (R415) -/

def isMolt : Entry → Bool
  | .molt _ => true
  | _ => false

/-- Whether a molt is pending: dispatched alone and not performed, or an entry of a transaction that has not ended. -/
def State.moltPending (s : State) : Bool :=
  s.sec.moltDue.isSome || s.txn.txns.any fun t =>
    (t.state = .opened || t.state = .pending || t.state = .prepared || t.state = .uncertain) && t.entries.any isMolt

/-! ## Staging and verification (R410 to R412) -/

/-- `FW_STAGE` (R410). -/
def State.fwStage (s : State) (w : Who) (area : BitVec 2) (fromDram : Bool) (offset size : Word) (addr : Nat)
    (data : List Word) : Res :=
  let o := offset.toNat
  let n := size.toNat
  let (_, room) := s.areaOf area.toNat
  if (fromDram ∧ data ≠ []) ∨ (¬ fromDram ∧ n ≠ 4 * data.length) then .done Status.badLength [] s
  else if area = 3 then refuse s Status.badParam Reason.range 0
  else if o % 4096 ≠ 0 then refuse s Status.badParam Reason.align 1
  else if n % 4096 ≠ 0 then refuse s Status.badParam Reason.align 2
  else if fromDram ∧ addr % 8 ≠ 0 then refuse s Status.badParam Reason.align 4
  else if room < o + n then refuse s Status.badParam Reason.range 1
  else if fromDram ∧ ¬ s.inDram addr n then refuse s Status.badParam Reason.range 3
  else if area = 1 ∧ 1 ≤ s.instar then .done Status.instarLocked [] s
  else if area = 0 ∧ ¬ s.ringSession w.slot.toNat then refuse s Status.notReady Reason.ringOnly 0
  else if area = 0 ∧ s.moltPending then refuse s Status.notReady Reason.moltPending 0
  else if s.flashBusy then .wait
  else
    s.runOp w 0x60 (.fwStage area fromDram offset size addr data) fun k t =>
      let t := if area = 0 then t.setChrys 0 else t
      if n = 0 then t.finishOp k Status.ok [0, 0, 0xFFFFFFFF] else t

/-- The end of `FW_STAGE`; `fail` is the first block that does not read back (R410). What that block then holds is left
open: free values (log entry 12). -/
def State.fwStageDone (s : State) (k : Nat) (fail : Option Nat) : State :=
  match (s.op k).st.toNat, (s.op k).kind with
  | 1, .fwStage area fromDram offset size addr data =>
    let n := size.toNat
    let base := (s.areaOf area.toNat).1 + offset.toNat
    let bytes := if fromDram then s.readBytes .bulk addr n else data.flatMap fun w => bytesLE 4 w.toNat
    let s := if fromDram then s.accountRead .bulk addr n else s
    let s := s.flashErase base n
    match fail.filter fun j => decide (4096 * j < n) with
    | none =>
      (s.flashPut base bytes).finishOp k Status.ok [0, size, 0xFFFFFFFF]
    | some j =>
      let (d, s) := s.draw
      let junk := (List.range 4096).map fun i => BitVec.ofNat 8 (Config.free 410 [d, i])
      ((s.flashPut base (bytes.take (4096 * j))).flashPut (base + 4096 * j) junk).failOp k Status.verifyFail
        Reason.flashWrite 0 [BitVec.ofNat 32 (4096 * j), BitVec.ofNat 32 (offset.toNat + 4096 * j)]
  | _, _ => s

/-- `FW_VERIFY` (R411). -/
def State.fwVerify (s : State) (w : Who) : Res := if s.flashBusy then .wait else s.runOp w 0x61 .fwVerify

/-- The fields of an image in the result of `FW_VERIFY`. -/
def imgWords (i : ImgInfo) : List Word :=
  [BitVec.ofNat 32 (i.id.toNat / 2 ^ 32), BitVec.ofNat 32 i.id.toNat, i.release, BitVec.ofNat 32 i.svn.toNat] ++
    digestWords i.digest

/-- The end of `FW_VERIFY` (R412). -/
def State.fwVerifyDone (s : State) (k : Nat) : State :=
  match (s.op k).st.toNat, (s.op k).kind with
  | 1, .fwVerify =>
    let r := s.checkImage s.chrysSlot
    if r.reason = 0 then (s.setChrys 1 r.info).finishOp k Status.ok (0 :: imgWords r.info)
    else
      let s := (s.setChrys 2).bump (F.SEC_CNT_COUNT 4)
      let s := if r.reason = Reason.svnRollback then s.bump (F.SEC_CNT_COUNT 5) else s
      s.failOp k Status.verifyFail r.reason r.detail (imgWords r.info)
  | _, _ => s

/-! ## Molts (R415, R416) -/

/-- The refusals of `FW_MOLT` (R415). -/
def State.moltRefusal (s : State) (w : Who) : Option Res :=
  if ¬ s.ringSession w.slot.toNat then some (refuse s Status.notReady Reason.ringOnly 0)
  else if s.fld F.SEC_STAT_CHRYS_STATE ≠ 1 then some (refuse s Status.notReady Reason.notVerified 0)
  else if s.moltPending then some (refuse s Status.notReady Reason.moltPending 0)
  else none

/-- `FW_MOLT` outside a transaction: the molt is due once the reply has left, or at once with `NO_REPLY` (R415). -/
def State.fwMolt (s : State) (w : Who) (advance noReply : Bool) : Res :=
  match s.moltRefusal w with
  | some r => r
  | none => okRes (s.updSec fun c => { c with moltDue := some advance, moltWaits := !noReply })

/-- Whether the molt due must wait: for a flash operation that runs (R411), or for its reply to leave (R415). -/
def State.moltHeld (s : State) : Bool := s.flashBusy || (s.sec.moltWaits && s.replyQueued)

/-- The molt due is performed once nothing holds it; `ok` is whether the directory copy reads back
(R416). -/
def State.molt (s : State) (ok : Bool) : State :=
  match s.sec.moltDue with
  | none => s
  | some advance =>
    if s.moltHeld then s
    else
    let s := s.updSec fun c => { c with moltDue := none }
    let st := s.fld F.SEC_STAT_CHRYS_STATE
    if st ≠ 1 then (s.bump (F.SEC_CNT_COUNT 7)).log Rec.moltSkipped [BitVec.ofNat 8 st]
    else
      let seq := (s.directory.map fun d => d.2.seq).getD 0
      let slot := s.chrysSlot
      let s := s.writeDirectory { seq := (seq + 1) % 2 ^ 32, active := slot, advance := advance, digest := s.sec.chrys.digest } ok
      if ok then
        let s := s.bump (F.SEC_CNT_COUNT 6)
        if s.role = roleTile ∧ s.mode = 5 then s.leaveTile.updSys fun y => { y with blankThenReset := true }
        else s.requestReset 4 false
      else ((s.setChrys 2).bump (F.SEC_CNT_COUNT 7)).log Rec.moltFailed [BitVec.ofNat 8 slot]

/-! ## Attestation (R392 to R396) -/

/-- A byte string at its length. -/
def fitBytes (n : Nat) (bs : List Byte) : List Byte := (bs ++ List.replicate n 0).take n

/-- An LMS public key of RFC 8554 (R392): types LMS_SHA256_M32_H15 and LMOTS_SHA256_N32_W8, the identifier, the root. -/
def lmsPublic (tree : List Byte) : List Byte :=
  bytesBE 4 7 ++ bytesBE 4 4 ++ fitBytes 16 tree ++ bytesBE 32 (Config.lmsRoot tree).toNat

/-- An LMS signature of RFC 8554 with leaf `leaf` of a tree: the leaf, the LM-OTS signature, the tree's type, the path. -/
def lmsSign (tree : List Byte) (leaf : Nat) (message : List Byte) : List Byte :=
  bytesBE 4 leaf ++ bytesBE 4 4 ++ fitBytes 1120 (Config.lmotsSign tree leaf message) ++ bytesBE 4 7 ++
    fitBytes 480 (Config.lmsPath tree leaf)

/-- The HSS signature with index `q` (R392): leaf ⌊q / 32,768⌋ of the top tree signs the public key of its bottom tree, leaf
q mod 32,768 of that tree the message. The top signature is computed anew each time; it depends on its bottom tree alone. -/
def idSign (root : BitVec 256) (q : Nat) (message : List Byte) : List Byte :=
  let bottom := Config.idTree root (some (q / 32768))
  bytesBE 4 1 ++ lmsSign (Config.idTree root none) (q / 32768) (lmsPublic bottom) ++ lmsPublic bottom ++
    lmsSign bottom (q % 32768) message

/-- The identity public key (R392): L = 2 and the top tree's public key, 60 bytes. -/
def State.idPublic (s : State) : List Byte :=
  bytesBE 4 2 ++ lmsPublic (Config.idTree s.sec.fuses.rootSecret none)

/-- `ATTEST` (R396): one runs at a time. -/
def State.attest (s : State) (w : Who) (nonce : List Word) (pubkey : Bool) : Res :=
  if 2 ^ 30 ≤ s.sec.idNext then refuse s Status.notReady Reason.keyExhausted 0
  else if (List.range 16).any fun k => (s.op k).st = 1 && (s.op k).opcode == 0x68 then .wait
  else s.runOp w 0x68 (.attest nonce pubkey)

/-- The valid reservation cell with the highest `SEQ` (R393, R394). -/
def idCell (l : List (Option (Word × Word))) : Option (Nat × Word × Word) :=
  (List.zip (List.range l.length) l).foldl (fun (best : Option (Nat × Word × Word)) e =>
    match e.2, best with
    | some c, none => some (e.1, c.1, c.2)
    | some c, some b => if b.2.1.toNat < c.1.toNat then some (e.1, c.1, c.2) else some b
    | none, b => b) none

/-- A reservation of 256 indexes (R393); `ok` is whether the cell reads back. -/
def State.reserve (s : State) (ok : Bool) : Bool × State :=
  let n := s.sec.nvm
  let (at_, seq) : Nat × Word := match idCell n.idCells with
    | some c => ((c.1 + 1) % 64, c.2.1 + 1)
    | none => (0, 1)
  if ok then
    (true, (s.updSec fun c => { c with
      nvm := { n with idCells := n.idCells.set at_ (some (seq, BitVec.ofNat 32 (c.idNext + 256))) },
      idLimit := c.idNext + 256 }).bump (F.SEC_CNT_COUNT 3))
  else (false, s.updSec fun c => { c with nvm := { n with idCells := n.idCells.set at_ none } })

/-- The provisioning record as it lies in flash. -/
def State.provBytes (s : State) : List Byte := s.flashBytes 0x10000 (s.flashLE 0x10006 2)

/-- The report of R395. -/
def State.report (s : State) (nonce : List Word) (pubkey : Bool) (q : Nat) : List Byte :=
  let img (i : ImgInfo) (st : Nat) : List Byte :=
    bytesBE 8 i.id.toNat ++ bytesBE 4 i.release.toNat ++ bytesBE 1 i.svn.toNat ++ bytesBE 1 st ++ bytesBE 2 0
  let owner : List Byte := match s.sec.nvm.ownerKey with
    | some k => bytesBE 32 (Config.sha256 (ascii "EXOD" ++ bytesBE 32 k.toNat)).toNat
    | none => List.replicate 32 0
  -- every field of the chrysalis, its state among them, is zero unless VERIFIED (log entry 60)
  let chrys := if s.fld F.SEC_STAT_CHRYS_STATE = 1 then 1 else 0
  ascii "EXAT" ++ bytesBE 2 1 ++ bytesBE 2 pubkey.toNat ++ bytesBE 8 s.sec.fuses.serial.toNat ++ wordsBytes nonce ++
    bytesBE 4 q ++ bytesBE 1 s.instar ++ bytesBE 1 s.role ++ bytesBE 1 s.mode ++ bytesBE 1 (s.fld F.SYS_BOOT_RECOVERY) ++
    bytesBE 1 (s.fld F.SEC_STAT_SVN) ++ bytesBE 1 (s.fld F.SEC_STAT_KEY_REVOKED) ++ bytesBE 2 0 ++
    bytesBE 2 s.addr.toNat ++ bytesBE 2 0 ++ bytesBE 8 (timeSec s.clk) ++ bytesBE 4 (timeNs s.clk) ++
    bytesBE 1 s.timeState ++ bytesBE 3 0 ++ img s.sec.active s.activeSlot ++ bytesBE 32 s.sec.active.digest.toNat ++
    img s.sec.chrys chrys ++ bytesBE 32 s.sec.chrys.digest.toNat ++ bytesBE 32 s.sec.provDigest.toNat ++ owner ++
    List.replicate 16 0

/-- The end of `ATTEST`; `nvmOk` is whether a reservation it needs reads back (R393, R396). -/
def State.attestDone (s : State) (k : Nat) (nvmOk : Bool) : State :=
  match (s.op k).st.toNat, (s.op k).kind with
  | 1, .attest nonce pubkey =>
    -- a reservation write waits for a flash operation (R411)
    if s.sec.idLimit ≤ s.sec.idNext ∧ s.flashBusy then s
    else
    let (ok, s) := if s.sec.idNext < s.sec.idLimit then (true, s) else s.reserve nvmOk
    if ok then
      let q := s.sec.idNext
      let r := s.report nonce pubkey q
      let sig := idSign s.sec.fuses.rootSecret q r
      let s := (s.updSec fun c => { c with idNext := q + 1 }).bump (F.SEC_CNT_COUNT 2)
      s.finishOp k Status.ok (bytesWords (r ++ (if pubkey then s.idPublic else []) ++ sig))
    else s.failOp k Status.verifyFail Reason.nvmWrite 0
  | _, _ => s

/-! ## The provisioning record (R401, R402) -/

/-- Whether a record's fields meet R401, the digest apart. -/
def State.provOk (s : State) : Bool :=
  let a := 0x10000
  let len := s.flashLE (a + 6) 2
  let cnt := s.flashLE (a + 20) 2
  let ser := s.flashLE (a + 8) 8
  s.flashBytes a 4 == ascii "EXPR" && s.flashLE (a + 4) 2 == 1 && decide (28 ≤ len ∧ len ≤ 4092 ∧ len = 28 + 8 * cnt) &&
    (ser == 0 || ser == s.sec.fuses.serial.toNat) && decide (s.flashLE (a + 16) 1 ≤ 3) &&
    [0, 2, 4, 5, 6].contains (s.flashLE (a + 17) 1) && s.flashLE (a + 18) 2 == 0 && s.flashLE (a + 22) 2 == 0 &&
    s.flashLE (a + len - 4) 4 == (crc32c (s.flashBytes a (len - 4))).toNat

/-- The entries of the record: address and value. -/
def State.provEntries (s : State) : List (Nat × Word) :=
  (List.range (s.flashLE 0x10014 2)).map fun i =>
    (s.flashLE (0x10018 + 8 * i) 4, BitVec.ofNat 32 (s.flashLE (0x1001C + 8 * i) 4))

/-! ## The instar's advance (R32, R33) -/

/-- Whether flash holds a provisioning record whose check word is valid (R32, R401): what makes it a record and places its
`CHECK` meets the table; whom the record is for and what it asks is not examined here. -/
def State.provCheck (s : State) : Bool :=
  let a := 0x10000
  let len := s.flashLE (a + 6) 2
  s.flashBytes a 4 == ascii "EXPR" && s.flashLE (a + 4) 2 == 1 && decide (28 ≤ len ∧ len ≤ 4092) &&
    s.flashLE (a + len - 4) 4 == (crc32c (s.flashBytes a (len - 4))).toNat

/-- The refusals of `INSTAR_ADVANCE`, in order (R32). DEDUCED (log entry 41): an UNCERTAIN transaction, though it keeps its
pending entry (R113, R129), counts neither as an open transaction nor as a pending commit; a PREPARED one counts. -/
def State.instarRefusal (s : State) (w : Who) (target : Nat) (confirm : Word) : Option Res :=
  let busy := !s.txn.actions.isEmpty || s.txn.txns.any fun t =>
    t.state = .opened || t.state = .pending || t.state = .prepared
  if 4 ≤ s.instar then some (.done Status.instarLocked [] s)
  else if target ≠ s.instar + 1 then some (refuse s Status.badParam Reason.range 0)
  else if confirm ≠ 0x494E5354 then some (refuse s Status.badParam Reason.range 1)
  else if s.mode ≠ 1 then some (refuse s Status.notReady Reason.mode s.mode)
  else if busy then some (refuse s Status.notReady Reason.instarBusy 0)
  else if target = 1 ∧ ¬ s.provCheck then some (refuse s Status.notReady Reason.noProvRecord 0)
  else if target = 2 ∧ s.sec.nvm.ownerKey = none then some (refuse s Status.notReady Reason.noOwner 0)
  else if 3 ≤ target ∧ ¬ s.ownerSession w.slot.toNat then some (refuse s Status.notReady Reason.ownerSession 0)
  else none

/-- `INSTAR_ADVANCE` (R32, R33, R402); `a` and `b` are what the fuses of the step's pair read back. -/
def State.instarAdvance (s : State) (w : Who) (target : Nat) (confirm : Word) (a b : Bool) : Res :=
  match s.instarRefusal w target confirm with
  | some r => r
  | none =>
    let s := if target = 1 then
        s.updSec fun c => { c with nvm := { c.nvm with provDigest := Config.sha256 s.provBytes } }
      else s
    let s := s.updSec fun c => { c with fuses := { c.fuses with
      instar := c.fuses.instar.modify (target - 1) fun p => (p.1 || a, p.2 || b) } }
    if a && b then okRes (s.requestReset 3 true)
    else
      let n := a.toNat + b.toNat
      refuse (s.log Rec.fuseReadback [BitVec.ofNat 8 target, BitVec.ofNat 8 n]) Status.verifyFail Reason.fuseVerify n

end Sys2Proof.Machine
end

