-- ==== Sys2Proof/Machine/Views.lean ====
section
/-! DEFINITION. Registers that show state held elsewhere: the word each one reads as. Every other register reads its
stored word. -/

namespace Sys2Proof.Machine

open Sys2Proof

/-- Elements of a list that meet a condition, counted. -/
def countOf {α : Type} (f : α → Bool) (l : List α) : Nat := (l.filter f).length

/-! ## SYS -/

/-- `SYS_UPTIME`: microseconds since the last release (R466). -/
def State.uptime (s : State) : Nat := (s.tick - s.sys.releaseTick) / 1500

/-- `SYS_BLOCK_EFFECT.ACTS` by role (R468). -/
def blockEffect (role : Nat) : Nat :=
  match role with
  | 1 => 0x3E7FF
  | 2 => 0x3FF1F
  | 3 => 0x2E71F
  | _ => 0

/-- `SYS_TEMP`: the reading taken in the last millisecond; one that no `TEMP_CHECK` gave is left free (log entry 4). -/
def State.tempWord (s : State) : Word :=
  if s.lnk.tempTick / 1500000 = s.tick / 1500000 then s.word F.SYS_TEMP_TEMP.addr
  else BitVec.ofNat 32 (Config.free 466 [s.tick / 1500000] % 2 ^ 16)

/-- `SYS_WIPE` (R28); `ACTIVE` counts the wipe of a scratchpad bank too (R378). -/
def State.wipeWord (s : State) : Word :=
  let ks := (List.range 2048).filter fun k => s.sys.inService.getLsbD k
  let done := countOf (fun k => s.sys.wiped.getLsbD k) ks
  let active := decide (done < ks.length) || (List.range 48).any s.bankWiping
  BitVec.ofNat 32 (done + 2 ^ 16 * ks.length + 2 ^ 31 * active.toNat)

/-- `SYS_WIPE_MAP[n]`. -/
def State.wipeMap (s : State) (n : Nat) : Word := ((s.sys.wiped &&& s.sys.inService) >>> (32 * n)).setWidth 32

/-- `SYS_GPIO_IN`: a pin that is driven shows the level driven, any other what the board gives it (R454, log entry 4). -/
def State.gpioIn (s : State) : Word :=
  let dir := s.word F.SYS_GPIO_DIR_DIR.addr
  (s.word F.SYS_GPIO_OUT_OUT.addr &&& dir) ||| (BitVec.ofNat 32 (Config.free 454 [s.tick] % 2 ^ 16) &&& ~~~dir)

def State.viewSys (s : State) (base : Nat) (ix : List Nat) : Option Word :=
  if base = 0x20 then some (BitVec.ofNat 32 (if ix = [0] then s.uptime / 2 ^ 32 else s.uptime))
  else if base = 0x28 then some s.tempWord
  else if base = 0x30 then some (BitVec.ofNat 32 (blockEffect s.role))
  else if base = 0x140 then some s.wipeWord
  else if base = 0x200 then some (s.wipeMap (ix.headD 0))
  else if base = 0x318 then some s.gpioIn
  else none

/-! ## CMD, TXN -/

/-- The transport number of R82. -/
def viaNumber : Via → Nat
  | .udp .. => 1
  | .fabric .. => 2
  | .ring => 3

def State.openCount (s : State) : Nat := countOf Sess.isOpen s.cmd.sess

/-- `CMD_SESS[k]`. -/
def Sess.word (e : Sess) : Word :=
  if e.isOpen then BitVec.ofNat 32 (e.src.toNat + 2 ^ 16 * viaNumber e.via + 2 ^ 24 * e.held.length + 2 ^ 31) else 0

def State.viewCmd (s : State) (base : Nat) (ix : List Nat) : Option Word :=
  let k := ix.headD 0
  if base = 0x10004 then some (BitVec.ofNat 32 s.openCount)
  else if base = 0x10040 then some (s.sess k).word
  else if base = 0x10140 then some (s.sess k).expected
  else if base = 0x10240 then some (s.op k).stat
  else if base = 0x10280 then some (s.op k).valid
  else none

/-- `TXN_PEND[k]` and `TXN_PEND_FRAME[k]`. -/
def State.pendWord (s : State) (k : Nat) : Word × Word :=
  let kind (t : Txn) : Nat := match t.state with
    | .pending => 1 | .prepared => 2 | .uncertain => 3 | _ => 0
  match s.txn.txns.find? fun t => kind t ≠ 0 && t.pend == k with
  | some t => (BitVec.ofNat 32 (t.id.toNat + 2 ^ 16 * t.slot.toNat + 2 ^ 24 * kind t + 2 ^ 28 * t.phase), BitVec.ofNat 32 t.frame)
  | none =>
    match s.txn.actions.find? fun a => a.pend == k with
    | some a => (BitVec.ofNat 32 (a.id.toNat + 2 ^ 16 * a.slot.toNat + 2 ^ 24 * 4 + 2 ^ 28 * a.phase), BitVec.ofNat 32 a.frame)
    | none => (0, 0)

def State.viewTxn (s : State) (base : Nat) (ix : List Nat) : Option Word :=
  let k := ix.headD 0
  if base = 0x30000 then
    some (BitVec.ofNat 32 (countOf (fun t => t.state = .opened) s.txn.txns + 2 ^ 16 * s.pendUsed +
      2 ^ 24 * (!s.gridPending.isEmpty).toNat + 2 ^ 25 * (s.txn.txns.any fun t => t.state = .uncertain).toNat))
  else if base = 0x30040 then some (s.pendWord k).1
  else if base = 0x30080 then some (s.pendWord k).2
  else none

/-! ## TIME, ETH, ING, CMP, SCL, MAP -/

/-- `TIME_STAT` with `HOLD_S`: whole seconds of the current holdover. -/
def State.timeStat (s : State) : Word :=
  let h := if s.timeState = stHoldover then min 255 ((s.tick - s.tm.holdStart) / 1500000000) else 0
  F.TIME_STAT_HOLD_S.put (s.word F.TIME_STAT_STATE.addr) h

def State.viewTime (s : State) (base : Nat) : Option Word :=
  if base = 0x20004 then some s.timeStat
  else if base = 0x2000C then
    some (BitVec.ofNat 32 s.rootAddr.toNat)
  else none

/-- `ING_S_STAT[k]`. -/
def State.streamStat (s : State) (k : Nat) : Word :=
  let w := s.word (F.ING_S_STAT_CFG_ERR k).addr
  let w := (F.ING_S_STAT_CFG_ERR k).put w (s.streamErr k)
  let w := (F.ING_S_STAT_RECEIVING k).put w (s.receiving k).toNat
  let w := (F.ING_S_STAT_PATH_A k).put w (s.pathAlive k 0).toNat
  (F.ING_S_STAT_PATH_B k).put w (s.pathAlive k 1).toNat

def State.viewIng (s : State) (base : Nat) (ix : List Nat) : Option Word :=
  let k := ix.headD 0
  if base = 0x50400 then some (s.streamStat k)
  else if base = 0x50504 then
    some (BitVec.ofNat 32 ((s.stream (s.fld F.ING_CNT_SEL_STREAM)).counts.getD k 0))
  else if base = 0x50580 then
    if ix = [k, 0] then
      let l := s.ing.sel.getD k {}
      some (BitVec.ofNat 32 (l.stream + 2 ^ 8 * l.buf + 2 ^ 16 * l.repeated.toNat + 2 ^ 24 * l.ever.toNat))
    else some (s.layerTicks k)
  else none

def State.viewCmp (s : State) (base : Nat) (ix : List Nat) : Option Word :=
  if base = 0x60000 then
    some (F.CMP_STAT_COMPOSING.put (s.word 0x60000)
      ((s.mode == 3 || s.mode == 4) && s.fld F.CMP_STAT_CFG_ERR == 0).toNat)
  else if base = 0x60800 then some (s.fence (ix.headD 0)).visible
  else none

/-- `SCL_STAT[k]` (R188, R199). -/
def State.sclStat (s : State) (k : Nat) : Word :=
  let w := s.word (F.SCL_STAT_CFG_ERR k).addr
  let img := s.withRegs s.cmp.img
  let active := (s.mode == 3 || s.mode == 4) && s.cmp.running && img.bit (F.SCL_CTRL_EN k) && img.layerIn k s.cmp.phase
  let w := (F.SCL_STAT_ACTIVE k).put w active.toNat
  let w := (F.SCL_STAT_LB_LINES k).put w (s.lbLines k)
  (F.SCL_STAT_BANKS k).put w (s.banksOf (2 + k)).length

def State.viewScl (s : State) (base : Nat) (ix : List Nat) : Option Word :=
  let k := ix.headD 0
  if base = 0x70400 then some (s.sclStat k)
  else if base = 0x70420 then some (BitVec.ofNat 32 (s.lbBytes k % 2 ^ 24))
  else none

/-- `MAP_Q_PLAN[q].PEAK` in bytes; a peak between two bytes is rounded as the manual leaves open. -/
def State.planPeak (s : State) (q : Nat) : Nat :=
  min (2 ^ 20 - 1) (openRound 219 (((s.queuePlan s.fab.routes q).2 : Rat) / 120)).toNat

def State.viewMap (s : State) (base : Nat) (ix : List Nat) : Option Word :=
  let q := ix.headD 0
  if base = 0x80004 then
    some (F.MAP_STAT_WRITABLE.put (s.word 0x80004) (if s.mapWritable 0 then 0 else if s.mapWritable 1 then 1 else 2))
  else if base = 0x80020 then some (BitVec.ofNat 32 (s.rasterLevel q))
  else if base = 0x80030 then some (BitVec.ofNat 32 (max (s.fld (F.MAP_Q_PEAK_PEAK q)) (s.rasterLevel q)))
  else if base = 0x80080 then some (BitVec.ofNat 32 (s.planPeak q))
  else none

/-! ## FAB, LCR, LDR -/

def State.viewFab (s : State) (base : Nat) (ix : List Nat) : Option Word :=
  let k := ix.headD 0
  let e : RouteEntry := s.fab.routes.entries.getD k ⟨0, 0, 0, false⟩
  if base = 0x9000C then
    let left := match s.fab.holdEnd with
      | some t => t - s.tick
      | none => 0
    some (BitVec.ofNat 32 ((decide (0 < left)).toNat + 2 ^ 16 * (min 65535 (openRound 263 ((left : Rat) / 1500)).toNat)))
  else if base = 0x90010 then some (BitVec.ofNat 32 s.fab.routes.defPorts.toNat)
  else if base = 0x90100 then some (BitVec.ofNat 32 (e.value.toNat + 2 ^ 16 * e.mask.toNat))
  else if base = 0x90104 then some (BitVec.ofNat 32 (e.ports.toNat + 2 ^ 31 * e.en.toNat))
  else if base = 0x90300 then
    match ix with
    | [q, c] => some (BitVec.ofNat 32 (if c = 0 then 0 else (s.portQ q).credits.getD (c - 1) 0))
    | _ => some 0
  else none

def State.viewLcr (s : State) (base : Nat) (ix : List Nat) : Option Word :=
  if base = 0xB0010 then
    let w := s.word 0xB0010
    let w := F.LCR_STAT_LOADING.put w s.tblOp.isSome.toNat
    let t := match s.tblOp with
      | some (_, o) => match o.kind with
        | .tableLoad t .. => t.toNat
        | .tableVerify t => t.toNat
        | _ => 0
      | none => 0
    some (F.LCR_STAT_LOAD_SLOT.put w t)
  else if base = 0xB0400 then
    let c := ix.headD 0
    some (BitVec.ofNat 32 (s.tblForce.words c + 2 ^ 16 * s.tblForce.drivers c))
  else none

def State.viewLdr (s : State) (base : Nat) : Option Word :=
  if base = 0xC0018 then
    let w := F.LDR_STAT_MEASURING.put (s.word 0xC0018) (s.tile.chains.any Chain.measuring).toNat
    some (F.LDR_STAT_DRIVING.put w s.lampsOn.toNat)
  else none

/-! ## MEM -/

def State.viewMem (s : State) (base : Nat) (ix : List Nat) : Option Word :=
  let b := ix.headD 0
  if base = 0xD1200 then some ((F.MEM_BANK_STAT_WIPING b).put (s.word (F.MEM_BANK_STAT_OWNER b).addr) (s.bankWiping b).toNat)
  else none

/-! ## SEC, ERR, RED -/

/-- `SEC_SESS_OWNER[k]`. -/
def State.sessOwner (s : State) (k : Nat) : Nat :=
  ((List.range 32).map fun b => if s.ownerSession (32 * k + b) then 2 ^ b else 0).sum

/-- `SEC_IMG[i][k]`. -/
def imgWord (i : ImgInfo) (k : Nat) : Word :=
  match k with
  | 0 => BitVec.ofNat 32 (i.id.toNat / 2 ^ 32)
  | 1 => BitVec.ofNat 32 i.id.toNat
  | 2 => i.release
  | _ => BitVec.ofNat 32 (i.svn.toNat % 128)

def State.viewSec (s : State) (base : Nat) (ix : List Nat) : Option Word :=
  let k := ix.headD 0
  if base = 0xE0000 then
    let w := F.SEC_STAT_MOLT_PENDING.put (s.word 0xE0000) s.moltPending.toNat
    some (F.SEC_STAT_ID_EXHAUSTED.put w (decide (2 ^ 30 ≤ s.sec.idNext)).toNat)
  else if base = 0xE0008 then
    some (BitVec.ofNat 32 (if k = 0 then s.serial.toNat / 2 ^ 32 else s.serial.toNat))
  else if base = 0xE0010 then some (BitVec.ofNat 32 s.sec.idNext)
  else if base = 0xE0014 then some (BitVec.ofNat 32 (2 ^ 16 * s.sec.nvm.epoch.toNat))
  else if base = 0xE0018 then some (BitVec.ofNat 32 (s.sessOwner k))
  else if base = 0xE0020 then
    match ix with
    | [i, j] => some (imgWord (if i = 0 then s.sec.active else s.sec.chrys) j)
    | _ => some 0
  else if base = 0xE0060 then some (BitVec.ofNat 32 (s.sec.chal.toNat / 2 ^ (32 * (3 - k))))
  else none

def State.viewErr (s : State) (base : Nat) : Option Word :=
  if base = 0xF0004 then some s.errStat else if base = 0xF0008 then some s.err.next else none

def State.viewRed (s : State) (base : Nat) : Option Word :=
  if base = 0x100004 then some s.sndStat else if base = 0x10010C then some s.tileStat else none

/-- The word a register row shows at its indexes, where it shows state held elsewhere. -/
def State.view (s : State) (base : Nat) (ix : List Nat) : Option Word :=
  match base / 0x10000 with
  | 0 => s.viewSys base ix
  | 1 => s.viewCmd base ix
  | 2 => s.viewTime base
  | 3 => s.viewTxn base ix
  | 5 => s.viewIng base ix
  | 6 => s.viewCmp base ix
  | 7 => s.viewScl base ix
  | 8 => s.viewMap base ix
  | 9 => s.viewFab base ix
  | 0xB => s.viewLcr base ix
  | 0xC => s.viewLdr base
  | 0xD => s.viewMem base ix
  | 0xE => s.viewSec base ix
  | 0xF => s.viewErr base
  | 0x10 => s.viewRed base
  | _ => none

end Sys2Proof.Machine
end

