-- ==== Sys2Proof/Machine/RegAccess.lean ====
section
/-! DEFINITION. Access to registers (R94, R95, R459 to R462): what a read shows, what a write does. -/

namespace Sys2Proof.Machine

open Sys2Proof

/-- The slot number of a writer that holds no session: a scheduled action whose session has ended, the provisioning
record. No session has it. -/
def noSlot : Nat := 64

/-- Whether the words of an address may be read: the limits of recovery (R25) and of instar 4 (R31). -/
def State.readable (s : State) (a : Nat) : Bool :=
  let b := a / 0x10000
  (!s.bit F.SYS_BOOT_RECOVERY || b == 0 || b == 0xE || b == 0xF) && (decide (s.instar < 4) || b == 0 || b == 0xE)

/-- Whether a read of a register clears it. -/
def RegDecl.rc (d : RegDecl) (ix : List Nat) : Bool :=
  d.fields.any fun f => f.acc = .rc || (f.acc = .roRcK2 && ix.getLast? == some 2)

/-- One word as a read shows it, and the state after (R94, R95, R105, R457). -/
def State.readReg (s : State) (live : Bool) (a : Nat) : Word × State :=
  if s.readable a then
    if 0x8000 ≤ a % 0x10000 then (if isShadowed (a - 0x8000) then s.word (a - 0x8000) else 0, s)
    else
      match regFind a with
      | none => (0, s)
      | some (d, ix) =>
        if d.shadowed then (if live then s.word a else s.shadowWord a, s)
        else ((s.view d.base ix).getD (s.word a), if d.rc ix then s.setWord a 0 else s)
  else (0, s)

/-- `n` words from an address, ascending (R459). -/
def State.readRegs (s : State) (live : Bool) (a : Nat) : Nat → List Word × State
  | 0 => ([], s)
  | n + 1 =>
    let r := s.readReg live a
    let rest := r.2.readRegs live (a + 4) n
    (r.1 :: rest.1, rest.2)

/-- Whether a field takes a write as it stands (R7, R462); `k` is the writer's session slot. -/
def State.writable (s : State) (k : Nat) (ix : List Nat) (c : Acc) : Bool :=
  match c with
  | .rw | .sh => true
  | .rwNoRole => s.role == 0
  | .rwServoHost => s.bit F.TIME_CTRL_SERVO_HOST
  | .rwNotLive => !(decide (3 ≤ s.mode ∧ s.mode ≤ 5))
  | .rwTableIdle =>
    let t := ix.headD 0
    !s.tblSelected t && !(s.tblLoading.any fun l => l.1 == t)
  | .rwM127 => s.mode == 1 || s.mode == 2 || s.mode == 7
  | .rwOwner => s.ownerSession k
  | .ro | .wo | .w1c | .rc | .roRcK2 | .rwBankOwner | .rwBankPwr => false

/-- A word after a write: each field by its access type; a W1C bit clears where `trig` holds a 1 (R461). -/
def State.mergeWord (s : State) (k : Nat) (ix : List Nat) (d : RegDecl) (old v trig : Word) : Word :=
  d.fields.foldl (fun w f =>
    let g : Fld := ⟨d.base, f.lo, f.w⟩
    if f.acc = .w1c then g.put w (g.get (w &&& ~~~trig))
    else if s.writable k ix f.acc then g.put w (g.get v)
    else w) old

/-- With `SERVO_HOST` cleared in HOLDOVER the clock runs at `acc` again (R42). -/
def State.servoResumes (s before : State) : State :=
  if before.bit F.TIME_CTRL_SERVO_HOST ∧ ¬ s.bit F.TIME_CTRL_SERVO_HOST ∧ s.timeState = stHoldover then
    s.setFld F.TIME_RATE_RATE (toBits 32 s.tm.acc)
  else s

/-- Actions of `TIME_CTRL`, in ascending bit order. -/
def State.timeActions (s : State) (trig : Word) : State :=
  let s := if trig.getLsbD 0 then s.timeSnap else s
  let s := if trig.getLsbD 1 then s.reacquire else s
  let s := if trig.getLsbD 2 then s.timeSet else s
  let s := if trig.getLsbD 3 then s.timeAdj else s
  if trig.getLsbD 4 then s.timeCntClr else s

/-- A write of `ING_CNT_SEL` with `STREAM` = `k` and `CLR` (R159): stream `k` is the selected one, and its counters restart
from 0. -/
def State.ingCntClr (s : State) (k : Nat) : State :=
  (s.setFld F.ING_CNT_SEL_STREAM k).updStream k fun t => { t with counts := List.replicate 14 0 }

/-- `LDR_CTRL.MEASURE` (R307), while chains are driven. -/
def State.ldrMeasure (s : State) : State := if s.lampsOn then s.startMeasure fun _ => true else s

/-- `LDR_CTRL.CNT_CLR`. -/
def State.ldrCntClr (s : State) : State := (List.range 12).foldl (fun t k => t.setWord (F.LDR_CNT_COUNT k).addr 0) s

/-- A write of `LNK_CTRL` of port `q` (R240, R247). -/
def State.writeLnkCtrl (s : State) (q : Nat) (v trig : Word) : State :=
  let s := s.setFld (F.LNK_CTRL_EN q) ((F.LNK_CTRL_EN q).get v)
  let s := s.setFld (F.LNK_CTRL_MAX_WIDTH q) ((F.LNK_CTRL_MAX_WIDTH q).get v)
  let s := s.writeDeep q ((F.LNK_CTRL_DEEP q).get v = 1)
  if (F.LNK_CTRL_RETRAIN q).get trig = 1 then s.hostRetrain q else s

/-- A write of `MEM_BANK_SET` of bank `b`: both fields take the access types they have as the write lands (R373, R378,
R462). -/
def State.writeBankSet (s : State) (b : Nat) (v : Word) : State :=
  let o := (F.MEM_BANK_SET_OWNER b).get v
  let t := s.setBankPwr b ((F.MEM_BANK_SET_PWR b).get v)
  if s.ownerLocked b o then t else t.putBankOwner b o

/-- A write of `SEC_OWNER_CTRL` by session `k` (R397, R398); whether the key reads back is left free (log entry 12). -/
def State.writeOwnerCtrl (s : State) (k : Nat) (v trig : Word) : State :=
  let s := if F.SEC_OWNER_CTRL_ENROL.get trig = 1 then
      let d := s.draw
      d.2.enrol k (Config.free 397 [d.1] % 2 = 1)
    else s
  s.setEpoch k (BitVec.ofNat 16 (F.SEC_OWNER_CTRL_EPOCH.get v))

/-- A write of `SEC_PROOF[i]` by session `k` (R399). -/
def State.writeProof (s : State) (k i : Nat) (v : Word) : State :=
  if i = 3 then s.proof k v else s.updSec fun c => { c with proofIn := c.proofIn.set i v }

/-- A write of `SEC_OWNER_KEY[i]` by session `k` (R397). -/
def State.writeOwnerKey (s : State) (k i : Nat) (v : Word) : State :=
  if s.mayEnrol k then s.updSec fun c => { c with ownerKeyIn := c.ownerKeyIn.set i v } else s

/-- A register row with effects of its own takes a write; `m` is the merged word. None for a plain register. DESIGN CHOICE
(log entry 67): one write of `TIME_CTRL` that sets `SERVO_HOST` and `SET` or `ADJ` lands `SERVO_HOST` first, and the request
is judged with it. -/
def State.writeSpecial (s : State) (k : Nat) (ix : List Nat) (base a : Nat) (m v trig : Word) : Option State :=
  let i := ix.headD 0
  match base / 0x10000 with
  | 0 =>
    if base = 0x100 then some (s.setRole (F.SYS_ROLE_ROLE_SET.get v))
    else if base = 0x114 then some (s.writeModeReq (F.SYS_MODE_REQ_TARGET.get v))
    else none
  | 2 =>
    if base = 0x20000 then some (s.writeTimeSrc v)
    else if base = 0x20008 then some (((s.setWord a m).servoResumes s).timeActions trig)
    else none
  | 4 =>
    if base = 0x40000 then some (s.writeEthMode false v)
    else if base = 0x40004 then some (s.writeEthMode true v)
    else if base = 0x40040 ∧ ix.getLast? = some 0 then some (s.setWord a (m &&& 0xFFFF))
    else none
  | 5 =>
    if base = 0x50500 then
      let t := s.setWord a m
      some (if F.ING_CNT_SEL_CLR.get trig = 1 then t.ingCntClr (t.fld F.ING_CNT_SEL_STREAM) else t)
    else none
  | 8 => if base = F.MAP_WB_HOLD_HOLD.addr then some (s.setWord a m).wbHeld else none
  | 0xA =>
    if base = 0xA0000 then some (s.writeLnkCtrl i v trig)
    else if base = 0xA4004 then
      let c := F.LNK_CAL_CFG_CAL_TRIG_C.get m
      some (s.setWord a (if 1 ≤ c ∧ c ≤ 32 then m else F.LNK_CAL_CFG_CAL_TRIG_C.put m (s.fld F.LNK_CAL_CFG_CAL_TRIG_C)))
    else none
  | 0xC =>
    if base = 0xC0014 then
      let t := if F.LDR_CTRL_MEASURE.get trig = 1 then s.ldrMeasure else s
      some (if F.LDR_CTRL_CNT_CLR.get trig = 1 then t.ldrCntClr else t)
    else none
  | 0xD =>
    if base = 0xD0000 then
      some (if s.writable k ix .rwM127 then s.setInService i ((F.MEM_CH_CTRL_IN_SERVICE i).get v = 1) else s)
    else if base = 0xD0108 then some (if F.MEM_SCRUB_CFG_PERIOD_H.get v = 0 then s else s.setWord a m)
    else if base = 0xD1100 then some (s.writeBankSet i v)
    else none
  | 0xE =>
    if base = 0xE0014 then some (s.writeOwnerCtrl k v trig)
    else if base = 0xE0040 then some (s.writeOwnerKey k i v)
    else if base = 0xE0070 then some (s.writeProof k i v)
    else none
  | 0xF => if base = 0xF0000 then some (State.alertEdge s (s.setWord a m)) else none
  | _ => none

/-- A word lands on the register at `a`: `v` on its RW fields, `trig` on its W1C and WO fields (R94, R460 to R462). An
address without a register, or a read-only one, is a violation and changes nothing. -/
def State.landWord (s : State) (k a : Nat) (v trig : Word) : State :=
  match regFind a with
  | none => s
  | some (d, ix) =>
    if 0x8000 ≤ a % 0x10000 then s
    else
      let m := s.mergeWord k ix d (s.word a) v trig
      match s.writeSpecial k ix d.base a m v trig with
      | some t => t.rejoin
      | none => (s.setWord a m).rejoin

/-- `REG_WRITE` of one register. -/
def State.writeReg (s : State) (k a : Nat) (v : Word) : State := s.landWord k a v v

/-- A run of registers is written in ascending order (R460). -/
def State.writeRegs (s : State) (k : Nat) : Nat → List Word → State
  | _, [] => s
  | a, v :: t => (s.writeReg k a v).writeRegs k (a + 4) t

/-- `REG_MODIFY` of one register: the value before, and the state after (R95, R461). -/
def State.modifyReg (s : State) (k a : Nat) (mask value : Word) : Word × State :=
  let r := s.readReg false a
  (r.1, r.2.landWord k a ((r.1 &&& ~~~mask) ||| (value &&& mask)) (value &&& mask))

/-! ## The register commands outside a transaction (R95, R104) -/

/-- A range of registers may be addressed: aligned, not past the end. -/
def regRange (addr : Word) (n : Nat) : Option (Nat × Nat) :=
  if addr.toNat % 4 ≠ 0 then some (Reason.align, 0)
  else if 2 ^ 32 < addr.toNat + 4 * n then some (Reason.range, 0)
  else none

/-- `REG_READ` and `REG_READ_LIVE` (R95). -/
def State.regRead (s : State) (live : Bool) (addr : Word) (count : Nat) : Res :=
  match regRange addr count with
  | some (c, d) => refuse s Status.badParam c d
  | none =>
    let r := s.readRegs live addr.toNat count
    okRes r.2 r.1

end Sys2Proof.Machine
end

