-- ==== Sys2Proof/Machine/Feas.lean ====
section
/-! DEFINITION. The feasibility check of a commit (R56, R116, R120, R121, R203, R204, R218, R219, R374). -/

namespace Sys2Proof.Machine

open Sys2Proof

/-! Reason codes of R121. -/

namespace Reason
def lineBuffer : Nat := 0x0130
def bandwidthDram : Nat := 0x0131
def bandwidthFabric : Nat := 0x0132
def bankOwner : Nat := 0x0133
def resource : Nat := 0x0134
def phaseTiming : Nat := 0x0135
def timingLive : Nat := 0x0136
def gridBusy : Nat := 0x0137
def phaseZero : Nat := 0x0138
end Reason

/-- Entries take effect on the registers and the route table of a state that is only looked at (R120). -/
def State.tryEntries (s : State) (es : List Entry) : State :=
  es.foldl (fun (t : State) e => match e with
    | .routeSet first d p l => t.updFab fun f => { f with routes := f.routes.put first.toNat d p l }
    | _ => { t with regs := e.onRegs t.regs }) s

/-- The value rows of R56. -/
def timingOk (regs : List (Nat × Word)) : Bool :=
  let num := rfld regs F.TIME_FRAME_NUM_FRAME_NUM
  let den := rfld regs F.TIME_FRAME_DEN_FRAME_DEN
  let off := rfld regs F.TIME_FRAME_OFFSET_FRAME_OFFSET_NS
  let p := phasesOf regs
  let f := 1000000000 * num / den
  let l := sext 32 (rfld regs F.TIME_LATCH_OFFSET_LATCH_OFFSET_NS)
  let st := phaseStartOf regs
  let ends (i : Nat) : Nat := st i + litOf regs i
  decide (1 ≤ num ∧ 1 ≤ den ∧ 24000 * num ≤ 1001 * den ∧ den ≤ 240 * num ∧ 1 ≤ p ∧ p ≤ 4 ∧ 1 ≤ delayOf regs ∧
    p * den ≤ 480 * num ∧ off < f) &&
  ((List.range (p - 1)).all fun i => decide (st i < st (i + 1) ∧ ends i ≤ st (i + 1))) &&
  decide (0 ≤ (st 0 : Int) + l ∧ (ends (p - 1) : Int) + l ≤ f)

/-- Whether a commit changes the phase layout, so that it needs a phase-0 target (R56). -/
def layoutChange (before after : List (Nat × Word)) : Bool :=
  let f := F.TIME_LATCH_OFFSET_LATCH_OFFSET_NS
  (rfld before f != rfld after f) ||
    (List.range (phasesOf after)).any fun p =>
      (phaseStartOf before p != phaseStartOf after p) || (litOf before p != litOf after p)

/-- Whether a commit changes the grid, `PHASES` or `DELAY` (R56). -/
def liveChange (before after : List (Nat × Word)) : Bool :=
  !(gridOf before).same (gridOf after) || (phasesOf before != phasesOf after) || (delayOf before != delayOf after)

/-- The RESOURCE rule; 0 where it passes. -/
def State.resourceDetail (s : State) : Nat :=
  if 512 < s.fld F.MAP_CTRL_COUNT then 1
  else if (List.range 6).any fun v => s.bit (F.CMP_LAYER_CTRL_EN v) && !s.bit (F.SCL_CTRL_EN v) then 4
  else 0

/-- The banks that name an owner in a state being checked and are ON now (R371). -/
def State.banksNaming (now s : State) (o : Nat) : List Nat :=
  (List.range 48).filter fun b => now.bankOn b && s.fld (F.MEM_BANK_OWNER_OWNER b) == o

/-- The BANK_OWNER rule between two states: the lowest bank refused (R374). -/
def State.bankTaken (now before after : State) : Option Nat :=
  let owner (s : State) (b : Nat) : Nat := s.fld (F.MEM_BANK_OWNER_OWNER b)
  let lines := (List.range 6).flatMap fun v =>
    if before.bit (F.SCL_CTRL_EN v) && after.bit (F.SCL_CTRL_EN v) then
      ((State.banksNaming now before (2 + v)).take (ceilDiv (before.lbBytes v) 524288)).filter fun b => owner after b != 2 + v
    else []
  let i0 := before.fld F.LCR_CFG_IMG_BANK
  let i1 := after.fld F.LCR_CFG_IMG_BANK
  let images := (List.range 48).filter fun b =>
    decide (i0 ≤ b ∧ b < i0 + 12 ∧ i1 ≤ b ∧ b < i1 + 12) && owner before b == 8 && owner after b != 8
  if now.role = roleSender then lines.min?
  else if now.role = roleTile ∧ now.mode = 5 then images.min?
  else none

/-- The LINE_BUFFER rule: the first scaler that does not fit (R199, R203). -/
def State.lineShort (now s : State) : Option Nat :=
  if now.role = roleSender then
    (List.range 6).find? fun v =>
      s.bit (F.SCL_CTRL_EN v) && decide (524288 * (State.banksNaming now s (2 + v)).length < s.lbBytes v)
  else none

/-- The planned read demand in bytes a second (R184, R204, R297). -/
def State.demand (s : State) : Rat :=
  let bytes := if s.role = roleSender then s.dramDemand else if s.role = roleTile then s.lcrDemand else 0
  (bytes : Rat) * s.grid.den / s.grid.num

/-- The BANDWIDTH_DRAM rule: the demand in 0.1 GB/s where it is too high. -/
def State.dramShort (s : State) : Option Nat :=
  if (27250000000 * s.channels : Nat) < s.demand then some (min 65535 (s.demand / 100000000).floor.toNat) else none

/-- The BANDWIDTH_FABRIC rule: the lowest failing port (R218, R219). -/
def State.fabricShort (s : State) : Option Nat :=
  (List.range 4).find? fun q =>
    decide (s.resMax q < s.fld (F.MAP_PORT_RES_RES q)) ||
      (s.role == roleSender && !(s.queuePlan s.fab.routes q).1)

/-- What one rule finds in a list of states. -/
def firstIn {α : Type} (l : List State) (f : State → Option α) : Option α := l.findSome? f

/-- The rules of R121 in order, each over every state: the first failure, with its detail. `before` and `after` are the
states around this transaction, `later` those after each commit that applies after it; `busy` is the rule of R116,
`zero` whether the entries demand phase 0. A rule that stands earlier in the table is tried on every state first
(log entry 26). -/
def State.infeasible (now before after : State) (later : List State) (phase : Nat) (busy zero routesOver : Bool) :
    Option (Nat × Nat) :=
  let all := after :: later
  let pairs := List.zip (before :: all) all
  let failed {α : Type} (o : Option α) (code : Nat) (d : α → Nat) : Option (Nat × Nat) := o.map fun x => (code, d x)
  if all.any (fun s => !timingOk s.regs) || (phase != 0 && layoutChange before.regs after.regs) then
    some (Reason.phaseTiming, 0)
  else if decide (3 ≤ now.mode ∧ now.mode ≤ 5) && liveChange before.regs after.regs then some (Reason.timingLive, 0)
  else if busy then some (Reason.gridBusy, 0)
  else if phase ≠ 0 ∧ zero then some (Reason.phaseZero, 0)
  else if routesOver then
    some (Reason.resource, if all.any (fun s => s.resourceDetail == 1) then 1 else 2)
  else
    (failed (firstIn all fun s => if s.resourceDetail = 0 then none else some s.resourceDetail) Reason.resource id) <|>
    (failed (pairs.findSome? fun p => State.bankTaken now p.1 p.2) Reason.bankOwner id) <|>
    (failed (firstIn all (State.lineShort now)) Reason.lineBuffer id) <|>
    (failed (firstIn all State.dramShort) Reason.bandwidthDram id) <|>
    (failed (firstIn all State.fabricShort) Reason.bandwidthFabric id)

end Sys2Proof.Machine
end

