-- ==== Sys2Proof/Machine/Txn.lean ====
section
/-! DEFINITION. Transactions (R104 to R129, R132): beginning, entries, commit and its checks, global decisions, the
application of a transaction. -/

namespace Sys2Proof.Machine

open Sys2Proof

/-! Reason codes of R133; those of R121 stand in `Feas`. -/

namespace Reason
def txnId : Nat := 0x0100
def txnOrder : Nat := 0x0101
def shadowed : Nat := 0x0102
def notShadowed : Nat := 0x0103
def globalMismatch : Nat := 0x0104
def target : Nat := 0x0105
def decided : Nat := 0x0106
def moltAlone : Nat := 0x0107
def action : Nat := 0x0108
def openTxn : Nat := 0x0110
def pending : Nat := 0x0111
def past : Nat := 0x0118
def leadTime : Nat := 0x0119
def prepared : Nat := 0x0120
def notRoot : Nat := 0x0121
def announceFull : Nat := 0x0139
def capacity : Nat := 0x0140
def host : Nat := 0x0141
def session : Nat := 0x0142
def decision : Nat := 0x0143
def noAnnounce : Nat := 0x0148
end Reason

def State.updTxn (s : State) (f : TxnSt → TxnSt) : State := { s with txn := f s.txn }

/-- Whether a transaction has ended. -/
def Txn.over (x : Txn) : Bool := x.state = .applied || x.state = .aborted

/-- The transaction a session names by an identifier. -/
def State.txnNamed (s : State) (uid : Nat) (id : BitVec 16) : Option Txn :=
  s.txn.txns.find? fun x => x.uid == uid && x.id == id

/-- A transaction takes the place of its earlier self. -/
def State.putTxn (s : State) (x : Txn) : State :=
  s.updTxn fun t => { t with txns := t.txns.map fun y => if y.uid == x.uid && y.began == x.began then x else y }

/-- A transaction ends with a reason word (R112). -/
def State.endTxn (s : State) (x : Txn) (st : TxnState) (reason : Word) : State :=
  (s.putTxn { x with state := st, reason := reason, entries := [], ended := s.txn.seq, pend := 0 }).updTxn fun t =>
    { t with seq := t.seq + 1 }

/-- A transaction ends as ABORTED (R112), counted in `TXN_CNT[3]`. -/
def State.abortTxn (s : State) (x : Txn) (code : Nat) : State :=
  (s.endTxn x .aborted (reasonWord code 0)).bump (F.TXN_CNT_COUNT 3)

/-- Whether an ended transaction is among its session's eight most recently ended (R110). -/
def State.endedLately (s : State) (x : Txn) : Bool :=
  decide ((s.txn.txns.filter fun y => y.uid == x.uid && y.over && decide (x.ended < y.ended)).length < 8)

/-- The payload of `TXN_QUERY` (R132): state and final status, reason word, target frame, phase. -/
def Txn.words (x : Txn) : List Word :=
  let final := match x.state with
    | .aborted => Status.txnAborted
    | .uncertain => Status.uncertain
    | _ => 0
  let reason := match x.state with
    | .uncertain => reasonWord Reason.noAnnounce 0
    | _ => x.reason
  [BitVec.ofNat 32 (x.state.number + 256 * final.toNat), reason, BitVec.ofNat 32 (x.frame / 2 ^ 32), BitVec.ofNat 32 x.frame,
    BitVec.ofNat 32 x.phase]

/-- The answer about an UNCERTAIN transaction (R129). -/
def State.uncertainRes (s : State) (x : Txn) : Res :=
  .done Status.uncertain (reasonWord Reason.noAnnounce 0 :: x.words) s

/-- The rule of R110; `orUncertain` also accepts a transaction in state UNCERTAIN. -/
def State.findTxn (s : State) (uid : Nat) (id : BitVec 16) (orUncertain : Bool := false) : Except Res Txn :=
  match s.txnNamed uid id with
  | none => .error (refuse s Status.badParam Reason.txnId 0)
  | some x =>
    match x.state with
    | .opened => .ok x
    | .pending | .prepared => .error (refuse s Status.notReady Reason.prepared x.state.number)
    | .uncertain => if orUncertain then .ok x else .error (refuse s Status.notReady Reason.prepared 6)
    | .aborted =>
      .error (if s.endedLately x then .done Status.txnAborted [x.reason] s else refuse s Status.badParam Reason.txnId 0)
    | .applied => .error (refuse s Status.badParam Reason.txnId 0)

/-! ## Beginning (R109) -/

/-- `TXN_BEGIN` (R109). -/
def State.txnBegin (s : State) (w : Who) (id : BitVec 16) (global : Bool) : Res :=
  let k := w.slot.toNat
  let ahead := (s.sess k).lastBegin.all fun p => decide (1 ≤ (id - p).toNat ∧ (id - p).toNat ≤ 32767)
  let alive := (s.txnNamed w.uid id).any fun x => !x.over
  if id = 0 ∨ ahead = false ∨ alive = true then refuse s Status.badParam Reason.txnId 0
  else if 8 ≤ countOf (fun x => x.uid == w.uid && x.state == .opened) s.txn.txns then
    refuse s Status.refusedFull Reason.openTxn 0
  else
    let x : Txn := { uid := w.uid, slot := w.slot, src := w.src, id := id, global := global, state := .opened,
                     began := s.txn.seq }
    let t := s.updTxn fun t => { t with
      txns := (t.txns.filter fun y => !(y.uid == w.uid && y.id == id)) ++ [x], seq := t.seq + 1 }
    okRes (t.updSess k fun e => { e with lastBegin := some id })

/-! ## Entries (R104, R106, R107, R111) -/

/-- Entries join an OPEN transaction; the command's reply carries `reply`. -/
def State.addEntries (s : State) (x : Txn) (es : List Entry) (reply : List Word := []) : Res :=
  if es.isEmpty = false ∧ (x.entries.any isMolt = true ∨ (es.any isMolt = true ∧ x.entries.isEmpty = false)) then
    refuse s Status.badParam Reason.moltAlone 0
  else if 4096 < x.entries.length + es.length then
    .done Status.txnAborted [reasonWord Reason.capacity 0] (s.abortTxn x Reason.capacity)
  else okRes (s.putTxn { x with entries := x.entries ++ es }) reply

/-- What an address names: nothing a write could touch, a shadowed register or another one. -/
inductive Named where
  | nothing | shadowed (mask : Word) | plain
deriving DecidableEq, Repr

/-- Bits of a register that hold fields. -/
def RegDecl.mask (d : RegDecl) : Word :=
  BitVec.ofNat 32 ((d.fields.map fun f => (2 ^ f.w - 1) * 2 ^ f.lo).sum)

def regNamed (a : Nat) : Named :=
  if 0x8000 ≤ a % 0x10000 then .nothing
  else match regFind a with
    | none => .nothing
    | some (d, _) => if d.shadowed then .shadowed d.mask else .plain

/-- What an address names inside a transaction: a register locked by instar (R31, R397) is a violation as an address that
names nothing is (R104). -/
def State.named (s : State) (a : Nat) : Named :=
  if 2 ≤ s.instar ∧ (regFind a).any (fun d => d.1.base == F.SEC_OWNER_CTRL_ENROL.addr || d.1.base == 0xE0040) then .nothing
  else regNamed a

/-- The first of `n` registers from `a` that meets a condition. -/
def firstNamed (a n : Nat) (f : Named → Bool) : Option Nat := (List.range n).find? fun i => f (regNamed (a + 4 * i))

def Named.isPlain : Named → Bool
  | .plain => true
  | _ => false

def Named.isShadowed : Named → Bool
  | .shadowed _ => true
  | _ => false

/-- `REG_WRITE` (R95, R104, R106) by session `k`, inside a transaction or outside one. -/
def State.regWrite (s : State) (k : Nat) (x : Option Txn) (addr : Word) (vals : List Word) : Res :=
  let a := addr.toNat
  match regRange addr vals.length with
  | some (c, d) => refuse s Status.badParam c d
  | none =>
    match x with
    | none =>
      match firstNamed a vals.length Named.isShadowed with
      | some i => refuse s Status.badParam Reason.shadowed (i + 1)
      | none => okRes (s.writeRegs k a vals)
    | some x =>
      match (List.range vals.length).find? fun i => (s.named (a + 4 * i)).isPlain with
      | some i => refuse s Status.badParam Reason.notShadowed (i + 1)
      | none =>
        s.addEntries x ((List.zip (List.range vals.length) vals).filterMap fun e =>
          match s.named (a + 4 * e.1) with
          | .shadowed m => some (.write (a + 4 * e.1) (e.2 &&& m))
          | _ => none)

/-- `REG_MODIFY` (R95, R104, R106). -/
def State.regModify (s : State) (k : Nat) (x : Option Txn) (addr mask value : Word) : Res :=
  let a := addr.toNat
  match regRange addr 1 with
  | some (c, d) => refuse s Status.badParam c d
  | none =>
    match x, (if x.isSome then s.named a else regNamed a) with
    | none, .shadowed _ => refuse s Status.badParam Reason.shadowed 0
    | none, _ =>
      let r := s.modifyReg k a mask value
      okRes r.2 [r.1]
    | some _, .plain => refuse s Status.badParam Reason.notShadowed 0
    | some x, .shadowed m => s.addEntries x [.modify a (mask &&& m) value] [s.shadowWord a]
    | some x, .nothing => s.addEntries x [] [(s.readReg false a).1]

/-! ## Commit (R113 to R123) -/

/-- What a register will read once the entries of `x` have joined those that pend; none while `x` writes it nowhere. -/
def State.wouldRead (s : State) (x : Txn) (a : Nat) : Option Word :=
  let es := x.entries.filter fun e => match e with
    | .write b _ => b == a
    | .modify b _ _ => b == a
    | _ => false
  if es = [] then none else some (sparseGet resetWord (entriesOnRegs es [(a, s.shadowWord a)]) a)

/-- Whether a commit or prepare must wait: it would select a table slot under `TABLE_LOAD` (R291) or a region-map table
that a running operation writes (R206). -/
def State.commitWaits (s : State) (x : Txn) : Bool :=
  (s.role == roleTile && (s.wouldRead x F.LCR_CFG_TABLE.addr).any fun v =>
    s.tblLoading.any fun l => l.1 == F.LCR_CFG_TABLE.get v) ||
  (s.role == roleSender && (s.wouldRead x F.MAP_CTRL_TABLE.addr).any fun v =>
    s.moverWrites (mapBase (F.MAP_CTRL_TABLE.get v)) 0x2000)

/-- The lead of an apply instant (R115): 0 when it suffices, else the reason. -/
def State.leadFault (s : State) (a : Nat) : Nat :=
  if a ≤ s.clk then Reason.past
  else if (a - s.clk) * s.grid.den < 2 * s.grid.num * secU then Reason.leadTime
  else 0

/-- Whether a refusal counts (R122: a command that only validates changes nothing). -/
def State.tally (s : State) (count : Bool) (k : Nat) : State := if count then s.bump (F.TXN_CNT_COUNT k) else s

/-- Whether accepting `x` at instant `a` breaks transaction-ID order (R119). -/
def State.outOfOrder (s : State) (x : Txn) (a : Nat) : Bool :=
  (s.pendingTxns.any fun y => y.uid == x.uid &&
    ((decide (y.began < x.began) && decide (a < y.at_)) || (decide (x.began < y.began) && decide (y.at_ < a)))) ||
  s.cmd.sess.any fun e => e.isOpen && e.uid == x.uid && decide (x.began < e.topApplied)

/-- Whether GRID_BUSY holds for a target: a pending commit before it changes the grid, or the transaction itself changes it
while another commit or an action is pending (R116). -/
def State.gridBusy (s : State) (x : Option Txn) (a : Aim) : Bool :=
  a.regrid || (s.gridPending.any fun g => decide (g.at_ < a.at_)) ||
    x.any fun x => gridChange x.entries (s.regsBefore a.at_) && s.anyPending

/-- The feasibility check of a transaction with a state and target already put in its place (R120). -/
def State.txnInfeasible (s : State) (x : Txn) (a : Aim) : Option (Nat × Nat) :=
  let tried := s.putTxn x
  let l := tried.pendingTxns
  let mine (y : Txn) : Bool := y.uid == x.uid && y.began == x.began
  let before := (l.takeWhile fun y => !mine y).foldl (fun (t : State) y => t.tryEntries y.entries) s
  let after := before.tryEntries x.entries
  let later := ((l.dropWhile fun y => !mine y).drop 1).foldl (fun (acc : State × List State) y =>
    let t := acc.1.tryEntries y.entries
    (t, acc.2 ++ [t])) (after, [])
  State.infeasible s before after later.2 x.phase (s.gridBusy (some x) a)
    (x.entries.any fun e => match e with | .redSwitch _ | .molt _ => true | _ => false)
    (x.entries.any fun e => match e with
      | .routeSet first _ _ es => decide (64 < first.toNat + es.length)
      | _ => false)

/-- Checks 3 to 7 of R118 for a transaction that is to become `st`: the transaction as accepted, or the answer. -/
def State.checkCommit (s : State) (x : Txn) (t : Target) (st : TxnState) (count : Bool) : Except Res Txn :=
  match s.aim x.entries t with
  | none => .error (refuse s Status.badParam Reason.target 0)
  | some a =>
    let late := s.leadFault a.at_
    if late ≠ 0 then .error (refuse (s.tally count 2) Status.late late 0)
    else if s.outOfOrder x a.at_ then .error (refuse s Status.badParam Reason.txnOrder 0)
    else if x.state ≠ .uncertain ∧ 16 ≤ s.pendUsed then .error (refuse s Status.refusedFull Reason.pending 0)
    else
      let y : Txn := { x with
        state := st, frame := a.frame, phase := t.p.toNat, at_ := a.at_, beat := a.beat, begun := false, gotCommit := false, gotAbort := false,
        accepted := if st = .pending then s.txn.seq else 0,
        pend := if x.state = .uncertain then x.pend else s.pendFree }
      match (if x.entries = [] then none else s.txnInfeasible y a) with
      | some (c, d) => .error (refuse (s.tally count 1) Status.infeasible c d)
      | none => .ok y

/-- Checks 1 and 2 of R118 for `TXN_COMMIT` with `GLOBAL` = 0, the wait of R206 and R291, then the others. -/
def State.commitLocal (s : State) (w : Who) (id : BitVec 16) (t : Target) (count : Bool) : Except Res Txn :=
  match s.findTxn w.uid id true with
  | .error r => .error r
  | .ok x =>
    if x.global = true ∧ x.state ≠ .uncertain then .error (refuse s Status.badParam Reason.globalMismatch 0)
    else if s.commitWaits x then .error .wait
    else s.checkCommit x t .pending count

/-- `TXN_COMMIT` with `GLOBAL` = 0 (R118, R123, R129). -/
def State.txnCommit (s : State) (w : Who) (id : BitVec 16) (t : Target) : Res :=
  match s.commitLocal w id t true with
  | .error r => r
  | .ok y => okRes ((s.putTxn y).updTxn fun t => { t with seq := t.seq + 1 })

/-- The root's decision under a key: among the 64 most recent, or still to be announced (R125, R126). -/
def State.decisionOf (s : State) (src id : BitVec 16) : Option Decision :=
  (s.txn.decisions ++ s.txn.announced).find? fun d => d.src == src && d.id == id

/-- Whether the wingbeat cell of one of the three frames before `n` has no room for another entry (R126). -/
def State.announceFull (s : State) (n : Nat) : Bool := [n - 3, n - 2, n - 1].any fun k => decide (2 ≤ (s.announcesAt k).length)

/-- The checks of a global decision (R125): the decision, or the answer. -/
def State.checkDecision (s : State) (src id : BitVec 16) (t : Target) (commit count : Bool) : Except Res Decision :=
  if ¬ s.isRoot then .error (refuse s Status.notReady Reason.notRoot 0)
  else if (s.decisionOf src id).isSome then .error (refuse s Status.badParam Reason.decided 0)
  else
    match s.aim [] t with
    | none => .error (refuse s Status.badParam Reason.target 0)
    | some a =>
      let g := gridOf (regsForTarget s.pendingTxns s.regs t.sec.toNat t.f.toNat)
      let late := s.leadFault a.at_
      let late := if late = 0 ∧ (a.frame < 3 ∨ g.beat (a.frame - 3) < s.clk + usU 50) then Reason.leadTime else late
      if late ≠ 0 then .error (refuse (s.tally count 2) Status.late late 0)
      else if s.announceFull a.frame then .error (refuse (s.tally count 1) Status.infeasible Reason.announceFull 0)
      else .ok ⟨src, id, commit, a.frame, t.p.toNat, s.txn.seq⟩

/-- A decision is recorded; the root's own PREPARED transaction under the key has received it (R125, R127). -/
def State.recordDecision (s : State) (src id : BitVec 16) (t : Target) (commit : Bool) : Res :=
  match s.checkDecision src id t commit true with
  | .error r => r
  | .ok d =>
    let seq := s.txn.seq
    let hear (x : Txn) : Txn :=
      if x.global = true ∧ x.src = src ∧ x.id = id ∧ x.state = .prepared ∧ x.frame = d.frame ∧ x.phase = d.phase then
        (if commit then { x with gotCommit := true, accepted := if x.accepted = 0 then seq else x.accepted }
         else { x with gotAbort := true })
      else x
    okRes (s.updTxn fun t => { t with
      decisions := (d :: t.decisions).take 64,
      announced := (t.announced.filter fun e => decide (s.tm.curFrame < e.frame)) ++ [d],
      txns := t.txns.map hear, seq := seq + 1 })

/-- `TXN_COMMIT` with `VALIDATE_ONLY` = 1 (R122, R125): the answer of a real commit, and nothing changed. -/
def State.txnValidate (s : State) (w : Who) (id : BitVec 16) (global : Bool) (t : Target) : Res :=
  if global then
    match s.checkDecision w.src id t true false with
    | .error r => r
    | .ok _ => okRes s
  else
    match s.commitLocal w id t false with
    | .error r => r
    | .ok _ => okRes s

/-- `TXN_ABORT` with `GLOBAL` = 0 (R112, R123, R129). -/
def State.txnAbort (s : State) (w : Who) (id : BitVec 16) : Res :=
  match s.findTxn w.uid id true with
  | .error r => r
  | .ok x => okRes (s.abortTxn x Reason.host)

/-- `TXN_QUERY` with `GLOBAL` = 0 (R132). -/
def State.txnQuery (s : State) (w : Who) (id : BitVec 16) : Res :=
  match s.txnNamed w.uid id with
  | none => okRes s (List.replicate 5 0)
  | some x => if x.state = .uncertain then s.uncertainRes x else okRes s x.words

/-- `TXN_QUERY` with `GLOBAL` = 1 (R125, R132). -/
def State.txnQueryGlobal (s : State) (src id : BitVec 16) : Res :=
  if ¬ s.isRoot then refuse s Status.notReady Reason.notRoot 0
  else
    match s.txn.decisions.find? fun d => d.src == src && d.id == id with
    | none => okRes s (List.replicate 5 0)
    | some d => okRes s [if d.commit then 7 else 8, 0, BitVec.ofNat 32 (d.frame / 2 ^ 32), BitVec.ofNat 32 d.frame,
        BitVec.ofNat 32 d.phase]

/-- `TXN_PREPARE` (R118, R124); on a root a decision already recorded counts as received (R127). -/
def State.txnPrepare (s : State) (w : Who) (id : BitVec 16) (t : Target) : Res :=
  match s.txnNamed w.uid id with
  | some x =>
    if x.state = .uncertain then s.uncertainRes x
    else
      match s.findTxn w.uid id with
      | .error r => r
      | .ok x =>
        if x.global = false then refuse s Status.badParam Reason.globalMismatch 0
        else if s.commitWaits x then .wait
        else
          match s.checkCommit x t .prepared true with
          | .error r => r
          | .ok y =>
            let heard := (s.decisionOf w.src id).filter fun d => s.isRoot && d.frame == y.frame && d.phase == y.phase
            let y := match heard with
              | some d => if d.commit then { y with gotCommit := true, accepted := d.seq } else { y with gotAbort := true }
              | none => y
            okRes ((s.putTxn y).updTxn fun t => { t with seq := t.seq + 1 })
  | none => refuse s Status.badParam Reason.txnId 0

/-- The session's OPEN transactions end with it (R84, R112); what it had ended is forgotten. -/
def State.endTxns (s : State) (uid : Nat) : State :=
  let s := (s.txn.txns.filter fun x => x.uid == uid && x.state == .opened).foldl
    (fun (t : State) x => t.abortTxn x Reason.session) s
  s.updTxn fun t => { t with txns := t.txns.filter fun x => !(x.uid == uid && x.over) }

/-! ## Application (R57, R106, R114, R117, R128) -/

/-- Addresses that entries write. -/
def entryAddrs (es : List Entry) : List Nat := es.filterMap fun e => match e with
  | .write a _ => some a
  | .modify a _ _ => some a
  | _ => none

/-- A change of the grid that comes with a commit's application, its grid not in force before: the wingbeat of the target is
still to come, or the next one is the first of the new grid at least 1 ms after it (R57) that is still ahead. -/
def State.gridApplied (s : State) (before : Grid) (x : Txn) : State :=
  if s.grid = before then s
  else if s.tm.nextFrame ≤ x.frame then s.updTm fun tm => { tm with beatAt := some (tm.beatAt.getD x.beat) }
  else s.updTm fun tm => { tm with nextFrame := s.grid.frameFrom (max (x.beat + usU 1000) (x.at_ + 1)) }

/-- At the wingbeat of frame `n`, at instant `t`, the commits that target it and are to apply put their grid in force (R57),
also where their apply instant lies later in the frame. -/
def State.gridBegins (s : State) (n t : Nat) : State :=
  let u := s.updTxn fun c => { c with txns := c.txns.map fun x =>
    if (x.state = .pending || x.state = .prepared) && x.counts && x.frame == n then { x with begun := true } else x }
  if u.grid = s.grid then u else u.updTm fun tm => { tm with beatAt := some (tm.beatAt.getD t) }

/-- A grid put in force at a target wingbeat whose transaction then does not apply is left again: the next wingbeat is the
first still ahead on the grid that stays (DESIGN CHOICE, log entry 64). -/
def State.gridLeaves (s : State) (before : Grid) : State :=
  if s.grid = before then s else s.updTm fun tm => { tm with nextFrame := s.grid.frameFrom (s.clk + 1) }

/-- A transaction's entries take effect (R106). -/
def State.runEntries (s : State) (x : Txn) : State :=
  let before := s
  let addrs := entryAddrs x.entries
  let s := (s.keepHist x.frame x.phase).settleTokens
  let s : State := { s with regs := entriesOnRegs x.entries s.regs }
  let s := s.updTxn fun t => { t with shadows := t.shadows.filter fun e => !addrs.contains e.1 }
  let s := x.entries.foldl (fun (t : State) e => match e with
    | .routeSet first d p l => t.setRoutes first.toNat d p l
    | _ => t) s
  let s := s.updTm fun tm => { tm with appliedAt := (x.beat :: tm.appliedAt).take 8 }
  let s := s.snapImages x.at_
  let s := s.fadeCommit x.frame x.phase addrs
  let diag := s.word F.LDR_DIAG_DIAG_IMIN.addr ≠ before.word F.LDR_DIAG_DIAG_IMIN.addr ∨
    s.word F.LDR_DIAG_WIN_DIAG_CODE.addr ≠ before.word F.LDR_DIAG_WIN_DIAG_CODE.addr
  let s := if diag then s.allChains fun c => { c with cfgDue := true } else s
  let s := if s.tblNow ≠ before.tblNow then s.updTile fun t => { t with poisons := [] } else s
  let s := if s.role = roleTile then s.redCommit x before.regs
    else if s.role = roleSender then
      x.entries.foldl (fun (t : State) e => match e with
        | .redSwitch _ => t.exchangeNow
        | _ => t) s
    else s
  let s := s.banksApplied addrs
  let s := State.streamsAfter before s
  let s := x.entries.foldl (fun (t : State) e => match e with
    | .molt advance => t.updSec fun c => { c with moltDue := some advance, moltWaits := false }
    | _ => t) s
  s.rejoin

/-- A transaction applies (R117, R123): its entries, its end as APPLIED. -/
def State.applyTxn (s : State) (x : Txn) : State :=
  let before := s.grid
  let s := s.runEntries x
  let s := ((s.endTxn x .applied 0).bump (F.TXN_CNT_COUNT 0)).gridApplied before x
  let k := x.slot.toNat
  if (s.sess k).isOpen && (s.sess k).uid == x.uid then
    s.updSess k fun e => { e with topApplied := max e.topApplied x.began }
  else s

/-- A PENDING or PREPARED transaction at its apply instant (R117, R123, R128). -/
def State.resolveTxn (s : State) (x : Txn) : State :=
  if x.state = .pending ∨ (x.gotCommit = true ∧ x.gotAbort = false) then s.applyTxn x
  else if x.gotAbort = true ∧ x.gotCommit = false then (s.abortTxn x Reason.decision).gridLeaves s.grid
  else
    (((s.putTxn { x with state := .uncertain }).bump (F.TXN_CNT_COUNT 6)).log Rec.txnUncertain
      (bytesBE 2 x.src.toNat ++ bytesBE 2 x.id.toNat ++ bytesBE 4 x.frame) x.phase).gridLeaves s.grid

end Sys2Proof.Machine
end

