-- ==== Sys2Proof/Machine/MemCmd.lean ====
section
/-! DEFINITION. The memory commands (R96 to R98), fabric operations (R265 to R268), table commands (R292, R295) and
lamp commands (R331). -/

namespace Sys2Proof.Machine

open Sys2Proof

/-! ## MEM_READ, MEM_WRITE (R96, R97) -/

def spaceEnd : Nat := 2 ^ 40

/-- A write of `n` bytes at `a` that no host command may make: into a region-map table in use (R206), or a correction
table in use or being loaded (R291). -/
def State.writeLocked (s : State) (a n : Nat) : Option Res :=
  if s.role = roleSender then (s.mapLocked a n).map fun t => refuse s Status.notReady Reason.tableLive t
  else if s.role = roleTile then (s.tblLocked a n).map fun t => refuse s Status.notReady Reason.ctiLive t
  else none

/-- `MEM_READ` (R96, R97). DESIGN CHOICE (log entry 53), here and in the commands below: a range that runs past 2^40 names
the word of `ADDR_LO` as the offending one (R73), and ALIGN is tried before RANGE. -/
def State.memRead (s : State) (a count : Nat) : Res :=
  if a % 4 ≠ 0 then refuse s Status.badParam Reason.align 1
  else if 16382 < count then refuse s Status.badParam Reason.range 2
  else if spaceEnd < a + 4 * count then refuse s Status.badParam Reason.range 1
  else if s.memWaits a (4 * count) false then .wait
  else
    let n := 4 * count
    let words := (List.range count).map fun i => BitVec.ofNat 32 (natLE (s.readBytes .host (a + 4 * i) 4))
    okRes (s.accountRead .host a n) (BitVec.ofNat 32 (s.lostWords .host a n) :: words)

/-- `MEM_WRITE` (R96, R97). -/
def State.memWrite (s : State) (a : Nat) (vals : List Word) : Res :=
  let n := 4 * vals.length
  if a % 4 ≠ 0 then refuse s Status.badParam Reason.align 1
  else if spaceEnd < a + n then refuse s Status.badParam Reason.range 1
  else
    match s.writeLocked a n with
    | some r => r
    | none =>
      if s.memWaits a n true then .wait
      else okRes (s.writeBytes .host a (vals.flatMap fun v => bytesLE 4 v.toNat))

/-! ## MEM_FILL, MEM_COPY (R96, R98) -/

/-- The result words of both (R98). -/
def moverResult (size lost : Nat) : List Word :=
  [0, BitVec.ofNat 32 (size / 2 ^ 32), BitVec.ofNat 32 size, BitVec.ofNat 32 (min lost (2 ^ 32 - 1))]

/-- An operation starts; one of size 0 ends at once. -/
def State.startMover (s : State) (w : Who) (opcode : BitVec 8) (kind : OpKind) (size : Nat) : Res :=
  s.runOp w opcode kind fun k t => if size = 0 then t.finishOp k Status.ok (moverResult 0 0) else t

/-- `MEM_FILL` (R96). DESIGN CHOICE (log entry 76): R96 names ALIGN for addresses; a size that is no multiple of 8 is refused
with it too. -/
def State.memFill (s : State) (w : Who) (a size : Nat) (pattern : BitVec 64) : Res :=
  if a % 8 ≠ 0 then refuse s Status.badParam Reason.align 1
  else if size % 8 ≠ 0 then refuse s Status.badParam Reason.align 3
  else if spaceEnd < a + size then refuse s Status.badParam Reason.range 1
  else
    match s.writeLocked a size with
    | some r => r
    | none => s.startMover w 0x12 (.memFill a size pattern) size

/-- `MEM_COPY` (R96). DESIGN CHOICE (log entry 76): a size that is no multiple of 8 is refused with ALIGN. -/
def State.memCopy (s : State) (w : Who) (src dst size : Nat) : Res :=
  if src % 8 ≠ 0 then refuse s Status.badParam Reason.align 1
  else if dst % 8 ≠ 0 then refuse s Status.badParam Reason.align 3
  else if size % 8 ≠ 0 then refuse s Status.badParam Reason.align 5
  else if spaceEnd < src + size then refuse s Status.badParam Reason.range 1
  else if spaceEnd < dst + size then refuse s Status.badParam Reason.range 3
  else if src < dst + size ∧ dst < src + size then refuse s Status.badParam Reason.overlap 0
  else
    match s.writeLocked dst size with
    | some r => r
    | none => s.startMover w 0x13 (.memCopy src dst size) size

/-- The end of `MEM_FILL` (R98): words it may not write are left unchanged. -/
def State.memFillDone (s : State) (k : Nat) : State :=
  match (s.op k).st.toNat, (s.op k).kind with
  | 1, .memFill a size pattern =>
    if s.drains a size then s
    else
      let t := (List.range (size / 8)).foldl (fun (t : State) i =>
        if t.mayAccess .mover (a + 8 * i) then t.putWord .mover (a + 8 * i) pattern false else t) s
      (t.serve .mover a size).finishOp k Status.ok (moverResult size 0)
  | _, _ => s

/-- The end of `MEM_COPY` (R98, R360). -/
def State.memCopyDone (s : State) (k : Nat) : State :=
  match (s.op k).st.toNat, (s.op k).kind with
  | 1, .memCopy src dst size =>
    if s.drains src size || s.drains dst size then s
    else
      let r := (List.range (size / 8)).foldl (fun (acc : State × Nat) i =>
        let c := acc.1.copyWord .mover .mover (src + 8 * i) (dst + 8 * i)
        (c.2, acc.2 + c.1.toNat)) (s, 0)
      ((r.1.serve .mover src size).serve .mover dst size).finishOp k Status.ok (moverResult size r.2)
  | _, _ => s

/-! ## Fabric operations (R265 to R268) -/

/-- `FAB_PROBE` (R268). -/
def State.fabProbe (s : State) (w : Who) (routeLen : Nat) (fwd : BitVec 128) : Res :=
  match s.probeRefused 1 routeLen fwd with
  | some r => r
  | none =>
    s.runOp w 0x38 (.fabProbe (BitVec.ofNat 7 routeLen) fwd) fun k t =>
      t.startProbe (.slot (BitVec.ofNat 4 k)) 0 routeLen fwd []

/-- A probe that waits for its answer ends (R265). -/
def State.endProbe (s : State) (who : ProbeFor) : State :=
  s.updFab fun f => { f with probes := f.probes.filter fun p => p.who != who }

def State.probeOf (s : State) (who : ProbeFor) : Option ProbeWait := s.fab.probes.find? fun p => p.who == who

/-- Whether a probe has its answer, or its 10 ms have passed (R268). -/
def State.probeEnded (s : State) (p : ProbeWait) : Bool :=
  p.answer.isSome || decide (p.start + usTicks 10000 ≤ s.tick)

/-- The end of `FAB_PROBE` (R267, R268). -/
def State.fabProbeDone (s : State) (k : Nat) : State :=
  let who : ProbeFor := .slot (BitVec.ofNat 4 k)
  match (s.op k).st.toNat, (s.op k).kind, s.probeOf who with
  | 1, .fabProbe _ _, some p =>
    if s.probeEnded p then
      let words := match p.answer with
        | some a => 1 :: bytesWords (slice a 36 28) ++ bytesWords (slice a 20 16)
        | none => List.replicate 12 0
      (s.endProbe who).finishOp k Status.ok words
    else s
  | _, _, _ => s

/-- The answer of an assignment: `FAB_ADDR` after it and `RESULT` (R267, R268). -/
def State.assignAnswer (s : State) (addr result : Nat) : Res :=
  if result = 0 then okRes s [BitVec.ofNat 32 (addr + 65536 * result)]
  else refuse s Status.verifyFail Reason.assignRefused result

/-- `FAB_ASSIGN` (R267, R268): on the device itself at once, else answered when the answer of its probe returns. -/
def State.fabAssign (s : State) (w : Who) (routeLen : Nat) (newAddr : BitVec 16) (fwd : BitVec 128) (serial : BitVec 64) :
    Res :=
  match s.probeRefused 0 routeLen fwd with
  | some r => r
  | none =>
    if newAddr = 0 ∨ 0xFFEF < newAddr.toNat then refuse s Status.badParam Reason.range 0
    else if routeLen = 0 then
      let r := s.assignSelf serial newAddr
      r.2.assignAnswer (r.2.fld F.FAB_ADDR_ADDR) r.1
    else
      .later (s.startProbe (.session w.uid) 2 routeLen fwd (bytesBE 8 serial.toNat ++ bytesBE 2 newAddr.toNat))

/-- What a `FAB_ASSIGN` of the session `uid` answers once its probe has ended (R268). -/
def State.fabAssignEnd (s : State) (uid : Nat) : Option Res :=
  let who : ProbeFor := .session uid
  match s.probeOf who with
  | some p =>
    if s.probeEnded p then
      let s := s.endProbe who
      match p.answer with
      | some a => some (s.assignAnswer (fieldBE a 44 2) ((a.getD 46 0).toNat))
      | none => some (refuse s Status.verifyFail Reason.noAnswer 0)
    else none
  | none => none

/-- `FAB_ROUTE_SET` (R106, R262). -/
def State.fabRouteSet (s : State) (x : Option Txn) (first : BitVec 6) (setDef : Bool) (defPorts : BitVec 4)
    (es : List RouteEntry) : Res :=
  match x with
  | some x => s.addEntries x [.routeSet first setDef defPorts es]
  | none => s.routeSet first.toNat setDef defPorts es

/-- `FAB_PATH_TEST` (R268). -/
def State.fabPathTest (s : State) (w : Who) (target plen count : BitVec 16) : Res :=
  if plen.toNat < 64 ∨ 1024 < plen.toNat ∨ plen.toNat % 4 ≠ 0 then refuse s Status.badParam Reason.range 0
  else
    s.runOp w 0x3B (.fabPathTest target plen count) fun k t =>
      if count = 0 then t.finishOp k Status.ok (List.replicate 7 0)
      else
        t.updFab fun f => { f with
          probeId := f.probeId + 1
          tests := f.tests ++ [{ slot := BitVec.ofNat 4 k, id := f.probeId, sent := 0, last := 0, answered := 0, outOfOrder := 0,
                                 expect := 0, least := 0, sum := 0, greatest := 0, hops := 0 }] }

/-- The result of a path test. Where no request was answered the round trips and hops have no stated value and are free
(log entry 12); a mean that is not whole is rounded openly (log entry 13). -/
def State.pathResult (s : State) (t : PathTest) : List Word × State :=
  let head : List Word := [BitVec.ofNat 32 t.left, BitVec.ofNat 32 t.answered, BitVec.ofNat 32 t.outOfOrder]
  if t.answered = 0 then
    let d := s.draw
    (head ++ (List.range 4).map fun i => BitVec.ofNat 32 (Config.free 268 [d.1, i]), d.2)
  else
    (head ++ [BitVec.ofNat 32 t.least, BitVec.ofNat 32 (openRound 268 ((t.sum : Rat) / t.answered)).toNat,
      BitVec.ofNat 32 t.greatest, BitVec.ofNat 32 t.hops.toNat], s)

/-- The end of `FAB_PATH_TEST`, 10 ms after its last request (R268). -/
def State.fabPathTestDone (s : State) (k : Nat) : State :=
  match (s.op k).st.toNat, (s.op k).kind, s.fab.tests.find? fun t => t.slot.toNat == k with
  | 1, .fabPathTest _ _ count, some t =>
    if count.toNat ≤ t.sent ∧ t.last + usTicks 10000 ≤ s.tick then
      let r := s.pathResult t
      (r.2.updFab fun f => { f with tests := f.tests.filter fun x => x.slot.toNat != k }).finishOp k Status.ok r.1
    else s
  | _, _, _ => s

/-! ## Correction tables (R292, R295) -/

/-- `TABLE_LOAD` (R292). -/
def State.tableLoad (s : State) (w : Who) (t : BitVec 1) (fromFlash : Bool) (a size : Nat) : Res :=
  let dst := s.tblBase t.toNat
  if s.tblSelected t.toNat then refuse s Status.notReady Reason.ctiLive t.toNat
  else
    match s.tblOp with
    | some (k, _) => refuse s Status.notReady Reason.ctiBusy k
    | none =>
      if a % 8 ≠ 0 then refuse s Status.badParam Reason.align 2
      else if size < 256 ∨ 67109056 < size then refuse s Status.badParam Reason.range 4
      else if (if fromFlash then 0x10000000 else spaceEnd) < a + size then refuse s Status.badParam Reason.range 2
      else if ¬ s.inDram dst size then refuse s Status.badParam Reason.range 0
      else if fromFlash = false ∧ a ≠ dst ∧ a < dst + size ∧ dst < a + size then refuse s Status.badParam Reason.overlap 0
      else if fromFlash ∧ s.flashBusy then .wait
      else s.runOp w 0x40 (.tableLoad t fromFlash (BitVec.ofNat 40 a).toNat size) fun _ u => u.tblInvalidate t.toNat

/-- The copy of a table image into its slot (R292): from the slot itself nothing moves. A lost source word leaves zeros
(R361). -/
def State.copyTable (s : State) (dst : Nat) (fromFlash : Bool) (a size : Nat) : State :=
  if fromFlash then s.writeBytes .bulk dst (s.flashBytes a size)
  else if a = dst then s
  else
    (s.accountRead .bulk a size).writeBytes .bulk dst (s.readBytes .bulk a size)

/-- The end of `TABLE_LOAD` (R292 to R294). -/
def State.tableLoadDone (s : State) (k : Nat) : State :=
  match (s.op k).st.toNat, (s.op k).kind with
  | 1, .tableLoad t fromFlash a size =>
    let u := (s.copyTable (s.tblBase t.toNat) fromFlash a size).tblInvalidate t.toNat
    let r := u.tableLoaded t.toNat size
    r.2.finishOp k r.1.status r.1.words
  | _, _ => s

/-- `TABLE_VERIFY` (R295). -/
def State.tableVerify (s : State) (w : Who) (t : BitVec 1) : Res :=
  match s.tblOp with
  | some (k, _) => refuse s Status.notReady Reason.ctiBusy k
  | none => s.runOp w 0x41 (.tableVerify t)

/-- The end of `TABLE_VERIFY` (R293 to R295). -/
def State.tableVerifyDone (s : State) (k : Nat) : State :=
  match (s.op k).st.toNat, (s.op k).kind with
  | 1, .tableVerify t =>
    let c := s.checkTable t.toNat none
    (s.accountRead .bulk (s.tblBase t.toNat) (s.tableReads t.toNat none)).finishOp k c.status c.words
  | _, _ => s

/-! ## LAMP_SCAN (R331) -/

/-- `LAMP_SCAN` (R331). -/
def State.lampScanStart (s : State) (w : Who) (mask : BitVec 128) (faults stale all : Bool) (ageMin : Word) (a : Nat)
    (limit : Word) : Res :=
  match (List.range 16).find? fun k => (s.op k).st = 1 && (s.op k).opcode == 0x48 with
  | some k =>
    if s.tblValid s.tblNow then refuse s Status.notReady Reason.lampBusy k
    else refuse s Status.notReady Reason.noTable 0
  | none =>
    if ¬ s.tblValid s.tblNow then refuse s Status.notReady Reason.noTable 0
    else if a % 16 ≠ 0 then refuse s Status.badParam Reason.align 7
    else if 1048576 < limit.toNat then refuse s Status.badParam Reason.range 8
    else if ¬ s.inDram a (16 * limit.toNat) then refuse s Status.badParam Reason.range 7
    else s.runOp w 0x48 (.lampScan mask faults stale all ageMin a limit)

/-- The end of `LAMP_SCAN` (R331). -/
def State.lampScanDone (s : State) (k : Nat) : State :=
  match (s.op k).st.toNat, (s.op k).kind with
  | 1, .lampScan mask faults stale all ageMin a limit =>
    let r := s.lampScan mask faults stale all ageMin.toNat a limit.toNat
    r.2.finishOp k Status.ok r.1
  | _, _ => s

end Sys2Proof.Machine
end

