-- ==== Sys2Proof/Machine/Operands.lean ====
section
/-! DEFINITION. The operand forms of host commands (R70, R91): opcodes, payload layouts, the command a packet spells and
the packet a command is. -/

namespace Sys2Proof.Machine

open Sys2Proof

/-! ## Opcodes (R91) and payload lengths -/

/-- The assigned opcodes. -/
def opcodes : List Nat :=
  [0x00, 0x01, 0x02, 0x08, 0x09, 0x0A, 0x0B, 0x10, 0x11, 0x12, 0x13, 0x18, 0x19, 0x1A, 0x1B, 0x1C, 0x20, 0x21, 0x22,
   0x28, 0x29, 0x30, 0x31, 0x32, 0x38, 0x39, 0x3A, 0x3B, 0x40, 0x41, 0x48, 0x49, 0x50, 0x51, 0x58, 0x59, 0x5A, 0x60,
   0x61, 0x62, 0x68, 0x69, 0x70, 0x71, 0x78, 0x79, 0x7F]

/-- A word's bits as a number. -/
def wbits (w : Word) (lo n : Nat) : Nat := (w.extractLsb' lo n).toNat

/-- Whether `LEN` matches the opcode's layout (check 5 of R89). -/
def layoutOk (op : Nat) (ws : List Word) : Bool :=
  let n := ws.length
  let w (i : Nat) : Word := ws.getD i 0
  match op with
  | 0x00 => true
  | 0x02 | 0x59 | 0x61 => n == 0
  | 0x18 | 0x1B | 0x29 | 0x30 | 0x32 | 0x41 | 0x50 | 0x51 | 0x5A | 0x62 | 0x71 | 0x79 | 0x7F => n == 1
  | 0x01 | 0x08 | 0x0B | 0x21 | 0x3B | 0x49 | 0x69 | 0x70 | 0x78 => n == 2
  | 0x0A | 0x10 | 0x31 => n == 3
  | 0x19 | 0x1A | 0x1C | 0x20 | 0x22 => n == 4
  | 0x38 | 0x40 => n == 5
  | 0x12 | 0x13 => n == 6
  | 0x39 => n == 8
  | 0x48 | 0x68 => n == 9
  | 0x09 => decide (1 ≤ n)
  | 0x11 => decide (2 ≤ n)
  | 0x60 => decide (5 ≤ n)
  | 0x28 => decide (5 ≤ n) && n == 5 + wbits (w 4) 0 16
  | 0x3A => decide (1 ≤ n) && n == 1 + 2 * wbits (w 0) 8 8
  | 0x58 => decide (2 ≤ n) && n == 2 + 4 * wbits (w 0) 16 5
  | _ => false

/-! ## Fields of several words -/

def addr40 (hi lo : Word) : BitVec 40 := hi.extractLsb' 0 8 ++ lo
def pair64 (hi lo : Word) : BitVec 64 := hi ++ lo
def hi40 (a : BitVec 40) : Word := 0#24 ++ a.extractLsb' 32 8
def lo40 (a : BitVec 40) : Word := a.extractLsb' 0 32
def hi64 (a : BitVec 64) : Word := a.extractLsb' 32 32
def lo64 (a : BitVec 64) : Word := a.extractLsb' 0 32
def quad (a b c d : Word) : BitVec 128 := a ++ b ++ c ++ d

/-- The words of a 128-bit field, upper word first. -/
def quadWords (v : BitVec 128) : List Word :=
  [v.extractLsb' 96 32, v.extractLsb' 64 32, v.extractLsb' 32 32, v.extractLsb' 0 32]

/-- A target's words (R132). -/
def targetOf (a b c : Word) : Target := ⟨a ++ b, c.extractLsb' 8 8, c.extractLsb' 0 2⟩
def targetWords (t : Target) : List Word := [hi64 t.sec, lo64 t.sec, 0#16 ++ t.f ++ 0#6 ++ t.p]

/-- One bit as a bit vector. -/
def b1 (b : Bool) : BitVec 1 := BitVec.ofBool b

/-- Route entries (R262). -/
def routesOf : List Word → List RouteEntry
  | a :: b :: t => ⟨a.extractLsb' 16 16, a.extractLsb' 0 16, b.extractLsb' 0 4, b.getLsbD 31⟩ :: routesOf t
  | _ => []

def routeWords (l : List RouteEntry) : List Word := l.flatMap fun e => [e.mask ++ e.value, b1 e.en ++ 0#27 ++ e.ports]

/-- Address ranges (R349). -/
def rangesOf : List Word → List (BitVec 40 × BitVec 40)
  | a :: b :: c :: d :: t => (addr40 a b, addr40 c d) :: rangesOf t
  | _ => []

def rangeWords (l : List (BitVec 40 × BitVec 40)) : List Word :=
  l.flatMap fun r => [hi40 r.1, lo40 r.1, hi40 r.2, lo40 r.2]

/-! ## From words to commands -/

/-- `DIAG_PATTERN` (R254, R333); none for a reserved target or action. -/
def diagInstr (h : Hdr) (w arg : Word) : Option Instr :=
  let q := w.extractLsb' 4 2
  let l := w.extractLsb' 8 4
  let p := w.extractLsb' 12 4
  match wbits w 0 4, wbits w 16 4 with
  | 0, 0 => some (.diagPatternStop h q l p arg)
  | 0, 1 => some (.diagPatternGenerate h q l p arg)
  | 0, 2 => some (.diagPatternCheck h q l p arg)
  | 0, 3 => some (.diagPatternGenerateCheck h q l p arg)
  | 0, 4 => some (.diagPatternLoopback h q l p arg)
  | 0, 5 => some (.diagPatternInjectBit h q l p arg)
  | 0, 6 => some (.diagPatternInjectLcb h q l p arg)
  | 1, 0 => some (.diagPatternLampStop h p arg)
  | 1, 1 => some (.diagPatternLampStart h p arg)
  | _, _ => none

/-- `RESET` (R93, R385); none for a `KIND` not listed. -/
def resetInstr (h : Hdr) (kind : Nat) : Option Instr :=
  if kind = 0 then some (.reset h)
  else if kind = 1 then some (.resetMedia h)
  else if kind ≤ 5 then some (.resetFrx h (BitVec.ofNat 2 (kind - 2)))
  else if kind ≤ 9 then some (.resetDram h (BitVec.ofNat 2 (kind - 6)))
  else if kind = 10 then some (.resetService h)
  else if kind = 11 then some (.resetFlash h)
  else none

/-- The command that an opcode and a payload of matching layout spell; `fz` is what the fuses of an `INSTAR_ADVANCE` read
back. None for a reserved parameter value. -/
def hostInstr (h : Hdr) (op : Nat) (fz : Bool × Bool) (ws : List Word) : Option Instr :=
  let w (i : Nat) : Word := ws.getD i 0
  match op with
  | 0x00 => some (.nop h)
  | 0x01 => some (.sessionOpen h (w 0))
  | 0x02 => some (.sessionClose h)
  | 0x08 => some (.regRead h (w 0) ((w 1).extractLsb' 0 8))
  | 0x09 => some (.regWrite h (w 0) (ws.drop 1))
  | 0x0A => some (.regModify h (w 0) (w 1) (w 2))
  | 0x0B => some (.regReadLive h (w 0) ((w 1).extractLsb' 0 8))
  | 0x10 => some (.memRead h (addr40 (w 0) (w 1)) ((w 2).extractLsb' 0 14))
  | 0x11 => some (.memWrite h (addr40 (w 0) (w 1)) (ws.drop 2))
  | 0x12 => some (.memFill h (addr40 (w 0) (w 1)) (addr40 (w 2) (w 3)) (pair64 (w 4) (w 5)))
  | 0x13 => some (.memCopy h (addr40 (w 0) (w 1)) (addr40 (w 2) (w 3)) (addr40 (w 4) (w 5)))
  | 0x18 => some (.txnBegin h ((w 0).getLsbD 0))
  | 0x19 =>
    let t := targetOf (w 1) (w 2) (w 3)
    if (w 0).getLsbD 1 then some (.txnCommitValidate h ((w 0).getLsbD 0) t)
    else if (w 0).getLsbD 0 then some (.txnCommitGlobal h t)
    else some (.txnCommit h t)
  | 0x1A => if (w 0).getLsbD 0 then some (.txnAbortGlobal h (targetOf (w 1) (w 2) (w 3))) else some (.txnAbort h)
  | 0x1B => if (w 0).getLsbD 0 then some (.txnQueryGlobal h) else some (.txnQuery h)
  | 0x1C => some (.txnPrepare h (targetOf (w 1) (w 2) (w 3)))
  | 0x20 =>
    if (w 0).getLsbD 8 then some (.fenceSignalReset h ((w 0).extractLsb' 0 6) (w 1) (pair64 (w 2) (w 3)))
    else some (.fenceSignal h ((w 0).extractLsb' 0 6) (w 1) (pair64 (w 2) (w 3)))
  | 0x21 => some (.fenceQuery h (w 0) (w 1))
  | 0x22 => some (.layerFlip h ((w 0).extractLsb' 0 4) ((w 0).extractLsb' 8 2) ((w 0).extractLsb' 16 6)
      ((w 0).getLsbD 24) (w 1) (pair64 (w 2) (w 3)))
  | 0x28 => some (.schedAction h (targetOf (w 1) (w 2) (w 3)) ((w 4).extractLsb' 16 8) (ws.drop 5))
  | 0x29 => some (.schedCancel h ((w 0).extractLsb' 0 16))
  | 0x30 => some (.opStatus h ((w 0).extractLsb' 0 16))
  | 0x31 => some (.opResult h ((w 0).extractLsb' 0 4) ((w 0).extractLsb' 16 16) (w 1) (w 2))
  | 0x32 => some (.opRelease h ((w 0).extractLsb' 0 4) ((w 0).extractLsb' 16 16))
  | 0x38 => some (.fabProbe h ((w 0).extractLsb' 0 7) (quad (w 1) (w 2) (w 3) (w 4)))
  | 0x39 => some (.fabAssign h ((w 0).extractLsb' 0 7) ((w 0).extractLsb' 16 16) (quad (w 1) (w 2) (w 3) (w 4))
      (pair64 (w 5) (w 6)))
  | 0x3A => some (.fabRouteSet h ((w 0).extractLsb' 0 6) ((w 0).getLsbD 16) ((w 0).extractLsb' 20 4)
      (routesOf (ws.drop 1)))
  | 0x3B => some (.fabPathTest h ((w 0).extractLsb' 0 16) ((w 0).extractLsb' 16 16) ((w 1).extractLsb' 0 16))
  | 0x40 => some (.tableLoad h ((w 0).extractLsb' 0 1) ((w 0).getLsbD 8) (addr40 (w 1) (w 2)) (addr40 (w 3) (w 4)))
  | 0x41 => some (.tableVerify h ((w 0).extractLsb' 0 1))
  | 0x48 => some (.lampScan h (quad (w 3) (w 2) (w 1) (w 0)) ((w 4).getLsbD 0) ((w 4).getLsbD 1) ((w 4).getLsbD 2) (w 5)
      (addr40 (w 6) (w 7)) (w 8))
  | 0x49 => some (.lampReport h ((w 0).extractLsb' 0 7) ((w 0).extractLsb' 8 6) ((w 1).extractLsb' 0 10)
      ((w 1).extractLsb' 16 11))
  | 0x50 => some (.calRun h ((w 0).extractLsb' 0 4) ((w 0).getLsbD 8))
  | 0x51 => some (.calStore h ((w 0).extractLsb' 0 4))
  | 0x58 => some (.redJoin h ((w 0).extractLsb' 0 16) (rangesOf (ws.drop 2)))
  | 0x59 => some (.redState h)
  | 0x5A => some (.redSwitch h ((w 0).extractLsb' 0 1))
  | 0x60 => some (.fwStage h ((w 0).extractLsb' 0 2) ((w 0).getLsbD 8) (w 1) (w 2) (addr40 (w 3) (w 4)) (ws.drop 5))
  | 0x61 => some (.fwVerify h)
  | 0x62 => some (.fwMolt h ((w 0).getLsbD 0))
  | 0x68 => some (.attest h (ws.take 8) ((w 8).getLsbD 0))
  | 0x69 => some (.instarAdvance h ((w 0).extractLsb' 0 3) (w 1) fz.1 fz.2)
  | 0x70 => some (.errRead h (w 0) ((w 1).extractLsb' 0 8))
  | 0x71 => some (.errClear h (w 0))
  | 0x78 => diagInstr h (w 0) (w 1)
  | 0x79 => some (.diagCounters h ((w 0).extractLsb' 0 5) ((w 0).getLsbD 8))
  | 0x7F => resetInstr h (wbits (w 0) 0 4)
  | _ => none

/-- The command a packet spells: `LEN` as received and matching the layout, the opcode assigned (checks 1, 2 and 5 of
R89), no parameter reserved. -/
def decodePacket (fz : Bool × Bool) (p : Packet) : Option Instr :=
  if p.len.toNat = p.payload.length ∧ p.len.toNat ≤ 16383 ∧ layoutOk p.opcode.toNat p.payload = true then
    hostInstr p.hdr p.opcode.toNat fz p.payload
  else none

/-! ## From commands to packets -/

/-- The word of a `DIAG_PATTERN` over lanes (R254). -/
def diagWord (action : BitVec 4) (port : BitVec 2) (lanes pattern : BitVec 4) : Word :=
  0#12 ++ action ++ pattern ++ lanes ++ 0#2 ++ port ++ 0#4

/-- Header, opcode and payload of a host command; none for an event. Reserved bits are zero (R6). -/
def hostParts : Instr → Option (Hdr × BitVec 8 × List Word)
  | .nop h => some (h, 0x00, [])
  | .sessionOpen h o => some (h, 0x01, [o, 0])
  | .sessionClose h => some (h, 0x02, [])
  | .regRead h a n => some (h, 0x08, [a, 0#24 ++ n])
  | .regWrite h a vs => some (h, 0x09, a :: vs)
  | .regModify h a m v => some (h, 0x0A, [a, m, v])
  | .regReadLive h a n => some (h, 0x0B, [a, 0#24 ++ n])
  | .memRead h a n => some (h, 0x10, [hi40 a, lo40 a, 0#18 ++ n])
  | .memWrite h a vs => some (h, 0x11, hi40 a :: lo40 a :: vs)
  | .memFill h a n p => some (h, 0x12, [hi40 a, lo40 a, hi40 n, lo40 n, hi64 p, lo64 p])
  | .memCopy h a b n => some (h, 0x13, [hi40 a, lo40 a, hi40 b, lo40 b, hi40 n, lo40 n])
  | .txnBegin h g => some (h, 0x18, [0#31 ++ b1 g])
  | .txnCommit h t => some (h, 0x19, 0 :: targetWords t)
  | .txnCommitValidate h g t => some (h, 0x19, (0#30 ++ 1#1 ++ b1 g) :: targetWords t)
  | .txnCommitGlobal h t => some (h, 0x19, 1 :: targetWords t)
  | .txnAbort h => some (h, 0x1A, [0, 0, 0, 0])
  | .txnAbortGlobal h t => some (h, 0x1A, 1 :: targetWords t)
  | .txnQuery h => some (h, 0x1B, [0])
  | .txnQueryGlobal h => some (h, 0x1B, [1])
  | .txnPrepare h t => some (h, 0x1C, 0 :: targetWords t)
  | .fenceSignal h f v n => some (h, 0x20, [0#26 ++ f, v, hi64 n, lo64 n])
  | .fenceSignalReset h f v n => some (h, 0x20, [0#23 ++ 1#1 ++ 0#2 ++ f, v, hi64 n, lo64 n])
  | .fenceQuery h a b => some (h, 0x21, [a, b])
  | .layerFlip h g b f nf w n =>
    some (h, 0x22, [0#7 ++ b1 nf ++ 0#2 ++ f ++ 0#6 ++ b ++ 0#4 ++ g, w, hi64 n, lo64 n])
  | .schedAction h t op ws =>
    some (h, 0x28, 0 :: targetWords t ++ (0#8 ++ op ++ BitVec.ofNat 16 ws.length) :: ws)
  | .schedCancel h i => some (h, 0x29, [0#16 ++ i])
  | .opStatus h m => some (h, 0x30, [0#16 ++ m])
  | .opResult h k g o n => some (h, 0x31, [g ++ 0#12 ++ k, o, n])
  | .opRelease h k g => some (h, 0x32, [g ++ 0#12 ++ k])
  | .fabProbe h r f => some (h, 0x38, (0#25 ++ r) :: quadWords f)
  | .fabAssign h r a f n => some (h, 0x39, (a ++ 0#9 ++ r) :: quadWords f ++ [hi64 n, lo64 n, 0])
  | .fabRouteSet h i d p es =>
    some (h, 0x3A, (0#8 ++ p ++ 0#3 ++ b1 d ++ BitVec.ofNat 8 es.length ++ 0#2 ++ i) :: routeWords es)
  | .fabPathTest h t p n => some (h, 0x3B, [p ++ t, 0#16 ++ n])
  | .tableLoad h t fl a n => some (h, 0x40, [0#23 ++ b1 fl ++ 0#7 ++ t, hi40 a, lo40 a, hi40 n, lo40 n])
  | .tableVerify h t => some (h, 0x41, [0#31 ++ t])
  | .lampScan h m fa st al ag a n =>
    some (h, 0x48, (quadWords m).reverse ++ [0#29 ++ b1 al ++ b1 st ++ b1 fa, ag, hi40 a, lo40 a, n])
  | .lampReport h c d f n => some (h, 0x49, [0#18 ++ d ++ 0#1 ++ c, 0#5 ++ n ++ 0#6 ++ f])
  | .calRun h p f => some (h, 0x50, [0#23 ++ b1 f ++ 0#4 ++ p])
  | .calStore h p => some (h, 0x51, [0#28 ++ p])
  | .redJoin h s rs => some (h, 0x58, (0#11 ++ BitVec.ofNat 5 rs.length ++ s) :: 0 :: rangeWords rs)
  | .redState h => some (h, 0x59, [])
  | .redSwitch h s => some (h, 0x5A, [0#31 ++ s])
  | .fwStage h ar d o n a ws => some (h, 0x60, [0#23 ++ b1 d ++ 0#6 ++ ar, o, n, hi40 a, lo40 a] ++ ws)
  | .fwVerify h => some (h, 0x61, [])
  | .fwMolt h a => some (h, 0x62, [0#31 ++ b1 a])
  | .attest h n p => some (h, 0x68, n ++ [0#31 ++ b1 p])
  | .instarAdvance h t c _ _ => some (h, 0x69, [0#29 ++ t, c])
  | .errRead h f n => some (h, 0x70, [f, 0#24 ++ n])
  | .errClear h u => some (h, 0x71, [u])
  | .diagPatternStop h q l p a => some (h, 0x78, [diagWord 0 q l p, a])
  | .diagPatternGenerate h q l p a => some (h, 0x78, [diagWord 1 q l p, a])
  | .diagPatternCheck h q l p a => some (h, 0x78, [diagWord 2 q l p, a])
  | .diagPatternGenerateCheck h q l p a => some (h, 0x78, [diagWord 3 q l p, a])
  | .diagPatternLoopback h q l p a => some (h, 0x78, [diagWord 4 q l p, a])
  | .diagPatternInjectBit h q l p a => some (h, 0x78, [diagWord 5 q l p, a])
  | .diagPatternInjectLcb h q l p a => some (h, 0x78, [diagWord 6 q l p, a])
  | .diagPatternLampStart h p a => some (h, 0x78, [0#12 ++ 1#4 ++ p ++ 0#8 ++ 1#4, a])
  | .diagPatternLampStop h p a => some (h, 0x78, [0#12 ++ 0#4 ++ p ++ 0#8 ++ 1#4, a])
  | .diagCounters h b c => some (h, 0x79, [0#23 ++ b1 c ++ 0#3 ++ b])
  | .reset h => some (h, 0x7F, [0])
  | .resetMedia h => some (h, 0x7F, [1])
  | .resetFrx h q => some (h, 0x7F, [0#30 ++ q + 2])
  | .resetDram h q => some (h, 0x7F, [0#30 ++ q + 6])
  | .resetService h => some (h, 0x7F, [10])
  | .resetFlash h => some (h, 0x7F, [11])
  | _ => none

/-- The packet of a host command. -/
def encodePacket (c : Instr) : Option Packet :=
  (hostParts c).map fun p => ⟨p.1, p.2.1, BitVec.ofNat 16 p.2.2.length, p.2.2⟩

/-- What the fuses of an `INSTAR_ADVANCE` read back; no other command carries it. -/
def fusesOf : Instr → Bool × Bool
  | .instarAdvance _ _ _ a b => (a, b)
  | _ => (false, false)

/-- Header fields and opcode of a host command. -/
def hdrOf (c : Instr) : Option Hdr := (hostParts c).map fun p => p.1
def opcodeOf (c : Instr) : Nat := ((hostParts c).map fun p => p.2.1.toNat).getD 0x80

/-- Header words 0 to 3 of a packet, and its payload (R70); the CRC word apart. -/
def packetWords (p : Packet) : List Word :=
  [0x1#4 ++ b1 p.hdr.barrier ++ 0#1 ++ b1 p.hdr.noReply ++ 0#1 ++ p.opcode ++ p.hdr.tag, p.hdr.src ++ p.hdr.dst, p.hdr.seq,
    p.hdr.txnId ++ p.len] ++ p.payload

/-- A packet from its words, the CRC word apart: what was received, by which transport. `OPCODE` keeps bit 23, which a
command has at 0. -/
def packetOf (via : Via) (ws : List Word) : Packet :=
  let w (i : Nat) : Word := ws.getD i 0
  { hdr := { via := via, barrier := (w 0).getLsbD 27, noReply := (w 0).getLsbD 25, tag := (w 0).extractLsb' 0 16,
             src := (w 1).extractLsb' 16 16, dst := (w 1).extractLsb' 0 16, seq := w 2, txnId := (w 3).extractLsb' 16 16 },
    opcode := (w 0).extractLsb' 16 8, len := (w 3).extractLsb' 0 16, payload := ws.drop 4 }

end Sys2Proof.Machine
end

