-- ==== Sys2Proof/Machine/Host.lean ====
section
/-! DEFINITION. Command packets (spec/03): replies, the checks of R89, what each host command does, scheduled actions
(R130, R131). -/

namespace Sys2Proof.Machine

open Sys2Proof

/-! ## Packets as they wait -/

def noHdr : Hdr := ⟨.ring, false, false, 0, 0, 0, 0, 0⟩

def Item.hdr : Item → Hdr
  | .cmd c => (hdrOf c).getD noHdr
  | .raw p => p.hdr

def Item.opcode : Item → BitVec 8
  | .cmd c => ((hostParts c).map fun p => p.2.1).getD 0
  | .raw p => p.opcode

def Item.payload : Item → List Word
  | .cmd c => ((hostParts c).map fun p => p.2.2).getD []
  | .raw p => p.payload

/-- `LEN` as sent. -/
def Item.len : Item → Nat
  | .cmd c => ((hostParts c).map fun p => p.2.2.length).getD 0
  | .raw p => p.len.toNat

/-- The command a packet spells, and the state after; what the fuses of an `INSTAR_ADVANCE` that arrives as words read
back is left free (log entry 12). None for a reserved parameter value. -/
def State.spell (s : State) (it : Item) : Option Instr × State :=
  match it with
  | .cmd c => (some c, s)
  | .raw p =>
    if p.opcode = 0x69 then
      let d := s.draw
      let fz (i : Nat) : Bool := Config.free 33 [d.1, i] % 2 = 1
      (hostInstr p.hdr 0x69 (fz 0, fz 1) p.payload, d.2)
    else (hostInstr p.hdr p.opcode.toNat (false, false) p.payload, s)

/-! ## Replies (R71, R76, R77) -/

/-- The reply to a command header (R71). -/
def replyTo (h : Hdr) (opcode : BitVec 8) (own : BitVec 16) (status : BitVec 8) (payload : List Word) : Reply :=
  { opcode := opcode ||| 0x80, tag := h.tag, src := own, dst := h.src, seq := h.seq, status := status, payload := payload }

/-- Header and payload words of a reply, the CRC word apart (R71). -/
def replyWords (r : Reply) : List Word :=
  [0x10#8 ++ r.opcode ++ r.tag, r.src ++ r.dst, r.seq, r.status ++ 0#8 ++ BitVec.ofNat 16 r.payload.length] ++ r.payload

/-- Words as a packet's bytes, its CRC word last (R72). -/
def packetBytes (ws : List Word) : List Byte := wordsBytes ws ++ wordBytes (crc32c (wordsBytes ws))

/-- A segment as a cell or a ring frame carries it (R76). -/
def segBytes (g : Segment) : List Byte := wordBytes (segmentWord g) ++ g.bytes

/-- A datagram under a key (R77): the segment word, the key word, the segment's bytes and the tag over all three. -/
def datagramBytes (key : List Byte) (keyWord : Word) (seg : List Byte) : List Byte :=
  let body := seg.take 4 ++ wordBytes keyWord ++ seg.drop 4
  body ++ bytesBE 16 (Config.aesCmac key body).toNat

/-- A segment of a reply to host `host` leaves as one datagram (R76), to the address and port and under the `KEY_ID` of the
datagram it answers (R77, R78). -/
def State.udpSegment (s : State) (via : Via) (host : BitVec 16) (seg : List Byte) : State :=
  match via with
  | .udp ip port keyId key =>
    match s.ownerKeyOf key.toNat with
    | some k => s.emitUdp (.datagram ip port (datagramBytes k (host ++ 0#8 ++ keyId) seg))
    | none => s
  | _ => s

/-- A reply leaves by its transport (R76): UDP datagrams (R136), REPLY cells, or ring frames. A device without an address
originates no REPLY cell (R260). -/
def State.sendReply (s : State) (via : Via) (r : Reply) : State :=
  let segs := segmentsOf (r.seq.setWidth 16) (packetBytes (replyWords r))
  match via with
  | .udp .. => (segs.foldl (fun (t : State) g => t.udpSegment via r.dst (segBytes g)) s).emitUdp (.reply via r)
  | .ring => segs.foldl (fun (t : State) g => t.ringPush (ringOwn 0 (segBytes g))) (s.emit (.reply via r))
  | .fabric .. =>
    if s.addr = 0 then s
    else
      segs.foldl (fun (t : State) g => t.originate (mkCell CellType.reply r.dst s.addr 0 r.seq 0 (segBytes g)))
        (s.emit (.reply via r))

/-- Whether a status is one that `NO_REPLY` suppresses (R90). -/
def quietStatus (st : BitVec 8) : Bool := st = Status.ok || st = Status.accepted

/-- A reply that the packet's `NO_REPLY` may suppress (R90). -/
def State.replyUnless (s : State) (quiet : Bool) (via : Via) (r : Reply) : State :=
  if quiet && quietStatus r.status then s else s.sendReply via r

/-- An answer outside dispatch (R83, R85 to R88). -/
def State.answer (s : State) (via : Via) (it : Item) (status : BitVec 8) (payload : List Word) : State :=
  s.replyUnless it.hdr.noReply via (replyTo it.hdr it.opcode s.addr status payload)

/-- The reply of a dispatched packet, kept for duplicates (R88) and sent. -/
def State.answerKept (s : State) (k : Nat) (via : Via) (it : Item) (status : BitVec 8) (payload : List Word) : State :=
  let r := replyTo it.hdr it.opcode s.addr status payload
  (if payload.length ≤ 250 then s.updSess k fun e => { e with kept := (r :: e.kept).take 16 } else s).replyUnless
    it.hdr.noReply via r

/-! ## Checks 1 to 7 of R89 -/

/-- Opcodes left at instar 4 (R31). -/
def retiredOps : List Nat := [0x00, 0x01, 0x02, 0x08, 0x68, 0x70, 0x7F]

/-- Opcodes left in recovery (R25). -/
def recoveryOps : List Nat := [0x00, 0x01, 0x02, 0x08, 0x60, 0x61, 0x62, 0x68, 0x70, 0x7F]

/-- Opcodes that may carry a `TXN_ID` outside the `TXN_` group (R91). -/
def joinsTxn (op : Nat) : Bool := [0x09, 0x0A, 0x3A, 0x5A, 0x62].contains op

/-- The `TXN_` group. -/
def txnGroup (op : Nat) : Bool := decide (0x18 ≤ op ∧ op ≤ 0x1C)

/-- Opcodes of some modes only (R347, R349). -/
def modeAllows (op mode : Nat) : Bool :=
  if op = 0x5A then decide (3 ≤ mode ∧ mode ≤ 5) else if op = 0x58 then mode = 4 else true

/-- Opcodes of some roles only (R477). -/
def roleAllows (op role : Nat) : Bool :=
  if [0x20, 0x21, 0x22, 0x58].contains op then role = roleSender
  else if [0x59, 0x5A].contains op then role = roleSender || role = roleTile
  else if [0x40, 0x41, 0x48, 0x49].contains op then role = roleTile
  else true

/-- Check 7 of R89 for the `TXN_` group (R110, R125, R129): local commits, aborts and prepares name an OPEN transaction,
commits and aborts also an UNCERTAIN one; a prepare of an UNCERTAIN one is answered as R129 says. -/
def State.checkTxn (s : State) (uid : Nat) (it : Item) : Option Res :=
  let op := it.opcode.toNat
  let global := (it.payload.getD 0 0).getLsbD 0
  let fault : Except Res Txn → Option Res
    | .ok _ => none
    | .error r => some r
  if (op = 0x19 ∨ op = 0x1A) ∧ global = false then fault (s.findTxn uid it.hdr.txnId true)
  else if op = 0x1C then
    match s.txnNamed uid it.hdr.txnId with
    | some x => if x.state = .uncertain then some (s.uncertainRes x) else fault (s.findTxn uid it.hdr.txnId)
    | none => fault (s.findTxn uid it.hdr.txnId)
  else none

/-- Checks 1 to 7 of R89: the refusal, or the transaction the packet joins, if any. `uid` is the session's. DESIGN CHOICE
(log entry 53): R91 speaks of opcodes 0x00 to 0x7F; one with bit 23 of word 0 set is no assigned opcode either and is
answered `BAD_OPCODE`. -/
def State.checkPacket (s : State) (uid : Nat) (it : Item) : Except Res (Option Txn) :=
  let op := it.opcode.toNat
  if 16383 < it.len ∨ it.len ≠ it.payload.length then .error (.done Status.badLength [] s)
  else if opcodes.contains op = false then .error (.done Status.badOpcode [] s)
  else if s.instar = 4 ∧ retiredOps.contains op = false then .error (.done Status.instarLocked [] s)
  else if s.bit F.SYS_BOOT_RECOVERY ∧ recoveryOps.contains op = false then
    .error (refuse s Status.notReady Reason.recovery 0)
  else if modeAllows op s.mode = false then .error (refuse s Status.notReady Reason.mode s.mode)
  else if roleAllows op s.role = false then .error (refuse s Status.notReady Reason.role s.role)
  else if layoutOk op it.payload = false then .error (.done Status.badLength [] s)
  else if txnGroup op = true then (match s.checkTxn uid it with | some r => .error r | none => .ok none)
  else if it.hdr.txnId = 0 then .ok none
  else if joinsTxn op = false then .error (refuse s Status.badParam Reason.txnNotAllowed 0)
  else
    match s.findTxn uid it.hdr.txnId with
    | .ok x => .ok (some x)
    | .error r => .error r

/-! ## What each command does -/

/-- `DIAG_PATTERN` with `TARGET` 1 is a tile's (R477). -/
def State.onTile (s : State) (r : Res) : Res :=
  if s.role = roleTile then r else refuse s Status.notReady Reason.role s.role

/-- A packet whose payload matches its layout and holds a reserved value (R385, R254, R333). -/
def State.reservedRes (s : State) (it : Item) : Res :=
  let range := refuse s Status.badParam Reason.range 0
  if it.opcode = 0x78 ∧ wbits (it.payload.getD 0 0) 0 4 = 1 then
    s.onTile (if s.mode ≠ 7 then refuse s Status.notReady Reason.mode s.mode
      else if ¬ s.tblValid s.tblNow then refuse s Status.notReady Reason.noTable 0 else range)
  else range

/-- The commands that a scheduled action may also embed (R130), outside a transaction; `k` is the session's slot. -/
def State.plainBody (s : State) (k : Nat) (c : Instr) : Res :=
  match c with
  | .regWrite _ a vs => s.regWrite k none a vs
  | .regModify _ a m v => s.regModify k none a m v
  | .errClear _ u => s.errClear u
  | .diagPatternStop _ q _ p _ => s.patternStop q.toNat p
  | .diagPatternGenerate _ q l p a => s.patternRun q.toNat l p 1 a
  | .diagPatternCheck _ q l p a => s.patternRun q.toNat l p 2 a
  | .diagPatternGenerateCheck _ q l p a => s.patternRun q.toNat l p 3 a
  | .diagPatternLoopback _ q l p a => s.patternRun q.toNat l p 4 a
  | .diagPatternInjectBit _ q l p a => s.patternInject q.toNat l p false a
  | .diagPatternInjectLcb _ q l p a => s.patternInject q.toNat l p true a
  | .diagPatternLampStart _ p a => s.onTile (s.lampPatternStart p.toNat a)
  | .diagPatternLampStop _ p _ => s.onTile (s.lampPatternStop p.toNat)
  | .reset h => okRes (s.requestReset 2 (!h.noReply))
  | .resetMedia h => s.domainReset 1 h.noReply
  | .resetFrx h q => s.domainReset (2 + q.toNat) h.noReply
  | .resetDram h c => s.domainReset (6 + c.toNat) h.noReply
  | .resetService h => s.domainReset 10 h.noReply
  | .resetFlash h => s.domainReset 11 h.noReply
  | _ => okRes s

/-- `RED_SWITCH` (R107, R347): a sender that is not READY refuses it. -/
def State.redSwitchCmd (s : State) (x : Option Txn) (sel : BitVec 1) : Res :=
  if s.role = roleSender ∧ s.pairState ≠ 0 then refuse s Status.notReady Reason.pairState s.pairState
  else
    match x with
    | some x => s.addEntries x [.redSwitch sel]
    | none => s.redSwitch sel.toNat

/-- `FW_MOLT` (R107, R415). -/
def State.fwMoltCmd (s : State) (w : Who) (x : Option Txn) (advance noReply : Bool) : Res :=
  match x with
  | none => s.fwMolt w advance noReply
  | some x =>
    if x.entries ≠ [] then refuse s Status.badParam Reason.moltAlone 0
    else
      match s.moltRefusal w with
      | some r => r
      | none => s.addEntries x [.molt advance]

/-! ## Scheduled actions (R130, R131) -/

/-- Whether an embedded command is one that R130 allows, its payload of matching layout and no register it writes
shadowed. -/
def actionOk (op : Nat) (ws : List Word) : Bool :=
  let a := (ws.getD 0 0).toNat
  [0x09, 0x0A, 0x71, 0x78, 0x7F].contains op && layoutOk op ws &&
    !(op == 0x09 && (firstNamed a (ws.length - 1) Named.isShadowed).isSome) && !(op == 0x0A && (regNamed a).isShadowed)

/-- The embedded command's own answer, by session slot `k` (R130, check 2, and at its instant). -/
def State.actionRes (s : State) (k : Nat) (h : Hdr) (op : BitVec 8) (ws : List Word) : Res :=
  match hostInstr h op.toNat (false, false) ws with
  | some c => s.plainBody k c
  | none => s.reservedRes (.raw ⟨h, op, BitVec.ofNat 16 ws.length, ws⟩)

/-- `SCHED_ACTION` (R130). -/
def State.schedAction (s : State) (w : Who) (h : Hdr) (t : Target) (op : BitVec 8) (ws : List Word) : Res :=
  if actionOk op.toNat ws = false then refuse s Status.badParam Reason.action op.toNat
  else
    match s.actionRes w.slot.toNat h op ws with
    | .wait | .later _ => okRes s
    | .done st payload _ =>
      if quietStatus st = false then .done st payload s
      else
        match s.aim [] t with
        | none => refuse s Status.badParam Reason.target 0
        | some a =>
          let late := s.leadFault a.at_
          if late ≠ 0 then refuse (s.tally true 2) Status.late late 0
          else if 16 ≤ s.pendUsed then refuse s Status.refusedFull Reason.pending 0
          else if s.gridBusy none a then refuse (s.tally true 1) Status.infeasible Reason.gridBusy 0
          else
            let id := s.txn.nextAction
            let act : Action := { id := id, uid := w.uid, slot := w.slot, src := w.src, frame := a.frame,
                                  phase := t.p.toNat, at_ := a.at_, opcode := op, payload := ws, hdr := h,
                                  pend := s.pendFree }
            okRes (s.updTxn fun y => { y with
              actions := y.actions ++ [act], nextAction := if id = 0xFFFF then 1 else id + 1 }) [id.setWidth 32]

/-- `SCHED_CANCEL` (R131). -/
def State.schedCancel (s : State) (w : Who) (id : BitVec 16) : Res :=
  match s.txn.actions.find? fun a => a.id == id with
  | none => .done Status.noResult [] s
  | some a =>
    if a.uid ≠ w.uid then refuse s Status.notOwner Reason.slot a.slot.toNat
    else if a.at_ ≤ s.clk then .done Status.noResult [] s
    else okRes (s.updTxn fun y => { y with actions := y.actions.filter fun b => b.id != id })

/-- A scheduled action runs at its apply instant, whether or not its session still exists, as though with `NO_REPLY` (R130). -/
def State.runAction (s : State) (a : Action) : State :=
  let s := s.updTxn fun y => { y with actions := y.actions.filter fun b => b.id != a.id }
  let k := a.slot.toNat
  let k := if (s.sess k).isOpen ∧ (s.sess k).uid = a.uid then k else noSlot
  let (st, payload, s) : BitVec 8 × List Word × State := match s.actionRes k { a.hdr with noReply := true } a.opcode a.payload with
    | .done st ws t => (st, ws, t)
    | .wait => (Status.ok, [], s)
    | .later t => (Status.ok, [], t)
  let s := (s.bump (F.TXN_CNT_COUNT 7)).setFld F.TXN_SCHED_LAST_ACTION_ID a.id.toNat
  let s := s.setFld F.TXN_SCHED_LAST_STATUS st.toNat
  if st = Status.ok then s
  else
    s.log Rec.schedFailed (bytesBE 2 a.id.toNat ++ [a.opcode, st] ++ wordBytes (payload.getD 0 0)) a.phase

/-- What a dispatched command does on behalf of a session (check 9 of R89 and the command's own rules); `x` is the
transaction it joins. -/
def State.hostBody (s : State) (w : Who) (x : Option Txn) (c : Instr) : Res :=
  let k := w.slot.toNat
  match c with
  | .nop _ => okRes s [(s.readReg false 0x110).1, (s.readReg false 0x120).1]
  | .regRead _ a n => s.regRead false a n.toNat
  | .regReadLive _ a n => s.regRead true a n.toNat
  | .regWrite _ a vs => s.regWrite k x a vs
  | .regModify _ a m v => s.regModify k x a m v
  | .memRead _ a n => s.memRead a.toNat n.toNat
  | .memWrite _ a vs => s.memWrite a.toNat vs
  | .memFill _ a n p => s.memFill w a.toNat n.toNat p
  | .memCopy _ a b n => s.memCopy w a.toNat b.toNat n.toNat
  | .txnBegin h g => s.txnBegin w h.txnId g
  | .txnCommit h t => s.txnCommit w h.txnId t
  | .txnCommitValidate h g t => s.txnValidate w h.txnId g t
  | .txnCommitGlobal h t => s.recordDecision w.src h.txnId t true
  | .txnAbort h => s.txnAbort w h.txnId
  | .txnAbortGlobal h t => s.recordDecision w.src h.txnId t false
  | .txnQuery h => s.txnQuery w h.txnId
  | .txnQueryGlobal h => s.txnQueryGlobal w.src h.txnId
  | .txnPrepare h t => s.txnPrepare w h.txnId t
  | .fenceSignal _ f v n => s.gatedBody fun t => t.fenceSignal f.toNat v n.toNat
  | .fenceSignalReset _ f v n => s.gatedBody fun t => t.fenceReset f.toNat v n.toNat
  | .fenceQuery _ a b => s.fenceQuery a b
  | .layerFlip _ g b f nf v n => s.gatedBody fun t => t.layerFlip g.toNat ⟨b, f, nf, v, n.toNat⟩
  | .schedAction h t op ws => s.schedAction w h t op ws
  | .schedCancel _ i => s.schedCancel w i
  | .opStatus _ m => s.opStatus m.toNat
  | .opResult _ i g o n => s.opResult w i.toNat g o.toNat n.toNat
  | .opRelease _ i g => s.opRelease w i.toNat g
  | .fabProbe _ r f => s.fabProbe w r.toNat f
  | .fabAssign _ r a f n => s.fabAssign w r.toNat a f n
  | .fabRouteSet _ i d p es => s.fabRouteSet x i d p es
  | .fabPathTest _ t p n => s.fabPathTest w t p n
  | .tableLoad _ t fl a n => s.tableLoad w t fl a.toNat n.toNat
  | .tableVerify _ t => s.tableVerify w t
  | .lampScan _ m fa st al ag a n => s.lampScanStart w m fa st al ag a.toNat n
  | .lampReport _ q d f n => s.lampReport q.toNat d.toNat f.toNat n.toNat
  | .calRun _ p f => s.calRun w p f
  | .calStore _ p => s.calStore w p
  | .redJoin _ p rs => s.redJoin w p (rs.map fun r => (r.1.toNat, r.2.toNat))
  | .redState _ => s.redState
  | .redSwitch _ sel => s.redSwitchCmd x sel
  | .fwStage _ ar d o n a ws => s.fwStage w ar d o n a.toNat ws
  | .fwVerify _ => s.fwVerify w
  | .fwMolt h a => s.fwMoltCmd w x a h.noReply
  | .attest _ n p => s.attest w n p
  | .instarAdvance _ t q a b => s.instarAdvance w t.toNat q a b
  | .errRead _ f n => s.errRead f n.toNat
  | .diagCounters _ b e => s.diagCounters b.toNat e
  | c => s.plainBody k c

end Sys2Proof.Machine
end

