-- ==== Sys2Proof/Machine/Session.lean ====
section
/-! DEFINITION. Sessions and sequence numbers (R80, R82 to R90, R102): from a packet received whole to its dispatch and
its reply. -/

namespace Sys2Proof.Machine

open Sys2Proof

/-! ## The end of a session (R84) -/

/-- A session ends: its OPEN transactions abort, its slots are released, what it holds is discarded without reply. DESIGN
CHOICE (log entry 53): `CMD_SESS_EXP` of the slot then reads 0 again. -/
def State.endSession (s : State) (k : Nat) : State :=
  let uid := (s.sess k).uid
  ((s.endTxns uid).endOps uid).updSess k fun _ => {}

/-- A session is replaced at once (R83, R84): a `FAB_ASSIGN` that has begun still completes and is answered. -/
def State.replaceSession (s : State) (k : Nat) : State :=
  let e := s.sess k
  let s := s.endSession k
  match e.assigning with
  | some c => s.updCmd fun y => { y with
      orphans := y.orphans ++ [(BitVec.ofNat 6 k, e.uid, e.via, (hdrOf c).getD noHdr)] }
  | none => s

/-! ## Running a dispatched packet (R89, R90, R102) -/

/-- Whether a packet is a barrier (R91, R102). -/
def Item.barrier (it : Item) : Bool := it.hdr.barrier || it.opcode = 0x02 || it.opcode = 0x20

/-- Whether a session has an operation RUNNING (R102). -/
def State.opsRunning (s : State) (uid : Nat) : Bool :=
  (List.range 16).any fun i => (s.op i).st = 1 && (s.op i).ownerUid == uid

/-- A packet waits at the head of its session, its checks 1 to 7 passed. -/
def State.holdFront (s : State) (k : Nat) (it : Item) : State :=
  s.updSess k fun e => { e with waiting := ⟨it, true⟩ :: e.waiting }

/-- An answered packet: its reply, and the session's end after `SESSION_CLOSE` (R84). -/
def State.finishItem (s : State) (k : Nat) (via : Via) (it : Item) (status : BitVec 8) (payload : List Word) : State :=
  let t := s.answerKept k via it status payload
  if it.opcode = 0x02 ∧ status = Status.ok then t.endSession k else t

/-- Check 9 of R89 and the command's effect. -/
def State.execItem (s : State) (k : Nat) (it : Item) (x : Option Txn) : State :=
  let e := s.sess k
  let w : Who := ⟨e.uid, BitVec.ofNat 6 k, e.src⟩
  let c := s.spell it
  let res := match c.1 with
    | some c' => c.2.hostBody w x c'
    | none => c.2.reservedRes it
  match res with
  | .wait => s.holdFront k it
  | .later t => t.updSess k fun y => { y with assigning := c.1 }
  | .done st payload t => t.finishItem k e.via it st payload

/-- A packet of session `k` at its turn: checked, unless it has been (`checked`), then it waits at a barrier or acts
(R89, R102). -/
def State.runItem (s : State) (k : Nat) (it : Item) (checked : Bool) : State :=
  let e := s.sess k
  let s := if checked then s else s.bump (F.CMD_CNT_COUNT 0)
  let check : Except Res (Option Txn) :=
    if checked then
      (if joinsTxn it.opcode.toNat ∧ it.hdr.txnId ≠ 0 then
        match s.findTxn e.uid it.hdr.txnId with
        | .ok x => .ok (some x)
        | .error r => .error r
      else .ok none)
    else s.checkPacket e.uid it
  match check with
  | .error (.done st payload t) => t.finishItem k e.via it st payload
  | .error _ => s
  | .ok x => if it.barrier ∧ s.opsRunning e.uid then s.holdFront k it else s.execItem k it x

/-- Dispatch (R86): the expected value advances; the packet waits behind those of its session that wait (R102). -/
def State.dispatch (s : State) (k : Nat) (it : Item) : State :=
  let s := s.updSess k fun e => { e with expected := e.expected + 1 }
  let e := s.sess k
  if e.waiting ≠ [] ∨ e.assigning.isSome then s.updSess k fun e => { e with waiting := e.waiting ++ [⟨it, false⟩] }
  else s.runItem k it false

/-- The packets that wait in session `k`, in order, as far as they can act; at most `n`. -/
def State.pump (s : State) (k uid : Nat) : Nat → State
  | 0 => s
  | n + 1 =>
    let e := s.sess k
    if e.isOpen = false ∨ e.uid ≠ uid ∨ e.assigning.isSome then s
    else
      match e.waiting with
      | [] => s
      | w :: rest =>
        let t := (s.updSess k fun e => { e with waiting := rest }).runItem k w.item w.checked
        if (t.sess k).isOpen ∧ (t.sess k).uid = uid ∧ (t.sess k).waiting.length = rest.length + 1 then t
        else State.pump t k uid n

def State.pumpAll (s : State) (k : Nat) : State := s.pump k (s.sess k).uid (s.sess k).waiting.length

/-! ## Packets held (R86, R87) -/

/-- Distance of a packet from the session's expected value (R86). -/
def distance (expected seq : Word) : Nat := (seq - expected).toNat

/-- Whether a join holds the session's packets (R350, step 3). -/
def State.joinHolds (s : State) (k : Nat) : Bool :=
  s.red.join.any fun j => j.held.isSome && j.pairSrc == (s.sess k).src

/-- Held packets that have become next are dispatched, in order; at most `n`. -/
def State.release (s : State) (k uid : Nat) : Nat → State
  | 0 => s
  | n + 1 =>
    let e := s.sess k
    if e.isOpen = false ∨ e.uid ≠ uid ∨ s.joinHolds k = true then s
    else
      match e.held with
      | [] => s
      | it :: rest =>
        if it.hdr.seq = e.expected then
          State.release ((s.updSess k fun e => { e with held := rest }).dispatch k it) k uid n
        else s

def State.releaseAll (s : State) (k : Nat) : State := s.release k (s.sess k).uid (s.sess k).held.length

/-- A packet ahead of its turn is held (R86, R87). -/
def State.holdItem (s : State) (k : Nat) (it : Item) : State :=
  let e := s.sess k
  let ahead (a b : Item) : Bool := decide (distance e.expected a.hdr.seq < distance e.expected b.hdr.seq)
  if e.held.any fun x => x.hdr.seq == it.hdr.seq then s.answer e.via it Status.delayed []
  else if 32 ≤ e.held.length then
    (s.bump (F.CMD_CNT_COUNT 6)).answer e.via it Status.refusedFull [reasonWord Reason.holdQueue e.held.length]
  else
    s.updSess k fun y => { y with
      holdStart := if y.held = [] then s.tick else y.holdStart, held := insertBy ahead it y.held }

/-- A duplicate (R88). -/
def State.duplicate (s : State) (k : Nat) (it : Item) : State :=
  let e := s.sess k
  let s := s.bump (F.CMD_CNT_COUNT 5)
  match e.kept.find? fun r => r.seq == it.hdr.seq with
  | some r => s.replyUnless it.hdr.noReply e.via r
  | none =>
    if e.waiting.any (fun w => w.item.hdr.seq == it.hdr.seq) ||
        e.assigning.any (fun c => ((hdrOf c).getD noHdr).seq == it.hdr.seq) then s.answer e.via it Status.delayed []
    else s.answer e.via it Status.noResult []

/-- A packet of an open session by its sequence number (R86). -/
def State.sequence (s : State) (k : Nat) (it : Item) : State :=
  let e := s.sess k
  let d := distance e.expected it.hdr.seq
  if 2 ^ 31 ≤ d then s.duplicate k it
  else if 1024 ≤ d then
    (s.bump (F.CMD_CNT_COUNT 6)).answer e.via it Status.orderGap [reasonWord Reason.tooFar 0, e.expected]
  else if d = 0 ∧ s.joinHolds k = false then (s.dispatch k it).releaseAll k
  else s.holdItem k it

/-- The hold timer of session `k` at 1 ms (R87). -/
def State.holdTimeout (s : State) (k : Nat) : State :=
  let e := s.sess k
  if e.held = [] ∨ s.joinHolds k = true ∨ s.tick < e.holdStart + usTicks 1000 then s
  else
    e.held.foldl (fun (t : State) it =>
      (t.bump (F.CMD_CNT_COUNT 6)).answer e.via it Status.orderGap [reasonWord Reason.gapTimeout 0, e.expected])
      (s.updSess k fun y => { y with held := [] })

/-- Packets held for a join, once it has ended: those below the expected value are discarded without reply, the others
dispatched in order (R350, R352). -/
def State.afterJoin (s : State) (k : Nat) : State :=
  (s.updSess k fun e => { e with
    holdStart := s.tick,
    held := e.held.filter fun it => decide (distance e.expected it.hdr.seq < 2 ^ 31) }).releaseAll k

/-! ## SESSION_OPEN, unsequenced NOP (R83, R85) -/

/-- The lowest-numbered free session slot (R82). -/
def State.sessFree (s : State) : Option Nat := (List.range 64).find? fun k => !(s.sess k).isOpen

/-- A session opens in the lowest-numbered free slot. -/
def State.openAt (s : State) (it : Item) (openId : Word) : State :=
  match s.sessFree with
  | none => s.answer it.hdr.via it Status.refusedFull [reasonWord Reason.sessions 0]
  | some k =>
    let h := it.hdr
    let e : Sess := { isOpen := true, uid := s.cmd.nextUid, src := h.src, openId := openId, via := h.via,
                      expected := h.seq + 1 }
    let t := (s.updSess k fun _ => e).updCmd fun c => { c with nextUid := c.nextUid + 1 }
    t.answer h.via it Status.ok [BitVec.ofNat 32 k, BitVec.ofNat 32 t.openCount]

/-- `SESSION_OPEN` (R83). -/
def State.openSession (s : State) (it : Item) (openId : Word) : State :=
  match s.sessionOf it.hdr.src with
  | some k =>
    if openId ≤ (s.sess k).openId then s.answer it.hdr.via it Status.notOwner [reasonWord Reason.staleOpen 0]
    else (s.replaceSession k).openAt it openId
  | none => s.openAt it openId

/-- A packet that is not sequenced: `SESSION_OPEN`, or `NOP` without a session (R83, R85, R89). -/
def State.unsequenced (s : State) (it : Item) : State :=
  let s := s.bump (F.CMD_CNT_COUNT 0)
  match s.checkPacket 0 it with
  | .error (.done st payload t) => t.answer it.hdr.via it st payload
  | .error _ => s
  | .ok _ =>
    if it.opcode = 0x01 then s.openSession it (it.payload.getD 0 0)
    else
      match s.hostBody ⟨0, 0, it.hdr.src⟩ none (.nop it.hdr) with
      | .done st payload t => t.answer it.hdr.via it st payload
      | _ => s

/-! ## Receipt (R14, R25, R78, R80, R82, R85) -/

/-- Whether commands are accepted on a transport (R14, R25, R448). -/
def State.accepts (s : State) (via : Via) : Bool :=
  match via with
  | .ring => decide (1 ≤ s.mode) && !s.bit F.SYS_IO_STAT_RING_OFF
  | .udp .. => decide (1 ≤ s.mode) && s.bit F.CMD_CFG_UDP_EN && !s.bit F.SYS_BOOT_RECOVERY
  | .fabric .. => decide (2 ≤ s.mode ∧ s.mode ≤ 6) && !s.bit F.SYS_BOOT_RECOVERY

/-- Whether the device executes a packet with this `DST` (R80). -/
def State.executes (s : State) (h : Hdr) : Bool :=
  s.toSelf h.dst || (h.dst = 0 && match h.via with
    | .fabric .. => false
    | _ => true)

/-- The relay table takes the latest datagram of a source; the least recently used entry gives way (R78). -/
def State.relayNote (s : State) (src : BitVec 16) (via : Via) : State :=
  s.updCmd fun c => { c with relay := ((src, via) :: c.relay.filter fun e => e.1 != src).take 64 }

/-- A packet as the cells that carry it (R76): one segment as CMD, more as BULK. `raw` is its `PKT_ID` and its bytes as they
came, its reserved bits among them (R78). -/
def Item.cells (it : Item) (src : BitVec 16) (raw : Option (BitVec 16 × List Byte)) : List Cell :=
  let h := it.hdr
  let p : Packet := ⟨h, it.opcode, BitVec.ofNat 16 it.len, it.payload⟩
  let r := raw.getD (h.seq.setWidth 16, packetBytes (packetWords p))
  let segs := segmentsOf r.1 r.2
  let typ := if segs.length = 1 then CellType.cmd else CellType.bulk
  segs.map fun g => mkCell typ h.dst src 0 h.seq h.txnId (segBytes g)

/-- A UDP packet relayed into the fabric, whole or not at all (R76, R78, R271). A device without an address originates no such
cell (R260): the packet is dropped and counted (R80). -/
def State.relayPacket (s : State) (it : Item) (raw : Option (BitVec 16 × List Byte)) : State :=
  let h := it.hdr
  let s := s.relayNote h.src h.via
  let cells := it.cells s.addr raw
  if s.addr = 0 then s.bump (F.CMD_CNT_COUNT 7)
  else
    match (if cells.length = 1 then none else s.bulkFull h.dst ((cells.map cellOccupied).sum)) with
    | some q => (s.bump (F.FAB_CNT_COUNT 12)).answer h.via it Status.refusedFull
        [reasonWord Reason.bulkFull q, BitVec.ofNat 32 (s.bulkHint q)]
    | none => cells.foldl (fun (t : State) c => t.originate c) s

/-- A packet that came by the fabric and is for another device goes on as cells (R80, R261), its `HOP` one greater. -/
def State.routePacket (s : State) (q src : BitVec 16) (it : Item) (raw : Option (BitVec 16 × List Byte)) : State :=
  (it.cells src raw).foldl (fun (t : State) c => t.forwardCell (q.toNat % 4) c false) s

/-- A packet that is not for this device (R78, R80). -/
def State.stray (s : State) (it : Item) (raw : Option (BitVec 16 × List Byte)) : State :=
  match it.hdr.via with
  | .udp .. => if s.relays then s.relayPacket it raw else s.bump (F.CMD_CNT_COUNT 7)
  | .fabric q src => s.routePacket (q.setWidth 16) src it raw
  | .ring => s.bump (F.CMD_CNT_COUNT 7)

/-- The transport a session answers on after a packet: by UDP the latest datagram's address, port and `KEY_ID`, with the
key the session is bound to (R77). -/
def nextVia (old new : Via) : Via :=
  match old, new with
  | .udp _ _ _ key, .udp ip port keyId _ => .udp ip port keyId key
  | _, v => v

/-- A packet received whole (R80, R82, R83, R85); `raw` is its `PKT_ID` and its bytes where it came in segments. -/
def State.receive (s : State) (it : Item) (raw : Option (BitVec 16 × List Byte) := none) : State :=
  let h := it.hdr
  if s.accepts h.via = false then s
  else if s.executes h = false then s.stray it raw
  else if it.opcode = 0x01 then s.unsequenced it
  else
    match s.sessionOf h.src with
    | none => if it.opcode = 0x00 then s.unsequenced it
      else s.answer h.via it Status.notReady [reasonWord Reason.noSession 0]
    | some k =>
      if viaNumber (s.sess k).via ≠ viaNumber h.via then
        s.answer h.via it Status.notOwner [reasonWord Reason.transport (viaNumber (s.sess k).via)]
      else (s.updSess k fun e => { e with via := nextVia e.via h.via }).sequence k it

/-! ## What ends a wait (R97, R102, R268) -/

/-- The operations before a barrier have ended (R102). -/
def State.barrierRelease (s : State) (k : Nat) : State :=
  match (s.sess k).waiting with
  | w :: _ => if w.item.barrier then s.pumpAll k else s
  | [] => s

/-- What a dispatched packet waited for has ended (R97, R206, R291, R411). -/
def State.deferredDispatch (s : State) (k : Nat) : State :=
  match (s.sess k).waiting with
  | w :: _ => if w.item.barrier ∧ s.opsRunning (s.sess k).uid then s else s.pumpAll k
  | [] => s

/-- The end of the `FAB_ASSIGN` of session `k`, or of one of a session replaced in that slot (R84, R268). -/
def State.fabAssignDone (s : State) (k : Nat) : State :=
  match s.cmd.orphans.find? fun o => o.1.toNat == k with
  | some o =>
    match s.fabAssignEnd o.2.1 with
    | some (.done st payload t) =>
      (t.updCmd fun c => { c with orphans := c.orphans.filter fun x => x.2.1 != o.2.1 }).replyUnless o.2.2.2.noReply o.2.2.1
        (replyTo o.2.2.2 0x39 t.addr st payload)
    | _ => s
  | none =>
    match (s.sess k).assigning with
    | some c =>
      match s.fabAssignEnd (s.sess k).uid with
      | some (.done st payload t) =>
        ((t.updSess k fun e => { e with assigning := none }).finishItem k (s.sess k).via (.cmd c) st payload).pumpAll k
      | _ => s
    | none => s

end Sys2Proof.Machine
end

