-- ==== Sys2Proof/Machine/Transport.lean ====
section
/-! DEFINITION. The transports of command packets (R75 to R78, R81): segments and their reassembly, UDP datagrams, service
ring frames, cells for the device, relayed replies. -/

namespace Sys2Proof.Machine

open Sys2Proof

/-! ## Reassembly (R81) -/

/-- A transport source (R81): what it does not name is left out. -/
def viaSource : Via → Via
  | .udp ip port _ _ => .udp ip port 0 0
  | v => v

def dropCount (s : State) : State := s.bump (F.CMD_CNT_COUNT 3)

/-- The reply to what failed authentication (R77): at most one a millisecond for each source address (R476). -/
def State.authFail (s : State) (ip : BitVec 32) (port : BitVec 16) (g : Segment) (keySrc : BitVec 16) (keyId : BitVec 8) :
    State :=
  let s := s.bump (F.CMD_CNT_COUNT 2)
  let ms := s.clk / usU 1000
  if s.cmd.authNotice.any fun e => e.1 == ip && e.2 == ms then s
  else
    let via : Via := .udp ip port keyId keyId
    let reply : Reply :=
      if g.index = 0 ∧ 16 ≤ g.bytes.length then
        let p := packetOf via (bytesWords (g.bytes.take 16))
        replyTo p.hdr p.opcode s.addr Status.authFail []
      else { opcode := 0x80, tag := 0, src := s.addr, dst := keySrc, seq := 0, status := Status.authFail, payload := [] }
    (s.updCmd fun c => { c with authNotice := (ip, ms) :: c.authNotice.filter fun e => e.1 != ip }).emitUdp
      (.authFail ip port (g.pktId ++ 0#16) (keySrc ++ 0#8 ++ keyId) (replyWords reply))

/-- A packet reassembled from its bytes: checked, then handed to its session (R81), or relayed as it came (R78). `last` is the
segment that completed it. -/
def State.packetDone (s : State) (via : Via) (keySrcs : List (BitVec 16)) (last : Segment) (bs : List Byte) : State :=
  let n := bs.length
  if n % 4 ≠ 0 ∨ n < 20 then dropCount s
  else if bytesBE 4 (crc32c (bs.take (n - 4))).toNat ≠ bs.drop (n - 4) then s.bump (F.CMD_CNT_COUNT 1)
  else if (bs.getD 0 0).toNat / 16 ≠ 1 then s.bump (F.CMD_CNT_COUNT 4)
  else
    let p := packetOf via (bytesWords (bs.take (n - 4)))
    match via, keySrcs.find? fun k => k != p.hdr.src with
    | .udp ip port keyId _, some _ => s.authFail ip port last (keySrcs.headD 0) keyId
    | _, _ => s.receive (.raw p) (some (last.pktId, bs))

/-- Whether a partial packet of a source has this `PKT_ID`. -/
def Partial.isOf (p : Partial) (via : Via) (id : BitVec 16) : Bool := viaSource p.via == viaSource via && p.pktId == id

def State.dropPartial (s : State) (via : Via) (id : BitVec 16) : State :=
  s.updCmd fun c => { c with partials := c.partials.filter fun p => !p.isOf via id }

/-- The first segment of a packet (R81): a whole packet, or a partial one unless the source holds four. -/
def State.startPartial (s : State) (via : Via) (keySrcs : List (BitVec 16)) (g : Segment) : State :=
  if g.last = 0 then s.packetDone via keySrcs g g.bytes
  else if 4 ≤ (s.cmd.partials.filter fun p => viaSource p.via == viaSource via).length then dropCount s
  else
    s.updCmd fun c => { c with partials := c.partials ++ [{
      via := via, pktId := g.pktId, last := g.last, start := s.tick, parts := [(g.index.toNat, g.bytes)],
      keySrcs := keySrcs }] }

/-- A segment (R75, R81); `keySrc` is the key word's `SRC` of a datagram. DESIGN CHOICE (log entry 53): R75 holds a segment to
1,020 bytes and R81 lists no discard of a longer last one; its bytes are taken whole. -/
def State.takeSegment (s : State) (via : Via) (keySrcs : List (BitVec 16)) (g : Segment) : State :=
  if s.accepts via = false then s
  else if g.last < g.index ∨ 64 < g.last.toNat ∨ (g.index ≠ g.last ∧ g.bytes.length ≠ 1020) then dropCount s
  else
    match s.cmd.partials.find? fun p => p.isOf via g.pktId with
    | none => s.startPartial via keySrcs g
    | some p =>
      if p.last ≠ g.last then (dropCount (s.dropPartial via g.pktId)).startPartial via keySrcs g
      else if (p.parts.any fun e => e.1 == g.index.toNat) then s
      else
        let parts := insertBy (fun a b => decide (a.1 < b.1)) (g.index.toNat, g.bytes) p.parts
        let srcs := keySrcs ++ p.keySrcs
        if parts.length = p.last.toNat + 1 then
          (s.dropPartial via g.pktId).packetDone via srcs g (parts.flatMap Prod.snd)
        else
          let put (x : Partial) : Partial :=
            if x.isOf via g.pktId = true then { x with parts := parts, keySrcs := srcs } else x
          s.updCmd fun c => { c with partials := c.partials.map put }

/-- A partial packet 1 ms after its first segment (R81). -/
def State.reassemblyTimeout (s : State) (via : Via) (id : BitVec 16) : State :=
  match s.cmd.partials.find? fun p => p.isOf via id with
  | some p => if p.start + usTicks 1000 ≤ s.tick then dropCount (s.dropPartial via id) else s
  | none => s

/-- The segment that a cell or a ring frame carries (R75, R76); none where the segment word is not whole. -/
def segmentOf (bs : List Byte) : Option Segment :=
  if bs.length < 4 then none
  else some ⟨BitVec.ofNat 16 (fieldBE bs 0 2), bs.getD 2 0, bs.getD 3 0, bs.drop 4⟩

/-- A segment on a transport without authentication; a carrier too short for a segment word is no packet (R81). -/
def State.takeCarried (s : State) (via : Via) (bs : List Byte) : State :=
  match segmentOf bs with
  | some g => s.takeSegment via [] g
  | none => if s.accepts via then dropCount s else s

/-! ## UDP (R76, R77) -/

/-- Whether a datagram is one for commands: to the port of `CMD_CFG`, on an address of the port or a group it has joined,
its link up (R76). -/
def State.udpForMe (s : State) (d : Datagram) : Bool :=
  let m := d.mediaPort.toNat
  d.dstPort.toNat == s.fld F.CMD_CFG_UDP_PORT && s.bit (F.ETH_PORT_STAT_LINK_UP m) && !s.domBusy 1 &&
    ((d.dstIp ≠ 0 && d.dstIp.toNat == s.fld (F.ETH_IP_IP m)) ||
      s.eth.joined.any fun j => j.port == d.mediaPort && j.group == d.dstIp)

/-- The key of a datagram (R77): its number, while an owner master key is enrolled. -/
def State.udpKey (s : State) (d : Datagram) : Option (BitVec 8) :=
  if s.sec.nvm.ownerKey = none then none
  else if d.keyId ≠ 0 then some d.keyId
  else
    match s.sessionOf d.keySrc with
    | some k => match (s.sess k).via with
      | .udp _ _ _ key => some key
      | _ => none
    | none => none

/-- The tag a datagram must carry under owner session key `i` (R77). -/
def State.udpTag (s : State) (d : Datagram) (i : BitVec 8) : Option (BitVec 128) :=
  (s.ownerKeyOf i.toNat).map fun key =>
    Config.aesCmac key (wordBytes (segmentWord d.seg) ++ wordBytes (d.keySrc ++ 0#8 ++ d.keyId) ++ d.seg.bytes)

/-- A datagram that is not for commands is an unmatched UDP packet (R147, `ETH_CNT`). -/
def State.unmatched (s : State) (m : Nat) : State :=
  if s.domBusy 1 = false ∧ s.portRuns m = true then (s.frameIn m).bump (F.ETH_CNT_COUNT m 7) else s

/-- A command datagram (R77): verified, then taken as a segment. -/
def State.udpDatagram (s : State) (d : Datagram) : State :=
  let probe : Via := .udp d.srcIp d.srcPort d.keyId d.keyId
  if s.accepts probe = false ∨ s.udpForMe d = false then s.unmatched d.mediaPort.toNat
  else
    match s.udpKey d with
    | none => (s.frameIn d.mediaPort.toNat).authFail d.srcIp d.srcPort d.seg d.keySrc d.keyId
    | some i =>
      if s.udpTag d i = some d.tag then
        let via : Via := .udp d.srcIp d.srcPort d.keyId i
        let s := s.frameIn d.mediaPort.toNat
        let s := if s.relays then s.relayNote d.keySrc via else s
        let s := match s.sessionOf d.keySrc with
          | some k => match (s.sess k).via with
            | .udp .. => s.updSess k fun e => { e with via := nextVia e.via via }
            | _ => s
          | none => s
        s.takeSegment via [d.keySrc] d.seg
      else (s.frameIn d.mediaPort.toNat).authFail d.srcIp d.srcPort d.seg d.keySrc d.keyId

/-! ## The service ring and the fabric (R76, R78, R418) -/

/-- A service-ring frame; while the ring's domain is in reset nothing is received (R386). -/
def State.ringFrame (s : State) (f : RingFrame) : State :=
  if s.domBusy 10 then s
  else
    match s.ringIn f with
    | (some bs, t) => t.takeCarried .ring bs
    | (none, t) => t

/-- A segment of a reply that has reached its relaying sender leaves by UDP under the table's entry, or is dropped (R78). -/
def State.relayReply (s : State) (c : Cell) : State :=
  match s.cmd.relay.find? fun e => e.1 == c.dst with
  | some e => ((s.relayNote e.1 e.2).udpSegment e.2 c.dst c.payload).emitUdp (.relayed e.2 c.payload)
  | none => s.bump (F.CMD_CNT_COUNT 7)

/-- What a cell is for the device itself (R257, R260). -/
def State.deliver (s : State) (q : BitVec 2) (c : Cell) : State :=
  if c.typ = CellType.raster then s.rasterIn q c
  else if c.typ = CellType.cmd ∨ c.typ = CellType.bulk then s.takeCarried (.fabric q c.src) c.payload
  else if c.typ = CellType.reply then (if s.role = roleSender then s.relayReply c else s)
  else s

/-- A cell received on a port (R259 to R261). -/
def State.fabricCell (s : State) (q : BitVec 2) (c : Cell) : State :=
  match s.recvCell q.toNat c with
  | (some d, t) => t.deliver q d
  | (none, t) => t

end Sys2Proof.Machine
end

