-- ==== Sys2Proof/Machine/FabricCmds.lean ====
section
/-! DEFINITION. The host's commands for the fabric and its lanes (spec/09, spec/10). Each is a packet received whole on
its transport: checked, sequenced and dispatched by R80 and R85 to R90 (`State.receive`, log entry 2); what it does once
dispatched is `State.hostBody`. -/

namespace Sys2Proof.Machine

open Sys2Proof

/-- `FAB_PROBE` (R268). -/
def execFabProbe (h : Hdr) (routeLen : BitVec 7) (fwd : BitVec 128) (s : State) : Host.Outcome State Fault Refusal :=
  .next (s.receive (.cmd (.fabProbe h routeLen fwd)))

/-- `FAB_ASSIGN` (R268). -/
def execFabAssign (h : Hdr) (routeLen : BitVec 7) (newAddr : BitVec 16) (fwd : BitVec 128) (serial : BitVec 64)
    (s : State) : Host.Outcome State Fault Refusal :=
  .next (s.receive (.cmd (.fabAssign h routeLen newAddr fwd serial)))

/-- `FAB_ROUTE_SET` (R262). -/
def execFabRouteSet (h : Hdr) (first : BitVec 6) (setDef : Bool) (defPorts : BitVec 4) (entries : List RouteEntry)
    (s : State) : Host.Outcome State Fault Refusal :=
  .next (s.receive (.cmd (.fabRouteSet h first setDef defPorts entries)))

/-- `FAB_PATH_TEST` (R268). -/
def execFabPathTest (h : Hdr) (target plen count : BitVec 16) (s : State) : Host.Outcome State Fault Refusal :=
  .next (s.receive (.cmd (.fabPathTest h target plen count)))

/-- `CAL_RUN` (R253). -/
def execCalRun (h : Hdr) (ports : BitVec 4) (full : Bool) (s : State) : Host.Outcome State Fault Refusal :=
  .next (s.receive (.cmd (.calRun h ports full)))

/-- `CAL_STORE` (R253). -/
def execCalStore (h : Hdr) (ports : BitVec 4) (s : State) : Host.Outcome State Fault Refusal :=
  .next (s.receive (.cmd (.calStore h ports)))

/-- `DIAG_PATTERN_STOP` (R254). -/
def execDiagPatternStop (h : Hdr) (port : BitVec 2) (lanes pattern : BitVec 4) (arg : Word)
    (s : State) : Host.Outcome State Fault Refusal :=
  .next (s.receive (.cmd (.diagPatternStop h port lanes pattern arg)))

/-- `DIAG_PATTERN_GENERATE` (R254). -/
def execDiagPatternGenerate (h : Hdr) (port : BitVec 2) (lanes pattern : BitVec 4) (arg : Word)
    (s : State) : Host.Outcome State Fault Refusal :=
  .next (s.receive (.cmd (.diagPatternGenerate h port lanes pattern arg)))

/-- `DIAG_PATTERN_CHECK` (R254). -/
def execDiagPatternCheck (h : Hdr) (port : BitVec 2) (lanes pattern : BitVec 4) (arg : Word)
    (s : State) : Host.Outcome State Fault Refusal :=
  .next (s.receive (.cmd (.diagPatternCheck h port lanes pattern arg)))

/-- `DIAG_PATTERN_GENERATE_CHECK` (R254). -/
def execDiagPatternGenerateCheck (h : Hdr) (port : BitVec 2) (lanes pattern : BitVec 4) (arg : Word)
    (s : State) : Host.Outcome State Fault Refusal :=
  .next (s.receive (.cmd (.diagPatternGenerateCheck h port lanes pattern arg)))

/-- `DIAG_PATTERN_LOOPBACK` (R254). -/
def execDiagPatternLoopback (h : Hdr) (port : BitVec 2) (lanes pattern : BitVec 4) (arg : Word)
    (s : State) : Host.Outcome State Fault Refusal :=
  .next (s.receive (.cmd (.diagPatternLoopback h port lanes pattern arg)))

/-- `DIAG_PATTERN_INJECT_BIT` (R254). -/
def execDiagPatternInjectBit (h : Hdr) (port : BitVec 2) (lanes pattern : BitVec 4) (arg : Word)
    (s : State) : Host.Outcome State Fault Refusal :=
  .next (s.receive (.cmd (.diagPatternInjectBit h port lanes pattern arg)))

/-- `DIAG_PATTERN_INJECT_LCB` (R254). -/
def execDiagPatternInjectLcb (h : Hdr) (port : BitVec 2) (lanes pattern : BitVec 4) (arg : Word)
    (s : State) : Host.Outcome State Fault Refusal :=
  .next (s.receive (.cmd (.diagPatternInjectLcb h port lanes pattern arg)))

end Sys2Proof.Machine
end

