-- ==== Sys2Proof/Machine/FabricEvents.lean ====
section
/-! DEFINITION. Cells received and sent (spec/08, spec/10, spec/11). -/

namespace Sys2Proof.Machine

open Sys2Proof

/-- `CELL_ARBITRATION` (R270). -/
def execCellArbitration (port : BitVec 2) (s : State) : Host.Outcome State Fault Refusal :=
  .next (s.arbitrate port.toNat)

/-- `FABRIC_CELL` (R259). -/
def execFabricCell (port : BitVec 2) (cell : Cell) (s : State) : Host.Outcome State Fault Refusal :=
  .next (s.fabricCell port cell)

/-- `PROBE_CELL` (R265). -/
def execProbeCell (port : BitVec 2) (cell : Cell) (s : State) : Host.Outcome State Fault Refusal :=
  .next (if cell.typ = CellType.probe then s.fabricCell port cell else s)

/-- `SVC_CELL` (R269). -/
def execSvcCell (port : BitVec 2) (cell : Cell) (s : State) : Host.Outcome State Fault Refusal :=
  .next (if cell.typ = CellType.svc then s.fabricCell port cell else s)

/-- `CREDIT_RETURN` (R269). -/
def execCreditReturn (port : BitVec 2) (s : State) : Host.Outcome State Fault Refusal :=
  .next (s.creditReturn port.toNat)

/-- `ROUTE_HOLD_EXPIRY` (R263). -/
def execRouteHoldExpiry (s : State) : Host.Outcome State Fault Refusal :=
  .next (s.holdExpiry)

/-- `RASTER_CELL` (R276). -/
def execRasterCell (port : BitVec 2) (cell : Cell) (s : State) : Host.Outcome State Fault Refusal :=
  .next (if cell.typ = CellType.raster then s.fabricCell port cell else s)

end Sys2Proof.Machine
end

