-- ==== Sys2Proof/Machine/Frame.lean ====
section
/-! DEFINITION. Instants: pending commits, decisions and actions at their apply instants (R117, R123, R128, R130), and
all that happens at a wingbeat (R54). -/

namespace Sys2Proof.Machine

open Sys2Proof

/-- The apply instants that have been reached, ascending. -/
def State.dueInstants (s : State) : List Nat :=
  let l := s.pendingTxns.map Txn.at_ ++ s.txn.actions.map Action.at_
  (sortBy (fun a b => decide (a < b)) (l.filter fun t => s.nearest t)).eraseDups

/-- One apply instant: its commits and decisions in order, then its actions in `ACTION_ID` order (R117, R130). -/
def State.applyAt (s : State) (t : Nat) : State :=
  let s := (s.pendingTxns.filter fun x => x.at_ == t).foldl (fun (u : State) x =>
    match u.pendingTxns.find? fun y => y.uid == x.uid && y.began == x.began with
    | some y => u.resolveTxn y
    | none => u) s
  let l := sortBy (fun a b => decide (a.id < b.id)) (s.txn.actions.filter fun a => a.at_ == t)
  l.foldl (fun (u : State) a => if u.txn.actions.any fun b => b.id == a.id then u.runAction a else u) s

/-- Everything whose apply instant has been reached takes effect, instant by instant. -/
def State.applyDue (s : State) : State := s.dueInstants.foldl State.applyAt s

/-- What a wingbeat of frame `n` at instant `t` does beside the commits that apply at it: modes, the time cell and
FSYNC_OUT, selections and flips, the region map, write-back, faults of the tile's registers, fades, the digest. Nothing
of it happens in M0, where no block runs (R14). -/
def State.frameStart (s : State) (n t : Nat) : State :=
  if s.mode = 0 then s
  else
    let s := ((s.modeBeat t).wingbeatCell n).fsyncOut n t
    let s := ((s.composeBeat n).mapBeat).wbBeat n
    (s.lcrBeat.ldrBeat n).redBeat n

/-- The frame that starts becomes the current one (R54, R57). -/
def State.frameTurn (s : State) (n t : Nat) : State :=
  s.updTm fun tm => { tm with
    curFrame := n
    curBeat := t
    nextFrame := s.followingFrame n t
    beatAt := none }

/-- A wingbeat (R54): commits with the same instant apply first (R117). -/
def State.wingbeat (s : State) : State :=
  let t := s.nextBeat
  let n := s.tm.nextFrame
  if s.nearest t then
    let s := s.applyDue.gridBegins n t
    (s.frameStart n t).frameTurn n t
  else s

end Sys2Proof.Machine
end

