-- ==== Sys2Proof/Machine/Reset.lean ====
section
/-! DEFINITION. Device resets and the start (R20 to R30, R394, R400 to R403, R413, R414, R426, R442, R451), the
supplies, JTAG (R31, R470). -/

namespace Sys2Proof.Machine

open Sys2Proof

/-- A yes or no the manual leaves to the part or its surroundings: a free value (log entry 12). -/
def State.coin (s : State) (place : Nat) : Bool × State :=
  let (n, s) := s.draw
  (Config.free place [n] % 2 == 1, s)

/-! ## Steps 1 to 6 of R22 -/

/-- A device reset discards everything volatile (R20, R21, R27): what stays is the local clock (R37), the fuses, NVM and
flash, the log's save after eclosion, the decision of R426 for the start, levels of pins, and the model's own records. Ports
that it takes to M0 send EIOS (R245), save where the supplies fall. -/
def State.discard (s : State) (cause : Nat) : State :=
  let eclosed := s.bit F.SYS_BOOT_ECLOSED
  let s := if eclosed ∧ cause ≠ 0 then s.saveLog else s
  let por : Bool := if eclosed then cause == 0 else cause == 0 || s.sys.startPor
  let s := if cause = 0 then s else (List.range 4).foldl State.eiosOut s
  let s := if s.lampsOn then s.emit .lampLow else s
  let s := if s.tm.fsyncEnd.isSome then s.emit (.pulse true false) else s
  let s := if s.tm.ppsEnd.isSome then s.emit (.pulse false false) else s
  let t : State := {
    regs := [], mem := [], clk := s.clk, tick := s.tick
    sys := { straps := s.sys.straps, trstN := s.sys.trstN, startPor := por, releaseTick := s.tick }
    sec := { fuses := s.sec.fuses, nvm := s.sec.nvm, flash := s.sec.flash, flashSize := s.sec.flashSize }
    cmd := { nextUid := s.cmd.nextUid }
    rnd := s.rnd, out := s.out, pending := s.pending }
  (State.alertEdge s t).regrid

/-- Step 1: the straps, and the cause (R10, R20). -/
def State.startRole (s : State) (cause : Nat) : State :=
  let r := s.sys.straps.toNat
  let s := s.setFld F.SYS_ROLE_STRAP r
  let s := if r = 0 then s else (s.setFld F.SYS_ROLE_ROLE r).setFld F.SYS_ROLE_SOURCE 1
  s.setFld F.SYS_BOOT_RESET_CAUSE cause

/-- Step 2: the PLLs lock, and the bank voltages are measured (R381, R448). What they measure is the board's: free values
in mV (log entry 4). -/
def State.startClocks (s : State) : State :=
  let (n, s) := s.draw
  let mv (bank : Nat) : Nat := Config.free 448 [n, bank] % 6400
  let read (bank : Nat) : Nat := (openRound 448 ((mv bank : Rat) / 100)).toNat
  let s := (s.setFld F.CLK_STAT_REFCLK_OK 1).setFld F.CLK_STAT_CPLL_LOCK 1
  let s := (s.setFld F.CLK_STAT_MPLL_LOCK 1).setFld F.CLK_STAT_DPLL_LOCK 3
  let s := (s.setFld F.SYS_IO_STAT_VIO_A (read 0)).setFld F.SYS_IO_STAT_VIO_B (read 1)
  let s := (s.setFld F.SYS_IO_STAT_VIO_C (read 2)).setBit F.SYS_IO_STAT_RING_OFF (decide (1900 < mv 2))
  s.setBit F.SYS_IO_STAT_FLASH_SLOW (decide (2000 < mv 2))

/-- Step 3: the fuses are read: instar and its locks (R30, R31), security version and revoked keys, the grade, the supply
code of the part (R441: a value of the part, 720 to 800 mV); from instar 4 the owner's key goes (R400). -/
def State.startFuses (s : State) : State :=
  let f := s.sec.fuses
  let i := blownSteps f.instar
  let s := if i = 4 then s.updSec fun c => { c with nvm := { c.nvm with ownerKey := none, epoch := 0 } } else s
  let s := (s.setFld F.SYS_INSTAR_INSTAR i).setBit F.SYS_INSTAR_PROV_LOCKED (decide (1 ≤ i))
  let s := (s.setBit F.SYS_INSTAR_OWNER_SET (i == 2 || i == 3)).setBit F.SYS_INSTAR_JTAG_LOCKED (decide (3 ≤ i))
  let s := (s.setFld F.SEC_STAT_SVN (blownSteps f.svn)).setFld F.SEC_STAT_KEY_REVOKED (revokedMask f.revoked)
  let s := (s.setBit F.SEC_STAT_ENROLLED s.sec.nvm.ownerKey.isSome).setBit F.SYS_ORDER_GRADE f.grade
  s.setFld F.SYS_AVS_CODE_MV (720 + Config.free 441 [] % 81)

/-- Step 4: SRAM is wiped and the saved records are restored (R27, R426). -/
def State.startSram (s : State) : State := (s.updSys fun y => { y with sramReady := true }).restoreLog

/-- What the stored calibration shows from the start (R252): whether each port's record is valid. -/
def State.startCalStat (s : State) : State :=
  s.setFld F.LNK_CAL_STAT_VALID ((List.range 4).map fun q => if calValid (s.calRecord q) then 2 ^ q else 0).sum

/-- Step 5: training starts on every channel (R22). -/
def State.startDram (s : State) : State := { s with memc := { s.memc with training := 15 } }

/-- The fuse pairs of the security version are blown one after another until it equals the image's, while each reads
back; whether all did (R414). What a pair reads back is free (log entry 12). -/
def State.blowSvn (s : State) : Nat → Bool × State
  | 0 => (true, s)
  | n + 1 =>
    let have_ := blownSteps s.sec.fuses.svn
    if s.sec.active.svn.toNat ≤ have_ then (true, s)
    else
      let step := (s.sec.fuses.svn.findIdx? fun p => !(p.1 || p.2)).getD 64
      let (a, s) := s.coin 414
      let (b, s) := s.coin 414
      let s := s.updSec fun c => { c with fuses := { c.fuses with
        svn := c.fuses.svn.modify step fun p => (p.1 || a, p.2 || b) } }
      if a && b then s.blowSvn n
      else (false, s.log Rec.svnFuse [BitVec.ofNat 8 (step + 1), BitVec.ofNat 8 have_])

/-- The security version advances where the directory asks for it (R414). -/
def State.advanceSvn (s : State) : State :=
  match s.directory with
  | some (_, d) =>
    if d.advance ∧ blownSteps s.sec.fuses.svn < s.sec.active.svn.toNat then
      let (done, s) := s.blowSvn 64
      let s := s.setFld F.SEC_STAT_SVN (blownSteps s.sec.fuses.svn)
      if done then
        let (ok, s) := s.coin 406
        s.writeDirectory { d with seq := (d.seq + 1) % 2 ^ 32, advance := false } ok
      else s
    else s
  | none => s

/-- Step 6: the directory in force, and the checks of the active image (R406, R413); an image that fails leaves the device
in recovery (R25). -/
def State.startImage (s : State) : State :=
  let dir := s.directory.map Prod.snd
  let slot := (dir.map Directory.active).getD 0
  let s := s.setFld F.SEC_STAT_ACTIVE_SLOT slot
  let r := s.checkImage slot
  let sameDigest : Bool := match dir with
    | some d => d.digest == r.info.digest
    | none => true
  let s := if r.reason = 0 ∧ sameDigest then
      State.advanceSvn ((s.updSec fun c => { c with active := r.info }).setFld F.SYS_BOOT_IMAGE_OK 1)
    else (s.setFld F.SYS_BOOT_RECOVERY 1).updEth fun e => { e with modeNow := 0 }
  s.setBit F.SEC_STAT_ADVANCE_SVN ((s.directory.map fun d => d.2.advance).getD false)

/-- The signature indexes of the start: none until a fresh reservation from `NEXT` (R394). -/
def State.startIndex (s : State) : State :=
  let next := match idCell s.sec.nvm.idCells with
    | some c => c.2.2.toNat
    | none => s.sec.nvm.idNext0.toNat
  s.updSec fun c => { c with idNext := next, idLimit := next }

/-- Whether a device reset that is due still waits: for its command's reply (R33, R93), or for the instant at which a molt's
BLANK applies (R416). -/
def State.resetHeld (s : State) : Bool :=
  (s.sys.resetWaits && s.replyQueued) || (s.sys.resetFrom != 0 && !s.nearest s.sys.resetFrom)

/-- A device reset that is due, and M0 up to the start of the DRAM wipe (R20 to R24, R26). -/
def State.deviceReset (s : State) : State :=
  match s.sys.resetReq with
  | none => s
  | some c =>
    if s.sys.pwrOff ∨ s.resetHeld then s
    else
      -- a pin reset has let go of its pins (R439)
      let s := if c = 1 then s.emit .lampLow else s
      let s := ((s.discard c.toNat).startRole c.toNat).startClocks
      s.startFuses.startSram.startCalStat.startDram.startImage.startIndex.newChallenge

/-! ## Eclosion: step 9 of R22 -/

/-- The registers a provisioning entry may write, as ranges of addresses (R403). -/
def provAllowed (a : Nat) : Bool :=
  let l : List Nat := [F.CMD_CFG_UDP_PORT.addr, F.ETH_MODE_MODE.addr, (F.ETH_MAC_MAC 0 0).addr, (F.ETH_IP_IP 0).addr,
    (F.ETH_TS_EXT_RX_PS 0).addr, F.TIME_SRC_SOURCE.addr, (F.TIME_ASYM_ASYM_PS 0).addr, F.TIME_POLICY_MASTER_CHANGE.addr,
    (F.LNK_CTRL_EN 0).addr, (F.LNK_POLICY_RETRAIN_EN 0).addr, (F.LNK_TX_FFE_PRE 0 0).addr, F.LNK_CAL_CFG_CAL_TRIG_C.addr,
    F.RED_CFG_PAIR_PORT.addr, F.RED_POLICY_PROMOTE_EN.addr, F.RED_TILE_POLICY_SWITCH_EN.addr, F.MEM_POLICY_SCRUB_EN.addr,
    F.MEM_SP_CFG_SCR_COMPAT.addr, F.LDR_POLICY_DERATE_EN.addr]
  match regFind a with
  | some (d, _) => l.any fun b => d.base == b
  | none => false

/-- The entries of a valid record, in order (R403). -/
def State.applyProv (s : State) : State :=
  (List.zip (List.range 512) s.provEntries).foldl (fun (t : State) e =>
    let (i, a, v) := e
    if provAllowed a then t.writeReg noSlot a v
    else t.log Rec.provSkip (bytesBE 2 i ++ bytesBE 4 a)) s

/-- Whether M0 has come to its last step: SRAM wiped, training ended, every region of the DRAM in service wiped. -/
def State.mayEclose (s : State) : Bool :=
  decide (s.mode = 0) && s.sys.resetReq.isNone && s.sys.sramReady && s.memc.training == 0 && !s.sys.pwrOff &&
    s.sys.inService &&& ~~~s.sys.wiped == 0

/-- Eclosion (R22, R402, R403): the provisioning record in force is applied with the access types of M1, and the device
is in M1. -/
def State.eclosion (s : State) : State :=
  if s.mayEclose then
    let mismatch := decide (1 ≤ s.instar) && Config.sha256 s.provBytes != s.sec.nvm.provDigest
    let s := if mismatch then s.log Rec.provMismatch [] else s
    let valid := s.provOk && !mismatch
    let role := s.flashLE 0x10010 1
    let target := s.flashLE 0x10011 1
    let s := (s.setBit F.SEC_STAT_PROV_VALID valid).updSec fun c => { c with
      provDigest := if valid then Config.sha256 s.provBytes else 0 }
    let s := if valid ∧ s.role = 0 ∧ role ≠ 0 then (s.setFld F.SYS_ROLE_ROLE role).setFld F.SYS_ROLE_SOURCE 2 else s
    let s := s.enterMode 1
    let s := if valid then s.applyProv else s
    let s := (s.setFld F.SYS_BOOT_ECLOSED 1).setFld F.SYS_BOOT_ECLOSION_MS ((s.tick - s.sys.releaseTick) / 1500000)
    let s := if valid ∧ target ≠ 0 ∧ ¬ s.bit F.SYS_BOOT_RECOVERY then
        s.updSys fun y => { y with auto := some (BitVec.ofNat 3 target) }
      else s
    s.consumeLog.restartPorts (List.range 8)
  else s

/-! ## Causes of a device reset (R20, R442, R451) -/

/-- `RESET_N` is low for long enough (R20, R451): the device is in reset at once and its pins stand as R439 has them:
`LC_OUT`, the flash pins and `JTAG_TDO` in high impedance, `FL_CS_N` high, `ALERT_N` released, `PPS_OUT` and `FSYNC_OUT` low, GPIO
inputs. A start that POWER_ON begins keeps that cause (R442). -/
def State.pinReset (s : State) : State :=
  if s.sys.resetReq = some 0 then s.emit .pinsHeld else ((s.discard 1).emit .pinsHeld).requestReset 1 false

/-- A low pulse on `RESET_N`: from 10 µs a device reset, below 1 µs nothing, between the two either (R451). -/
def State.resetPin (s : State) (lowNs : Nat) : State :=
  if s.sys.pwrOff ∨ lowNs < 1000 then s
  else if 10000 ≤ lowNs then s.pinReset
  else
    let (b, s) := s.coin 451
    if b then s.pinReset else s

/-- A write of calibration records that the fall cuts short (R252, R442): of each port the record is the old one, the new one,
or no valid one, which of them is free (log entry 12). -/
def State.tearCal (s : State) (ports : Nat) : State :=
  (bitsOf 4 ports).foldl (fun (t : State) q =>
    let (n, t) := t.draw
    match Config.free 442 [n, 252] % 3 with
    | 0 => t
    | 1 => t.storeCal q (t.calBytes q)
    | _ => t.storeCal q []) s

/-- A reservation that the fall cuts short (R394, R442): not begun, written, or torn, which of them is free (log entry 12); its
indexes are not yet used. -/
def State.tearIndex (s : State) : State :=
  let (n, s) := s.draw
  match Config.free 442 [n, 394] % 3 with
  | 0 => s
  | 1 => (s.reserve true).2
  | _ => (s.reserve false).2

/-- Writes to NVM of the operations that run as the supplies fall (R442). -/
def State.tearNvm (s : State) : State :=
  s.cmd.ops.foldl (fun (t : State) o =>
    if o.st = 1 then
      match o.kind with
      | .calStore ports => t.tearCal ports.toNat
      | .attest .. => if t.sec.idLimit ≤ t.sec.idNext then t.tearIndex else t
      | _ => t
    else t) s

/-- A monitored rail falls: what is volatile is lost, the local clock too (R444), and the device holds itself in reset until the
supplies return (R21, R442). -/
def State.supplyDrop (s : State) : State :=
  if s.sys.pwrOff then s else ({ s.tearNvm.discard 0 with clk := 0 } : State).updSys fun y => { y with pwrOff := true }

/-- The supplies reach their valid levels (R20, R442). -/
def State.powerOn (s : State) : State := (s.updSys fun y => { y with pwrOff := false }).requestReset 0 false

/-! ## JTAG (R31, R470) -/

/-- The memory port reads or writes a word of 8 bytes; what it may not reach is a violation (R28).
It owns no bank (R371), and the byte at address w + i is bits [8i + 7 : 8i] of the word (R357; log entry 27). -/
def State.jtagMem (s : State) (a : Nat) (v : Option (BitVec 64)) : State :=
  let w := a / 8 * 8
  if s.mayAccess .controller w then
    match v with
    | some d => s.writeBytes .controller w (bytesLE 8 d.toNat)
    | none => (s.accountRead .controller w 8).emit (.jtag (BitVec.ofNat 64 (natLE (s.readBytes .controller w 8))))
  else if v.isNone then s.emit (.jtag 0)
  else s

/-- A JTAG operation: private instructions and the memory port are locked from instar 3, the fuse-programming window takes
writes at instar 0 only, as the fuses stand (R31). What a private instruction does otherwise, and what the boundary scan reads,
is not described. Nothing works while `JTAG_TRST_N` holds the TAP in reset (R439), or without supplies. -/
def State.jtag (s : State) (op : JtagOp) : State :=
  let instar := blownSteps s.sec.fuses.instar
  if s.sys.pwrOff ∨ s.sys.trstN = false then s
  else
  match op with
  | .bypass | .sample | .extest | .privateInstr _ => s
  | .idcode => s.emit (.jtag ((s.word F.SYS_JTAG_ID_ONE.addr).setWidth 64))
  | .fuseWindow o v =>
    if instar = 0 then
      s.updSec fun c => { c with fuseWin := (o.toNat / 4 * 4, v) :: c.fuseWin.filter fun e => e.1 != o.toNat / 4 * 4 }
    else s
  | .memRead a => if instar < 3 then s.jtagMem a.toNat none else s
  | .memWrite a d => if instar < 3 then s.jtagMem a.toNat (some d) else s

end Sys2Proof.Machine
end

