-- ==== Sys2Proof/Machine/FrameEvents.lean ====
section
/-! DEFINITION. Wingbeats, apply instants, mode changes and molts (spec/01, spec/02, spec/04, spec/16). -/

namespace Sys2Proof.Machine

open Sys2Proof

/-- `WINGBEAT` (R54). -/
def execWingbeat (s : State) : Host.Outcome State Fault Refusal :=
  .next (s.wingbeat)

/-- `APPLY_INSTANT` (R117). -/
def execApplyInstant (s : State) : Host.Outcome State Fault Refusal :=
  .next (s.applyDue)

/-- `MOLT` (R416): with what the readback of the directory copy shows. -/
def execMolt (directoryOk : Bool) (s : State) : Host.Outcome State Fault Refusal :=
  .next (s.molt directoryOk)

/-- `MODE_CHANGE_COMPLETE` (R17). -/
def execModeChangeComplete (s : State) : Host.Outcome State Fault Refusal :=
  .next (s.modeComplete)

/-- `AUTO_TARGET_STEP` (R19). -/
def execAutoTargetStep (s : State) : Host.Outcome State Fault Refusal :=
  .next (s.autoStep)

end Sys2Proof.Machine
end

