-- ==== Sys2Proof/Machine/LampCmds.lean ====
section
/-! DEFINITION. The host's commands for correction tables and lamps (spec/11, spec/12). Each is a packet received whole on
its transport: checked, sequenced and dispatched by R80 and R85 to R90 (`State.receive`, log entry 2); what it does once
dispatched is `State.hostBody`. -/

namespace Sys2Proof.Machine

open Sys2Proof

/-- `TABLE_LOAD` (R292). -/
def execTableLoad (h : Hdr) (table : BitVec 1) (fromFlash : Bool) (addr size : BitVec 40)
    (s : State) : Host.Outcome State Fault Refusal :=
  .next (s.receive (.cmd (.tableLoad h table fromFlash addr size)))

/-- `TABLE_VERIFY` (R295). -/
def execTableVerify (h : Hdr) (table : BitVec 1) (s : State) : Host.Outcome State Fault Refusal :=
  .next (s.receive (.cmd (.tableVerify h table)))

/-- `LAMP_SCAN` (R331). -/
def execLampScan (h : Hdr) (chainMask : BitVec 128) (faults stale all : Bool) (ageMin : Word) (addr : BitVec 40)
    (maxCount : Word) (s : State) : Host.Outcome State Fault Refusal :=
  .next (s.receive (.cmd (.lampScan h chainMask faults stale all ageMin addr maxCount)))

/-- `LAMP_REPORT` (R332). -/
def execLampReport (h : Hdr) (chain : BitVec 7) (driver : BitVec 6) (first : BitVec 10) (count : BitVec 11)
    (s : State) : Host.Outcome State Fault Refusal :=
  .next (s.receive (.cmd (.lampReport h chain driver first count)))

/-- `DIAG_PATTERN_LAMP_START` (R333). -/
def execDiagPatternLampStart (h : Hdr) (pattern : BitVec 4) (arg : Word)
    (s : State) : Host.Outcome State Fault Refusal :=
  .next (s.receive (.cmd (.diagPatternLampStart h pattern arg)))

/-- `DIAG_PATTERN_LAMP_STOP` (R333). -/
def execDiagPatternLampStop (h : Hdr) (pattern : BitVec 4) (arg : Word)
    (s : State) : Host.Outcome State Fault Refusal :=
  .next (s.receive (.cmd (.diagPatternLampStop h pattern arg)))

end Sys2Proof.Machine
end

