-- ==== Sys2Proof/Machine/LaneEvents.lean ====
section
/-! DEFINITION. Links, training, idle states, adaptation (spec/09). -/

namespace Sys2Proof.Machine

open Sys2Proof

/-- What the receive side of a port sees, by way of crossing 2 (R386). -/
def State.frxIn (s : State) (q : Nat) (f : State → State) : State := s.crossIn (2 + q) f

/-- `DELAY_MARK_TIMEOUT` (R235). -/
def execDelayMarkTimeout (port : BitVec 2) (s : State) : Host.Outcome State Fault Refusal :=
  .next (s.markTimeout port.toNat)

/-- `LINK_FRAME` (R237). -/
def execLinkFrame (port : BitVec 2) (lanes : List LaneFrame) (s : State) : Host.Outcome State Fault Refusal :=
  .next (s.frxIn port.toNat fun t => t.linkFrame port.toNat lanes)

/-- `REPLAY_TIMEOUT` (R238). -/
def execReplayTimeout (port : BitVec 2) (s : State) : Host.Outcome State Fault Refusal :=
  .next (s.replayTimeout port.toNat)

/-- `TRAINING_ADVANCE` (R240): nothing while the port's receive domain is in reset (R386). -/
def execTrainingAdvance (port : BitVec 2) (obs : TrainObs) (s : State) : Host.Outcome State Fault Refusal :=
  .next (if s.domBusy (2 + port.toNat) then s else s.trainingAdvance port.toNat obs)

/-- `TRAINING_TIMEOUT` (R240). -/
def execTrainingTimeout (port : BitVec 2) (obs : TrainObs) (s : State) : Host.Outcome State Fault Refusal :=
  .next (s.trainingTimeout port.toNat obs)

/-- `FORWARDED_CLOCK_LOSS` (R387). -/
def execForwardedClockLoss (port : BitVec 2) (s : State) : Host.Outcome State Fault Refusal :=
  .next (s.clockLoss port.toNat)

/-- `LIGHT_IDLE_ENTRY` (R246). -/
def execLightIdleEntry (port : BitVec 2) (s : State) : Host.Outcome State Fault Refusal :=
  .next (s.lightEntry port.toNat)

/-- `LIGHT_IDLE_EXIT` (R246). -/
def execLightIdleExit (port : BitVec 2) (s : State) : Host.Outcome State Fault Refusal :=
  .next (s.lightExit port.toNat)

/-- `DEEP_IDLE_EIOS` (R247). -/
def execDeepIdleEios (port : BitVec 2) (s : State) : Host.Outcome State Fault Refusal :=
  .next (s.frxIn port.toNat fun t => t.enterDeep port.toNat)

/-- `LIGHT_IDLE_EIOS` (R246). -/
def execLightIdleEios (port : BitVec 2) (s : State) : Host.Outcome State Fault Refusal :=
  .next (s.frxIn port.toNat fun t => t.lightEios port.toNat)

/-- `FTS` (R246). -/
def execFts (port : BitVec 2) (s : State) : Host.Outcome State Fault Refusal :=
  .next (s.frxIn port.toNat fun t => t.fts port.toNat)

/-- `ADAPT_WINDOW` (R249). -/
def execAdaptWindow (port lane : BitVec 2) (transitions : BitVec 13) (ctleStep : Int) (dfeSteps : List Int)
    (s : State) : Host.Outcome State Fault Refusal :=
  .next (s.adaptWindow port.toNat lane.toNat transitions.toNat ctleStep dfeSteps)

/-- `TEMP_CHECK` (R251): the reading, in 1/8 degrees; `T_NOW` is its value rounded to whole degrees (R466; half a
degree either way: log entry 13). -/
def execTempCheck (temp : BitVec 16) (s : State) : Host.Outcome State Fault Refusal :=
  if s.tick < s.lnk.tempTick + 1500000000 then .next s
  else .next ((s.setFld F.SYS_TEMP_TEMP temp.toNat).tempCheck (openNearest 466 ((temp.toInt : Rat) / 8)))

/-- `RECAL_STEP` (R251). -/
def execRecalStep (port lane : BitVec 2) (eye : EyeObs) (s : State) : Host.Outcome State Fault Refusal :=
  .next (s.frxIn port.toNat fun t => t.recalStep port.toNat lane.toNat eye)

end Sys2Proof.Machine
end

