-- ==== Sys2Proof/Machine/LayerCmds.lean ====
section
/-! DEFINITION. The host's commands for fences and flips (spec/06). Each is a packet received whole on
its transport: checked, sequenced and dispatched by R80 and R85 to R90 (`State.receive`, log entry 2); what it does once
dispatched is `State.hostBody`. -/

namespace Sys2Proof.Machine

open Sys2Proof

/-- `FENCE_SIGNAL` (R179). -/
def execFenceSignal (h : Hdr) (fence : BitVec 6) (value : Word) (frame : BitVec 64)
    (s : State) : Host.Outcome State Fault Refusal :=
  .next (s.receive (.cmd (.fenceSignal h fence value frame)))

/-- `FENCE_SIGNAL_RESET` (R179). -/
def execFenceSignalReset (h : Hdr) (fence : BitVec 6) (value : Word) (frame : BitVec 64)
    (s : State) : Host.Outcome State Fault Refusal :=
  .next (s.receive (.cmd (.fenceSignalReset h fence value frame)))

/-- `FENCE_QUERY` (R176). -/
def execFenceQuery (h : Hdr) (m0 m1 : Word) (s : State) : Host.Outcome State Fault Refusal :=
  .next (s.receive (.cmd (.fenceQuery h m0 m1)))

/-- `LAYER_FLIP` (R177). -/
def execLayerFlip (h : Hdr) (g : BitVec 4) (buf : BitVec 2) (fence : BitVec 6) (noFence : Bool) (wait : Word)
    (frame : BitVec 64) (s : State) : Host.Outcome State Fault Refusal :=
  .next (s.receive (.cmd (.layerFlip h g buf fence noFence wait frame)))

end Sys2Proof.Machine
end

