-- ==== Sys2Proof/Machine/TimeEvents.lean ====
section
/-! DEFINITION. Time cells, PTP, edges and pulses (spec/02, spec/05). -/

namespace Sys2Proof.Machine

open Sys2Proof

/-- What a media port receives: nothing while its domain is in reset (R386). -/
def State.mediaIn (s : State) (f : State → State) : State := s.crossIn 1 f

/-- `PERIODIC_TIME_CELL` (R59). -/
def execPeriodicTimeCell (tOut : List Nat) (s : State) : Host.Outcome State Fault Refusal :=
  .next (s.periodicCell tOut)

/-- `TIME_CELL` (R61): on a port that carries cells and passes none over (R259). -/
def execTimeCell (c : TimeCellIn) (s : State) : Host.Outcome State Fault Refusal :=
  .next (if s.carries c.port.toNat ∧ (s.lane c.port.toNat).rowHunt = false then s.timeCell c else s)

/-- `UPSTREAM_LOSS` (R65). -/
def execUpstreamLoss (s : State) : Host.Outcome State Fault Refusal :=
  .next (s.upstreamLoss)

/-- `SOURCE_LOSS` (R44). -/
def execSourceLoss (s : State) : Host.Outcome State Fault Refusal :=
  .next (s.sourceLoss)

/-- `PTP_ANNOUNCE` (R50). -/
def execPtpAnnounce (m : PtpAnnounce) (s : State) : Host.Outcome State Fault Refusal :=
  .next (s.mediaIn fun t => (t.ptpAnnounce m).ptpFrames m.port)

/-- `PTP_SYNC` (R142): one frame, or two where a Follow_Up came with it. -/
def execPtpSync (m : PtpSync) (s : State) : Host.Outcome State Fault Refusal :=
  .next (s.mediaIn fun t =>
    let d := (t.ptpSync m).draw
    d.2.ptpFrames m.port (1 + Config.free 142 [d.1] % 2))

/-- `PTP_DELAY_RESP` (R142). -/
def execPtpDelayResp (m : PtpDelayResp) (s : State) : Host.Outcome State Fault Refusal :=
  .next (s.mediaIn fun t => (t.ptpDelayResp m).ptpFrames m.port)

/-- `DELAY_REQ` (R141). -/
def execDelayReq (t3s launch : Int) (s : State) : Host.Outcome State Fault Refusal :=
  .next (s.delayReq t3s launch)

/-- `FSYNC_IN` (R51). -/
def execFsyncIn (s : State) : Host.Outcome State Fault Refusal :=
  .next (s.fsyncIn)

/-- `PPS_IN` (R51). -/
def execPpsIn (s : State) : Host.Outcome State Fault Refusal :=
  .next (s.ppsIn)

/-- `PPS_OUT` (R52). -/
def execPpsOut (s : State) : Host.Outcome State Fault Refusal :=
  .next (s.ppsOut)

/-- `LINK_DELAY_MEASURE` (R63). -/
def execLinkDelayMeasure (port : BitVec 2) (roundTrip : Int) (turn : BitVec 16)
    (s : State) : Host.Outcome State Fault Refusal :=
  .next (s.linkMeasure port.toNat roundTrip turn.toNat)

/-- `BRIDGED_PTP_MESSAGE` (R143). -/
def execBridgedPtpMessage (m : PtpBridged) (s : State) : Host.Outcome State Fault Refusal :=
  .next (s.mediaIn fun t => (t.frameIn m.port.toNat).ptpBridge m)

/-- `PULSE_END` (R52). -/
def execPulseEnd (fsync : Bool) (s : State) : Host.Outcome State Fault Refusal :=
  .next (s.pulseEnd fsync)

end Sys2Proof.Machine
end

