-- ==== Sys2Proof/Machine/MediaEvents.lean ====
section
/-! DEFINITION. Media ports, ingest and composition (spec/05 to spec/08). -/

namespace Sys2Proof.Machine

open Sys2Proof

/-- `ETH_MODE_APPLY` (R135). -/
def execEthModeApply (s : State) : Host.Outcome State Fault Refusal :=
  .next (s.ethApply)

/-- `ARP_REQUEST` (R136). -/
def execArpRequest (port : BitVec 3) (targetIp senderIp : BitVec 32) (senderMac : BitVec 48)
    (s : State) : Host.Outcome State Fault Refusal :=
  .next (s.mediaIn fun t => (t.frameIn port.toNat).arp port targetIp senderIp senderMac)

/-- `IGMP_QUERY` (R137). -/
def execIgmpQuery (port : BitVec 3) (version : BitVec 2) (group : BitVec 32)
    (s : State) : Host.Outcome State Fault Refusal :=
  .next (s.mediaIn fun t => (t.frameIn port.toNat).igmpQuery port version group)

/-- `IGMP_REPORT_REPEAT` (R137). -/
def execIgmpReportRepeat (port : BitVec 3) (s : State) : Host.Outcome State Fault Refusal :=
  .next (s.igmpRepeat port)

/-- `RTP_PACKET` (R147). -/
def execRtpPacket (p : RtpPacket) (s : State) : Host.Outcome State Fault Refusal :=
  .next (s.mediaIn fun t => t.rtpPacket p)

/-- `BUFFER_DEADLINE` (R151). -/
def execBufferDeadline (stream : BitVec 5) (buffer : BitVec 4) (s : State) : Host.Outcome State Fault Refusal :=
  .next (s.bufDeadline stream.toNat buffer.toNat)

/-- `STREAM_LOST` (R158). -/
def execStreamLost (stream : BitVec 5) (s : State) : Host.Outcome State Fault Refusal :=
  .next (s.streamLost stream.toNat)

/-- `LINK_UP` (R135): with the FEC codewords corrected and uncorrectable since the last one (`ETH_CNT`). A domain in reset
reports nothing (R384, crossing 16). -/
def execLinkUp (port : BitVec 3) (up : Bool) (fec : FecReport) (s : State) : Host.Outcome State Fault Refusal :=
  .next (if s.domBusy 1 then s
    else ((s.fecCount port.toNat fec.fixed.toNat fec.bad.toNat).linkUp port.toNat up fec.lock).reportAfresh port.toNat)

/-- `COMPOSE_LINE` (R175): with the layers whose data has not come on die in time. -/
def execComposeLine (notOnDie : List (BitVec 4)) (s : State) : Host.Outcome State Fault Refusal :=
  .next (s.composeLine notOnDie)

/-- `LINE_LEAVES_BLENDER` (R213): with whether write-back has room. -/
def execLineLeavesBlender (wbRoom : Bool) (s : State) : Host.Outcome State Fault Refusal :=
  .next (s.lineLeaves wbRoom)

end Sys2Proof.Machine
end

