-- ==== Sys2Proof/Machine/MemEvents.lean ====
section
/-! DEFINITION. Memory: scrub, refresh, training, wipe, banks (spec/01, spec/14). -/

namespace Sys2Proof.Machine

open Sys2Proof

/-- `SCRUB_STEP` (R369). -/
def execScrubStep (addr : BitVec 40) (s : State) : Host.Outcome State Fault Refusal :=
  .next (s.scrubStep addr.toNat)

/-- `REFRESH_CHECK` (R368). -/
def execRefreshCheck (rates : List (BitVec 3)) (s : State) : Host.Outcome State Fault Refusal :=
  .next (s.refreshCheck rates)

/-- `CHANNEL_TRAINING_DONE` (R365). -/
def execChannelTrainingDone (channel : BitVec 2) (r : TrainResult) (s : State) : Host.Outcome State Fault Refusal :=
  .next (s.trainingDone channel.toNat r)

/-- `REGION_WIPED` (R29). -/
def execRegionWiped (region : BitVec 11) (s : State) : Host.Outcome State Fault Refusal :=
  .next (s.regionWiped region.toNat)

/-- The old owner's accesses have completed, and what waited for them goes on (R372): lines of the scalers, a correction. -/
def State.drainDone (s : State) (b : Nat) : State :=
  let s := s.bankDrained b
  let s := if s.cmp.running ∧ (s.mode = 3 ∨ s.mode = 4) then
      (List.range 6).foldl (fun (t : State) k => t.fillSlots (t.withRegs t.cmp.img) k) s
    else s
  s.startJob

/-- `BANK_DRAIN_DONE` (R372). -/
def execBankDrainDone (bank : BitVec 6) (s : State) : Host.Outcome State Fault Refusal :=
  .next (s.drainDone bank.toNat)

/-- `BANK_POWER_DONE` (R378). -/
def execBankPowerDone (bank : BitVec 6) (s : State) : Host.Outcome State Fault Refusal :=
  .next (s.bankPowered bank.toNat)

end Sys2Proof.Machine
end

