-- ==== Sys2Proof/Machine/MemoryCmds.lean ====
section
/-! DEFINITION. The host's commands for memory commands and operation slots (spec/03). Each is a packet received whole on
its transport: checked, sequenced and dispatched by R80 and R85 to R90 (`State.receive`, log entry 2); what it does once
dispatched is `State.hostBody`. -/

namespace Sys2Proof.Machine

open Sys2Proof

/-- `MEM_READ` (R96). -/
def execMemRead (h : Hdr) (addr : BitVec 40) (count : BitVec 14) (s : State) : Host.Outcome State Fault Refusal :=
  .next (s.receive (.cmd (.memRead h addr count)))

/-- `MEM_WRITE` (R96). -/
def execMemWrite (h : Hdr) (addr : BitVec 40) (vals : List Word) (s : State) : Host.Outcome State Fault Refusal :=
  .next (s.receive (.cmd (.memWrite h addr vals)))

/-- `MEM_FILL` (R96). -/
def execMemFill (h : Hdr) (addr size : BitVec 40) (pattern : BitVec 64)
    (s : State) : Host.Outcome State Fault Refusal :=
  .next (s.receive (.cmd (.memFill h addr size pattern)))

/-- `MEM_COPY` (R96). -/
def execMemCopy (h : Hdr) (source dest size : BitVec 40) (s : State) : Host.Outcome State Fault Refusal :=
  .next (s.receive (.cmd (.memCopy h source dest size)))

/-- `OP_STATUS` (R100). -/
def execOpStatus (h : Hdr) (mask : BitVec 16) (s : State) : Host.Outcome State Fault Refusal :=
  .next (s.receive (.cmd (.opStatus h mask)))

/-- `OP_RESULT` (R101). -/
def execOpResult (h : Hdr) (slot : BitVec 4) (gen : BitVec 16) (offset count : Word)
    (s : State) : Host.Outcome State Fault Refusal :=
  .next (s.receive (.cmd (.opResult h slot gen offset count)))

/-- `OP_RELEASE` (R101). -/
def execOpRelease (h : Hdr) (slot : BitVec 4) (gen : BitVec 16) (s : State) : Host.Outcome State Fault Refusal :=
  .next (s.receive (.cmd (.opRelease h slot gen)))

end Sys2Proof.Machine
end

