-- ==== Sys2Proof/Machine/OpEvents.lean ====
section
/-! DEFINITION. Ends of long operations: their effect comes about whole at their end (log entry 10). -/

namespace Sys2Proof.Machine

open Sys2Proof

/-- `MEM_FILL_DONE` (R98). -/
def execMemFillDone (slot : BitVec 4) (s : State) : Host.Outcome State Fault Refusal :=
  .next (s.memFillDone slot.toNat)

/-- `MEM_COPY_DONE` (R98). -/
def execMemCopyDone (slot : BitVec 4) (s : State) : Host.Outcome State Fault Refusal :=
  .next (s.memCopyDone slot.toNat)

/-- `FAB_PROBE_DONE` (R268). -/
def execFabProbeDone (slot : BitVec 4) (s : State) : Host.Outcome State Fault Refusal :=
  .next (s.fabProbeDone slot.toNat)

/-- `FAB_ASSIGN_DONE` (R268): for the session in `slot`. -/
def execFabAssignDone (slot : BitVec 6) (s : State) : Host.Outcome State Fault Refusal :=
  .next (s.fabAssignDone slot.toNat)

/-- `FAB_PATH_TEST_DONE` (R268). -/
def execFabPathTestDone (slot : BitVec 4) (s : State) : Host.Outcome State Fault Refusal :=
  .next (s.fabPathTestDone slot.toNat)

/-- `TABLE_LOAD_DONE` (R292). -/
def execTableLoadDone (slot : BitVec 4) (s : State) : Host.Outcome State Fault Refusal :=
  .next (s.tableLoadDone slot.toNat)

/-- `TABLE_VERIFY_DONE` (R295). -/
def execTableVerifyDone (slot : BitVec 4) (s : State) : Host.Outcome State Fault Refusal :=
  .next (s.tableVerifyDone slot.toNat)

/-- `LAMP_SCAN_DONE` (R331). -/
def execLampScanDone (slot : BitVec 4) (s : State) : Host.Outcome State Fault Refusal :=
  .next (s.lampScanDone slot.toNat)

/-- `CAL_RUN_DONE` (R253): with what the run found on each lane. -/
def execCalRunDone (slot : BitVec 4) (results : List CalPort) (s : State) : Host.Outcome State Fault Refusal :=
  .next (s.calRunDone slot.toNat results)

/-- `CAL_STORE_DONE` (R253): with what the readback of each port's record shows. -/
def execCalStoreDone (slot : BitVec 4) (readbackOk : BitVec 4) (s : State) : Host.Outcome State Fault Refusal :=
  .next (s.calStoreDone slot.toNat readbackOk)

/-- `FW_STAGE_DONE` (R410): with the first block that does not read back. -/
def execFwStageDone (slot : BitVec 4) (failBlock : Option Nat) (s : State) : Host.Outcome State Fault Refusal :=
  .next (s.fwStageDone slot.toNat failBlock)

/-- `FW_VERIFY_DONE` (R412). -/
def execFwVerifyDone (slot : BitVec 4) (s : State) : Host.Outcome State Fault Refusal :=
  .next (s.fwVerifyDone slot.toNat)

/-- `ATTEST_DONE` (R396): with what the readback of a reservation shows. -/
def execAttestDone (slot : BitVec 4) (nvmOk : Bool) (s : State) : Host.Outcome State Fault Refusal :=
  .next (s.attestDone slot.toNat nvmOk)

/-- `PATH_TEST_SEND` (R268). -/
def execPathTestSend (slot : BitVec 4) (s : State) : Host.Outcome State Fault Refusal :=
  match (s.op slot.toNat).st.toNat, (s.op slot.toNat).kind with
  | 1, .fabPathTest target plen count => .next (s.pathTestSend slot target.toNat plen.toNat count.toNat)
  | _, _ => .next s

end Sys2Proof.Machine
end

