-- ==== Sys2Proof/Machine/RedCmds.lean ====
section
/-! DEFINITION. The host's commands for sender redundancy (spec/13). Each is a packet received whole on
its transport: checked, sequenced and dispatched by R80 and R85 to R90 (`State.receive`, log entry 2); what it does once
dispatched is `State.hostBody`. -/

namespace Sys2Proof.Machine

open Sys2Proof

/-- `RED_JOIN` (R349). -/
def execRedJoin (h : Hdr) (pairSrc : BitVec 16) (ranges : List (BitVec 40 × BitVec 40))
    (s : State) : Host.Outcome State Fault Refusal :=
  .next (s.receive (.cmd (.redJoin h pairSrc ranges)))

/-- `RED_STATE` (R354). -/
def execRedState (h : Hdr) (s : State) : Host.Outcome State Fault Refusal :=
  .next (s.receive (.cmd (.redState h)))

/-- `RED_SWITCH` (R347). -/
def execRedSwitch (h : Hdr) (sel : BitVec 1) (s : State) : Host.Outcome State Fault Refusal :=
  .next (s.receive (.cmd (.redSwitch h sel)))

end Sys2Proof.Machine
end

