-- ==== Sys2Proof/Machine/RedEvents.lean ====
section
/-! DEFINITION. Redundant senders (spec/13). -/

namespace Sys2Proof.Machine

open Sys2Proof

/-- A join has ended for the pair session in slot `k`, if any: its held packets follow (R350, R352). -/
def joinEnded (r : Option Nat × State) : State :=
  match r.1 with
  | some k => r.2.afterJoin k
  | none => r.2

/-- `LINK_LOSS` (R345). -/
def execLinkLoss (s : State) : Host.Outcome State Fault Refusal :=
  .next (s.linkLost)

/-- `RED_SWITCHED` (R346). -/
def execRedSwitched (cause : BitVec 1) (s : State) : Host.Outcome State Fault Refusal :=
  .next (s.autoSwitch cause)

/-- `PROMOTE` (R339). -/
def execPromote (s : State) : Host.Outcome State Fault Refusal :=
  .next (s.promote)

/-- `JOIN_REQUEST` (R350). -/
def execJoinRequest (port : BitVec 2) (src : BitVec 16) (pairSrc : BitVec 16) (ranges : List
    (BitVec 40 × BitVec 40)) (s : State) : Host.Outcome State Fault Refusal :=
  .next (s.joinRequest port src pairSrc (ranges.map fun r => (r.1.toNat, r.2.toNat)))

/-- `JOIN_COPY_CELL` (R350). -/
def execJoinCopyCell (addr : BitVec 40) (data : List (BitVec 64 × Bool))
    (s : State) : Host.Outcome State Fault Refusal :=
  .next (s.joinCell addr.toNat data)

/-- `SNAPSHOT_CAPTURE` (R350). -/
def execSnapshotCapture (joinerExpected : Word) (s : State) : Host.Outcome State Fault Refusal :=
  .next (s.snapshotCapture joinerExpected)

/-- `SNAPSHOT_INSTALL` (R350). -/
def execSnapshotInstall (sn : Machine.Snapshot) (s : State) : Host.Outcome State Fault Refusal :=
  .next (joinEnded (s.installSnapshot sn))

/-- `JOIN_FAIL` (R352). -/
def execJoinFail (cause : BitVec 2) (s : State) : Host.Outcome State Fault Refusal :=
  .next (joinEnded (s.joinFailed cause.toNat))

end Sys2Proof.Machine
end

