-- ==== Sys2Proof/Machine/RegCmds.lean ====
section
/-! DEFINITION. Register writes with behaviour of their own (R7): what the write does as it lands. No write lands where no
`REG_WRITE` is accepted (R14, R25, R31). -/

namespace Sys2Proof.Machine

open Sys2Proof

/-- Whether the device takes a `REG_WRITE`: not before eclosion (R14), in recovery (R25) or at instar 4 (R31). -/
def State.lands (s : State) : Bool := s.mode != 0 && !s.bit F.SYS_BOOT_RECOVERY && decide (s.instar < 4)

/-- A write that lands. -/
def State.landed (s : State) (f : State → State) : State := if s.lands then f s else s

/-- `SYS_MODE_REQ` (R16): the request of R16. -/
def execSysModeReq (target : BitVec 3) (s : State) : Host.Outcome State Fault Refusal :=
  .next (s.landed fun t => t.writeModeReq target.toNat)

/-- `ROLE_SET` (R12). -/
def execRoleSet (role : BitVec 2) (s : State) : Host.Outcome State Fault Refusal :=
  .next (s.landed fun t => t.setRole role.toNat)

/-- `TIME_SRC_WRITE` (R43). -/
def execTimeSrcWrite (value : Word) (s : State) : Host.Outcome State Fault Refusal :=
  .next (s.landed fun t => t.writeReg noSlot F.TIME_SRC_SOURCE.addr value)

/-- `SNAP` (R38). -/
def execSnap (s : State) : Host.Outcome State Fault Refusal :=
  .next (s.landed State.timeSnap)

/-- `REACQUIRE` (R46). -/
def execReacquire (s : State) : Host.Outcome State Fault Refusal :=
  .next (s.landed State.reacquire)

/-- `SET` (R46). -/
def execSet (s : State) : Host.Outcome State Fault Refusal :=
  .next (s.landed State.timeSet)

/-- `ADJ` (R46). -/
def execAdj (s : State) : Host.Outcome State Fault Refusal :=
  .next (s.landed State.timeAdj)

/-- `TIME_CNT_CLR` (R464). -/
def execTimeCntClr (s : State) : Host.Outcome State Fault Refusal :=
  .next (s.landed State.timeCntClr)

/-- `ETH_MODE_WRITE` (R135). -/
def execEthModeWrite (fec : Bool) (value : Word) (s : State) : Host.Outcome State Fault Refusal :=
  .next (s.landed fun t => t.writeEthMode fec value)

/-- `ING_CNT_CLR` (R159). -/
def execIngCntClr (stream : BitVec 5) (s : State) : Host.Outcome State Fault Refusal :=
  .next (s.landed fun t => t.ingCntClr stream.toNat)

/-- `LNK_RETRAIN` (R244). -/
def execLnkRetrain (port : BitVec 2) (s : State) : Host.Outcome State Fault Refusal :=
  .next (s.landed fun t => t.hostRetrain port.toNat)

/-- `LNK_DEEP` (R247). -/
def execLnkDeep (port : BitVec 2) (on : Bool) (s : State) : Host.Outcome State Fault Refusal :=
  .next (s.landed fun t => t.writeDeep port.toNat on)

/-- `LDR_MEASURE` (R307). -/
def execLdrMeasure (s : State) : Host.Outcome State Fault Refusal :=
  .next (s.landed State.ldrMeasure)

/-- `LDR_CNT_CLR` (R464). -/
def execLdrCntClr (s : State) : Host.Outcome State Fault Refusal :=
  .next (s.landed State.ldrCntClr)

/-- `ENROL` (R397): a write by the session in `slot`, with what the readback of the key shows. -/
def execEnrol (slot : BitVec 6) (readbackOk : Bool) (s : State) : Host.Outcome State Fault Refusal :=
  .next (s.landed fun t => t.enrol slot.toNat readbackOk)

/-- `EPOCH` (R398): a write by the session in `slot`. -/
def execEpoch (slot : BitVec 6) (value : BitVec 16) (s : State) : Host.Outcome State Fault Refusal :=
  .next (s.landed fun t => t.setEpoch slot.toNat value)

/-- `SEC_PROOF` (R399): a write by the session in `slot`. -/
def execSecProof (slot : BitVec 6) (word3 : Word) (s : State) : Host.Outcome State Fault Refusal :=
  .next (s.landed fun t => t.proof slot.toNat word3)

/-- `IN_SERVICE` (R365). -/
def execInService (channel : BitVec 2) (on : Bool) (s : State) : Host.Outcome State Fault Refusal :=
  .next (s.landed fun t => t.setInService channel.toNat on)

/-- `BANK_SET_OWNER` (R372). -/
def execBankSetOwner (bank : BitVec 6) (owner : BitVec 4) (s : State) : Host.Outcome State Fault Refusal :=
  .next (s.landed fun t => t.setBankOwner bank.toNat owner.toNat)

/-- `BANK_SET_PWR` (R378). -/
def execBankSetPwr (bank : BitVec 6) (pwr : BitVec 2) (s : State) : Host.Outcome State Fault Refusal :=
  .next (s.landed fun t => t.setBankPwr bank.toNat pwr.toNat)

end Sys2Proof.Machine
end

