-- ==== Sys2Proof/Machine/ResetEvents.lean ====
section
/-! DEFINITION. Clocks, domains, resets, supplies, JTAG (spec/01, spec/15, spec/18). -/

namespace Sys2Proof.Machine

open Sys2Proof

/-- `REFCLK_LOST` (R381). -/
def execRefclkLost (s : State) : Host.Outcome State Fault Refusal :=
  .next (s.refclkLost)

/-- `PLL_UNLOCK` (R381). -/
def execPllUnlock (pll : BitVec 2) (s : State) : Host.Outcome State Fault Refusal :=
  .next (s.pllUnlock pll.toNat)

/-- `PLL_RELOCK` (R381). -/
def execPllRelock (pll : BitVec 2) (s : State) : Host.Outcome State Fault Refusal :=
  .next (s.pllRelock pll.toNat)

/-- `DOMAIN_RESET_RELEASE` (R386). -/
def execDomainResetRelease (kind : BitVec 4) (s : State) : Host.Outcome State Fault Refusal :=
  .next (s.domainRestart kind.toNat)

/-- `EVENT_CROSSING` (R383). -/
def execEventCrossing (k : BitVec 4) (sub : BitVec 3) (s : State) : Host.Outcome State Fault Refusal :=
  .next (s.eventCrossing k.toNat sub.toNat)

/-- `RESET_N` (R451). -/
def execResetN (lowNs : Nat) (s : State) : Host.Outcome State Fault Refusal :=
  .next (s.resetPin lowNs)

/-- `SUPPLY_DROP` (R442). -/
def execSupplyDrop (s : State) : Host.Outcome State Fault Refusal :=
  .next (s.supplyDrop)

/-- `DEVICE_RESET` (R22). -/
def execDeviceReset (s : State) : Host.Outcome State Fault Refusal :=
  .next (s.deviceReset)

/-- `ECLOSION` (R22). -/
def execEclosion (s : State) : Host.Outcome State Fault Refusal :=
  .next (s.eclosion)

/-- `POWER_ON` (R20). -/
def execPowerOn (s : State) : Host.Outcome State Fault Refusal :=
  .next (s.powerOn)

/-- `JTAG_ACCESS` (R31). -/
def execJtagAccess (op : JtagOp) (s : State) : Host.Outcome State Fault Refusal :=
  .next (s.jtag op)

end Sys2Proof.Machine
end

