-- ==== Sys2Proof/Machine/SecCmds.lean ====
section
/-! DEFINITION. The host's commands for the cocoon, firmware and the instar (spec/01, spec/16). Each is a packet received whole on
its transport: checked, sequenced and dispatched by R80 and R85 to R90 (`State.receive`, log entry 2); what it does once
dispatched is `State.hostBody`. -/

namespace Sys2Proof.Machine

open Sys2Proof

/-- `FW_STAGE` (R410). -/
def execFwStage (h : Hdr) (area : BitVec 2) (fromDram : Bool) (offset size : Word) (addr : BitVec 40)
    (data : List Word) (s : State) : Host.Outcome State Fault Refusal :=
  .next (s.receive (.cmd (.fwStage h area fromDram offset size addr data)))

/-- `FW_VERIFY` (R412). -/
def execFwVerify (h : Hdr) (s : State) : Host.Outcome State Fault Refusal :=
  .next (s.receive (.cmd (.fwVerify h)))

/-- `FW_MOLT` (R415). -/
def execFwMolt (h : Hdr) (advanceSvn : Bool) (s : State) : Host.Outcome State Fault Refusal :=
  .next (s.receive (.cmd (.fwMolt h advanceSvn)))

/-- `ATTEST` (R396). -/
def execAttest (h : Hdr) (nonce : List Word) (pubkey : Bool) (s : State) : Host.Outcome State Fault Refusal :=
  .next (s.receive (.cmd (.attest h nonce pubkey)))

/-- `INSTAR_ADVANCE` (R32). -/
def execInstarAdvance (h : Hdr) (target : BitVec 3) (confirm : Word) (blownA blownB : Bool)
    (s : State) : Host.Outcome State Fault Refusal :=
  .next (s.receive (.cmd (.instarAdvance h target confirm blownA blownB)))

end Sys2Proof.Machine
end

