-- ==== Sys2Proof/Machine/ServiceCmds.lean ====
section
/-! DEFINITION. The host's commands for errors, counters and resets (spec/15, spec/17). Each is a packet received whole on
its transport: checked, sequenced and dispatched by R80 and R85 to R90 (`State.receive`, log entry 2); what it does once
dispatched is `State.hostBody`. -/

namespace Sys2Proof.Machine

open Sys2Proof

/-- `ERR_READ` (R427). -/
def execErrRead (h : Hdr) (firstSeq : Word) (count : BitVec 8) (s : State) : Host.Outcome State Fault Refusal :=
  .next (s.receive (.cmd (.errRead h firstSeq count)))

/-- `ERR_CLEAR` (R428). -/
def execErrClear (h : Hdr) (uptoSeq : Word) (s : State) : Host.Outcome State Fault Refusal :=
  .next (s.receive (.cmd (.errClear h uptoSeq)))

/-- `DIAG_COUNTERS` (R431). -/
def execDiagCounters (h : Hdr) (block : BitVec 5) (clear : Bool) (s : State) : Host.Outcome State Fault Refusal :=
  .next (s.receive (.cmd (.diagCounters h block clear)))

/-- `RESET` (R93). -/
def execReset (h : Hdr) (s : State) : Host.Outcome State Fault Refusal :=
  .next (s.receive (.cmd (.reset h)))

/-- `RESET_MEDIA` (R385). -/
def execResetMedia (h : Hdr) (s : State) : Host.Outcome State Fault Refusal :=
  .next (s.receive (.cmd (.resetMedia h)))

/-- `RESET_FRX` (R385). -/
def execResetFrx (h : Hdr) (port : BitVec 2) (s : State) : Host.Outcome State Fault Refusal :=
  .next (s.receive (.cmd (.resetFrx h port)))

/-- `RESET_DRAM` (R385). -/
def execResetDram (h : Hdr) (channel : BitVec 2) (s : State) : Host.Outcome State Fault Refusal :=
  .next (s.receive (.cmd (.resetDram h channel)))

/-- `RESET_SERVICE` (R385). -/
def execResetService (h : Hdr) (s : State) : Host.Outcome State Fault Refusal :=
  .next (s.receive (.cmd (.resetService h)))

/-- `RESET_FLASH` (R385). -/
def execResetFlash (h : Hdr) (s : State) : Host.Outcome State Fault Refusal :=
  .next (s.receive (.cmd (.resetFlash h)))

end Sys2Proof.Machine
end

