-- ==== Sys2Proof/Machine/SessionCmds.lean ====
section
/-! DEFINITION. The host's commands for session and register commands (spec/03). Each is a packet received whole on
its transport: checked, sequenced and dispatched by R80 and R85 to R90 (`State.receive`, log entry 2); what it does once
dispatched is `State.hostBody`. -/

namespace Sys2Proof.Machine

open Sys2Proof

/-- `NOP` (R92). -/
def execNop (h : Hdr) (s : State) : Host.Outcome State Fault Refusal :=
  .next (s.receive (.cmd (.nop h)))

/-- `SESSION_OPEN` (R83). -/
def execSessionOpen (h : Hdr) (openId : Word) (s : State) : Host.Outcome State Fault Refusal :=
  .next (s.receive (.cmd (.sessionOpen h openId)))

/-- `SESSION_CLOSE` (R84). -/
def execSessionClose (h : Hdr) (s : State) : Host.Outcome State Fault Refusal :=
  .next (s.receive (.cmd (.sessionClose h)))

/-- `REG_READ` (R95). -/
def execRegRead (h : Hdr) (addr : Word) (count : BitVec 8) (s : State) : Host.Outcome State Fault Refusal :=
  .next (s.receive (.cmd (.regRead h addr count)))

/-- `REG_READ_LIVE` (R95). -/
def execRegReadLive (h : Hdr) (addr : Word) (count : BitVec 8) (s : State) : Host.Outcome State Fault Refusal :=
  .next (s.receive (.cmd (.regReadLive h addr count)))

/-- `REG_WRITE` (R95). -/
def execRegWrite (h : Hdr) (addr : Word) (vals : List Word) (s : State) : Host.Outcome State Fault Refusal :=
  .next (s.receive (.cmd (.regWrite h addr vals)))

/-- `REG_MODIFY` (R95). -/
def execRegModify (h : Hdr) (addr mask value : Word) (s : State) : Host.Outcome State Fault Refusal :=
  .next (s.receive (.cmd (.regModify h addr mask value)))

end Sys2Proof.Machine
end

