-- ==== Sys2Proof/Machine/TileEvents.lean ====
section
/-! DEFINITION. Correction and lamp chains of a tile (spec/11, spec/12). -/

namespace Sys2Proof.Machine

open Sys2Proof

/-- `CORRECTION_DEADLINE` (R280). -/
def execCorrectionDeadline (frame : BitVec 64) (phase : BitVec 2) (s : State) : Host.Outcome State Fault Refusal :=
  .next (s.correctionDeadline frame.toNat phase.toNat)

/-- `CORRECTION_DONE` (R280). -/
def execCorrectionDone (s : State) : Host.Outcome State Fault Refusal :=
  .next (s.correctionDone)

/-- `CHAIN_LOAD` (R317). -/
def execChainLoad (frame : BitVec 64) (phase : BitVec 2) (s : State) : Host.Outcome State Fault Refusal :=
  .next (s.chainLoad frame.toNat phase.toNat)

/-- `LATCH_LAUNCH` (R308). -/
def execLatchLaunch (frame : BitVec 64) (phase : BitVec 2) (s : State) : Host.Outcome State Fault Refusal :=
  .next (s.latchLaunch frame.toNat phase.toNat)

/-- `BLANK_LAUNCH` (R67). -/
def execBlankLaunch (frame : BitVec 64) (phase : BitVec 2) (dark : Bool)
    (s : State) : Host.Outcome State Fault Refusal :=
  .next (s.blankLaunch frame.toNat phase.toNat dark)

/-- `DIAG_LAUNCH` (R330). -/
def execDiagLaunch (frame : BitVec 64) (phase : BitVec 2) (s : State) : Host.Outcome State Fault Refusal :=
  .next (s.diagLaunch frame.toNat phase.toNat)

/-- `REPORT_SEND` (R320). -/
def execReportSend (chain : BitVec 7) (s : State) : Host.Outcome State Fault Refusal :=
  .next (s.reportSend chain.toNat)

/-- `RETURN_RECORD` (R321). -/
def execReturnRecord (chain : BitVec 7) (edges : List (BitVec 16 × BitVec 16))
    (s : State) : Host.Outcome State Fault Refusal :=
  .next (s.returnBurst chain.toNat edges)

/-- `CONFIG_LOAD` (R318). -/
def execConfigLoad (chain : BitVec 7) (s : State) : Host.Outcome State Fault Refusal :=
  .next (s.configLoad chain.toNat)

/-- `CHAIN_MEASURE` (R307). -/
def execChainMeasure (echo : ChainEcho) (s : State) : Host.Outcome State Fault Refusal :=
  .next (s.chainMeasure echo.chain.toNat echo.rt)

end Sys2Proof.Machine
end

