-- ==== Sys2Proof/Machine/TransportEvents.lean ====
section
/-! DEFINITION. What arrives on the command transports, and the ends of waits (spec/03). -/

namespace Sys2Proof.Machine

open Sys2Proof

/-- `UDP_DATAGRAM` (R77). -/
def execUdpDatagram (d : Datagram) (s : State) : Host.Outcome State Fault Refusal :=
  .next (s.udpDatagram d)

/-- `COMMAND_SEGMENT` (R81): a segment that has passed what its transport checks. -/
def execCommandSegment (via : Via) (seg : Segment) (s : State) : Host.Outcome State Fault Refusal :=
  .next (s.takeSegment via [] seg)

/-- `REASSEMBLY_TIMEOUT` (R81). -/
def execReassemblyTimeout (via : Via) (pktId : BitVec 16) (s : State) : Host.Outcome State Fault Refusal :=
  .next (s.reassemblyTimeout via pktId)

/-- `HOLD_TIMEOUT` (R87). -/
def execHoldTimeout (slot : BitVec 6) (s : State) : Host.Outcome State Fault Refusal :=
  .next (s.holdTimeout slot.toNat)

/-- `BARRIER_RELEASE` (R102). -/
def execBarrierRelease (slot : BitVec 6) (s : State) : Host.Outcome State Fault Refusal :=
  .next (s.barrierRelease slot.toNat)

/-- `DEFERRED_DISPATCH` (R97). -/
def execDeferredDispatch (slot : BitVec 6) (s : State) : Host.Outcome State Fault Refusal :=
  .next (s.deferredDispatch slot.toNat)

/-- `RELAY_REPLY` (R78). -/
def execRelayReply (cell : Cell) (s : State) : Host.Outcome State Fault Refusal :=
  .next (s.relayReply cell)

/-- `RING_FRAME` (R418). -/
def execRingFrame (f : RingFrame) (s : State) : Host.Outcome State Fault Refusal :=
  .next (s.ringFrame f)

end Sys2Proof.Machine
end

