-- ==== Sys2Proof/Machine/TxnCmds.lean ====
section
/-! DEFINITION. The host's commands for transactions and scheduling (spec/04). Each is a packet received whole on
its transport: checked, sequenced and dispatched by R80 and R85 to R90 (`State.receive`, log entry 2); what it does once
dispatched is `State.hostBody`. -/

namespace Sys2Proof.Machine

open Sys2Proof

/-- `TXN_BEGIN` (R109). -/
def execTxnBegin (h : Hdr) (global : Bool) (s : State) : Host.Outcome State Fault Refusal :=
  .next (s.receive (.cmd (.txnBegin h global)))

/-- `TXN_COMMIT` (R123). -/
def execTxnCommit (h : Hdr) (t : Target) (s : State) : Host.Outcome State Fault Refusal :=
  .next (s.receive (.cmd (.txnCommit h t)))

/-- `TXN_COMMIT_VALIDATE` (R122). -/
def execTxnCommitValidate (h : Hdr) (global : Bool) (t : Target) (s : State) : Host.Outcome State Fault Refusal :=
  .next (s.receive (.cmd (.txnCommitValidate h global t)))

/-- `TXN_COMMIT_GLOBAL` (R125). -/
def execTxnCommitGlobal (h : Hdr) (t : Target) (s : State) : Host.Outcome State Fault Refusal :=
  .next (s.receive (.cmd (.txnCommitGlobal h t)))

/-- `TXN_ABORT` (R112). -/
def execTxnAbort (h : Hdr) (s : State) : Host.Outcome State Fault Refusal :=
  .next (s.receive (.cmd (.txnAbort h)))

/-- `TXN_ABORT_GLOBAL` (R125). -/
def execTxnAbortGlobal (h : Hdr) (t : Target) (s : State) : Host.Outcome State Fault Refusal :=
  .next (s.receive (.cmd (.txnAbortGlobal h t)))

/-- `TXN_QUERY` (R132). -/
def execTxnQuery (h : Hdr) (s : State) : Host.Outcome State Fault Refusal :=
  .next (s.receive (.cmd (.txnQuery h)))

/-- `TXN_QUERY_GLOBAL` (R132). -/
def execTxnQueryGlobal (h : Hdr) (s : State) : Host.Outcome State Fault Refusal :=
  .next (s.receive (.cmd (.txnQueryGlobal h)))

/-- `TXN_PREPARE` (R118). -/
def execTxnPrepare (h : Hdr) (t : Target) (s : State) : Host.Outcome State Fault Refusal :=
  .next (s.receive (.cmd (.txnPrepare h t)))

/-- `SCHED_ACTION` (R130). -/
def execSchedAction (h : Hdr) (t : Target) (opcode : BitVec 8) (payload : List Word)
    (s : State) : Host.Outcome State Fault Refusal :=
  .next (s.receive (.cmd (.schedAction h t opcode payload)))

/-- `SCHED_CANCEL` (R131). -/
def execSchedCancel (h : Hdr) (actionId : BitVec 16) (s : State) : Host.Outcome State Fault Refusal :=
  .next (s.receive (.cmd (.schedCancel h actionId)))

end Sys2Proof.Machine
end

