-- ==== Sys2Proof/Machine/Dispatch.lean ====
section
/-! DEFINITION. Which meaning each command has: one arm a constructor. -/

namespace Sys2Proof.Machine

open Sys2Proof

/-- The effect of a command on everything but the queue. -/
def exec (i : Instr) (s : State) : Host.Outcome State Fault Refusal :=
  match i with
  | .nop h => Sys2Proof.Machine.execNop h s
  | .sessionOpen h openId => Sys2Proof.Machine.execSessionOpen h openId s
  | .sessionClose h => Sys2Proof.Machine.execSessionClose h s
  | .regRead h addr count => Sys2Proof.Machine.execRegRead h addr count s
  | .regReadLive h addr count => Sys2Proof.Machine.execRegReadLive h addr count s
  | .regWrite h addr vals => Sys2Proof.Machine.execRegWrite h addr vals s
  | .regModify h addr mask value => Sys2Proof.Machine.execRegModify h addr mask value s
  | .memRead h addr count => Sys2Proof.Machine.execMemRead h addr count s
  | .memWrite h addr vals => Sys2Proof.Machine.execMemWrite h addr vals s
  | .memFill h addr size pattern => Sys2Proof.Machine.execMemFill h addr size pattern s
  | .memCopy h source dest size => Sys2Proof.Machine.execMemCopy h source dest size s
  | .txnBegin h global => Sys2Proof.Machine.execTxnBegin h global s
  | .txnCommit h t => Sys2Proof.Machine.execTxnCommit h t s
  | .txnCommitValidate h global t => Sys2Proof.Machine.execTxnCommitValidate h global t s
  | .txnCommitGlobal h t => Sys2Proof.Machine.execTxnCommitGlobal h t s
  | .txnAbort h => Sys2Proof.Machine.execTxnAbort h s
  | .txnAbortGlobal h t => Sys2Proof.Machine.execTxnAbortGlobal h t s
  | .txnQuery h => Sys2Proof.Machine.execTxnQuery h s
  | .txnQueryGlobal h => Sys2Proof.Machine.execTxnQueryGlobal h s
  | .txnPrepare h t => Sys2Proof.Machine.execTxnPrepare h t s
  | .fenceSignal h fence value frame => Sys2Proof.Machine.execFenceSignal h fence value frame s
  | .fenceSignalReset h fence value frame => Sys2Proof.Machine.execFenceSignalReset h fence value frame s
  | .fenceQuery h m0 m1 => Sys2Proof.Machine.execFenceQuery h m0 m1 s
  | .layerFlip h g buf fence noFence wait frame => Sys2Proof.Machine.execLayerFlip h g buf fence noFence wait frame s
  | .schedAction h t opcode payload => Sys2Proof.Machine.execSchedAction h t opcode payload s
  | .schedCancel h actionId => Sys2Proof.Machine.execSchedCancel h actionId s
  | .opStatus h mask => Sys2Proof.Machine.execOpStatus h mask s
  | .opResult h slot gen offset count => Sys2Proof.Machine.execOpResult h slot gen offset count s
  | .opRelease h slot gen => Sys2Proof.Machine.execOpRelease h slot gen s
  | .fabProbe h routeLen fwd => Sys2Proof.Machine.execFabProbe h routeLen fwd s
  | .fabAssign h routeLen newAddr fwd serial => Sys2Proof.Machine.execFabAssign h routeLen newAddr fwd serial s
  | .fabRouteSet h first setDef defPorts entries => Sys2Proof.Machine.execFabRouteSet h first setDef defPorts entries s
  | .fabPathTest h target plen count => Sys2Proof.Machine.execFabPathTest h target plen count s
  | .tableLoad h table fromFlash addr size => Sys2Proof.Machine.execTableLoad h table fromFlash addr size s
  | .tableVerify h table => Sys2Proof.Machine.execTableVerify h table s
  | .lampScan h chainMask faults stale all ageMin addr maxCount => Sys2Proof.Machine.execLampScan h chainMask faults stale all ageMin addr maxCount s
  | .lampReport h chain driver first count => Sys2Proof.Machine.execLampReport h chain driver first count s
  | .calRun h ports full => Sys2Proof.Machine.execCalRun h ports full s
  | .calStore h ports => Sys2Proof.Machine.execCalStore h ports s
  | .redJoin h pairSrc ranges => Sys2Proof.Machine.execRedJoin h pairSrc ranges s
  | .redState h => Sys2Proof.Machine.execRedState h s
  | .redSwitch h sel => Sys2Proof.Machine.execRedSwitch h sel s
  | .fwStage h area fromDram offset size addr data => Sys2Proof.Machine.execFwStage h area fromDram offset size addr data s
  | .fwVerify h => Sys2Proof.Machine.execFwVerify h s
  | .fwMolt h advanceSvn => Sys2Proof.Machine.execFwMolt h advanceSvn s
  | .attest h nonce pubkey => Sys2Proof.Machine.execAttest h nonce pubkey s
  | .instarAdvance h target confirm blownA blownB => Sys2Proof.Machine.execInstarAdvance h target confirm blownA blownB s
  | .errRead h firstSeq count => Sys2Proof.Machine.execErrRead h firstSeq count s
  | .errClear h uptoSeq => Sys2Proof.Machine.execErrClear h uptoSeq s
  | .diagPatternStop h port lanes pattern arg => Sys2Proof.Machine.execDiagPatternStop h port lanes pattern arg s
  | .diagPatternGenerate h port lanes pattern arg => Sys2Proof.Machine.execDiagPatternGenerate h port lanes pattern arg s
  | .diagPatternCheck h port lanes pattern arg => Sys2Proof.Machine.execDiagPatternCheck h port lanes pattern arg s
  | .diagPatternGenerateCheck h port lanes pattern arg => Sys2Proof.Machine.execDiagPatternGenerateCheck h port lanes pattern arg s
  | .diagPatternLoopback h port lanes pattern arg => Sys2Proof.Machine.execDiagPatternLoopback h port lanes pattern arg s
  | .diagPatternInjectBit h port lanes pattern arg => Sys2Proof.Machine.execDiagPatternInjectBit h port lanes pattern arg s
  | .diagPatternInjectLcb h port lanes pattern arg => Sys2Proof.Machine.execDiagPatternInjectLcb h port lanes pattern arg s
  | .diagPatternLampStart h pattern arg => Sys2Proof.Machine.execDiagPatternLampStart h pattern arg s
  | .diagPatternLampStop h pattern arg => Sys2Proof.Machine.execDiagPatternLampStop h pattern arg s
  | .diagCounters h block clear => Sys2Proof.Machine.execDiagCounters h block clear s
  | .reset h => Sys2Proof.Machine.execReset h s
  | .resetMedia h => Sys2Proof.Machine.execResetMedia h s
  | .resetFrx h port => Sys2Proof.Machine.execResetFrx h port s
  | .resetDram h channel => Sys2Proof.Machine.execResetDram h channel s
  | .resetService h => Sys2Proof.Machine.execResetService h s
  | .resetFlash h => Sys2Proof.Machine.execResetFlash h s
  | .sysModeReq target => Sys2Proof.Machine.execSysModeReq target s
  | .roleSet role => Sys2Proof.Machine.execRoleSet role s
  | .timeSrcWrite value => Sys2Proof.Machine.execTimeSrcWrite value s
  | .snap => Sys2Proof.Machine.execSnap s
  | .reacquire => Sys2Proof.Machine.execReacquire s
  | .set => Sys2Proof.Machine.execSet s
  | .adj => Sys2Proof.Machine.execAdj s
  | .timeCntClr => Sys2Proof.Machine.execTimeCntClr s
  | .ethModeWrite fec value => Sys2Proof.Machine.execEthModeWrite fec value s
  | .ingCntClr stream => Sys2Proof.Machine.execIngCntClr stream s
  | .lnkRetrain port => Sys2Proof.Machine.execLnkRetrain port s
  | .lnkDeep port on => Sys2Proof.Machine.execLnkDeep port on s
  | .ldrMeasure => Sys2Proof.Machine.execLdrMeasure s
  | .ldrCntClr => Sys2Proof.Machine.execLdrCntClr s
  | .enrol slot readbackOk => Sys2Proof.Machine.execEnrol slot readbackOk s
  | .epoch slot value => Sys2Proof.Machine.execEpoch slot value s
  | .secProof slot word3 => Sys2Proof.Machine.execSecProof slot word3 s
  | .inService channel on => Sys2Proof.Machine.execInService channel on s
  | .bankSetOwner bank owner => Sys2Proof.Machine.execBankSetOwner bank owner s
  | .bankSetPwr bank pwr => Sys2Proof.Machine.execBankSetPwr bank pwr s
  | .udpDatagram d => Sys2Proof.Machine.execUdpDatagram d s
  | .commandSegment via seg => Sys2Proof.Machine.execCommandSegment via seg s
  | .reassemblyTimeout via pktId => Sys2Proof.Machine.execReassemblyTimeout via pktId s
  | .holdTimeout slot => Sys2Proof.Machine.execHoldTimeout slot s
  | .barrierRelease slot => Sys2Proof.Machine.execBarrierRelease slot s
  | .deferredDispatch slot => Sys2Proof.Machine.execDeferredDispatch slot s
  | .relayReply cell => Sys2Proof.Machine.execRelayReply cell s
  | .ringFrame f => Sys2Proof.Machine.execRingFrame f s
  | .memFillDone slot => Sys2Proof.Machine.execMemFillDone slot s
  | .memCopyDone slot => Sys2Proof.Machine.execMemCopyDone slot s
  | .fabProbeDone slot => Sys2Proof.Machine.execFabProbeDone slot s
  | .fabAssignDone slot => Sys2Proof.Machine.execFabAssignDone slot s
  | .fabPathTestDone slot => Sys2Proof.Machine.execFabPathTestDone slot s
  | .tableLoadDone slot => Sys2Proof.Machine.execTableLoadDone slot s
  | .tableVerifyDone slot => Sys2Proof.Machine.execTableVerifyDone slot s
  | .lampScanDone slot => Sys2Proof.Machine.execLampScanDone slot s
  | .calRunDone slot results => Sys2Proof.Machine.execCalRunDone slot results s
  | .calStoreDone slot readbackOk => Sys2Proof.Machine.execCalStoreDone slot readbackOk s
  | .fwStageDone slot failBlock => Sys2Proof.Machine.execFwStageDone slot failBlock s
  | .fwVerifyDone slot => Sys2Proof.Machine.execFwVerifyDone slot s
  | .attestDone slot nvmOk => Sys2Proof.Machine.execAttestDone slot nvmOk s
  | .wingbeat => Sys2Proof.Machine.execWingbeat s
  | .applyInstant => Sys2Proof.Machine.execApplyInstant s
  | .molt directoryOk => Sys2Proof.Machine.execMolt directoryOk s
  | .modeChangeComplete => Sys2Proof.Machine.execModeChangeComplete s
  | .autoTargetStep => Sys2Proof.Machine.execAutoTargetStep s
  | .periodicTimeCell tOut => Sys2Proof.Machine.execPeriodicTimeCell tOut s
  | .timeCell c => Sys2Proof.Machine.execTimeCell c s
  | .upstreamLoss => Sys2Proof.Machine.execUpstreamLoss s
  | .sourceLoss => Sys2Proof.Machine.execSourceLoss s
  | .ptpAnnounce m => Sys2Proof.Machine.execPtpAnnounce m s
  | .ptpSync m => Sys2Proof.Machine.execPtpSync m s
  | .ptpDelayResp m => Sys2Proof.Machine.execPtpDelayResp m s
  | .delayReq t3s launch => Sys2Proof.Machine.execDelayReq t3s launch s
  | .fsyncIn => Sys2Proof.Machine.execFsyncIn s
  | .ppsIn => Sys2Proof.Machine.execPpsIn s
  | .ppsOut => Sys2Proof.Machine.execPpsOut s
  | .linkDelayMeasure port roundTrip turn => Sys2Proof.Machine.execLinkDelayMeasure port roundTrip turn s
  | .delayMarkTimeout port => Sys2Proof.Machine.execDelayMarkTimeout port s
  | .ethModeApply => Sys2Proof.Machine.execEthModeApply s
  | .arpRequest port targetIp senderIp senderMac => Sys2Proof.Machine.execArpRequest port targetIp senderIp senderMac s
  | .igmpQuery port version group => Sys2Proof.Machine.execIgmpQuery port version group s
  | .igmpReportRepeat port => Sys2Proof.Machine.execIgmpReportRepeat port s
  | .rtpPacket p => Sys2Proof.Machine.execRtpPacket p s
  | .bufferDeadline stream buffer => Sys2Proof.Machine.execBufferDeadline stream buffer s
  | .streamLost stream => Sys2Proof.Machine.execStreamLost stream s
  | .composeLine notOnDie => Sys2Proof.Machine.execComposeLine notOnDie s
  | .lineLeavesBlender wbRoom => Sys2Proof.Machine.execLineLeavesBlender wbRoom s
  | .cellArbitration port => Sys2Proof.Machine.execCellArbitration port s
  | .fabricCell port cell => Sys2Proof.Machine.execFabricCell port cell s
  | .probeCell port cell => Sys2Proof.Machine.execProbeCell port cell s
  | .svcCell port cell => Sys2Proof.Machine.execSvcCell port cell s
  | .creditReturn port => Sys2Proof.Machine.execCreditReturn port s
  | .routeHoldExpiry => Sys2Proof.Machine.execRouteHoldExpiry s
  | .linkFrame port lanes => Sys2Proof.Machine.execLinkFrame port lanes s
  | .replayTimeout port => Sys2Proof.Machine.execReplayTimeout port s
  | .trainingAdvance port obs => Sys2Proof.Machine.execTrainingAdvance port obs s
  | .trainingTimeout port obs => Sys2Proof.Machine.execTrainingTimeout port obs s
  | .forwardedClockLoss port => Sys2Proof.Machine.execForwardedClockLoss port s
  | .lightIdleEntry port => Sys2Proof.Machine.execLightIdleEntry port s
  | .lightIdleExit port => Sys2Proof.Machine.execLightIdleExit port s
  | .deepIdleEios port => Sys2Proof.Machine.execDeepIdleEios port s
  | .adaptWindow port lane transitions ctleStep dfeSteps => Sys2Proof.Machine.execAdaptWindow port lane transitions ctleStep dfeSteps s
  | .tempCheck temp => Sys2Proof.Machine.execTempCheck temp s
  | .recalStep port lane eye => Sys2Proof.Machine.execRecalStep port lane eye s
  | .rasterCell port cell => Sys2Proof.Machine.execRasterCell port cell s
  | .correctionDeadline frame phase => Sys2Proof.Machine.execCorrectionDeadline frame phase s
  | .correctionDone => Sys2Proof.Machine.execCorrectionDone s
  | .chainLoad frame phase => Sys2Proof.Machine.execChainLoad frame phase s
  | .latchLaunch frame phase => Sys2Proof.Machine.execLatchLaunch frame phase s
  | .blankLaunch frame phase dark => Sys2Proof.Machine.execBlankLaunch frame phase dark s
  | .diagLaunch frame phase => Sys2Proof.Machine.execDiagLaunch frame phase s
  | .reportSend chain => Sys2Proof.Machine.execReportSend chain s
  | .returnRecord chain edges => Sys2Proof.Machine.execReturnRecord chain edges s
  | .configLoad chain => Sys2Proof.Machine.execConfigLoad chain s
  | .chainMeasure echo => Sys2Proof.Machine.execChainMeasure echo s
  | .linkLoss => Sys2Proof.Machine.execLinkLoss s
  | .redSwitched cause => Sys2Proof.Machine.execRedSwitched cause s
  | .promote => Sys2Proof.Machine.execPromote s
  | .joinRequest port src pairSrc ranges => Sys2Proof.Machine.execJoinRequest port src pairSrc ranges s
  | .joinCopyCell addr data => Sys2Proof.Machine.execJoinCopyCell addr data s
  | .snapshotCapture joinerExpected => Sys2Proof.Machine.execSnapshotCapture joinerExpected s
  | .snapshotInstall sn => Sys2Proof.Machine.execSnapshotInstall sn s
  | .joinFail cause => Sys2Proof.Machine.execJoinFail cause s
  | .scrubStep addr => Sys2Proof.Machine.execScrubStep addr s
  | .refreshCheck rates => Sys2Proof.Machine.execRefreshCheck rates s
  | .channelTrainingDone channel r => Sys2Proof.Machine.execChannelTrainingDone channel r s
  | .regionWiped region => Sys2Proof.Machine.execRegionWiped region s
  | .bankDrainDone bank => Sys2Proof.Machine.execBankDrainDone bank s
  | .bankPowerDone bank => Sys2Proof.Machine.execBankPowerDone bank s
  | .refclkLost => Sys2Proof.Machine.execRefclkLost s
  | .pllUnlock pll => Sys2Proof.Machine.execPllUnlock pll s
  | .pllRelock pll => Sys2Proof.Machine.execPllRelock pll s
  | .domainResetRelease kind => Sys2Proof.Machine.execDomainResetRelease kind s
  | .eventCrossing k sub => Sys2Proof.Machine.execEventCrossing k sub s
  | .resetN lowNs => Sys2Proof.Machine.execResetN lowNs s
  | .supplyDrop => Sys2Proof.Machine.execSupplyDrop s
  | .deviceReset => Sys2Proof.Machine.execDeviceReset s
  | .eclosion => Sys2Proof.Machine.execEclosion s
  | .powerOn => Sys2Proof.Machine.execPowerOn s
  | .linkUp port up fec => Sys2Proof.Machine.execLinkUp port up fec s
  | .lightIdleEios port => Sys2Proof.Machine.execLightIdleEios port s
  | .fts port => Sys2Proof.Machine.execFts port s
  | .bridgedPtpMessage m => Sys2Proof.Machine.execBridgedPtpMessage m s
  | .pulseEnd fsync => Sys2Proof.Machine.execPulseEnd fsync s
  | .jtagAccess op => Sys2Proof.Machine.execJtagAccess op s
  | .pathTestSend slot => Sys2Proof.Machine.execPathTestSend slot s

end Sys2Proof.Machine
end

