-- ==== Sys2Proof/Machine/Tick.lean ====
section
/-! DEFINITION. One CCLK tick with no command (R35, R37): what an empty queue makes of a step (log entry 1). -/

namespace Sys2Proof.Machine

open Sys2Proof

/-- Running movers process bytes (R98); how many in a tick is the mover's and free (log entry 54). `PROGRESS` follows. -/
def State.moverTick (s : State) : State :=
  s.updCmd fun c => { c with ops := (List.zip (List.range 16) c.ops).map fun e =>
    let o := e.2
    let size := match o.kind with
      | .memFill _ n _ => n
      | .memCopy _ _ n => n
      | _ => 0
    if o.st = 1 ∧ size ≠ 0 then
      let done := min size (o.processed + Config.free 98 [s.tick, e.1])
      { o with processed := done, progress := BitVec.ofNat 8 (done * 100 / size) }
    else o }

/-- The 1 ms of what was written to `ETH_MODE` and `ETH_FEC` begins once no reply of the device has still to leave (R135; log
entry 60). -/
def State.ethWait (s : State) : State :=
  if s.replyQueued then s
  else s.updEth fun e => { e with waiting := e.waiting.map fun x =>
    if x.answered then x else { x with answered := true, due := s.tick + usTicks 1000 } }

/-- The local clock advances by the tick's increment (R37), while there is a supply (R444), and wraps with `SEC` (R36); the link
frames due leave (R232),
domain resets that wait for their reply begin (R386), the service ring's line takes its next frame (R418), running movers
go on (R98), the scrubber's write-backs reach memory (R369), and a join copies on (R350). -/
def State.advance (s : State) : State :=
  let s := s.scrubFlush.ethWait
  let clk := if s.sys.pwrOff then s.clk else wrapTime ((s.clk + s.inc : Nat) : Int)
  let s : State := { s with tick := s.tick + 1, clk := clk }
  s.sendDue.domainDue.ringSend.moverTick.servePump.joinWork

end Sys2Proof.Machine
end

