-- ==== Sys2Proof/WellFormed.lean ====
section
/-! DEFINITION. Which commands are well formed: every count fits the field that carries it, every number names something
the device has. A command packet that decodes is well formed. -/

namespace Sys2Proof

/-- Payload words a packet holds at most (R70, R89 check 1). -/
def maxLen : Nat := 16383

/-- The limits of a command's operands, one for each operand that its type does not limit. -/
def Instr.wellFormed : Instr → Bool
  | .regWrite _ _ vals => decide (vals.length ≤ maxLen - 1)
  | .memWrite _ _ vals => decide (vals.length ≤ maxLen - 2)
  | .schedAction _ _ _ payload => decide (payload.length ≤ maxLen - 5)
  | .fabRouteSet _ _ _ _ entries => decide (entries.length ≤ 255)
  | .redJoin _ _ ranges => decide (ranges.length ≤ 31)
  | .fwStage _ _ _ _ _ _ data => decide (data.length ≤ maxLen - 5)
  | .attest _ nonce _ => decide (nonce.length = 8)
  | .bankSetOwner bank _ => decide (bank.toNat < 48)
  | .bankSetPwr bank _ => decide (bank.toNat < 48)
  | .bankDrainDone bank => decide (bank.toNat < 48)
  | .bankPowerDone bank => decide (bank.toNat < 48)
  | .domainResetRelease kind => decide (1 ≤ kind.toNat ∧ kind.toNat ≤ 11)
  | .eventCrossing k _ => decide (7 ≤ k.toNat ∧ k.toNat ≤ 14)
  | _ => true

end Sys2Proof
end

