-- ==== Sys2Proof/Safety.lean ====
section
/-! DEFINITION. The terms the statements use: canonical forms, a host packet at its turn, its answer. -/

namespace Sys2Proof.Machine

open Sys2Proof

/-- The canonical form of memory: addresses strictly rising, no entry equal to what an unlisted byte reads as. -/
def Memory.wf (m : List Host.Cell) : Bool := sparseWf (fun _ => 0) m

/-- The canonical form of the register file. -/
def regsWf (r : List (Nat × Word)) : Bool := sparseWf resetWord r

/-- The state in which a host packet acts: its session has taken its transport and advanced its expected value, and the
packet is counted (R77, R86, R89). -/
def State.turn (s : State) (c : Instr) (k : Nat) : State :=
  ((s.updSess k fun e => { e with via := nextVia e.via (Item.cmd c).hdr.via }).updSess k fun e =>
    { e with expected := e.expected + 1 }).bump (F.CMD_CNT_COUNT 0)

/-- The session a packet acts for. -/
def State.who (s : State) (k : Nat) : Who := ⟨(s.sess k).uid, BitVec.ofNat 6 k, (s.sess k).src⟩

/-- A host packet's turn comes: its transport is open (R14, R25), it is for this device (R80), session `k` is its own and on
its transport (R82, R85), its `SEQ` is the next expected one and nothing is held or waits (R86, R102). -/
def State.atTurn (s : State) (c : Instr) (k : Nat) : Bool :=
  let it := Item.cmd c
  let e := s.sess k
  s.accepts it.hdr.via && s.executes it.hdr && it.opcode != 0x01 && s.sessionOf it.hdr.src == some k &&
    viaNumber e.via == viaNumber it.hdr.via && it.hdr.seq == e.expected && !s.joinHolds k && e.held == [] &&
    e.waiting == [] && e.assigning == none

/-- A host packet finds nothing in its way: its turn comes, it passes checks 1 to 7 of R89, `x` being the transaction it joins,
and no barrier stops it. -/
def State.ready (s : State) (c : Instr) (k : Nat) (x : Option Txn) : Bool :=
  s.atTurn c k &&
    (match (s.turn c k).checkPacket (s.sess k).uid (.cmd c) with
      | .ok y => y == x
      | .error _ => false) &&
    !((Item.cmd c).barrier && (s.turn c k).opsRunning (s.sess k).uid)

/-- The state after a packet's answer: `u` is what its body left, `st` and `ws` the status and payload of the reply, which
is sent and kept (R71, R88, R90). -/
def State.answered (u : State) (s : State) (c : Instr) (k : Nat) (st : BitVec 8) (ws : List Word) : State :=
  (u.finishItem k (nextVia (s.sess k).via (Item.cmd c).hdr.via) (.cmd c) st ws).releaseAll k

/-- A state answers a packet with a status and payload: the packet's turn comes, and `u` is what its body leaves. -/
def Answers (s : State) (c : Instr) (k : Nat) (st : BitVec 8) (ws : List Word) (u : State) : Prop :=
  exec c s = .next (u.answered s c k st ws)

/-- A packet starts a long operation (R99): slot `j` runs `kind`, the answer is `ACCEPTED` with the slot's number and
generation, and `after` is what the start does beside. -/
def Starts (s : State) (c : Instr) (k j : Nat) (kind : OpKind) (after : State → State) : Prop :=
  let u := (s.turn c k).startOp (s.who k) j (Item.cmd c).opcode kind
  Answers s c k Status.accepted (u.opReply j) (after u)

/-- An operation of kind `kind` is RUNNING in slot `j`, for a session that still exists. -/
def State.runs (s : State) (j : Nat) (kind : OpKind) : Prop :=
  j < s.cmd.ops.length ∧ (s.op j).st = 1 ∧ (s.op j).orphan = false ∧ (s.op j).kind = kind

/-- Slot `j` is DONE with a final status and a result (R100). -/
def State.ended (s : State) (j : Nat) (final : BitVec 8) (result : List Word) : Prop :=
  (s.op j).st = 2 ∧ (s.op j).final = final ∧ (s.op j).result = result ∧ (s.op j).progress = 100

/-- Checks 3 to 7 of R118 for a transaction `x` and a target: a target of the grid at instant `a`, in time (R115), in order
(R119), with a place free (R113), and feasible (R120); `y` is the transaction as accepted in state `st`. -/
def Accepted (t : State) (x y : Txn) (g : Target) (st : TxnState) (a : Aim) : Prop :=
  t.aim x.entries g = some a ∧ t.leadFault a.at_ = 0 ∧ t.outOfOrder x a.at_ = false ∧
    (x.state = .uncertain ∨ t.pendUsed < 16) ∧
    y = { x with
      state := st, frame := a.frame, phase := g.p.toNat, at_ := a.at_, beat := a.beat, begun := false, gotCommit := false,
      gotAbort := false,
      accepted := if st = .pending then t.txn.seq else 0,
      pend := if x.state = .uncertain then x.pend else t.pendFree } ∧
    (x.entries = [] ∨ t.txnInfeasible y a = none)

/-- Domain `kind` is held in reset for its time, and no domain more than before; `CLK_DOM_STAT` shows it in reset, its kind as
the last and one reset more (R385, R386). -/
def DomainHeld (s u : State) (kind : Nat) : Prop :=
  (∃ r ∈ u.cdc.resets, r.kind.toNat = kind ∧ r.done = s.tick + domTicks kind) ∧
    (∀ i, i ≠ kind → u.domBusy i = s.domBusy i) ∧ bitOf (u.fld F.CLK_DOM_STAT_IN_RESET) (kind - 1) = true ∧
    u.fld F.CLK_DOM_STAT_LAST_KIND = kind ∧
    u.fld F.CLK_DOM_STAT_RESETS = min (s.fld F.CLK_DOM_STAT_RESETS + 1) (2 ^ F.CLK_DOM_STAT_RESETS.w - 1) ∧ u.mem = s.mem

/-- What `RESET` of a domain leaves (R386): with `NO_REPLY` the domain is held in reset at once, otherwise its reset waits, with
those that waited, and nothing is held that was not. -/
def DomainAsked (s u : State) (h : Hdr) (kind : Nat) : Prop :=
  if h.noReply then DomainHeld s u kind
  else BitVec.ofNat 4 kind ∈ u.cdc.due ∧ (∀ d ∈ s.cdc.due, d ∈ u.cdc.due) ∧ u.cdc.resets = s.cdc.resets ∧ u.mem = s.mem

/-- A wingbeat has come already in this tick, and how fences and flips stood before it is kept (R180). -/
def State.gated (s : State) : Bool := s.cmp.gate.any fun g => g.tick == s.tick

/-- A command on fences and flips whose meaning is `body` counts as before a wingbeat of its own tick (R180): it acts on fences and
flips as the wingbeat found them, and the wingbeat's gating and digest are taken again after it. -/
def CountsBefore (s : State) (c : Instr) (k : Nat) (body : State → Res) : Prop :=
  ∀ (g : Gate) (st : BitVec 8) (ws : List Word) (u : State), s.cmp.gate = some g → g.tick = s.tick →
    body ((s.turn c k).ungate g) = .done st ws u →
    Answers s c k st ws (((u.gateBeat g.frame g.before).updTm fun m =>
      { m with nextFrame := s.tm.nextFrame, curFrame := s.tm.curFrame }).redDigest g.frame)

/-- The datagrams of segments for host `host`, each under the key number `key` while a key is held, to an address with the `KEY_ID` it
was asked under; the last comes first (R76, R77). -/
def State.datagrams (s : State) (ip : BitVec 32) (port : BitVec 16) (keyId key : BitVec 8) (host : BitVec 16)
    (segs : List (List Byte)) : List Out :=
  match s.ownerKeyOf key.toNat with
  | some owner => (segs.map fun g => .datagram ip port (datagramBytes owner (host ++ 0#8 ++ keyId) g)).reverse
  | none => []

/-- The registers `a` to `a + 4 (n - 1)` may be named by a register command (R95). -/
def regsNamed (a : Word) (n : Nat) : Prop := a.toNat % 4 = 0 ∧ a.toNat + 4 * n ≤ 2 ^ 32

/-- High and low times of symbols as a receiver sees them where they are nominal, in 1/16 tick (R300, R301). -/
def nominalEdges (l : List LdSymbol) : List (BitVec 16 × BitVec 16) :=
  l.map fun x => (BitVec.ofNat 16 (16 * x.high), BitVec.ofNat 16 (16 * x.low))

end Sys2Proof.Machine
end

