-- ==== Sys2Proof/Certificates/Slice0/Obligations.lean ====
section
/-! DEFINITION. The statements of the rules that the provers prove: what each command does, what it leaves, and what the
parts of the machine keep. -/

open Sys2Proof Sys2Proof.Machine

/-! ## Steps, packets, answers -/

/-- A block takes its commands one by one: a step with a command at the front of the queue is that command's effect on
the state with the queue's rest. -/
def Obligations.StepRunsFrontCommand : Prop :=
  ∀ (s : State) (c : Instr) (rest : List Instr), s.pending = c :: rest → step s = exec c { s with pending := rest }

/-- With no command waiting a step is one CCLK tick: the tick count rises by one and the local clock by its increment
(R36, R37), while there is a supply (R444); sessions and transactions stay, and so does memory while the scrubber has
nothing to write back (R369) and no join is under way (R350). That an empty queue makes a tick is the model's choice
(log entry 1). -/
def Obligations.IdleStepIsOneTick : Prop :=
  ∀ s : State, s.pending = [] → ∃ t, step s = .next t ∧ t.tick = s.tick + 1 ∧
    t.clk = (if s.sys.pwrOff = true then s.clk else wrapTime ((s.clk + s.inc : Nat) : Int)) ∧ t.txn = s.txn ∧ t.cmd.sess = s.cmd.sess ∧ t.pending = [] ∧
    (s.memc.scrubBack = [] → s.red.join = none → t.mem = s.mem)

/-- That a row of the opcode table for a host command is the receipt of its packet, reassembled whole, is the model's
choice (log entry 2); what a packet then undergoes is R89. R85: a packet whose `SRC` holds no session is refused with
`NOT_READY`, reason NO_SESSION (that this refusal counts nothing is deduced, log entry 37); but a `NOP` acts at once,
and where its `SRC` holds a session it is sequenced as any packet; `SESSION_OPEN` opens one
(`SessionCommandsComplete`). -/
def Obligations.PacketsWithoutASession : Prop :=
  (∀ (c : Instr) (s : State), hostParts c ≠ none → exec c s = .next (s.receive (.cmd c))) ∧
  ((∀ (s : State) (c : Instr), hostParts c ≠ none → s.accepts (Item.cmd c).hdr.via = true →
    s.executes (Item.cmd c).hdr = true → s.sessionOf (Item.cmd c).hdr.src = none →
    (Item.cmd c).opcode ≠ 0x00 → (Item.cmd c).opcode ≠ 0x01 →
    exec c s = .next (s.answer (Item.cmd c).hdr.via (.cmd c) Status.notReady [reasonWord Reason.noSession 0])) ∧
  (∀ (s : State) (h : Hdr), s.accepts h.via = true → s.executes h = true → s.sessionOf h.src = none → h.txnId = 0 →
    exec (.nop h) s = .next ((s.bump (F.CMD_CNT_COUNT 0)).answer h.via (.cmd (.nop h)) Status.ok
      [s.word 0x110, s.word 0x120])) ∧
  (∀ (s : State) (h : Hdr) (k : Nat), s.accepts h.via = true → s.executes h = true → s.sessionOf h.src = some k →
    viaNumber (s.sess k).via = viaNumber h.via →
    exec (.nop h) s = .next ((s.updSess k fun e => { e with via := nextVia e.via h.via }).sequence k (.cmd (.nop h)))) ∧
  (∀ (s : State) (h : Hdr) (o : Word), s.accepts h.via = true → s.executes h = true →
    exec (.sessionOpen h o) s = .next (s.unsequenced (.cmd (.sessionOpen h o)))))

/-- R70 to R72, R81 and the layouts of the commands: a well-formed host command, laid out as its packet, is read back
as itself with every operand. The packet's words are its four header words and its payload, from which the header is
read back whole; its bytes are those words and the CRC-32C over them, 20 more than its payload has, and reassembled
they are received as that packet. -/
def Obligations.DecodeOfEncodeIsTheCommand : Prop :=
  ∀ (c : Instr) (p : Packet), c.wellFormed = true → encodePacket c = some p →
    decodePacket (fusesOf c) p = some c ∧ packetOf p.hdr.via (packetWords p) = p ∧
    (packetBytes (packetWords p)).length = 20 + 4 * p.payload.length ∧
    bytesWords (packetBytes (packetWords p)) = packetWords p ++ [crc32c (wordsBytes (packetWords p))] ∧
    ∀ (s : State) (srcs : List (BitVec 16)) (g : Segment), (∀ x ∈ srcs, x = p.hdr.src) →
      s.packetDone p.hdr.via srcs g (packetBytes (packetWords p)) =
        s.receive (.raw p) (some (g.pktId, packetBytes (packetWords p)))

/-- R71, R76, R77, R88, R90: the reply of a packet answered by UDP, unless `NO_REPLY` suppresses it, goes to the
session's transport with opcode + 0x80, the packet's `TAG` and `SEQ`: each segment as one datagram of segment word,
key word, bytes and tag, while a key is held. A payload of at most 250 words is kept for duplicates. Nothing else of
the body's outcome changes. That a reply leaves where some media port can transmit is the model's choice (log entry
51). Said for packets by UDP other than `SESSION_CLOSE`, whose session ends; replies by the fabric and the ring are
not spoken of here. -/
def Obligations.AnswerIsSentAndKept : Prop :=
  ∀ (s u : State) (c : Instr) (k : Nat) (st : BitVec 8) (ws : List Word) (ip : BitVec 32) (port : BitVec 16)
    (keyId key : BitVec 8),
    (u.sess k).held = [] → k < u.cmd.sess.length → (Item.cmd c).opcode ≠ 0x02 →
    nextVia (s.sess k).via (Item.cmd c).hdr.via = .udp ip port keyId key →
    let h := (Item.cmd c).hdr
    let r := replyTo h (Item.cmd c).opcode u.addr st ws
    let grams := u.datagrams ip port keyId key r.dst
      ((segmentsOf (r.seq.setWidth 16) (packetBytes (replyWords r))).map segBytes)
    let t := u.answered s c k st ws
    t.regs = u.regs ∧ t.mem = u.mem ∧ t.txn = u.txn ∧ t.cmd.ops = u.cmd.ops ∧
    t.out = (if h.noReply = true ∧ (st = Status.ok ∨ st = Status.accepted) then u.out
      else if u.udpOut = true then .reply (.udp ip port keyId key) r :: (grams ++ u.out)
      else u.out) ∧
    (t.sess k).kept = (if ws.length ≤ 250 then (r :: (u.sess k).kept).take 16 else (u.sess k).kept)

/-- R88: a packet behind its session's expected value is not executed again: registers change in the counter of
duplicates alone, memory, transactions and operations not at all, and its expected value stays. Where its reply is
kept, that reply is sent again, unless the duplicate has `NO_REPLY` and the kept status is OK or ACCEPTED; else it is
answered `DELAYED` while its original waits, and `NO_RESULT` otherwise. Said for UDP, whose replies touch no counter
of their own; that they leave where some media port can transmit is the model's choice (log entry 51). R86, R87: a
packet 1,024 or more ahead is answered `ORDER_GAP` with reason `TOO_FAR` and the expected value, is counted in
`CMD_CNT[6]` and executes nothing; said for UDP, where some media port can transmit (log entry 51). -/
def Obligations.OutOfOrderPacketsAreNotExecuted : Prop :=
  (∀ (s : State) (c : Instr) (k : Nat) (ip : BitVec 32) (port : BitVec 16) (keyId key : BitVec 8),
    (Item.cmd c).hdr.via = .udp ip port keyId key → s.accepts (Item.cmd c).hdr.via = true →
    s.executes (Item.cmd c).hdr = true → (Item.cmd c).opcode ≠ 0x01 → hostParts c ≠ none →
    s.sessionOf (Item.cmd c).hdr.src = some k → viaNumber (s.sess k).via = 1 →
    2 ^ 31 ≤ distance (s.sess k).expected (Item.cmd c).hdr.seq →
    let e := s.sess k
    let h := (Item.cmd c).hdr
    let waits := (e.waiting.any fun w => w.item.hdr.seq == h.seq) ||
      e.assigning.any fun x => ((hdrOf x).getD noHdr).seq == h.seq
    let answer : Option Reply := match e.kept.find? fun r => r.seq == h.seq with
      | some r => if h.noReply = true ∧ (r.status = Status.ok ∨ r.status = Status.accepted) then none else some r
      | none => some (replyTo h (Item.cmd c).opcode s.addr (if waits = true then Status.delayed else Status.noResult) [])
    ∃ t, exec c s = .next t ∧ t.mem = s.mem ∧ t.txn = s.txn ∧ t.cmd.ops = s.cmd.ops ∧
      (t.sess k).expected = e.expected ∧ (∀ a, a ≠ (F.CMD_CNT_COUNT 5).addr → t.word a = s.word a) ∧
      t.fld (F.CMD_CNT_COUNT 5) = min (s.fld (F.CMD_CNT_COUNT 5) + 1) (2 ^ 32 - 1) ∧
      (answer = none → t.out = s.out) ∧
      (∀ r, answer = some r → s.udpOut = true → t.out.head? = some (.reply (nextVia e.via h.via) r))) ∧
  (∀ (s : State) (c : Instr) (k : Nat) (ip : BitVec 32) (port : BitVec 16) (keyId key : BitVec 8),
    (Item.cmd c).hdr.via = .udp ip port keyId key → s.accepts (Item.cmd c).hdr.via = true →
    s.executes (Item.cmd c).hdr = true → (Item.cmd c).opcode ≠ 0x01 → hostParts c ≠ none →
    s.sessionOf (Item.cmd c).hdr.src = some k → viaNumber (s.sess k).via = 1 →
    1024 ≤ distance (s.sess k).expected (Item.cmd c).hdr.seq →
    distance (s.sess k).expected (Item.cmd c).hdr.seq < 2 ^ 31 → s.udpOut = true →
    ∃ t, exec c s = .next t ∧ t.mem = s.mem ∧ t.txn = s.txn ∧ t.cmd.ops = s.cmd.ops ∧ (t.sess k).expected = (s.sess k).expected ∧
      (∀ a, a ≠ (F.CMD_CNT_COUNT 6).addr → t.word a = s.word a) ∧
      t.fld (F.CMD_CNT_COUNT 6) = min (s.fld (F.CMD_CNT_COUNT 6) + 1) (2 ^ 32 - 1) ∧
      t.out.head? = some (.reply (nextVia (s.sess k).via (Item.cmd c).hdr.via)
        (replyTo (Item.cmd c).hdr (Item.cmd c).opcode s.addr Status.orderGap
          [reasonWord Reason.tooFar 0, (s.sess k).expected])))

/-- R83 to R85: `NOP`, `SESSION_OPEN` of a host identifier that has no session, and `SESSION_CLOSE` complete: the role
and instar registers are answered; a session is opened in the lowest-numbered free slot with the next `SEQ` expected;
the session's slot is free. -/
def Obligations.SessionCommandsComplete : Prop :=
  (∀ (s : State) (h : Hdr) (k : Nat), s.ready (.nop h) k none = true →
    Answers s (.nop h) k Status.ok [s.word 0x110, s.word 0x120] (s.turn (.nop h) k)) ∧
  (∀ (s : State) (h : Hdr) (openId : Word) (j : Nat), s.accepts h.via = true → s.executes h = true →
    h.txnId = 0 → s.sessionOf h.src = none → s.sessFree = some j →
    j < s.cmd.sess.length →
    ∃ t, exec (.sessionOpen h openId) s = .next t ∧ t.cmd.nextUid = s.cmd.nextUid + 1 ∧
      t.sess j = { isOpen := true, uid := s.cmd.nextUid, src := h.src, openId := openId, via := h.via,
                   expected := h.seq + 1 } ∧
      (∀ i, i ≠ j → t.sess i = s.sess i) ∧ t.mem = s.mem ∧ t.txn = s.txn ∧ t.cmd.ops = s.cmd.ops) ∧
  (∀ (s : State) (h : Hdr) (k : Nat), s.ready (.sessionClose h) k none = true →
    ∃ t, exec (.sessionClose h) s = .next t ∧ t.sess k = {} ∧ (∀ i, i ≠ k → t.sess i = s.sess i) ∧ t.mem = s.mem ∧
      ∀ x ∈ t.txn.txns, x.uid = (s.sess k).uid → x.state ≠ .opened)

/-! ## Registers -/

/-- R8: the live copy of a shadowed register is read by a live read of the register, and by any read of the address
0x8000 above it; a write to that address is a violation and changes nothing. With it (R104, R105): a plain read shows
the pending copy, which is the live one while no transaction pends and a join has brought none (R351). None of these
reads changes anything. -/
def Obligations.LiveAliasReadsTheLiveCopy : Prop :=
  ∀ (s : State) (a : Nat) (d : RegDecl) (ix : List Nat), a % 0x10000 < 0x8000 → regFind a = some (d, ix) →
    d.shadowed = true → s.readable a = true →
    s.readReg true a = (s.word a, s) ∧ (∀ live, s.readReg live (a + 0x8000) = (s.word a, s)) ∧
    (∀ k v, s.writeReg k (a + 0x8000) v = s) ∧
    s.readReg false a = (s.shadowWord a, s) ∧ (s.pendingTxns = [] → s.txn.shadows = [] → s.shadowWord a = s.word a)

/-- R95: `REG_READ` and `REG_READ_LIVE` of a range of aligned registers within the space answer OK with the words from
the lowest address up, as many as asked for, and a single one is the word that a read of that register shows. -/
def Obligations.RegisterReadsComplete : Prop :=
  ∀ (s : State) (h : Hdr) (k : Nat) (a : Word) (n : BitVec 8), regsNamed a n.toNat →
    (s.ready (.regRead h a n) k none = true →
      let t := s.turn (.regRead h a n) k
      let r := t.readRegs false a.toNat n.toNat
      Answers s (.regRead h a n) k Status.ok r.1 r.2 ∧ r.1.length = n.toNat ∧
        (n = 1 → r = ([(t.readReg false a.toNat).1], (t.readReg false a.toNat).2))) ∧
    (s.ready (.regReadLive h a n) k none = true →
      let t := s.turn (.regReadLive h a n) k
      let r := t.readRegs true a.toNat n.toNat
      Answers s (.regReadLive h a n) k Status.ok r.1 r.2 ∧ r.1.length = n.toNat ∧
        (n = 1 → r = ([(t.readReg true a.toNat).1], (t.readReg true a.toNat).2)))

/-- R95, R104, R106, R461: `REG_WRITE` and `REG_MODIFY` complete. Outside a transaction, where no register named is
shadowed, the words land in ascending order, and a modify answers the word before and writes (old AND NOT `MASK`) OR
(`VALUE` AND `MASK`), which the fields of a register that are plain RW, with no effect of its own, then hold. Inside
an OPEN transaction, where every register named is shadowed, an entry for each joins it and nothing lands; a modify
answers the word that a plain read shows. -/
def Obligations.RegisterWritesComplete : Prop :=
  (∀ (s : State) (h : Hdr) (k : Nat) (a : Word) (vs : List Word), regsNamed a vs.length →
    s.ready (.regWrite h a vs) k none = true → (∀ i, i < vs.length → isShadowed (a.toNat + 4 * i) = false) →
    Answers s (.regWrite h a vs) k Status.ok [] ((s.turn (.regWrite h a vs) k).writeRegs k a.toNat vs)) ∧
  (∀ (s : State) (h : Hdr) (k : Nat) (a m v : Word), regsNamed a 1 →
    s.ready (.regModify h a m v) k none = true → isShadowed a.toNat = false →
    let t := s.turn (.regModify h a m v) k
    let r := t.modifyReg k a.toNat m v
    let old := (t.readReg false a.toNat).1
    Answers s (.regModify h a m v) k Status.ok [old] r.2 ∧
    r.2 = (t.readReg false a.toNat).2.landWord k a.toNat ((old &&& ~~~m) ||| (v &&& m)) (v &&& m) ∧
    (∀ (d : RegDecl) (ix : List Nat), a.toNat % 0x10000 < 0x8000 → regFind a.toNat = some (d, ix) →
      (∀ f ∈ d.fields, f.acc = .rw) →
      (∀ (u : State) (x y z : Word), u.writeSpecial k ix d.base a.toNat x y z = none) →
      ∀ f ∈ d.fields, r.2.fld ⟨a.toNat, f.lo, f.w⟩ = (⟨a.toNat, f.lo, f.w⟩ : Fld).get ((old &&& ~~~m) ||| (v &&& m)))) ∧
  (∀ (s : State) (h : Hdr) (k : Nat) (a v : Word) (x : Txn) (d : RegDecl) (ix : List Nat), regsNamed a 1 →
    a.toNat % 0x10000 < 0x8000 → regFind a.toNat = some (d, ix) → d.shadowed = true →
    s.ready (.regWrite h a [v]) k (some x) = true → x.entries.any isMolt = false → x.entries.length < 4096 →
    Answers s (.regWrite h a [v]) k Status.ok []
      ((s.turn (.regWrite h a [v]) k).putTxn { x with entries := x.entries ++ [.write a.toNat (v &&& d.mask)] })) ∧
  (∀ (s : State) (h : Hdr) (k : Nat) (a m v : Word) (x : Txn) (d : RegDecl) (ix : List Nat), regsNamed a 1 →
    a.toNat % 0x10000 < 0x8000 → regFind a.toNat = some (d, ix) → d.shadowed = true →
    s.ready (.regModify h a m v) k (some x) = true → x.entries.any isMolt = false → x.entries.length < 4096 →
    let t := s.turn (.regModify h a m v) k
    Answers s (.regModify h a m v) k Status.ok [t.shadowWord a.toNat]
      (t.putTxn { x with entries := x.entries ++ [.modify a.toNat (m &&& d.mask) v] }))

/-- R94, R460: a word written to a register all of whose fields are plain RW, and that has no effect of its own, is
held in its fields; no other register changes (those of the media ports aside, since a membership report may follow,
R137), and memory, sessions and transactions stay. R94: a write to an address that holds no register, or to the
read-only upper half of a block's space, changes nothing. -/
def Obligations.RegisterWriteFrame : Prop :=
  (∀ (s : State) (k a : Nat) (v : Word) (d : RegDecl) (ix : List Nat), a % 0x10000 < 0x8000 → regFind a = some (d, ix) →
    (∀ f ∈ d.fields, f.acc = .rw) →
    (∀ (u : State) (m : Word), u.writeSpecial k ix d.base a m v v = none) →
    let t := s.writeReg k a v
    (∀ f ∈ d.fields, t.fld ⟨a, f.lo, f.w⟩ = (⟨a, f.lo, f.w⟩ : Fld).get v) ∧
    (∀ b, b ≠ a → b / 0x10000 ≠ 4 → t.word b = s.word b) ∧ t.mem = s.mem ∧ t.cmd = s.cmd ∧ t.txn = s.txn) ∧
  (∀ (s : State) (k a : Nat) (v : Word), regFind a = none ∨ 0x8000 ≤ a % 0x10000 → s.writeReg k a v = s)

/-! ## Memory -/

/-- R96, R97: `MEM_READ` and `MEM_WRITE` complete: aligned, within the space, no running operation in the way, and for
a write no table in use. A read answers the number of lost words and one word for every four bytes, lowest address
first, the lowest byte in the low bits. R98, R99, R102: `MEM_FILL` and `MEM_COPY` of aligned ranges within the space,
a copy's ranges apart and the destination no table in use, start in the lowest free operation slot; one of size 0 is
DONE at once, with zero words written. -/
def Obligations.MemoryCommandsComplete : Prop :=
  ((∀ (s : State) (h : Hdr) (k : Nat) (a : BitVec 40) (n : BitVec 14), s.ready (.memRead h a n) k none = true →
    a.toNat % 4 = 0 → n.toNat ≤ 16382 → a.toNat + 4 * n.toNat ≤ 2 ^ 40 → s.memWaits a.toNat (4 * n.toNat) false = false →
    let t := s.turn (.memRead h a n) k
    Answers s (.memRead h a n) k Status.ok
      (BitVec.ofNat 32 (t.lostWords .host a.toNat (4 * n.toNat)) :: (List.range n.toNat).map fun i =>
        t.readByte .host (a.toNat + 4 * i + 3) ++ t.readByte .host (a.toNat + 4 * i + 2) ++
          t.readByte .host (a.toNat + 4 * i + 1) ++ t.readByte .host (a.toNat + 4 * i))
      (t.accountRead .host a.toNat (4 * n.toNat))) ∧
  (∀ (s : State) (h : Hdr) (k : Nat) (a : BitVec 40) (vs : List Word), s.ready (.memWrite h a vs) k none = true →
    a.toNat % 4 = 0 → a.toNat + 4 * vs.length ≤ 2 ^ 40 →
    (s.turn (.memWrite h a vs) k).writeLocked a.toNat (4 * vs.length) = none →
    s.memWaits a.toNat (4 * vs.length) true = false →
    Answers s (.memWrite h a vs) k Status.ok []
      ((s.turn (.memWrite h a vs) k).writeBytes .host a.toNat (vs.flatMap fun v => bytesLE 4 v.toNat)))) ∧
  ((∀ (s : State) (h : Hdr) (k j : Nat) (a n : BitVec 40) (p : BitVec 64), s.ready (.memFill h a n p) k none = true →
    a.toNat % 8 = 0 → n.toNat % 8 = 0 → a.toNat + n.toNat ≤ 2 ^ 40 →
    (s.turn (.memFill h a n p) k).writeLocked a.toNat n.toNat = none → s.opFree = some j →
    Starts s (.memFill h a n p) k j (.memFill a.toNat n.toNat p) fun u =>
      if n = 0 then u.finishOp j Status.ok [0, 0, 0, 0] else u) ∧
  (∀ (s : State) (h : Hdr) (k j : Nat) (a b n : BitVec 40), s.ready (.memCopy h a b n) k none = true →
    a.toNat % 8 = 0 → b.toNat % 8 = 0 → n.toNat % 8 = 0 → a.toNat + n.toNat ≤ 2 ^ 40 → b.toNat + n.toNat ≤ 2 ^ 40 →
    (a.toNat + n.toNat ≤ b.toNat ∨ b.toNat + n.toNat ≤ a.toNat) →
    (s.turn (.memCopy h a b n) k).writeLocked b.toNat n.toNat = none → s.opFree = some j →
    Starts s (.memCopy h a b n) k j (.memCopy a.toNat b.toNat n.toNat) fun u =>
      if n = 0 then u.finishOp j Status.ok [0, 0, 0, 0] else u))

/-- R27, R96, R360: what `MEM_WRITE` does to memory. Each byte of its range that the host may write takes the byte
sent; every byte outside the words it touches keeps its value, and so does every byte of such a word outside the range
while the word holds no error; bytes it may not write keep theirs. R359, R360: what a client wrote it reads: a byte
that the host has just written in a word it may access reads as written. -/
def Obligations.MemoryWriteFrame : Prop :=
  (∀ (s : State) (a : Nat) (vs : List Byte), vs ≠ [] →
    let t := s.writeBytes .host a vs
    (∀ x, (x < a / 8 * 8 ∨ (a + vs.length - 1) / 8 * 8 + 8 ≤ x) → t.byte x = s.byte x) ∧
    (∀ x, s.mayAccess .host (x / 8 * 8) = false → t.byte x = s.byte x) ∧
    (∀ x, s.mayAccess .host (x / 8 * 8) = true → a ≤ x → x < a + vs.length → t.byte x = vs.getD (x - a) 0) ∧
    (∀ x, (x < a ∨ a + vs.length ≤ x) → sparseGet (fun _ => (0 : BitVec 80)) s.memc.flaws (x / 8 * 8) = 0 →
      sparseGet (fun _ => false) s.memc.poison (x / 8 * 8) = false →
      t.byte x = s.byte x) ∧
    t.cmd = s.cmd ∧ t.txn = s.txn ∧ t.clk = s.clk) ∧
  (∀ (s : State) (a : Nat) (vs : List Byte) (x : Nat), a % 8 = 0 → vs.length % 8 = 0 → a ≤ x → x < a + vs.length →
    s.mayAccess .host (x / 8 * 8) = true →
    (s.writeBytes .host a vs).readByte .host x = vs.getD (x - a) 0)

/-- R98, R376: the end of a `MEM_FILL` whose banks no old owner still leaves (R372): every word of its range that the
mover may write holds the pattern, its lowest byte at the lowest address; every byte outside the range, and of a word
it may not write, is as before; the slot is DONE with the bytes written and no word lost, and every other slot as
before. Completes: `MEM_FILL_DONE`. R98, R360, R376: the end of a `MEM_COPY` whose ranges lie apart and whose banks no
old owner still leaves (R372): every word of the destination that the mover may write holds what the mover reads of
the source, a lost word zero with poison, and every byte outside the destination is as before; the slot is DONE with
the bytes copied, and every other slot as before. Completes: `MEM_COPY_DONE`. -/
def Obligations.MoverOperationsEnd : Prop :=
  (∀ (s : State) (j : BitVec 4) (a n : Nat) (p : BitVec 64), s.runs j.toNat (.memFill a n p) → a % 8 = 0 → n % 8 = 0 →
    s.drains a n = false → ∃ t, exec (.memFillDone j) s = .next t ∧
      t.ended j.toNat Status.ok [0, BitVec.ofNat 32 (n / 2 ^ 32), BitVec.ofNat 32 n, 0] ∧
      (∀ x, a ≤ x → x < a + n → s.mayAccess .mover (x / 8 * 8) = true →
        t.byte x = BitVec.ofNat 8 (p.toNat / 256 ^ (x % 8))) ∧
      (∀ x, (x < a ∨ a + n ≤ x ∨ s.mayAccess .mover (x / 8 * 8) = false) → t.byte x = s.byte x) ∧
      (∀ i, i ≠ j.toNat → t.op i = s.op i)) ∧
  (∀ (s : State) (j : BitVec 4) (a b n : Nat), s.runs j.toNat (.memCopy a b n) → a % 8 = 0 → b % 8 = 0 → n % 8 = 0 →
    (a + n ≤ b ∨ b + n ≤ a) → s.drains a n = false → s.drains b n = false →
    ∃ t, exec (.memCopyDone j) s = .next t ∧
      (∃ lost, t.ended j.toNat Status.ok [0, BitVec.ofNat 32 (n / 2 ^ 32), BitVec.ofNat 32 n, lost]) ∧
      (∀ i, i < n / 8 → s.mayAccess .mover (b + 8 * i) = true →
        t.data64 (b + 8 * i) = (s.readWord .mover (a + 8 * i)).data ∧
        sparseGet (fun _ => false) t.memc.poison (b + 8 * i) = (s.readWord .mover (a + 8 * i)).lost) ∧
      (∀ x, (x < b ∨ b + n ≤ x) → t.byte x = s.byte x) ∧ (∀ i, i ≠ j.toNat → t.op i = s.op i))

/-- R362: a demand read leaves memory, its errors and its poison as they are; a corrected word is returned corrected;
a word's error is gone once the word is stored, and stays until then. -/
def Obligations.DemandReadsWriteNothing : Prop :=
  (∀ (s : State) (cl : Client) (a n : Nat), let t := s.accountRead cl a n
    t.mem = s.mem ∧ t.memc.flaws = s.memc.flaws ∧ t.memc.poison = s.memc.poison) ∧
  (∀ (s : State) (cl : Client) (w : Nat) (d : Decoded), (s.readWord cl w).dec = some d → d.bad = false →
    d.word.getLsbD 78 = false → (s.readWord cl w).data = d.word.setWidth 64 ∧ (s.readWord cl w).lost = false) ∧
  (∀ (s : State) (w x : Nat) (d : BitVec 64) (p : Bool),
    sparseGet (fun _ => (0 : BitVec 80)) (s.storeWord w d p).memc.flaws x =
      if x = w then 0 else sparseGet (fun _ => 0) s.memc.flaws x) ∧
  (∀ (s : State) (h : Hdr) (k : Nat) (a : BitVec 40) (n : BitVec 14), s.ready (.memRead h a n) k none = true →
    a.toNat % 4 = 0 → n.toNat ≤ 16382 → a.toNat + 4 * n.toNat ≤ 2 ^ 40 → s.memWaits a.toNat (4 * n.toNat) false = false →
    ∃ ws u, Answers s (.memRead h a n) k Status.ok ws u ∧ u.mem = s.mem ∧ u.memc.flaws = s.memc.flaws)

/-- R359: of 80 bits received for one code word, one or two that are wrong are corrected, wherever they lie and
whatever was stored. -/
def Obligations.TwoWrongBitsAreCorrected : Prop :=
  ∀ (d : BitVec 64) (poison : Bool) (i j : Nat), i < 80 → j < 80 → i ≠ j →
    let c := codeWord d poison
    ((decodeWord c).word = c ∧ (decodeWord c).bad = false ∧ (decodeWord c).corrected = 0) ∧
    (let r := decodeWord (c ^^^ (1#80 <<< i));
      r.word = c ∧ r.bad = false ∧ r.corrected = 1) ∧
    (let r := decodeWord (c ^^^ (1#80 <<< i) ^^^ (1#80 <<< j));
      r.word = c ∧ r.bad = false ∧ r.corrected = 2)

/-- R27, R364: the operations that change memory keep its canonical form: a byte stored, a word stored, a range
erased, a client's write, the ends of fills and copies, a region wiped. -/
def Obligations.MemoryStaysCanonical : Prop :=
  ∀ s : State, Memory.wf s.mem = true →
    (∀ a b, Memory.wf (s.setByte a b).mem = true) ∧
    (∀ w d p, Memory.wf (s.storeWord w d p).mem = true) ∧
    (∀ a n, Memory.wf (s.eraseRange a n).mem = true) ∧
    (∀ cl a bs, Memory.wf (s.writeBytes cl a bs).mem = true) ∧
    (∀ j t, exec (.memFillDone j) s = .next t → Memory.wf t.mem = true) ∧
    (∀ j t, exec (.memCopyDone j) s = .next t → Memory.wf t.mem = true) ∧
    (∀ k t, exec (.regionWiped k) s = .next t → Memory.wf t.mem = true)

/-- R94, R460 (registers) and R27, R364 (memory): whatever a step does, the register file and memory keep their
canonical forms, so that equal contents are equal data. Said of every state, not only of those a run reaches. -/
def Obligations.EveryStepKeepsCanonicalForms : Prop :=
  ∀ s t : State, Memory.wf s.mem = true → regsWf s.regs = true → step s = .next t →
    Memory.wf t.mem = true ∧ regsWf t.regs = true

/-- R22, R27: at reset no memory, no session and no transaction is held, the mode is M0, nothing waits, and memory and
the register file have their canonical forms. -/
def Obligations.ResetIsEmpty : Prop :=
  State.reset.mem = [] ∧ State.reset.pending = [] ∧ State.reset.mode = 0 ∧ State.reset.txn.txns = [] ∧
    (∀ k, (State.reset.sess k).isOpen = false) ∧ (∀ k, (State.reset.op k).st = 0) ∧
    State.reset.cmd.sess.length = 64 ∧ State.reset.cmd.ops.length = 16 ∧
    Memory.wf State.reset.mem = true ∧ regsWf State.reset.regs = true

/-! ## Transactions and scheduled actions -/

/-- R109, R110, R112, R129, R132: `TXN_BEGIN`, `TXN_ABORT`, `TXN_QUERY` and both global queries complete: a
transaction that the session may begin is held OPEN and empty and is the latest begun; one OPEN or UNCERTAIN ends as
aborted by its host; a query answers state, reason, frame and phase, zeros for one the session does not have, and of
one that is UNCERTAIN it answers `UNCERTAIN` with the reason NO_ANNOUNCE before those words, in which it stands again;
a root's query answers the decision. -/
def Obligations.TransactionBeginAbortQueryComplete : Prop :=
  (∀ (s : State) (h : Hdr) (k : Nat) (g : Bool), s.ready (.txnBegin h g) k none = true → h.txnId ≠ 0 →
    ((s.sess k).lastBegin.all fun p => decide (1 ≤ (h.txnId - p).toNat ∧ (h.txnId - p).toNat ≤ 32767)) = true →
    ((s.txnNamed (s.sess k).uid h.txnId).any fun x => !x.over) = false →
    (s.txn.txns.filter fun x => x.uid == (s.sess k).uid && x.state == .opened).length < 8 →
    ∃ u, Answers s (.txnBegin h g) k Status.ok [] u ∧ u.mem = s.mem ∧ (u.sess k).lastBegin = some h.txnId ∧
      u.txnNamed (s.sess k).uid h.txnId = some
        { uid := (s.sess k).uid, slot := BitVec.ofNat 6 k, src := (s.sess k).src, id := h.txnId, global := g,
          state := .opened, began := s.txn.seq }) ∧
  (∀ (s : State) (h : Hdr) (k : Nat) (x : Txn), s.ready (.txnAbort h) k none = true →
    s.txnNamed (s.sess k).uid h.txnId = some x → (x.state = .opened ∨ x.state = .uncertain) →
    Answers s (.txnAbort h) k Status.ok [] ((s.turn (.txnAbort h) k).abortTxn x Reason.host)) ∧
  (∀ (s : State) (h : Hdr) (k : Nat), s.ready (.txnQuery h) k none = true →
    (s.txnNamed (s.sess k).uid h.txnId = none →
      Answers s (.txnQuery h) k Status.ok (List.replicate 5 0) (s.turn (.txnQuery h) k)) ∧
    (∀ x, s.txnNamed (s.sess k).uid h.txnId = some x → x.state ≠ .uncertain →
      Answers s (.txnQuery h) k Status.ok x.words (s.turn (.txnQuery h) k)) ∧
    (∀ x, s.txnNamed (s.sess k).uid h.txnId = some x → x.state = .uncertain →
      Answers s (.txnQuery h) k Status.uncertain (reasonWord Reason.noAnnounce 0 :: x.words) (s.turn (.txnQuery h) k) ∧
      x.words.getD 1 0 = reasonWord Reason.noAnnounce 0)) ∧
  (∀ (s : State) (h : Hdr) (k : Nat) (d : Decision), s.ready (.txnQueryGlobal h) k none = true → s.isRoot = true →
    (s.txn.decisions.find? fun e => e.src == (s.sess k).src && e.id == h.txnId) = some d →
    Answers s (.txnQueryGlobal h) k Status.ok
      [if d.commit then 7 else 8, 0, BitVec.ofNat 32 (d.frame / 2 ^ 32), BitVec.ofNat 32 d.frame, BitVec.ofNat 32 d.phase]
      (s.turn (.txnQueryGlobal h) k))

/-- R113 to R118, R122 to R124, R129: a local transaction, or one that is UNCERTAIN, that passes the checks of R118 is
PENDING with its target's frame, phase and apply instant after a local `TXN_COMMIT`, an UNCERTAIN one in the pending
entry it kept; a validation of a local transaction's commit is answered OK and changes nothing; a global transaction
is PREPARED after `TXN_PREPARE`, a root that has no decision for it hearing nothing yet, while one that is UNCERTAIN
is answered so. -/
def Obligations.CommitsAndPreparesComplete : Prop :=
  (∀ (s : State) (h : Hdr) (k : Nat) (g : Target) (x y : Txn) (a : Aim), s.ready (.txnCommit h g) k none = true →
    s.txnNamed (s.sess k).uid h.txnId = some x → (x.state = .opened ∧ x.global = false ∨ x.state = .uncertain) →
    let t := s.turn (.txnCommit h g) k
    t.commitWaits x = false → Accepted t x y g .pending a →
    Answers s (.txnCommit h g) k Status.ok [] ((t.putTxn y).updTxn fun z => { z with seq := z.seq + 1 }) ∧
      (x.state = .uncertain → y.pend = x.pend)) ∧
  (∀ (s : State) (h : Hdr) (k : Nat) (g : Target) (x y : Txn) (a : Aim),
    s.ready (.txnCommitValidate h false g) k none = true →
    s.txnNamed (s.sess k).uid h.txnId = some x → x.state = .opened → x.global = false →
    let t := s.turn (.txnCommitValidate h false g) k
    t.commitWaits x = false → Accepted t x y g .pending a →
    Answers s (.txnCommitValidate h false g) k Status.ok [] t) ∧
  (∀ (s : State) (h : Hdr) (k : Nat) (g : Target) (x y : Txn) (a : Aim), s.ready (.txnPrepare h g) k none = true →
    s.txnNamed (s.sess k).uid h.txnId = some x → x.state = .opened → x.global = true →
    s.decisionOf (s.sess k).src h.txnId = none →
    let t := s.turn (.txnPrepare h g) k
    t.commitWaits x = false → Accepted t x y g .prepared a →
    Answers s (.txnPrepare h g) k Status.ok [] ((t.putTxn y).updTxn fun z => { z with seq := z.seq + 1 })) ∧
  (∀ (s : State) (h : Hdr) (k : Nat) (g : Target) (x : Txn), s.atTurn (.txnPrepare h g) k = true → s.instar ≠ 4 →
    s.bit F.SYS_BOOT_RECOVERY = false → s.txnNamed (s.sess k).uid h.txnId = some x → x.state = .uncertain →
    Answers s (.txnPrepare h g) k Status.uncertain (reasonWord Reason.noAnnounce 0 :: x.words) (s.turn (.txnPrepare h g) k))

/-- R122: whatever a `TXN_COMMIT` would answer, local or global, one that only validates answers, waiting where it
would wait, and it changes nothing: no pending entry is taken and no refusal counted. -/
def Obligations.ValidationAnswersAsACommitWould : Prop :=
  ∀ (s : State) (w : Who) (h : Hdr) (g : Target) (glob : Bool),
    let real := s.hostBody w none (if glob then .txnCommitGlobal h g else .txnCommit h g)
    let dry := s.hostBody w none (.txnCommitValidate h glob g)
    (∀ st ws u, real = .done st ws u → dry = .done st ws s) ∧ (real = .wait → dry = .wait) ∧
    (∀ st ws u, dry = .done st ws u → u = s ∧ ∃ v, real = .done st ws v)

/-- R111: entries that would take a transaction past 4,096 end it: the answer is `TXN_ABORTED` with reason CAPACITY,
and the transaction is held as aborted, with no entries. Entries that join leave at most 4,096. -/
def Obligations.TransactionsHoldAtMost4096Entries : Prop :=
  (∀ (s : State) (x : Txn) (es : List Entry) (reply : List Word), s.txnNamed x.uid x.id = some x →
    x.entries.any isMolt = false → es.any isMolt = false → 4096 < x.entries.length + es.length →
    ∃ u, s.addEntries x es reply = .done Status.txnAborted [reasonWord Reason.capacity 0] u ∧
      ∃ y, u.txnNamed x.uid x.id = some y ∧ y.state = .aborted ∧ y.entries = []) ∧
  (∀ (s u : State) (x y : Txn) (es : List Entry) (reply ws : List Word), s.txnNamed x.uid x.id = some x →
    s.addEntries x es reply = .done Status.ok ws u → u.txnNamed x.uid x.id = some y →
    y.entries = x.entries ++ es ∧ y.entries.length ≤ 4096) ∧
  (∀ (s : State) (h : Hdr) (k : Nat) (a v : Word) (x : Txn) (d : RegDecl) (ix : List Nat), regsNamed a 1 →
    a.toNat % 0x10000 < 0x8000 → regFind a.toNat = some (d, ix) → d.shadowed = true →
    s.ready (.regWrite h a [v]) k (some x) = true → x.entries.any isMolt = false → x.entries.length = 4096 →
    Answers s (.regWrite h a [v]) k Status.txnAborted [reasonWord Reason.capacity 0]
      ((s.turn (.regWrite h a [v]) k).abortTxn x Reason.capacity))

/-- R125, R126: on a root that has not decided a key, a decision for a target in time and with room in the announcing
wingbeat cells is recorded, a commit by `TXN_COMMIT` and an abort by `TXN_ABORT` with `GLOBAL` = 1; a validation of
the commit changes nothing. -/
def Obligations.GlobalDecisionsComplete : Prop :=
  ∀ (s : State) (h : Hdr) (k : Nat) (g : Target) (d : Decision),
    (s.ready (.txnCommitGlobal h g) k none = true →
      (s.turn (.txnCommitGlobal h g) k).checkDecision (s.sess k).src h.txnId g true true = .ok d →
      ∃ u, Answers s (.txnCommitGlobal h g) k Status.ok [] u ∧ u.txn.decisions = (d :: s.txn.decisions).take 64 ∧
        d.commit = true ∧ d.src = (s.sess k).src ∧ d.id = h.txnId ∧ u.regs = (s.turn (.txnCommitGlobal h g) k).regs ∧
        u.mem = s.mem) ∧
    (s.ready (.txnAbortGlobal h g) k none = true →
      (s.turn (.txnAbortGlobal h g) k).checkDecision (s.sess k).src h.txnId g false true = .ok d →
      ∃ u, Answers s (.txnAbortGlobal h g) k Status.ok [] u ∧ u.txn.decisions = (d :: s.txn.decisions).take 64 ∧
        d.commit = false ∧ d.src = (s.sess k).src ∧ d.id = h.txnId ∧ u.regs = (s.turn (.txnAbortGlobal h g) k).regs ∧
        u.mem = s.mem) ∧
    (s.ready (.txnCommitValidate h true g) k none = true →
      (s.turn (.txnCommitValidate h true g) k).checkDecision (s.sess k).src h.txnId g true false = .ok d →
      Answers s (.txnCommitValidate h true g) k Status.ok [] (s.turn (.txnCommitValidate h true g) k))

/-- R130, R131: an action whose embedded command would be answered OK now, for a target in time and with a place free,
is held under the next `ACTION_ID` with its apply instant; its own session cancels it before that instant. -/
def Obligations.ScheduledActionsComplete : Prop :=
  (∀ (s u : State) (h : Hdr) (k : Nat) (g : Target) (op : BitVec 8) (ws out : List Word) (a : Aim),
    s.ready (.schedAction h g op ws) k none = true → actionOk op.toNat ws = true →
    let t := s.turn (.schedAction h g op ws) k
    t.actionRes k h op ws = .done Status.ok out u → t.aim [] g = some a → t.leadFault a.at_ = 0 → t.pendUsed < 16 →
    t.gridBusy none a = false →
    let act : Action := { id := s.txn.nextAction, uid := (s.sess k).uid, slot := BitVec.ofNat 6 k, src := (s.sess k).src,
                          frame := a.frame, phase := g.p.toNat, at_ := a.at_, opcode := op, payload := ws, hdr := h,
                          pend := t.pendFree }
    Answers s (.schedAction h g op ws) k Status.ok [s.txn.nextAction.setWidth 32]
      (t.updTxn fun y => { y with
        actions := y.actions ++ [act]
        nextAction := if s.txn.nextAction = 0xFFFF then 1 else s.txn.nextAction + 1 })) ∧
  (∀ (s : State) (h : Hdr) (k : Nat) (id : BitVec 16) (a : Action), s.ready (.schedCancel h id) k none = true →
    (s.txn.actions.find? fun b => b.id == id) = some a → a.uid = (s.sess k).uid → s.clk < a.at_ →
    ∃ u, Answers s (.schedCancel h id) k Status.ok [] u ∧ (∀ b ∈ u.txn.actions, b.id ≠ id) ∧
      (∀ b ∈ s.txn.actions, b.id ≠ id → b ∈ u.txn.actions) ∧ u.regs = (s.turn (.schedCancel h id) k).regs ∧ u.mem = s.mem)

/-- R131: action identifiers start at 1 after a device reset and rise by one with each action accepted, 0xFFFF being
followed by 1; a session's cancel before the apply instant removes the action and is answered OK, one for an action
that is not there or whose instant has come `NO_RESULT`, and one for another session's action `NOT_OWNER` with that
session's slot. -/
def Obligations.ActionIdsAndCancels : Prop :=
  State.reset.txn.nextAction = 1 ∧
  (∀ (s t : State) (c : BitVec 3), s.sys.resetReq = some c → s.sys.pwrOff = false → s.resetHeld = false →
    exec .deviceReset s = .next t →
    t.txn.nextAction = 1) ∧
  (∀ (s u : State) (w : Who) (h : Hdr) (g : Target) (op : BitVec 8) (ws out : List Word),
    s.schedAction w h g op ws = .done Status.ok out u → u.txn.actions ≠ s.txn.actions →
    out = [s.txn.nextAction.setWidth 32] ∧
    u.txn.nextAction = if s.txn.nextAction = 0xFFFF then 1 else s.txn.nextAction + 1) ∧
  (∀ (s : State) (h : Hdr) (k : Nat) (id : BitVec 16), s.ready (.schedCancel h id) k none = true →
    let t := s.turn (.schedCancel h id) k
    ((∀ b ∈ s.txn.actions, b.id ≠ id) → Answers s (.schedCancel h id) k Status.noResult [] t) ∧
    (∀ a, (s.txn.actions.find? fun b => b.id == id) = some a →
      (a.uid ≠ (s.sess k).uid →
        Answers s (.schedCancel h id) k Status.notOwner [reasonWord Reason.slot a.slot.toNat] t) ∧
      (a.uid = (s.sess k).uid → a.at_ ≤ s.clk → Answers s (.schedCancel h id) k Status.noResult [] t) ∧
      (a.uid = (s.sess k).uid → s.clk < a.at_ →
        ∃ u, Answers s (.schedCancel h id) k Status.ok [] u ∧ (∀ b, b ∈ u.txn.actions ↔ b ∈ s.txn.actions ∧ b.id ≠ id) ∧
          u.regs = t.regs ∧ u.mem = s.mem)))

/-- R106, R117: a `REG_WRITE` entry gives its register the word, a `REG_MODIFY` entry changes the masked bits of what
the entries before it left, and every register that no entry names keeps its word. -/
def Obligations.EntriesWriteTheirRegisters : Prop :=
  ∀ (regs : List (Nat × Word)) (es : List Entry) (a : Nat) (v m : Word),
    sparseGet resetWord (entriesOnRegs (es ++ [.write a v]) regs) a = v ∧
    sparseGet resetWord (entriesOnRegs (es ++ [.modify a m v]) regs) a =
      ((sparseGet resetWord (entriesOnRegs es regs) a &&& ~~~m) ||| (v &&& m)) ∧
    ((∀ e ∈ es, ∀ w x, e ≠ .write a w ∧ e ≠ .modify a x w) →
      sparseGet resetWord (entriesOnRegs es regs) a = sparseGet resetWord regs a) ∧
    (regsWf regs = true → regsWf (entriesOnRegs es regs) = true)

/-- R54: the wingbeats of a grid rise, those of frames a whole number of denominators apart lie a whole number of
periods apart, and the frame found for a time is the one whose wingbeat has come and whose successor's has not. -/
def Obligations.WingbeatsOrderFrames : Prop :=
  ∀ g : Grid, 0 < g.den → g.den ≤ g.num * 1000000000 * 2 ^ 32 →
    (∀ n, g.beat n < g.beat (n + 1)) ∧
    (∀ n j, g.beat (n + j * g.den) = g.beat n + j * g.num * 1000000000 * 2 ^ 64) ∧
    (∀ t, g.off * 2 ^ 64 ≤ t → ∃ n, g.frameAt t = some n ∧ g.beat n ≤ t ∧ t < g.beat (n + 1)) ∧
    (∀ t, t ≤ g.beat (g.frameFrom t) ∧ ∀ n, t ≤ g.beat n → g.frameFrom t ≤ n)

/-! ## The other host commands -/

/-- R176, R177, R179, R180: a higher value signals a fence at once when its frame is 0 or has passed, and waits while
it has not; a reset gives an idle fence any value; a query answers the fences of its mask in ascending order; each
signal is counted. In the tick of a wingbeat that has come already each of them acts as before it: a query shows the
fences as they stood, and the wingbeat's gating is done again after the others. That a reset counts too (log entry
61), and the frame that TIMED_LATE names (log entry 20), are the model's choices. R177, R180, R181: `LAYER_FLIP` of a
graphic layer 0 to 9 completes: the flip is pending and its registers show it; one that replaces a pending flip is
counted, one past its frame is counted and recorded (of that record the frame it names is the model's choice, log
entry 20). In the tick of a wingbeat that has come already it acts as before it. -/
def Obligations.FencesAndFlipsComplete : Prop :=
  ((∀ (s : State) (h : Hdr) (k : Nat) (f : BitVec 6) (v : Word) (n : BitVec 64),
    s.ready (.fenceSignal h f v n) k none = true → s.gated = false → (s.fence f.toNat).visible < v →
    (∀ x ∈ (s.fence f.toNat).timed, x.2 < v ∧ (n ≠ 0 ∧ x.1 ≤ n.toNat)) →
    (n = 0 ∨ (s.fence f.toNat).timed.length < 4) →
    let t := (s.turn (.fenceSignal h f v n) k).bump (F.CMP_CNT_COUNT 7)
    let now := t.setFence f.toNat { s.fence f.toNat with visible := v }
    Answers s (.fenceSignal h f v n) k Status.ok
      [if n = 0 ∨ n.toNat < s.tm.nextFrame then v else (s.fence f.toNat).visible]
      (if n = 0 then now
        else if n.toNat < s.tm.nextFrame then now.timedLate 0x20 f.toNat n.toNat s.tm.curFrame
        else t.setFence f.toNat { s.fence f.toNat with timed := (s.fence f.toNat).timed ++ [(n.toNat, v)] })) ∧
  (∀ (s : State) (h : Hdr) (k : Nat) (f : BitVec 6) (v : Word), s.ready (.fenceSignalReset h f v 0) k none = true →
    s.gated = false → (s.fence f.toNat).timed = [] →
    (∀ x ∈ s.cmp.flips, ∀ y, x = some y → y.noFence = true ∨ y.fence ≠ f) →
    Answers s (.fenceSignalReset h f v 0) k Status.ok [v]
      (((s.turn (.fenceSignalReset h f v 0) k).bump (F.CMP_CNT_COUNT 7)).setFence f.toNat
        { s.fence f.toNat with visible := v })) ∧
  (∀ (s : State) (h : Hdr) (k : Nat) (m0 m1 : Word), s.ready (.fenceQuery h m0 m1) k none = true →
    Answers s (.fenceQuery h m0 m1) k Status.ok
      (((List.range 64).filter fun i => if i < 32 then m0.getLsbD i else m1.getLsbD (i - 32)).map
        fun i => (if s.gated then (s.cmp.gate.elim {} fun g => g.fences.getD i {}) else s.fence i).visible)
      (s.turn (.fenceQuery h m0 m1) k)) ∧
  (∀ (s : State) (h : Hdr) (k : Nat) (f : BitVec 6) (v : Word) (n : BitVec 64),
    s.ready (.fenceSignal h f v n) k none = true →
    CountsBefore s (.fenceSignal h f v n) k fun u => u.fenceSignal f.toNat v n.toNat) ∧
  (∀ (s : State) (h : Hdr) (k : Nat) (f : BitVec 6) (v : Word), s.ready (.fenceSignalReset h f v 0) k none = true →
    CountsBefore s (.fenceSignalReset h f v 0) k fun u => u.fenceReset f.toNat v 0)) ∧
  (∀ (s : State) (h : Hdr) (k : Nat) (g : BitVec 4) (b : BitVec 2) (f : BitVec 6) (nf : Bool) (w : Word) (n : BitVec 64),
    s.ready (.layerFlip h g b f nf w n) k none = true → g.toNat ≤ 9 →
    CountsBefore s (.layerFlip h g b f nf w n) k (fun u => u.layerFlip g.toNat ⟨b, f, nf, w, n.toNat⟩) ∧
    (s.gated = false →
    let t := s.turn (.layerFlip h g b f nf w n) k
    let t1 := if s.cmp.flips.getD g.toNat none = none then t else t.bump (F.CMP_CNT_COUNT 3)
    let u := t1.setFlip g.toNat (some ⟨b, f, nf, w, n.toNat⟩)
    Answers s (.layerFlip h g b f nf w n) k Status.ok []
      (if n ≠ 0 ∧ n.toNat < s.tm.nextFrame then u.timedLate 0x22 g.toNat n.toNat s.tm.nextFrame else u) ∧
    (g.toNat < s.cmp.flips.length → u.cmp.flips.getD g.toNat none = some ⟨b, f, nf, w, n.toNat⟩)))

/-- R99 to R101: `OP_STATUS` answers two words for each slot of its mask, ascending; `OP_RESULT` of the session's own
slot and generation answers the generation, the final status, the result's length and the words asked for, OK once it
is DONE and `PARTIAL` while it runs; `OP_RELEASE` of a DONE slot frees it, its generation kept. R427, R428: `ERR_READ`
of at most 128 records answers the oldest sequence number held, the count and the records at and after its first,
oldest first, 32 bytes each; `ERR_CLEAR` removes every record up to the one named, none after it, and answers how many
remain. R431: `DIAG_COUNTERS` of a block with counters answers the local time and every counter, ascending; with its
clear bit they read zero afterwards, without it only the counters that a read clears, and no other register changes;
the ingest counters, which stand behind a window, likewise. -/
def Obligations.SlotLogAndCounterCommandsComplete : Prop :=
  ((∀ (s : State) (h : Hdr) (k : Nat) (m : BitVec 16), s.ready (.opStatus h m) k none = true →
    Answers s (.opStatus h m) k Status.ok
      (((List.range 16).filter fun i => m.getLsbD i).flatMap fun i => [(s.op i).stat, (s.op i).valid])
      (s.turn (.opStatus h m) k)) ∧
  (∀ (s : State) (h : Hdr) (k : Nat) (j : BitVec 4) (g : BitVec 16) (o n : Word),
    s.ready (.opResult h j g o n) k none = true → (s.op j.toNat).st ≠ 0 → (s.op j.toNat).gen = g →
    (s.op j.toNat).ownerUid = (s.sess k).uid → o.toNat ≤ 4096 → n.toNat ≤ 4096 →
    Answers s (.opResult h j g o n) k (if (s.op j.toNat).st = 1 then Status.partly else Status.ok)
      ([g ++ (s.op j.toNat).final ++ 0#8, BitVec.ofNat 32 (s.op j.toNat).result.length] ++
        ((s.op j.toNat).result.drop o.toNat).take n.toNat)
      (s.turn (.opResult h j g o n) k)) ∧
  (∀ (s : State) (h : Hdr) (k : Nat) (j : BitVec 4) (g : BitVec 16), s.ready (.opRelease h j g) k none = true →
    (s.op j.toNat).st ≠ 0 → (s.op j.toNat).st ≠ 1 → (s.op j.toNat).gen = g →
    (s.op j.toNat).ownerUid = (s.sess k).uid → j.toNat < s.cmd.ops.length →
    let u := (s.turn (.opRelease h j g) k).freeOp j.toNat
    Answers s (.opRelease h j g) k Status.ok [] u ∧ (u.op j.toNat).st = 0 ∧ (u.op j.toNat).gen = g ∧
      ∀ i, i ≠ j.toNat → u.op i = s.op i)) ∧
  ((∀ (s : State) (h : Hdr) (k : Nat) (f : Word) (n : BitVec 8), s.ready (.errRead h f n) k none = true → n.toNat ≤ 128 →
    let hits := (s.err.log.filter fun r => decide ((r.seq - f).toNat < 2 ^ 31)).take n.toNat
    Answers s (.errRead h f n) k Status.ok
      ([(s.err.log.head?.map ErrRec.seq).getD s.err.next, BitVec.ofNat 32 hits.length] ++
        hits.flatMap fun r => bytesWords (recBytes r))
      (s.turn (.errRead h f n) k)) ∧
  (∀ (s : State) (h : Hdr) (k : Nat) (n : Word), s.ready (.errClear h n) k none = true →
    ∃ u, Answers s (.errClear h n) k Status.ok [BitVec.ofNat 32 u.err.log.length] u ∧
      (∀ r, r ∈ u.err.log ↔ r ∈ s.err.log ∧ 2 ^ 31 ≤ (n - r.seq).toNat) ∧ u.err.next = s.err.next ∧
      u.regs = (s.turn (.errClear h n) k).regs ∧ u.mem = s.mem)) ∧
  ((∀ (s : State) (h : Hdr) (k : Nat) (b : BitVec 5) (e : Bool) (l : List Nat),
    s.ready (.diagCounters h b e) k none = true → b ≠ 5 → diagRegs b.toNat = some l →
    let t := s.turn (.diagCounters h b e) k
    ∃ u, Answers s (.diagCounters h b e) k Status.ok
        ([BitVec.ofNat 32 (timeSec s.clk / 2 ^ 32), BitVec.ofNat 32 (timeSec s.clk), BitVec.ofNat 32 (timeNs s.clk)] ++
          l.map t.word) u ∧
      (∀ a, u.word a = if a ∈ l ∧ (e = true ∨ readClears a = true) then 0 else t.word a) ∧ u.mem = s.mem) ∧
  (∀ (s : State) (h : Hdr) (k : Nat) (e : Bool), s.ready (.diagCounters h 5 e) k none = true →
    ∃ u, Answers s (.diagCounters h 5 e) k Status.ok
        ([BitVec.ofNat 32 (timeSec s.clk / 2 ^ 32), BitVec.ofNat 32 (timeSec s.clk), BitVec.ofNat 32 (timeNs s.clk)] ++
          s.ing.streams.flatMap fun x => x.counts.map fun c => BitVec.ofNat 32 c) u ∧
      u.regs = (s.turn (.diagCounters h 5 e) k).regs ∧ u.mem = s.mem ∧
      (e = true → ∀ x ∈ u.ing.streams, x.counts = List.replicate 14 0) ∧ (e = false → u.ing = s.ing)))

/-- R93, R385, R386: `RESET` with `KIND` 0 leaves a device reset due with the host's cause, waiting for its reply to
leave unless `NO_REPLY` suppresses it. With the kind of a domain and `NO_REPLY` it holds that domain in reset for its
time, and no other: the status register shows the domain in reset, its kind as the last and one reset more; without,
the reset waits until its reply has left. A DRAM channel's is taken only while the channel is neither in service nor
in training, the flash's only while no flash operation runs. A reset that waits begins as soon as no reply of the
device has still to leave (that this is when its reply has left is deduced, log entry 60). Completes: `RESET`,
`RESET_MEDIA`, `RESET_FRX`, `RESET_DRAM`, `RESET_SERVICE`, `RESET_FLASH`. -/
def Obligations.ResetCommandsComplete : Prop :=
  (∀ (s : State) (h : Hdr) (k : Nat), s.ready (.reset h) k none = true →
    ∃ u : State, exec (.reset h) s = .next (u.answered s (.reset h) k Status.ok []) ∧ u.sys.resetReq = some 2 ∧
      u.sys.resetWaits = !h.noReply ∧ u.regs = (s.turn (.reset h) k).regs ∧ u.mem = s.mem) ∧
  (∀ (s : State) (h : Hdr) (k : Nat), s.ready (.resetMedia h) k none = true →
    ∃ u : State, exec (.resetMedia h) s = .next (u.answered s (.resetMedia h) k Status.ok []) ∧ DomainAsked s u h 1) ∧
  (∀ (s : State) (h : Hdr) (k : Nat) (q : BitVec 2), s.ready (.resetFrx h q) k none = true →
    ∃ u : State, exec (.resetFrx h q) s = .next (u.answered s (.resetFrx h q) k Status.ok []) ∧
      DomainAsked s u h (2 + q.toNat)) ∧
  (∀ (s : State) (h : Hdr) (k : Nat) (c : BitVec 2), s.ready (.resetDram h c) k none = true →
    s.channelIn c.toNat = false → s.memc.training.getLsbD c.toNat = false →
    ∃ u : State, exec (.resetDram h c) s = .next (u.answered s (.resetDram h c) k Status.ok []) ∧
      DomainAsked s u h (6 + c.toNat)) ∧
  (∀ (s : State) (h : Hdr) (k : Nat), s.ready (.resetService h) k none = true →
    ∃ u : State, exec (.resetService h) s = .next (u.answered s (.resetService h) k Status.ok []) ∧ DomainAsked s u h 10) ∧
  (∀ (s : State) (h : Hdr) (k : Nat), s.ready (.resetFlash h) k none = true → s.flashBusy = false →
    ∃ u : State, exec (.resetFlash h) s = .next (u.answered s (.resetFlash h) k Status.ok []) ∧ DomainAsked s u h 11) ∧
  (∀ (s : State) (d : BitVec 4), s.replyQueued = false → d ∈ s.cdc.due → 1 ≤ d.toNat → d.toNat ≤ 11 →
    (∃ r ∈ s.domainDue.cdc.resets, r.kind = d ∧ r.done = s.tick + domTicks d.toNat) ∧
      bitOf (s.domainDue.fld F.CLK_DOM_STAT_IN_RESET) (d.toNat - 1) = true ∧ s.domainDue.mem = s.mem)

/-- R262, R267, R268: `FAB_PROBE` of a route whose first port is ACTIVE starts in the lowest free slot and its probe
waits; `FAB_ASSIGN` of the device itself with its serial in M1 or M2 gives it the address; `FAB_PATH_TEST` with a
payload of 64 to 1,024 bytes starts; `FAB_ROUTE_SET` outside a transaction, within the 64 entries, has its entries in
force. -/
def Obligations.FabricCommandsComplete : Prop :=
  (∀ (s : State) (h : Hdr) (k j : Nat) (r : BitVec 7) (f : BitVec 128), s.ready (.fabProbe h r f) k none = true →
    1 ≤ r.toNat → r.toNat ≤ 64 → s.lnkState (hopGet (routeBytes f) 0 0) = lkActive → s.opFree = some j →
    Starts s (.fabProbe h r f) k j (.fabProbe r f) (fun u => u.startProbe (.slot (BitVec.ofNat 4 j)) 0 r.toNat f []) ∧
    ∃ p ∈ (((s.turn (.fabProbe h r f) k).startOp (s.who k) j 0x38 (.fabProbe r f)).startProbe
        (.slot (BitVec.ofNat 4 j)) 0 r.toNat f []).fab.probes,
      p.who = .slot (BitVec.ofNat 4 j) ∧ p.start = s.tick ∧ p.answer = none) ∧
  (∀ (s : State) (h : Hdr) (k : Nat) (a : BitVec 16) (f : BitVec 128), a ≠ 0 → a.toNat ≤ 0xFFEF →
    s.ready (.fabAssign h 0 a f s.sec.fuses.serial) k none = true → (s.mode = 1 ∨ s.mode = 2) →
    ∃ u, Answers s (.fabAssign h 0 a f s.sec.fuses.serial) k Status.ok [a.setWidth 32] u ∧ u.addr = a ∧
      u.bit F.FAB_ADDR_VALID = true ∧ u.mem = s.mem) ∧
  (∀ (s : State) (h : Hdr) (k j : Nat) (g n c : BitVec 16), s.ready (.fabPathTest h g n c) k none = true →
    64 ≤ n.toNat → n.toNat ≤ 1024 → n.toNat % 4 = 0 → s.opFree = some j →
    Starts s (.fabPathTest h g n c) k j (.fabPathTest g n c) fun u =>
      if c = 0 then u.finishOp j Status.ok (List.replicate 7 0)
      else u.updFab fun y => { y with
        probeId := y.probeId + 1
        tests := y.tests ++ [{ slot := BitVec.ofNat 4 j, id := y.probeId, sent := 0, last := 0, answered := 0,
                               outOfOrder := 0, expect := 0, least := 0, sum := 0, greatest := 0, hops := 0 }] }) ∧
  (∀ (s : State) (h : Hdr) (k : Nat) (i : BitVec 6) (d : Bool) (p : BitVec 4) (es : List RouteEntry),
    s.ready (.fabRouteSet h i d p es) k none = true → i.toNat + es.length ≤ 64 →
    ∃ u, Answers s (.fabRouteSet h i d p es) k Status.ok [] u ∧
      (s.fab.routes.entries.length = 64 → ∀ n, n < es.length →
        u.fab.routes.entries.getD (i.toNat + n) ⟨0, 0, 0, false⟩ = es.getD n ⟨0, 0, 0, false⟩) ∧
      u.fab.routes.defPorts = (if d then p else s.fab.routes.defPorts) ∧ u.mem = s.mem)

/-- R291, R292, R295, R331: with no table operation running, `TABLE_LOAD` of an aligned image of 256 to 67,109,056
bytes into a slot not selected whose place lies in DRAM, from elsewhere in the space (or, no flash operation running,
from flash), starts and clears the slot's `VALID`; `TABLE_VERIFY` starts; `LAMP_SCAN` into DRAM starts while the table
in use is valid. R332: `LAMP_REPORT` of positions within a driver's 1,024 answers four words on the driver and two for
each position, and changes nothing but the counts of the words it read. -/
def Obligations.TableAndLampCommandsComplete : Prop :=
  ((∀ (s : State) (h : Hdr) (k j : Nat) (t : BitVec 1) (fl : Bool) (a n : BitVec 40),
    s.ready (.tableLoad h t fl a n) k none = true → s.tblSelected t.toNat = false → s.tblOp = none → a.toNat % 8 = 0 →
    256 ≤ n.toNat → n.toNat ≤ 67109056 → a.toNat + n.toNat ≤ (if fl then 0x10000000 else 2 ^ 40) →
    s.inDram (s.tblBase t.toNat) n.toNat = true →
    (fl = false → a.toNat = s.tblBase t.toNat ∨ s.tblBase t.toNat + n.toNat ≤ a.toNat ∨
      a.toNat + n.toNat ≤ s.tblBase t.toNat) → (fl = true → s.flashBusy = false) → s.opFree = some j →
    Starts s (.tableLoad h t fl a n) k j (.tableLoad t fl a.toNat n.toNat) fun u => u.tblInvalidate t.toNat) ∧
  (∀ (s : State) (h : Hdr) (k j : Nat) (t : BitVec 1), s.ready (.tableVerify h t) k none = true → s.tblOp = none →
    s.opFree = some j → Starts s (.tableVerify h t) k j (.tableVerify t) id) ∧
  (∀ (s : State) (h : Hdr) (k j : Nat) (m : BitVec 128) (x y z : Bool) (g n : Word) (a : BitVec 40),
    s.ready (.lampScan h m x y z g a n) k none = true → (∀ i, (s.op i).st = 1 → (s.op i).opcode ≠ 0x48) →
    s.tblValid s.tblNow = true → a.toNat % 16 = 0 → n.toNat ≤ 1048576 → s.inDram a.toNat (16 * n.toNat) = true →
    s.opFree = some j → Starts s (.lampScan h m x y z g a n) k j (.lampScan m x y z g a.toNat n) id)) ∧
  (∀ (s : State) (h : Hdr) (k : Nat) (q : BitVec 7) (d : BitVec 6) (f : BitVec 10) (n : BitVec 11),
    s.ready (.lampReport h q d f n) k none = true → f.toNat + n.toNat ≤ 1024 →
    ∃ ws, Answers s (.lampReport h q d f n) k Status.ok ws (((s.turn (.lampReport h q d f n) k).accountMap .bulk).accountRead .bulk
      (s.verdictAddr q.toNat d.toNat f.toNat) (8 * n.toNat)) ∧
      ws.length = 4 + 2 * n.toNat ∧
      ws.getD 1 0 = (match ((s.chain q.toNat).driver d.toNat).seen with
        | some e => BitVec.ofNat 32 (min (s.tm.curFrame - e.1) (2 ^ 32 - 1))
        | none => 0xFFFFFFFF))

/-- R253: `CAL_RUN` (a full one in M7 only) and `CAL_STORE` of ports that are ACTIVE and not under calibration start.
The run holds its ports, begins on each of them and shows itself running; the store holds its ports. Completes:
`CAL_RUN`, `CAL_STORE`. R254, R333: in M7 each of the six patterns runs on a port by actions 1 to 4, which puts the
port in SERVICE with the pattern, lanes and argument held, a check counting afresh, and action 0 ends it in CLOCK; on
a tile with a valid table a lamp pattern starts a measurement and its stop ends it. R254: on a port that is ACTIVE, in
M2 to M7, an injection of bit errors or of bad LCBs into as many frames as the argument says is held, and nothing else
changes. -/
def Obligations.LinkServiceCommandsComplete : Prop :=
  (∀ (s : State) (h : Hdr) (k j : Nat) (p : BitVec 4) (f : Bool),
    (∀ q, q < 4 → p.getLsbD q = true → s.lnkState q = lkActive ∧ (s.lane q).cal = none ∧ (s.lane q).calSlot = none) →
    s.opFree = some j → s.lnk.ports.length = 4 →
    (s.ready (.calRun h p f) k none = true → (f = true → s.mode = 7) →
      ∃ after, Starts s (.calRun h p f) k j (.calRun p f) after ∧ ∀ u : State, u.lnk.ports.length = 4 →
        (after u).fld F.LNK_CAL_STAT_STATE = 1 ∧ (after u).mem = u.mem ∧
        ∀ q, q < 4 → p.getLsbD q = true → ((after u).lane q).calSlot = some (BitVec.ofNat 4 j) ∧
          ((after u).lane q).cal.isSome = true ∧ ((after u).lane q).need = true) ∧
    (s.ready (.calStore h p) k none = true →
      Starts s (.calStore h p) k j (.calStore p) fun u => u.holdCal p.toNat (some (BitVec.ofNat 4 j)))) ∧
  ((∀ (s : State) (h : Hdr) (k : Nat) (q : BitVec 2) (l p : BitVec 4) (a : Word) (c : Instr) (n : BitVec 4),
    s.ready c k none = true → s.mode = 7 → p.toNat < 6 → q.toNat < s.lnk.ports.length →
    ((c = .diagPatternGenerate h q l p a ∧ n = 1) ∨ (c = .diagPatternCheck h q l p a ∧ n = 2) ∨
      (c = .diagPatternGenerateCheck h q l p a ∧ n = 3) ∨ (c = .diagPatternLoopback h q l p a ∧ n = 4)) →
    ∃ u, Answers s c k Status.ok [] u ∧ u.lnkState q.toNat = lkService ∧
      (u.lane q.toNat).pat = some ⟨n, p, l, a⟩ ∧ u.mem = s.mem ∧
      ((n = 2 ∨ n = 3) → ∀ i, i < 4 → l.getLsbD i = true → u.word (F.LNK_PAT_STAT_LOCK q.toNat i).addr = 0)) ∧
  (∀ (s : State) (h : Hdr) (k : Nat) (q : BitVec 2) (l p : BitVec 4) (a : Word),
    s.ready (.diagPatternStop h q l p a) k none = true → s.mode = 7 → p.toNat < 6 → s.lnkState q.toNat = lkService →
    q.toNat < s.lnk.ports.length →
    ∃ u, Answers s (.diagPatternStop h q l p a) k Status.ok [] u ∧ u.lnkState q.toNat = lkClock ∧
      (u.lane q.toNat).pat = none ∧ u.mem = s.mem) ∧
  (∀ (s : State) (h : Hdr) (k : Nat) (p : BitVec 4) (a : Word), s.ready (.diagPatternLampStart h p a) k none = true →
    s.role = roleTile → s.mode = 7 → s.tblValid s.tblNow = true → p.toNat < 4 →
    Answers s (.diagPatternLampStart h p a) k Status.ok []
      (((s.turn (.diagPatternLampStart h p a) k).updTile fun t => { t with pat := some ⟨p.toNat, a⟩ }).startMeasure
        fun _ => true)) ∧
  (∀ (s : State) (h : Hdr) (k : Nat) (p : BitVec 4) (a : Word), s.ready (.diagPatternLampStop h p a) k none = true →
    s.role = roleTile → s.mode = 7 → s.tblValid s.tblNow = true → p.toNat < 4 →
    ∃ u, Answers s (.diagPatternLampStop h p a) k Status.ok [] u ∧ u.tile.pat = none ∧ .lampLow ∈ u.out ∧ u.mem = s.mem)) ∧
  (∀ (s : State) (h : Hdr) (k : Nat) (q : BitVec 2) (l p : BitVec 4) (a : Word), 2 ≤ s.mode →
    s.lnkState q.toNat = lkActive → p.toNat < 6 →
    (s.ready (.diagPatternInjectBit h q l p a) k none = true →
      Answers s (.diagPatternInjectBit h q l p a) k Status.ok []
        ((s.turn (.diagPatternInjectBit h q l p a) k).updLane q.toNat fun y => { y with
          injectBit := a.toNat % 65536, injectLane := ((bitsOf 4 l.toNat).head?).getD 0 })) ∧
    (s.ready (.diagPatternInjectLcb h q l p a) k none = true →
      Answers s (.diagPatternInjectLcb h q l p a) k Status.ok []
        ((s.turn (.diagPatternInjectLcb h q l p a) k).updLane q.toNat fun y => { y with
          injectLcb := a.toNat % 65536 })))

/-- R107, R347, R350, R354: `RED_JOIN` that no check of R350 refuses starts, with the pair's state JOINING;
`RED_STATE` answers six words of the role; `RED_SWITCH` outside a transaction on a sender that is READY requests the
other mode of the pair, on a tile it commands the source, as it is dispatched (R347 allows up to 4,096 ticks: the
model's choice, log entry 24). -/
def Obligations.RedundancyCommandsComplete : Prop :=
  (∀ (s : State) (h : Hdr) (k j : Nat) (p : BitVec 16) (rs : List (BitVec 40 × BitVec 40)),
    s.ready (.redJoin h p rs) k none = true →
    (s.turn (.redJoin h p rs) k).joinRefusal (s.who k) p (rs.map fun r => (r.1.toNat, r.2.toNat)) = none →
    s.opFree = some j →
    ∃ after, Starts s (.redJoin h p rs) k j (.redJoin p (rs.map fun r => (r.1.toNat, r.2.toNat))) after ∧
      ∀ u, (after u).fld F.RED_SND_STAT_STATE = 1 ∧ (after u).red.pairSrc = some p ∧ (after u).red.join.isSome = true ∧
        (after u).mem = u.mem) ∧
  (∀ (s : State) (h : Hdr) (k : Nat), s.ready (.redState h) k none = true →
    ∃ ws, Answers s (.redState h) k Status.ok ws (s.turn (.redState h) k) ∧ ws.length = 6 ∧
      (s.role = roleSender → ws.getD 0 0 = s.sndStat ∧ ws.getD 1 0 = s.word F.RED_DIGEST_DIGEST.addr) ∧
      (s.role ≠ roleSender → ws.getD 0 0 = s.tileStat)) ∧
  (∀ (s : State) (h : Hdr) (k : Nat) (x : BitVec 1), s.ready (.redSwitch h x) k none = true →
    (s.role = roleSender → s.pairState = 0 →
      Answers s (.redSwitch h x) k Status.ok []
        ((s.turn (.redSwitch h x) k).requestMode (7 - s.mode) true)) ∧
    (s.role = roleTile →
      Answers s (.redSwitch h x) k Status.ok [] ((s.turn (.redSwitch h x) k).commandSource x.toNat)))

/-- R410, R411, R415: `FW_STAGE` of whole blocks into the chrysalis by the service ring, no molt pending and no flash
operation running, starts and clears what was verified there, from DRAM or with its words; `FW_VERIFY` starts;
`FW_MOLT` of a verified image outside a transaction leaves a molt due, which waits for its reply to leave unless
`NO_REPLY` suppresses it. R32, R33, R396: `ATTEST` starts while signature indexes are left and none runs;
`INSTAR_ADVANCE` to the next instar with the confirming word, in M1 with nothing under way and what that step asks
for, blows the step's fuses and, both reading back, leaves a device reset due. A transaction that is UNCERTAIN does
not stand against it (deduced, log entry 41). -/
def Obligations.FirmwareCommandsComplete : Prop :=
  ((∀ (s : State) (h : Hdr) (k j : Nat) (d : Bool) (o n : Word) (a : BitVec 40) (ws : List Word),
    s.ready (.fwStage h 0 d o n a ws) k none = true → (if d then ws = [] else n.toNat = 4 * ws.length) →
    o.toNat % 4096 = 0 → n.toNat % 4096 = 0 → (d = true → a.toNat % 8 = 0 ∧ s.inDram a.toNat n.toNat = true) →
    o.toNat + n.toNat ≤ (s.areaOf 0).2 → s.ringSession k = true → s.moltPending = false → s.flashBusy = false →
    s.opFree = some j →
    Starts s (.fwStage h 0 d o n a ws) k j (.fwStage 0 d o n a.toNat ws) fun u =>
      if n = 0 then (u.setChrys 0).finishOp j Status.ok [0, 0, 0xFFFFFFFF] else u.setChrys 0) ∧
  (∀ (s : State) (h : Hdr) (k j : Nat), s.ready (.fwVerify h) k none = true → s.flashBusy = false → s.opFree = some j →
    Starts s (.fwVerify h) k j .fwVerify id) ∧
  (∀ (s : State) (h : Hdr) (k : Nat) (v : Bool), s.ready (.fwMolt h v) k none = true → s.ringSession k = true →
    s.fld F.SEC_STAT_CHRYS_STATE = 1 → s.moltPending = false →
    Answers s (.fwMolt h v) k Status.ok []
      ((s.turn (.fwMolt h v) k).updSec fun c => { c with moltDue := some v, moltWaits := !h.noReply }))) ∧
  ((∀ (s : State) (h : Hdr) (k j : Nat) (n : List Word) (p : Bool), s.ready (.attest h n p) k none = true →
    s.sec.idNext < 2 ^ 30 → (∀ i, (s.op i).st = 1 → (s.op i).opcode ≠ 0x68) → s.opFree = some j →
    Starts s (.attest h n p) k j (.attest n p) id) ∧
  (∀ (s : State) (h : Hdr) (k : Nat) (g : BitVec 3), s.ready (.instarAdvance h g 0x494E5354 true true) k none = true →
    s.instar < 4 → g.toNat = s.instar + 1 → s.mode = 1 → s.txn.actions = [] →
    (∀ x ∈ s.txn.txns, x.state = .applied ∨ x.state = .aborted ∨ x.state = .uncertain) →
    (g = 1 → s.provOk = true) → (g = 2 → s.sec.nvm.ownerKey ≠ none) → (3 ≤ g.toNat → s.ownerSession k = true) →
    ∃ u, Answers s (.instarAdvance h g 0x494E5354 true true) k Status.ok [] u ∧ u.sys.resetReq = some 3 ∧
      u.sec.fuses.instar = s.sec.fuses.instar.modify (g.toNat - 1) (fun _ => (true, true)) ∧
      u.regs = (s.turn (.instarAdvance h g 0x494E5354 true true) k).regs ∧ u.mem = s.mem))

/-! ## Register writes with behaviour of their own -/

/-- R16: `SYS_MODE_REQ` for M2 or M7 by a device in M1 with no change under way, and for M2 with a role, is taken:
`LAST_REQ` shows it, `REQ_ERR` is 0, `BUSY` is set, the change is under way, and `CUR` reads 2 at once for M2; a
request on no path of R15 is refused with code 1 and the mode stays, no change being under way. Completes:
`SYS_MODE_REQ`. R12, R13: while the device has no role, writing one assigns it with source host and changes no other
register; a device that has a role keeps it. Completes: `ROLE_SET`. R14, R25, R31: before eclosion, in recovery and at
instar 4 no register write lands: none of them changes anything. -/
def Obligations.ModesAndRoleAreRequested : Prop :=
  ((∀ (s : State) (g : BitVec 3), s.lands = true → s.mode = 1 → s.sys.change = none → (g = 2 ∨ g = 7) →
    (g = 2 → s.role ≠ 0) →
    ∃ t, exec (.sysModeReq g) s = .next t ∧ t.sys.change = some { target := g, origin := 1, at_ := s.clk } ∧
      t.fld F.SYS_MODE_LAST_REQ = g.toNat ∧
      t.fld F.SYS_MODE_REQ_ERR = 0 ∧ t.fld F.SYS_MODE_BUSY = 1 ∧ t.sys.auto = none ∧ t.mode = (if g = 2 then 2 else 1)) ∧
  (∀ (s : State) (g : BitVec 3), s.lands = true → s.sys.change = none → modePath s.mode g.toNat = false →
    ∃ t, exec (.sysModeReq g) s = .next t ∧ t.sys.change = none ∧ t.mode = s.mode ∧
      t.fld F.SYS_MODE_LAST_REQ = g.toNat ∧ t.fld F.SYS_MODE_REQ_ERR = 1)) ∧
  (∀ (s : State) (r : BitVec 2), s.lands = true →
    (s.role = 0 → r ≠ 0 → ∃ t, exec (.roleSet r) s = .next t ∧ t.role = r.toNat ∧ t.fld F.SYS_ROLE_SOURCE = 3 ∧
      t.fld F.SYS_ROLE_ROLE_SET = r.toNat ∧ (∀ a, a ≠ F.SYS_ROLE_ROLE.addr → t.word a = s.word a) ∧ t.mem = s.mem) ∧
    (s.role ≠ 0 → exec (.roleSet r) s = .next s)) ∧
  (∀ s : State, s.mode = 0 ∨ s.bit F.SYS_BOOT_RECOVERY = true ∨ s.instar = 4 →
    (∀ g, exec (.sysModeReq g) s = .next s) ∧ (∀ r, exec (.roleSet r) s = .next s) ∧
    (∀ v, exec (.timeSrcWrite v) s = .next s) ∧ exec .snap s = .next s ∧ exec .reacquire s = .next s ∧
    exec .set s = .next s ∧ exec .adj s = .next s ∧ exec .timeCntClr s = .next s ∧
    (∀ f v, exec (.ethModeWrite f v) s = .next s) ∧ (∀ k, exec (.ingCntClr k) s = .next s) ∧
    (∀ q, exec (.lnkRetrain q) s = .next s) ∧ (∀ q b, exec (.lnkDeep q b) s = .next s) ∧
    exec .ldrMeasure s = .next s ∧ exec .ldrCntClr s = .next s ∧ (∀ k b, exec (.enrol k b) s = .next s) ∧
    (∀ k v, exec (.epoch k v) s = .next s) ∧ (∀ k w, exec (.secProof k w) s = .next s) ∧
    (∀ c b, exec (.inService c b) s = .next s) ∧ (∀ b o, exec (.bankSetOwner b o) s = .next s) ∧
    ∀ b p, exec (.bankSetPwr b p) s = .next s)

/-- R41, R43: a new source written in M1, M2, M6 or M7 is in force, and the clock's state is FREE without a source,
LOCKED on the device's own, ACQUIRING on another; the same source leaves the state; in M3 to M5 the source stays.
Completes: `TIME_SRC_WRITE`. R38, R46: `SNAP` captures seconds, nanoseconds, fraction, frame and phase of one instant;
`SET` and `ADJ` step the clock where nothing is pending, the mode is not M3 to M5 and the clock is FREE or served by
the host, and where that fails they leave its code in `CTRL_IGN` and nothing else; `REACQUIRE` moves from HOLDOVER to
ACQUIRING under the first two of these and without them leaves the code; `CNT_CLR` zeroes the time counters.
Completes: `SNAP`, `SET`, `ADJ`, `REACQUIRE`, `TIME_CNT_CLR`. -/
def Obligations.ClockWritesComplete : Prop :=
  (∀ (s : State) (v : Word), s.lands = true → ∃ t, exec (.timeSrcWrite v) s = .next t ∧
    ((s.mode < 3 ∨ 5 < s.mode) → F.TIME_SRC_SOURCE.get v ≤ 5 → t.source = F.TIME_SRC_SOURCE.get v) ∧
    (t.source = s.source → t.timeState = s.timeState) ∧
    (t.source ≠ s.source → t.timeState = if t.source = srcFree then stFree else if t.source = srcInternal then stLocked
      else stAcquiring) ∧
    (3 ≤ s.mode → s.mode ≤ 5 → t.source = s.source)) ∧
  (∀ s : State, s.lands = true →
    (∃ t, exec .snap s = .next t ∧ t.clk = s.clk ∧ t.fld (F.TIME_SNAP_VALUE 0) = timeSec s.clk / 2 ^ 32 % 2 ^ 32 ∧
      t.fld (F.TIME_SNAP_VALUE 1) = timeSec s.clk % 2 ^ 32 ∧ t.fld (F.TIME_SNAP_VALUE 2) = timeNs s.clk % 2 ^ 32 ∧
      t.fld (F.TIME_SNAP_VALUE 3) = timeFrac s.clk % 2 ^ 32 ∧
      t.fld (F.TIME_SNAP_VALUE 4) = s.tm.curFrame / 2 ^ 32 % 2 ^ 32 ∧
      t.fld (F.TIME_SNAP_VALUE 5) = s.tm.curFrame % 2 ^ 32 ∧ t.fld (F.TIME_SNAP_VALUE 6) = s.curPhase % 2 ^ 32) ∧
    (s.stepGate true = 0 → ∃ t, exec .set s = .next t ∧ t.clk =
      wrapTime (((s.fld (F.TIME_SET_VALUE 0) * 2 ^ 32 + s.fld (F.TIME_SET_VALUE 1)) * secU +
        s.fld (F.TIME_SET_VALUE 2) % 2 ^ 30 * nsU : Nat) : Int)) ∧
    (s.stepGate true = 0 → ∃ t, exec .adj s = .next t ∧ t.clk =
      wrapTime ((s.clk : Int) + sext 32 (s.fld F.TIME_ADJ_ADJ_NS) * (nsU : Nat))) ∧
    (s.stepGate true ≠ 0 → exec .set s = .next (s.setFld F.TIME_STAT_CTRL_IGN (s.stepGate true)) ∧
      exec .adj s = .next (s.setFld F.TIME_STAT_CTRL_IGN (s.stepGate true))) ∧
    (s.timeState = stHoldover → s.stepGate false = 0 →
      ∃ t, exec .reacquire s = .next t ∧ t.timeState = stAcquiring ∧ t.tm.root = none) ∧
    (s.stepGate false ≠ 0 → exec .reacquire s = .next (s.setFld F.TIME_STAT_CTRL_IGN (s.stepGate false))) ∧
    (∃ t, exec .timeCntClr s = .next t ∧ (∀ i, i < 8 → t.fld (F.TIME_CNT_COUNT i) = 0) ∧ t.clk = s.clk ∧ t.mem = s.mem))

/-- R135, R159, R307, R464: a port mode or FEC setting written waits, what is in force staying until then, and the
mode written reads back (`MODE` 3 as 0); in the first tick in which no reply of the device has still to leave, its 1
ms begins (that this is when its write's reply has left is deduced, log entry 60; a write without a reply, log entry
70). Clearing the counters of a stream selects it and zeroes them, and clearing those of the lamp driver zeroes them:
no other register changes; a measurement asked for while the lamps are driven is under way on every chain. Completes:
`ETH_MODE_WRITE`, `ING_CNT_CLR`, `LDR_CNT_CLR`, `LDR_MEASURE`. R244, R247: `RETRAIN` of a FAILED port sends it to
CLOCK (the state it goes to is the model's choice, log entry 62) with no lane excluded, and takes a port that carries
cells out of ACTIVE to BLOCK with that cause; the deep-idle bit is held as written; set, it takes a port that carries
cells to DEEP_IDLE, and cleared, has a port in DEEP_IDLE drive its clock lane again and lets any other be. Completes:
`LNK_RETRAIN`, `LNK_DEEP`. -/
def Obligations.MediaAndLinkWritesComplete : Prop :=
  (∀ s : State, s.lands = true →
    (s.replyQueued = false → ∀ x ∈ s.ethWait.eth.waiting, x.answered = true ∧
      (x ∈ s.eth.waiting ∨ x.due = s.tick + usTicks 1000)) ∧
    (∀ f v, ∃ t w, exec (.ethModeWrite f v) s = .next t ∧ t.eth.waiting = s.eth.waiting ++ [⟨f, w, false, 0⟩] ∧
      t.eth.modeNow = s.eth.modeNow ∧ t.eth.fecNow = s.eth.fecNow ∧ t.mem = s.mem ∧
      (f = true → w = v &&& 0xFFFF ∧ t.word 0x40004 = w) ∧
      (f = false → t.word 0x40000 = w ∧
        F.ETH_MODE_MODE.get w = if F.ETH_MODE_MODE.get v = 3 then 0 else F.ETH_MODE_MODE.get v)) ∧
    (∀ k : BitVec 5, ∃ t, exec (.ingCntClr k) s = .next t ∧ t.fld F.ING_CNT_SEL_STREAM = k.toNat ∧
      (∀ a, a ≠ F.ING_CNT_SEL_STREAM.addr → t.word a = s.word a) ∧ t.mem = s.mem ∧
      (k.toNat < s.ing.streams.length → (t.stream k.toNat).counts = List.replicate 14 0) ∧
      ∀ j, j ≠ k.toNat → t.stream j = s.stream j) ∧
    (∃ t, exec .ldrCntClr s = .next t ∧ (∀ i, i < 12 → t.fld (F.LDR_CNT_COUNT i) = 0) ∧
      (∀ a, (∀ i, i < 12 → a ≠ (F.LDR_CNT_COUNT i).addr) → t.word a = s.word a) ∧ t.mem = s.mem) ∧
    (s.lampsOn = true → ∃ t, exec .ldrMeasure s = .next t ∧ t.regs = s.regs ∧ t.mem = s.mem ∧
      ∀ c, c < 128 → c < s.tile.chains.length → (t.chain c).measuring = true)) ∧
  (∀ (s : State) (q : BitVec 2), s.lands = true → q.toNat < s.lnk.ports.length →
    (s.lnkState q.toNat = lkFailed → ∃ t, exec (.lnkRetrain q) s = .next t ∧ t.lnkState q.toNat = lkClock ∧
      (t.lane q.toNat).excluded = 0 ∧ (t.lane q.toNat).laneOk = 15 ∧ t.mem = s.mem) ∧
    (s.carries q.toNat = true → ∃ t, exec (.lnkRetrain q) s = .next t ∧ t.lnkState q.toNat = lkBlock ∧
      t.fld (F.LNK_STAT_LAST_FAIL q.toNat) = 8 ∧ (t.lane q.toNat).excluded = 0 ∧ t.mem = s.mem) ∧
    (s.lnkState q.toNat ≠ lkDeep → ∃ t, exec (.lnkDeep q false) s = .next t ∧ t.bit (F.LNK_CTRL_DEEP q.toNat) = false ∧
      t.lnkState q.toNat = s.lnkState q.toNat ∧ t.lnk = s.lnk ∧ t.mem = s.mem) ∧
    (s.lnkState q.toNat = lkDeep → ∃ t, exec (.lnkDeep q false) s = .next t ∧ t.bit (F.LNK_CTRL_DEEP q.toNat) = false ∧
      t.lnkState q.toNat = lkDeep ∧ t.clockDriven q.toNat = true ∧ t.mem = s.mem) ∧
    (∃ t, exec (.lnkDeep q true) s = .next t ∧ t.bit (F.LNK_CTRL_DEEP q.toNat) = true ∧ t.mem = s.mem ∧
      t.lnkState q.toNat = if s.carries q.toNat then lkDeep else s.lnkState q.toNat))

/-- R397 to R399: the ring session at instar 0 or 1 enrols the key it has written, with epoch 0, when the key reads
back; an owner session raises the epoch and never lowers it; a ring session whose proof matches the challenge becomes
an owner session, and any proof leaves a fresh challenge, which is free. Completes: `ENROL`, `EPOCH`, `SEC_PROOF`.
R365, R372, R373, R378: putting a channel out of service in M1, M2 or M7 takes its regions out and empties it; putting
one in starts its training; the owner of a bank that is not busy, pending or off changes at once with the old owner
draining; a free bank's power is lowered at once, and raised after its time. Completes: `IN_SERVICE`,
`BANK_SET_OWNER`, `BANK_SET_PWR`. -/
def Obligations.OwnershipAndMemoryWritesComplete : Prop :=
  (∀ (s : State) (k : BitVec 6), s.lands = true →
    (s.ringSession k.toNat = true → s.instar ≤ 1 → ∃ t, exec (.enrol k true) s = .next t ∧
      t.sec.nvm.ownerKey = some (BitVec.ofNat 256 (natBE (wordsBytes s.sec.ownerKeyIn))) ∧ t.sec.nvm.epoch = 0 ∧
      t.bit F.SEC_STAT_ENROLLED = true ∧ t.fld F.SEC_STAT_ENROL_ERR = 0 ∧ t.mem = s.mem) ∧
    (∀ v : BitVec 16, s.ownerSession k.toNat = true →
      ∃ t, exec (.epoch k v) s = .next t ∧ t.sec.nvm.epoch = (if s.sec.nvm.epoch < v then v else s.sec.nvm.epoch) ∧
        t.regs = s.regs ∧ t.mem = s.mem ∧ t.sec.fuses = s.sec.fuses) ∧
    (∀ w : Word, s.ringSession k.toNat = true →
      ∃ t, exec (.secProof k w) s = .next t ∧ t.sec.chal = Config.random s.rnd ∧
        ((t.sess k.toNat).owner = true ↔ (s.sess k.toNat).owner = true ∨
          s.ringProof k.toNat = some (BitVec.ofNat 128 (natBE (wordsBytes (s.sec.proofIn.take 3 ++ [w]))))))) ∧
  (∀ s : State, s.lands = true →
    (∀ c : BitVec 2, (s.mode = 1 ∨ s.mode = 2 ∨ s.mode = 7) →
      (s.channelIn c.toNat = true → ∃ t, exec (.inService c false) s = .next t ∧ t.channelIn c.toNat = false ∧
        (∀ a, 0x800000000 * c.toNat ≤ a → a < 0x800000000 * (c.toNat + 1) → t.byte a = 0) ∧
        (∀ a, (a < 0x800000000 * c.toNat ∨ 0x800000000 * (c.toNat + 1) ≤ a) → t.byte a = s.byte a)) ∧
      (s.channelIn c.toNat = false → s.memc.training.getLsbD c.toNat = false →
        ∃ t, exec (.inService c true) s = .next t ∧ t.memc.training.getLsbD c.toNat = true ∧ t.mem = s.mem ∧
          t.regs = s.regs)) ∧
    (∀ (b : BitVec 6) (o : BitVec 4), b.toNat < 48 → s.ownerLocked b.toNat o.toNat = false →
      ∃ t, exec (.bankSetOwner b o) s = .next t ∧ t.fld (F.MEM_BANK_STAT_OWNER b.toNat) = o.toNat ∧
        t.fld (F.MEM_BANK_OWNER_OWNER b.toNat) = o.toNat ∧ t.mem = s.mem ∧
        (s.fld (F.MEM_BANK_STAT_OWNER b.toNat) ≠ o.toNat → t.bit (F.MEM_BANK_STAT_DRAINING b.toNat) = true)) ∧
    (∀ (b : BitVec 6) (p : BitVec 2), b.toNat < 48 → s.fld (F.MEM_BANK_STAT_OWNER b.toNat) = 0 →
      (F.MEM_BANK_OWNER_OWNER b.toNat).get (s.shadowWord (F.MEM_BANK_OWNER_OWNER b.toNat).addr) = 0 →
      s.entryPending (F.MEM_BANK_OWNER_OWNER b.toNat).addr = false → p ≠ 3 →
      s.fld (F.MEM_BANK_SET_PWR b.toNat) ≠ p.toNat →
      ∃ t, exec (.bankSetPwr b p) s = .next t ∧ t.fld (F.MEM_BANK_SET_PWR b.toNat) = p.toNat ∧
        (p ≠ 0 → t.fld (F.MEM_BANK_STAT_PWR b.toNat) = p.toNat) ∧
        (p = 0 → t.bit (F.MEM_BANK_STAT_CHANGING b.toNat) = true ∧ t.mem = s.mem) ∧
        (p = 2 → ∀ a, bankBase b.toNat ≤ a → a < bankBase b.toNat + 0x80000 → t.byte a = 0)))

/-! ## Command transports and the ends of waits -/

/-- R76 to R78, R147: a datagram that is for the device and carries the tag of its key is verified: the first segment
of a packet of several is held under that key from its address and port, and a whole packet that is sound and of the
key word's own source is received; a relaying sender keeps its source. One that no key answers for is counted, changes
no session and no packet, and is told so once a millisecond for each address where a port can transmit; one that is
not for commands only counts as a frame and an unmatched packet (the model's choice, as is that what leaves by UDP
leaves where some port can transmit: log entry 51). Completes: `UDP_DATAGRAM`. R75, R81: a segment that cannot be one
is dropped and counted; the first of a packet of several is held with the time of its arrival, unless its source holds
four packets already, when it is dropped and counted; a repeated one changes nothing; the one that completes a packet
ends its wait, and a sound packet is received with its bytes in ascending order. A last segment of any length is taken
whole (the model's choice, log entry 53). Completes: `COMMAND_SEGMENT`. R72, R81: bytes that make no whole packet,
whose CRC does not match or whose version is not 1 execute nothing: one counter each. R78, R417 to R419: a segment of
a reply whose destination is in the relay table leaves as a datagram to that address under that key where a media port
can transmit it (the model's choice, log entry 51), and makes that entry the latest used; another is counted. A sound
ring frame of the chain whose count is not yet 0 is counted and goes on with the count lowered, at once where the line
is free; one with count 0 is counted and consumed by the device, a command segment that starts a packet of several
being held; an own frame of the ring is passed on with the count raised until it has run out, which is counted; a
damaged one leaves every register and what the ring holds as they are. Completes: `RELAY_REPLY`, `RING_FRAME`. -/
def Obligations.CommandTransportsComplete : Prop :=
  (∀ (s : State) (d : Datagram), let m := d.mediaPort.toNat
    (∀ i, s.accepts (.udp d.srcIp d.srcPort d.keyId d.keyId) = true → s.udpForMe d = true → s.udpKey d = some i →
      s.udpTag d i = some d.tag →
      let v : Via := .udp d.srcIp d.srcPort d.keyId i
      (s.cmd.partials.find? fun p => p.isOf v d.seg.pktId) = none →
      (d.seg.index ≤ d.seg.last → d.seg.last ≠ 0 → d.seg.last.toNat ≤ 64 →
        (d.seg.index = d.seg.last ∨ d.seg.bytes.length = 1020) →
        (s.cmd.partials.filter fun p => viaSource p.via == viaSource v).length < 4 →
        ∃ t, exec (.udpDatagram d) s = .next t ∧ t.mem = s.mem ∧ t.txn = s.txn ∧
          t.cmd.partials = s.cmd.partials ++
            [⟨v, d.seg.pktId, d.seg.last, s.tick, [(d.seg.index.toNat, d.seg.bytes)], [d.keySrc]⟩] ∧
          (s.relays = true → t.cmd.relay.head? = some (d.keySrc, v))) ∧
      (let n := d.seg.bytes.length
        let p := packetOf v (bytesWords (d.seg.bytes.take (n - 4)))
        d.seg.index = 0 → d.seg.last = 0 → s.relays = false → s.sessionOf d.keySrc = none → p.hdr.src = d.keySrc →
        n % 4 = 0 → 20 ≤ n → bytesBE 4 (crc32c (d.seg.bytes.take (n - 4))).toNat = d.seg.bytes.drop (n - 4) →
        (d.seg.bytes.getD 0 0).toNat / 16 = 1 →
        exec (.udpDatagram d) s = .next ((s.frameIn m).receive (.raw p) (some (d.seg.pktId, d.seg.bytes))))) ∧
    (s.accepts (.udp d.srcIp d.srcPort d.keyId d.keyId) = true → s.udpForMe d = true →
      (s.udpKey d = none ∨ ∃ i, s.udpKey d = some i ∧ s.udpTag d i ≠ some d.tag) →
      ∃ t, exec (.udpDatagram d) s = .next t ∧ t.cmd.sess = s.cmd.sess ∧ t.cmd.partials = s.cmd.partials ∧
        t.mem = s.mem ∧ t.fld (F.CMD_CNT_COUNT 2) = min (s.fld (F.CMD_CNT_COUNT 2) + 1) (2 ^ 32 - 1) ∧
        (let told := s.cmd.authNotice.any fun e => e.1 == d.srcIp && e.2 == s.clk / usU 1000;
          (told = true → t.out = s.out) ∧
          (told = false → s.udpOut = true → ∃ tag key ws, t.out = .authFail d.srcIp d.srcPort tag key ws :: s.out))) ∧
    (s.udpForMe d = false → s.domBusy 1 = false → s.portRuns m = true →
      exec (.udpDatagram d) s = .next ((s.bump (F.ETH_CNT_COUNT m 0)).bump (F.ETH_CNT_COUNT m 7)))) ∧
  (∀ (s : State) (v : Via) (g : Segment), s.accepts v = true →
    (g.last < g.index ∨ 64 < g.last.toNat ∨ (g.index ≠ g.last ∧ g.bytes.length ≠ 1020) →
      exec (.commandSegment v g) s = .next (s.bump (F.CMD_CNT_COUNT 3))) ∧
    (g.index ≤ g.last → g.last.toNat ≤ 64 → (g.index = g.last ∨ g.bytes.length = 1020) →
      ((s.cmd.partials.find? fun p => p.isOf v g.pktId) = none → g.last ≠ 0 →
        let held := (s.cmd.partials.filter fun p => viaSource p.via == viaSource v).length
        (held < 4 → ∃ t, exec (.commandSegment v g) s = .next t ∧ t.regs = s.regs ∧ t.mem = s.mem ∧
          t.cmd.sess = s.cmd.sess ∧ t.cmd.partials = s.cmd.partials ++
            [⟨v, g.pktId, g.last, s.tick, [(g.index.toNat, g.bytes)], []⟩]) ∧
        (4 ≤ held → exec (.commandSegment v g) s = .next (s.bump (F.CMD_CNT_COUNT 3)))) ∧
      (∀ p, (s.cmd.partials.find? fun p => p.isOf v g.pktId) = some p → p.last = g.last →
        ((p.parts.any fun e => e.1 == g.index.toNat) = true → exec (.commandSegment v g) s = .next s) ∧
        ((p.parts.any fun e => e.1 == g.index.toNat) = false → p.parts.length = g.last.toNat → p.keySrcs = [] →
          let bs := (insertBy (fun a b => decide (a.1 < b.1)) (g.index.toNat, g.bytes) p.parts).flatMap Prod.snd
          let n := bs.length
          n % 4 = 0 → 20 ≤ n → bytesBE 4 (crc32c (bs.take (n - 4))).toNat = bs.drop (n - 4) →
          (bs.getD 0 0).toNat / 16 = 1 →
          exec (.commandSegment v g) s = .next
            ((s.updCmd fun c => { c with partials := c.partials.filter fun x => !x.isOf v g.pktId }).receive
              (.raw (packetOf v (bytesWords (bs.take (n - 4))))) (some (g.pktId, bs))))))) ∧
  (∀ (s : State) (v : Via) (g : Segment), s.accepts v = true → g.index = 0 → g.last = 0 →
    (s.cmd.partials.find? fun p => p.isOf v g.pktId) = none →
    let n := g.bytes.length
    let good := bytesBE 4 (crc32c (g.bytes.take (n - 4))).toNat = g.bytes.drop (n - 4)
    ((n % 4 ≠ 0 ∨ n < 20) → exec (.commandSegment v g) s = .next (s.bump (F.CMD_CNT_COUNT 3))) ∧
    (n % 4 = 0 → 20 ≤ n → ¬ good → exec (.commandSegment v g) s = .next (s.bump (F.CMD_CNT_COUNT 1))) ∧
    (n % 4 = 0 → 20 ≤ n → good → (g.bytes.getD 0 0).toNat / 16 ≠ 1 →
      exec (.commandSegment v g) s = .next (s.bump (F.CMD_CNT_COUNT 4)))) ∧
  ((∀ (s : State) (c : Cell), (∀ v, (s.cmd.relay.find? fun e => e.1 == c.dst) = some (c.dst, v) →
      ∃ t, exec (.relayReply c) s = .next t ∧ (s.udpOut = false → t.out = s.out) ∧
        (s.udpOut = true → ∀ ip port keyId key, v = .udp ip port keyId key →
          t.out = .relayed v c.payload :: (s.datagrams ip port keyId key c.dst [c.payload] ++ s.out)) ∧
        t.cmd.relay.head? = some (c.dst, v) ∧ t.regs = s.regs ∧ t.mem = s.mem) ∧
    ((s.cmd.relay.find? fun e => e.1 == c.dst) = none →
      exec (.relayReply c) s = .next (s.bump (F.CMD_CNT_COUNT 7)))) ∧
  (∀ (s : State) (f : RingFrame), s.domBusy 10 = false → s.ringRuns = true →
    (f.crc = crc32c (ringBytes f) → f.kind ≠ 3 → f.zero = 0 → f.len.toNat ≤ 1080 → f.payload.length = f.len.toNat →
      (f.dir = 0 → f.count ≠ 0 → s.ring.forward = [] → s.ring.own = [] → s.ring.busyTo ≤ s.tick →
        ∃ t, exec (.ringFrame f) s = .next t ∧ t.out = .ring (ringHop f (f.count - 1)) :: s.out ∧
          t.fld (F.CMD_RING_CNT_COUNT 0) = min (s.fld (F.CMD_RING_CNT_COUNT 0) + 1) (2 ^ 32 - 1) ∧
          t.ring.busyTo = s.tick + ringTicks f ∧ t.mem = s.mem ∧ t.cmd = s.cmd) ∧
      (∀ g, f.dir = 0 → f.count = 0 → s.mode ≠ 0 → f.kind = 0 → segmentOf f.payload = some g → g.index ≤ g.last →
        g.last ≠ 0 → g.last.toNat ≤ 64 → (g.index = g.last ∨ g.bytes.length = 1020) →
        (s.cmd.partials.find? fun p => p.isOf .ring g.pktId) = none →
        (s.cmd.partials.filter fun p => viaSource p.via == .ring).length < 4 →
        ∃ t, exec (.ringFrame f) s = .next t ∧ t.mem = s.mem ∧ t.cmd.sess = s.cmd.sess ∧
          t.fld (F.CMD_RING_CNT_COUNT 1) = min (s.fld (F.CMD_RING_CNT_COUNT 1) + 1) (2 ^ 32 - 1) ∧
          t.cmd.partials = s.cmd.partials ++ [{
            via := .ring, pktId := g.pktId, last := g.last, start := s.tick, parts := [(g.index.toNat, g.bytes)] }]) ∧
      (f.dir = 0 → f.count = 0 → s.mode ≠ 0 → f.kind = 1 →
        exec (.ringFrame f) s = .next ((s.bump (F.CMD_RING_CNT_COUNT 1)).ringEnumerate)) ∧
      (f.dir = 1 → f.count = 1023 → exec (.ringFrame f) s = .next (s.bump (F.CMD_RING_CNT_COUNT 5))) ∧
      (f.dir = 1 → f.count ≠ 1023 → exec (.ringFrame f) s = .next (s.ringForward (ringHop f (f.count + 1))))) ∧
    (f.crc ≠ crc32c (ringBytes f) → ∃ t, exec (.ringFrame f) s = .next t ∧ t.regs = s.regs ∧ t.ring = s.ring ∧
      t.mem = s.mem ∧ t.cmd = s.cmd ∧ t.out = s.out)))

/-- R81, R87, R97, R102: a packet 1 ms incomplete is dropped and counted; packets held for a gap of 1 ms are dropped,
a single one of a UDP session being counted and answered `ORDER_GAP` with reason GAP_TIMEOUT and the expected value;
once its session's operations have ended, a barrier that waits alone acts, and so does a packet that waits for a
conflicting operation: `st`, `ws` and `u` being what its body answers and leaves; a barrier `NOP` answers the role and
instar registers. That a packet which waited with its checks passed is not checked again is deduced (log entry 37);
that a reply leaves by UDP where some port can transmit is the model's choice (log entry 51). Completes:
`REASSEMBLY_TIMEOUT`, `HOLD_TIMEOUT`, `BARRIER_RELEASE`, `DEFERRED_DISPATCH`. R102: packets that wait act oldest
first: the head of the wait runs, and while it neither waits again nor ends the session, the next one does. -/
def Obligations.WaitsEnd : Prop :=
  ((∀ (s : State) (v : Via) (id : BitVec 16) (p : Partial), (s.cmd.partials.find? fun p => p.isOf v id) = some p →
    p.start + usTicks 1000 ≤ s.tick →
    ∃ t, exec (.reassemblyTimeout v id) s = .next t ∧ (∀ x ∈ t.cmd.partials, x.isOf v id = false) ∧
      t.fld (F.CMD_CNT_COUNT 3) = min (s.fld (F.CMD_CNT_COUNT 3) + 1) (2 ^ 32 - 1) ∧ t.cmd.sess = s.cmd.sess ∧
      t.mem = s.mem) ∧
  (∀ (s : State) (k : BitVec 6), (s.sess k.toNat).held ≠ [] → s.joinHolds k.toNat = false →
    (s.sess k.toNat).holdStart + usTicks 1000 ≤ s.tick →
    ∃ t, exec (.holdTimeout k) s = .next t ∧ (t.sess k.toNat).held = [] ∧
      (t.sess k.toNat).expected = (s.sess k.toNat).expected ∧ t.mem = s.mem ∧ t.txn = s.txn ∧ t.cmd.ops = s.cmd.ops ∧
      ∀ it ip port keyId key, (s.sess k.toNat).held = [it] → (s.sess k.toNat).via = .udp ip port keyId key →
        s.udpOut = true →
        t.fld (F.CMD_CNT_COUNT 6) = min (s.fld (F.CMD_CNT_COUNT 6) + 1) (2 ^ 32 - 1) ∧
        let r := replyTo it.hdr it.opcode s.addr Status.orderGap [reasonWord Reason.gapTimeout 0, (s.sess k.toNat).expected]
        t.out = .reply (.udp ip port keyId key) r :: (s.datagrams ip port keyId key r.dst
          ((segmentsOf (r.seq.setWidth 16) (packetBytes (replyWords r))).map segBytes) ++ s.out)) ∧
  (∀ (s u : State) (k : BitVec 6) (c : Instr) (st : BitVec 8) (ws : List Word),
    let e := s.sess k.toNat
    let run := s.updSess k.toNat fun e => { e with waiting := [] }
    e.isOpen = true → e.assigning = none → e.waiting = [⟨.cmd c, true⟩] → (Item.cmd c).hdr.txnId = 0 →
    s.opsRunning e.uid = false → run.hostBody (s.who k.toNat) none c = .done st ws u →
    ((Item.cmd c).barrier = true →
      exec (.barrierRelease k) s = .next (u.finishItem k.toNat e.via (.cmd c) st ws)) ∧
    exec (.deferredDispatch k) s = .next (u.finishItem k.toNat e.via (.cmd c) st ws)) ∧
  (∀ (s : State) (k : BitVec 6) (h : Hdr),
    let e := s.sess k.toNat
    e.isOpen = true → e.assigning = none → e.waiting = [⟨.cmd (.nop h), true⟩] → h.txnId = 0 → h.barrier = true →
    s.opsRunning e.uid = false →
    exec (.barrierRelease k) s = .next ((s.updSess k.toNat fun e => { e with waiting := [] }).finishItem k.toNat e.via
      (.cmd (.nop h)) Status.ok [s.word 0x110, s.word 0x120]))) ∧
  (∀ (s : State) (k uid n : Nat) (w : Waiting) (rest : List Waiting), (s.sess k).isOpen = true → (s.sess k).uid = uid →
    (s.sess k).assigning = none → (s.sess k).waiting = w :: rest →
    let t := (s.updSess k fun e => { e with waiting := rest }).runItem k w.item w.checked
    s.pump k uid (n + 1) =
      if (t.sess k).isOpen = true ∧ (t.sess k).uid = uid ∧ (t.sess k).waiting.length = rest.length + 1 then t
      else t.pump k uid n)

/-! ## Ends of long operations -/

/-- R265, R267, R268: at the end of a probe operation its slot is DONE with the answer's words, or zeros 10 ms after a
probe that no answer came to, and the probe waits no more; 10 ms after its probe a `FAB_ASSIGN` without an answer ends
its session's wait with `VERIFY_FAIL`, reason NO_ANSWER; a path test that has sent its requests ends DONE 10 ms after
the last with seven words, of which the first three are the requests that left, the answers and those out of order;
while requests are left to send, the next leaves 10 µs after the last. Completes: `FAB_PROBE_DONE`, `FAB_ASSIGN_DONE`,
`FAB_PATH_TEST_DONE`, `PATH_TEST_SEND`. R251 to R253: once every lane of the ports of a calibration has ended, its
slot is DONE and the ports are free of it; with no sweep, it ends OK with pass as the last result where every port
passed, and with `VERIFY_FAIL` and fail where a lane of one failed; one whose lanes still run goes on. A store whose
records all read back ends OK with the CRC of each port's record and frees the ports. Completes: `CAL_RUN_DONE`,
`CAL_STORE_DONE`. -/
def Obligations.LinkAndFabricOperationsEnd : Prop :=
  ((∀ (s : State) (j : BitVec 4) (r : BitVec 7) (f : BitVec 128) (p : ProbeWait), s.runs j.toNat (.fabProbe r f) →
    s.probeOf (.slot j) = some p →
    (p.answer = none → p.start + usTicks 10000 ≤ s.tick →
      ∃ t, exec (.fabProbeDone j) s = .next t ∧ t.ended j.toNat Status.ok (List.replicate 12 0) ∧
        t.probeOf (.slot j) = none ∧ t.mem = s.mem ∧ t.regs = s.regs) ∧
    (∀ a, p.answer = some a → a.length = 64 →
      ∃ t, exec (.fabProbeDone j) s = .next t ∧
        t.ended j.toNat Status.ok (1 :: bytesWords (slice a 36 28) ++ bytesWords (slice a 20 16)) ∧
        t.probeOf (.slot j) = none ∧ t.mem = s.mem ∧ t.regs = s.regs)) ∧
  (∀ (s : State) (k : BitVec 6) (c : Instr) (p : ProbeWait), (s.sess k.toNat).assigning = some c →
    (s.sess k.toNat).waiting = [] → (∀ o ∈ s.cmd.orphans, o.1 ≠ k) →
    s.probeOf (.session (s.sess k.toNat).uid) = some p → p.answer = none → p.start + usTicks 10000 ≤ s.tick →
    exec (.fabAssignDone k) s = .next
      (((s.endProbe (.session (s.sess k.toNat).uid)).updSess k.toNat fun e => { e with assigning := none }).finishItem
        k.toNat (s.sess k.toNat).via (.cmd c) Status.verifyFail [reasonWord Reason.noAnswer 0])) ∧
  (∀ (s : State) (j : BitVec 4) (g n c : BitVec 16) (x : PathTest), s.runs j.toNat (.fabPathTest g n c) →
    (s.fab.tests.find? fun t => t.slot == j) = some x →
    (c.toNat ≤ x.sent → x.last + usTicks 10000 ≤ s.tick →
      ∃ t ws, exec (.fabPathTestDone j) s = .next t ∧ t.ended j.toNat Status.ok ws ∧ ws.length = 7 ∧
        ws.take 3 = [BitVec.ofNat 32 x.left, BitVec.ofNat 32 x.answered, BitVec.ofNat 32 x.outOfOrder] ∧
        t.regs = s.regs ∧ t.mem = s.mem) ∧
    (x.sent < c.toNat → x.last + usTicks 10 ≤ s.tick →
      ∃ t y, exec (.pathTestSend j) s = .next t ∧ y ∈ t.fab.tests ∧ y.slot = j ∧ y.sent = x.sent + 1 ∧
        y.last = s.tick ∧ t.mem = s.mem ∧ t.cmd = s.cmd))) ∧
  ((∀ (s : State) (j p : BitVec 4) (f : Bool) (rs : List CalPort), s.runs j.toNat (.calRun p f) →
    (s.calEnded p = true →
      ∃ t, exec (.calRunDone j rs) s = .next t ∧ (t.op j.toNat).st = 2 ∧ t.mem = s.mem ∧
        (∀ q, q < 4 → p.getLsbD q = true → (t.lane q).calSlot = none ∧ (t.lane q).cal = none) ∧
        (f = false → (∀ q, q < 4 → p.getLsbD q = true → (s.calOutcome q).1 = 1) →
          (t.op j.toNat).final = Status.ok ∧ t.fld F.LNK_CAL_STAT_LAST_RESULT = 1) ∧
        (f = false → (∃ q, q < 4 ∧ p.getLsbD q = true ∧ (s.calOutcome q).1 = 2) →
          (t.op j.toNat).final = Status.verifyFail ∧ t.fld F.LNK_CAL_STAT_LAST_RESULT = 2)) ∧
    (s.calEnded p = false → exec (.calRunDone j rs) s = .next s)) ∧
  (∀ (s : State) (j p ok : BitVec 4), s.runs j.toNat (.calStore p) → (∀ q, p.getLsbD q = true → ok.getLsbD q = true) →
    ∃ t ws, exec (.calStoreDone j ok) s = .next t ∧ t.ended j.toNat Status.ok ws ∧
      ws.length = ((List.range 4).filter fun q => p.getLsbD q).length ∧
      (∀ q, q < 4 → p.getLsbD q = true → (t.lane q).calSlot = none) ∧ t.mem = s.mem))

/-- R292, R293, R295, R331: at the end of a table load the slot's operation is DONE with the outcome and the eight
words of the checks of the image copied into the table slot, which is then valid exactly if they pass; each byte
copied from flash or from elsewhere in memory into a word that may be written is there; a verification ends with the
outcome and words of the checks of the image that is there, changing no table and no byte of memory; a scan ends OK
with eight words, having written no more than the list it found. Completes: `TABLE_LOAD_DONE`, `TABLE_VERIFY_DONE`,
`LAMP_SCAN_DONE`. R393, R396, R410 to R412: a staging from the packet's words that reads back leaves its bytes in
flash and every byte outside its range as it was, and ends OK; a verification ends with the outcome of the image
checks and keeps it as the state of the chrysalis; an attestation with an index reserved takes that index and ends OK.
Completes: `FW_STAGE_DONE`, `FW_VERIFY_DONE`, `ATTEST_DONE`. -/
def Obligations.TableAndFirmwareOperationsEnd : Prop :=
  ((∀ (s : State) (j : BitVec 4) (x : BitVec 1) (fl : Bool) (a n : Nat), s.runs j.toNat (.tableLoad x fl a n) →
    let base := s.tblBase x.toNat
    let c := ((s.copyTable base fl a n).tblInvalidate x.toNat).checkTable x.toNat (some n)
    ∃ t, exec (.tableLoadDone j) s = .next t ∧ t.ended j.toNat c.status c.words ∧ c.words.length = 8 ∧
      (t.tblValid x.toNat = true ↔ c.status = Status.ok) ∧
      ((fl = true ∨ a ≠ base) → ∀ i, i < n → s.mayAccess .bulk ((base + i) / 8 * 8) = true →
        t.byte (base + i) = if fl then flashByte s.sec.flash (a + i) else s.readByte .bulk (a + i))) ∧
  (∀ (s : State) (j : BitVec 4) (x : BitVec 1), s.runs j.toNat (.tableVerify x) →
    let c := s.checkTable x.toNat none
    ∃ t, exec (.tableVerifyDone j) s = .next t ∧ t.ended j.toNat c.status c.words ∧ c.words.length = 8 ∧
      t.tile = s.tile ∧ t.mem = s.mem) ∧
  (∀ (s : State) (j : BitVec 4) (m : BitVec 128) (f st al : Bool) (g : Word) (a : Nat) (n : Word),
    s.runs j.toNat (.lampScan m f st al g a n) →
    ∃ t ws, exec (.lampScanDone j) s = .next t ∧ t.ended j.toNat Status.ok ws ∧ ws.length = 8 ∧
      ws = (s.lampScan m f st al g.toNat a n.toNat).1 ∧
      ∀ x, (x < a / 8 * 8 ∨ a + 16 * n.toNat ≤ x / 8 * 8) → t.byte x = s.byte x)) ∧
  ((∀ (s : State) (j : BitVec 4) (ar : BitVec 2) (o n : Word) (a : Nat) (ws : List Word), n.toNat = 4 * ws.length →
    s.runs j.toNat (.fwStage ar false o n a ws) →
    let base := (s.areaOf ar.toNat).1 + o.toNat
    ∃ t, exec (.fwStageDone j none) s = .next t ∧ t.ended j.toNat Status.ok [0, n, 0xFFFFFFFF] ∧
      (∀ i, i < n.toNat → flashByte t.sec.flash (base + i) = (ws.flatMap fun w => bytesLE 4 w.toNat).getD i 0) ∧
      (∀ x, (x < base ∨ base + n.toNat ≤ x) → flashByte t.sec.flash x = flashByte s.sec.flash x) ∧ t.mem = s.mem ∧
      t.regs = s.regs) ∧
  (∀ (s : State) (j : BitVec 4), s.runs j.toNat .fwVerify →
    let r := s.checkImage s.chrysSlot
    ∃ t, exec (.fwVerifyDone j) s = .next t ∧ (t.op j.toNat).st = 2 ∧
      (t.op j.toNat).final = (if r.reason = 0 then Status.ok else Status.verifyFail) ∧
      t.fld F.SEC_STAT_CHRYS_STATE = (if r.reason = 0 then 1 else 2) ∧
      t.sec.chrys = (if r.reason = 0 then r.info else {}) ∧ t.mem = s.mem) ∧
  (∀ (s : State) (j : BitVec 4) (n : List Word) (p ok : Bool), s.runs j.toNat (.attest n p) →
    s.sec.idNext < s.sec.idLimit →
    ∃ t, exec (.attestDone j ok) s = .next t ∧ (t.op j.toNat).st = 2 ∧ (t.op j.toNat).final = Status.ok ∧
      t.sec.idNext = s.sec.idNext + 1 ∧ t.sec.idLimit = s.sec.idLimit ∧ t.sec.nvm = s.sec.nvm ∧ t.mem = s.mem))

/-! ## Instants, modes, the start -/

/-- R54, R57: at the tick nearest to its instant the next wingbeat comes: with no commit and no action waiting and no
change of the grid due, the frame that was next is current from that instant and its successor is next; a change of
mode other than into M2 that was requested 1 ms before and takes effect at a wingbeat (R17) is complete, and without
one the mode stays. Before that tick nothing happens. Completes: `WINGBEAT`. R117, R123, R128, R130: at its apply
instant the one transaction due resolves: pending, or prepared with a commit heard and no abort, it is APPLIED and a
register of the region map that its one entry writes holds the entry's word; prepared, with an abort heard and no
commit, it is ABORTED; with both or neither it becomes UNCERTAIN, is counted, and changes no shadowed register. A
scheduled action that is due is taken from the list. Completes: `APPLY_INSTANT`. -/
def Obligations.InstantsResolve : Prop :=
  (∀ s : State,
    (s.nearest s.nextBeat = true → s.txn.txns = [] → s.txn.actions = [] → s.tm.beatAt = none →
      ∃ t, exec .wingbeat s = .next t ∧ t.tm.curFrame = s.tm.nextFrame ∧ t.tm.curBeat = s.nextBeat ∧
        t.tm.nextFrame = s.tm.nextFrame + 1 ∧ t.tm.beatAt = none ∧ t.clk = s.clk ∧
        (s.sys.change = none → t.mode = s.mode) ∧
        (∀ c, s.sys.change = some c → s.mode ≠ 0 → atBeat c.origin.toNat c.target.toNat = true →
          c.at_ + usU 1000 ≤ s.nextBeat → c.target ≠ 2 →
          t.mode = c.target.toNat ∧ t.sys.change = none ∧ t.fld F.SYS_MODE_BUSY = 0)) ∧
    (s.nearest s.nextBeat = false → exec .wingbeat s = .next s)) ∧
  ((∀ (s : State) (x : Txn), s.txn.txns = [x] → s.txn.actions = [] → s.nearest x.at_ = true →
    (x.state = .pending ∨ (x.state = .prepared ∧ x.gotCommit = true ∧ x.gotAbort = false) → ∃ t, exec .applyInstant s = .next t ∧ (∀ y ∈ t.txn.txns, y.state = .applied) ∧
      ∀ a v, x.entries = [.write a v] → a / 0x10000 = 8 → t.word a = v ∧
        ∀ b, b / 0x10000 = 8 → b ≠ a → t.word b = s.word b) ∧
    (x.state = .prepared → x.gotCommit = false → x.gotAbort = true →
      ∃ t, exec .applyInstant s = .next t ∧ (∀ y ∈ t.txn.txns, y.state = .aborted) ∧ t.mem = s.mem ∧
        (∀ a, a ≠ (F.TXN_CNT_COUNT 3).addr → t.word a = s.word a)) ∧
    (x.state = .prepared → x.gotCommit = x.gotAbort →
      ∃ t, exec .applyInstant s = .next t ∧ (∀ y ∈ t.txn.txns, y.state = .uncertain ∧ y.entries = x.entries) ∧
        t.fld (F.TXN_CNT_COUNT 6) = min (s.fld (F.TXN_CNT_COUNT 6) + 1) (2 ^ 32 - 1) ∧
        (∀ a, isShadowed a = true → t.word a = s.word a) ∧ t.mem = s.mem)) ∧
  (∀ (s : State) (a : Action), s.txn.txns = [] → s.txn.actions = [a] → s.nearest a.at_ = true →
    ∃ t, exec .applyInstant s = .next t ∧ t.txn.actions = []))

/-- R17, R19: a change of mode that no wingbeat makes is complete at its event: the mode is in force, nothing is under
way and `BUSY` is clear; a change into M2 is complete once training has ended on every port and the wingbeat it waits
for has come (that it waits for both is the model's choice, log entry 23). The pursuit of an automatic target takes
its next step: from M1, with a role and below instar 4, a change into M2 is requested and taken; in M2 the target is
requested; in the target the pursuit ends. Completes: `MODE_CHANGE_COMPLETE`, `AUTO_TARGET_STEP`. R411, R415, R416: a
molt that is due, while no flash operation runs and no reply that it waits for has still to leave (it waits for every
reply of the device: deduced, log entry 60), with a verified chrysalis, writes the directory copy not in force;
reading back, outside M5, it leaves a device reset with cause molt; not reading back, the chrysalis is FAILED and no
reset becomes due; with no verified chrysalis flash stays and no reset becomes due. Completes: `MOLT`. -/
def Obligations.ModeStepsAndMoltComplete : Prop :=
  ((∀ (s : State) (c : ModeChange), s.sys.change = some c →
    (c.target ≠ 2 → atBeat c.origin.toNat c.target.toNat = false →
      ∃ t, exec .modeChangeComplete s = .next t ∧ t.mode = c.target.toNat ∧ t.sys.change = none ∧
        t.fld F.SYS_MODE_BUSY = 0) ∧
    (c.target = 2 → s.mode = 2 → (atBeat c.origin.toNat 2 = true → c.beat = true) →
      (∀ q, q < 4 → s.trainingEnded q = true) →
      ∃ t, exec .modeChangeComplete s = .next t ∧ t.mode = 2 ∧ t.sys.change = none ∧ t.fld F.SYS_MODE_BUSY = 0 ∧
        t.mem = s.mem)) ∧
  (∀ (s : State) (g : BitVec 3), s.sys.auto = some g → s.sys.change = none →
    (s.mode = 1 → g ≠ 1 → s.role ≠ 0 → s.instar ≤ 3 → ∃ t, exec .autoTargetStep s = .next t ∧ t.mode = 2 ∧
      t.sys.change = some { target := 2, origin := 1, at_ := s.clk } ∧ t.sys.auto = some g ∧
      t.fld F.SYS_MODE_LAST_REQ = 2 ∧ t.fld F.SYS_MODE_REQ_ERR = 0 ∧ t.fld F.SYS_MODE_BUSY = 1) ∧
    (s.mode = 2 → g ≠ 2 → ∃ t, exec .autoTargetStep s = .next t ∧ t.fld F.SYS_MODE_LAST_REQ = g.toNat ∧
      t.sys.auto = some g ∧ t.mem = s.mem) ∧
    (s.mode = g.toNat → ∃ t, exec .autoTargetStep s = .next t ∧ t.sys.auto = none ∧ t.mode = s.mode ∧
      t.regs = s.regs ∧ t.mem = s.mem))) ∧
  (∀ (s : State) (a : Bool), s.sec.moltDue = some a → s.moltHeld = false →
    (s.fld F.SEC_STAT_CHRYS_STATE = 1 → s.mode ≠ 5 →
      ∃ t, exec (.molt true) s = .next t ∧ t.sys.resetReq = some 4 ∧ t.sec.moltDue = none ∧ t.mem = s.mem) ∧
    (s.fld F.SEC_STAT_CHRYS_STATE = 1 →
      ∃ t, exec (.molt false) s = .next t ∧ t.sys.resetReq = s.sys.resetReq ∧ t.sec.moltDue = none ∧
        t.fld F.SEC_STAT_CHRYS_STATE = 2 ∧ t.mem = s.mem) ∧
    (∀ ok, s.fld F.SEC_STAT_CHRYS_STATE ≠ 1 →
      ∃ t, exec (.molt ok) s = .next t ∧ t.sys.resetReq = s.sys.resetReq ∧ t.sec.moltDue = none ∧
        t.sec.flash = s.sec.flash ∧ t.mem = s.mem))

/-- R21: a device reset that is due, and no longer waits for a reply or a BLANK, discards every transaction, decision,
scheduled action, session, fence value, operation slot and queued cell. With it (R20, R22 to R24, R26): the device is
in M0 with its cause and the strap levels shown and every DRAM channel is under training; serial number and instar
fuses stay. That the local clock stays (log entry 6), and that the waiting commands stay and the bytes of DRAM are
gone at once (log entry 28), are the model's choices. Completes: `DEVICE_RESET`. -/
def Obligations.DeviceResetStartsOver : Prop :=
  ∀ (s : State) (c : BitVec 3), s.sys.resetReq = some c → s.sys.pwrOff = false → s.resetHeld = false →
    ∃ t, exec .deviceReset s = .next t ∧ t.mode = 0 ∧ t.fld F.SYS_BOOT_RESET_CAUSE = c.toNat ∧
      t.fld F.SYS_ROLE_STRAP = s.sys.straps.toNat ∧ t.role = s.sys.straps.toNat ∧ t.mem = [] ∧ t.sys.resetReq = none ∧
      t.cmd.sess = List.replicate 64 {} ∧ t.txn.txns = [] ∧ t.txn.actions = [] ∧ t.txn.decisions = [] ∧
      (∀ k, (t.op k).st = 0) ∧ (∀ k, (t.fence k).visible = 0 ∧ (t.fence k).timed = []) ∧
      (∀ q, (t.portQ q).cells = []) ∧ t.fab.hold = [] ∧ t.memc.training = 15 ∧ t.clk = s.clk ∧ t.tick = s.tick ∧
      t.pending = s.pending ∧ t.sec.fuses.serial = s.sec.fuses.serial ∧ t.sec.fuses.instar = s.sec.fuses.instar

/-- R22, R402: once SRAM and every region of the DRAM in service are wiped and training has ended, `ECLOSED` is set
and the saved log is consumed, and without a sound provisioning record the device is in M1 with its memory as it was
and no record shown as valid; before that the event does nothing. Completes: `ECLOSION`. R20, R21, R439, R442, R444,
R451: a low pulse of 10 µs on `RESET_N` puts the device in reset at once, its pins held and what is volatile gone, and
leaves a device reset due with the pin's cause, unless one with the cause of power is due, which stays; one below 1 µs
does nothing. When the supplies fall everything volatile is lost, the local clock with it (that it stands at 0 then is
the model's choice, log entry 6), and the device is off, fuses and flash staying (that what is volatile goes at once
is the model's choice, log entry 38); when they return a reset with the cause of power is due. Completes: `RESET_N`,
`SUPPLY_DROP`, `POWER_ON`. R31, R439, R470: with supplies and `JTAG_TRST_N` high, the identification code is always
read; bypass, sampling and the boundary test change nothing; below instar 3, as the fuses stand, the memory port reads
and writes memory that no bank owner guards, at instar 3 and 4 neither; the fuse window takes writes at instar 0 only.
Otherwise nothing works. That the port acts as a client that the device itself is, and the order of the bytes in its
word, are the model's choices (log entry 27). Completes: `JTAG_ACCESS`. -/
def Obligations.StartAndResetCausesComplete : Prop :=
  (∀ s : State, (s.mayEclose = true → ∃ t, exec .eclosion s = .next t ∧ t.bit F.SYS_BOOT_ECLOSED = true ∧
      t.sec.nvm.save.getD 1036 0 = 0 ∧
      (s.provOk = false → t.mode = 1 ∧ t.mem = s.mem ∧ t.bit F.SEC_STAT_PROV_VALID = false)) ∧
    (s.mayEclose = false → exec .eclosion s = .next s)) ∧
  ((∀ (s : State) (n : Nat), s.sys.pwrOff = false →
    (10000 ≤ n → ∃ t, exec (.resetN n) s = .next t ∧ .pinsHeld ∈ t.out ∧
      (s.sys.resetReq ≠ some 0 → t.sys.resetReq = some 1 ∧ t.sys.resetWaits = false ∧ t.mode = 0 ∧ t.regs = [] ∧ t.mem = [] ∧
        t.txn.txns = [] ∧ t.cmd.sess = List.replicate 64 {} ∧ t.sec.fuses = s.sec.fuses ∧ t.sec.flash = s.sec.flash) ∧
      (s.sys.resetReq = some 0 → t.sys.resetReq = some 0 ∧ t.regs = s.regs ∧ t.mem = s.mem)) ∧
    (n < 1000 → exec (.resetN n) s = .next s)) ∧
  (∀ s : State, s.sys.pwrOff = false → ∃ t, exec .supplyDrop s = .next t ∧ t.sys.pwrOff = true ∧ t.clk = 0 ∧ t.mem = [] ∧
    t.regs = [] ∧ t.txn.txns = [] ∧ t.cmd.sess = List.replicate 64 {} ∧ t.sec.fuses = s.sec.fuses ∧
    t.sec.flash = s.sec.flash) ∧
  (∀ s : State, ∃ t, exec .powerOn s = .next t ∧ t.sys.pwrOff = false ∧ t.sys.resetReq = some 0 ∧ t.regs = s.regs ∧
    t.mem = s.mem)) ∧
  ((∀ (s : State) (op : JtagOp), (s.sys.pwrOff = true ∨ s.sys.trstN = false) → exec (.jtagAccess op) s = .next s) ∧
  ∀ s : State, s.sys.pwrOff = false → s.sys.trstN = true →
    let instar := blownSteps s.sec.fuses.instar
    exec (.jtagAccess .idcode) s = .next (s.emit (.jtag ((s.word F.SYS_JTAG_ID_ONE.addr).setWidth 64))) ∧
    exec (.jtagAccess .bypass) s = .next s ∧ exec (.jtagAccess .sample) s = .next s ∧
    exec (.jtagAccess .extest) s = .next s ∧
    (∀ o v, instar ≠ 0 → exec (.jtagAccess (.fuseWindow o v)) s = .next s) ∧
    (∀ o v, instar = 0 → ∃ t, exec (.jtagAccess (.fuseWindow o v)) s = .next t ∧
      (o.toNat / 4 * 4, v) ∈ t.sec.fuseWin ∧ t.regs = s.regs ∧ t.mem = s.mem) ∧
    (3 ≤ instar → ∀ a d, exec (.jtagAccess (.memRead a)) s = .next s ∧ exec (.jtagAccess (.memWrite a d)) s = .next s) ∧
    (instar < 3 → ∀ (a : BitVec 40) d, s.mayAccess .controller (a.toNat / 8 * 8) = true →
      (∃ t, exec (.jtagAccess (.memRead a)) s = .next t ∧ t.mem = s.mem ∧
        t.out.head? = some (.jtag (BitVec.ofNat 64 (natLE (s.readBytes .controller (a.toNat / 8 * 8) 8))))) ∧
      ∃ t, exec (.jtagAccess (.memWrite a d)) s = .next t ∧
        ∀ i, i < 8 → t.byte (a.toNat / 8 * 8 + i) = BitVec.ofNat 8 (d.toNat / 256 ^ i)))

/-- R381, R383, R386: loss of the reference, and a PLL leaving or regaining lock, show in `CLK_STAT` and leave a
record (that every PLL holds from the loss until its relock, with a record of its own, is the model's choice, log
entry 60); the end of a domain's reset takes the domain out of reset, clears its bit and leaves a record (that it runs
again at the release itself: log entry 46); an event crossing whose request is outstanding and that no reset holds
takes it: the counter of an event sent alone rises by one, no register that the events do not count in changes without
an overflow, and the crossing is free again; on the service ring's crossing the notices sent join the total.
Completes: `REFCLK_LOST`, `PLL_UNLOCK`, `PLL_RELOCK`, `DOMAIN_RESET_RELEASE`, `EVENT_CROSSING`. -/
def Obligations.ClockEventsComplete : Prop :=
  (∀ s : State, s.bit F.CLK_STAT_REFCLK_OK = true → ∃ t, exec .refclkLost s = .next t ∧
    t.bit F.CLK_STAT_REFCLK_OK = false ∧ t.bit F.CLK_STAT_REFCLK_LOST = true ∧ t.cdc.holding = 15 ∧ t.err.next = s.err.next + 1 ∧
    t.mem = s.mem) ∧
  (∀ (s : State) (p : BitVec 2), s.pllLocked p.toNat = true → ∃ t, exec (.pllUnlock p) s = .next t ∧
    t.pllLocked p.toNat = false ∧ t.err.next = s.err.next + 1 ∧ t.mem = s.mem) ∧
  (∀ (s : State) (p : BitVec 2), (s.pllLocked p.toNat = false ∨ s.cdc.holding.getLsbD p.toNat = true) →
    ∃ t, exec (.pllRelock p) s = .next t ∧ t.cdc.holding.getLsbD p.toNat = false ∧
    t.pllLocked p.toNat = true ∧ t.bit F.CLK_STAT_REFCLK_OK = true ∧ t.err.next = s.err.next + 1 ∧ t.mem = s.mem) ∧
  (∀ (s : State) (d : BitVec 4), 1 ≤ d.toNat → d.toNat ≤ 11 →
    (∃ r ∈ s.cdc.resets, r.kind = d ∧ r.done ≤ s.tick) →
    ∃ t, exec (.domainResetRelease d) s = .next t ∧ t.domBusy d.toNat = false ∧
      bitOf (t.fld F.CLK_DOM_STAT_IN_RESET) (d.toNat - 1) = false ∧ t.err.next ≠ s.err.next ∧ t.mem = s.mem) ∧
  (∀ (s : State) (k : BitVec 4) (j : BitVec 3) (x : Crossing), 7 < k.toNat → k.toNat ≤ 14 →
    (s.cdc.cross.getD (k.toNat - 7) [])[j.toNat]? = some x → x.busy = true → x.sentOvf = false → x.count = [] →
    (∀ r, r < 12 → s.domBusy r = true → (domCrossings r).contains (k.toNat, j.toNat) = false) →
    ∃ t, exec (.eventCrossing k j) s = .next t ∧
      ((t.cdc.cross.getD (k.toNat - 7) []).getD j.toNat {}).busy = false ∧ t.mem = s.mem ∧
      (∀ a, (∀ e ∈ x.sent, a ∉ e) → t.word a = s.word a) ∧
      ∀ a, x.sent = [[a]] → t.fld ⟨a, 0, 32⟩ = min (s.fld ⟨a, 0, 32⟩ + 1) (2 ^ 32 - 1)) ∧
  (∀ (s : State) (x : Crossing), (s.cdc.cross.getD 0 [])[0]? = some x → x.busy = true → x.sentOvf = false →
    x.sent.all (fun e => e.isEmpty) = true → s.domBusy 10 = false →
    (∀ r, r < 12 → s.domBusy r = true → (domCrossings r).contains (7, 0) = false) →
    ∃ t, exec (.eventCrossing 7 0) s = .next t ∧ t.cdc.alarmTotal = s.cdc.alarmTotal + x.sent.length ∧ t.mem = s.mem)

/-! ## Time -/

/-- R48, R51: with the time source on FSYNC an edge of `FSYNC_IN` samples the nearest of the wingbeats whose frame
number is a multiple of `FSYNC_IN_DIV`, with PPS an edge of `PPS_IN` the nearest whole second: x is that time minus
the clock's, shown in `TIME_OFFSET` in units of 2^-8 ns (how it is rounded stays open) and counted in
`TIME_OFFSET_SEQ`. With a divisor of 0 an edge gives no sample. Completes: `FSYNC_IN`, `PPS_IN`. -/
def Obligations.InputEdgesGiveSamples : Prop :=
  (∀ s : State, s.source = srcFsync → s.fld F.TIME_IO_FSYNC_IN_DIV ≠ 0 →
    let d := s.fld F.TIME_IO_FSYNC_IN_DIV
    let n := (s.grid.frameAt s.clk).getD 0 / d * d
    let w := nearer s.clk (s.beat n) (s.beat (n + d))
    let t := (s.updTm fun tm => { tm with lastValid := s.tick }).sample (nsOf w) (nsOf w - s.nowNs)
    exec .fsyncIn s = .next t ∧
      t.fld F.TIME_OFFSET_X = toBits 32 (satInt 32 (openRound 48 ((nsOf w - s.nowNs) * 256))) ∧
      t.fld F.TIME_OFFSET_SEQ_COUNT = (s.fld F.TIME_OFFSET_SEQ_COUNT + 1) % 2 ^ 32 ∧ t.tm.lastValid = s.tick ∧
      t.mem = s.mem) ∧
  (∀ s : State, s.source = srcPps →
    let n := timeSec s.clk
    let w := nearer s.clk (n * secU) ((n + 1) * secU)
    let t := (s.updTm fun tm => { tm with lastValid := s.tick }).sample (nsOf w) (nsOf w - s.nowNs)
    exec .ppsIn s = .next t ∧
      t.fld F.TIME_OFFSET_X = toBits 32 (satInt 32 (openRound 48 ((nsOf w - s.nowNs) * 256))) ∧
      t.fld F.TIME_OFFSET_SEQ_COUNT = (s.fld F.TIME_OFFSET_SEQ_COUNT + 1) % 2 ^ 32 ∧ t.tm.lastValid = s.tick ∧
      t.mem = s.mem) ∧
  (∀ s : State, s.fld F.TIME_IO_FSYNC_IN_DIV = 0 → exec .fsyncIn s = .next s) ∧
  (∀ t a b : Nat, a ≤ t → t ≤ b → (nearer t a b = a ∧ t - a ≤ b - t) ∨ (nearer t a b = b ∧ b - t ≤ t - a))

/-- R44, R52, R59: on a root whose period has passed the periodic time cell is made: the sequence number rises by one
and the period starts afresh. `PPS_OUT` rises at the tick nearest the next whole second, where it has a width, a pulse
that still stands ending first; a pulse falls at the tick nearest the end of its width, or one tick before the next
rising edge due on its pin, whichever comes first (that a step of the clock leaves the end of the width where it was:
log entry 52). Completes: `PERIODIC_TIME_CELL`, `PPS_OUT`, `PULSE_END`. R39, R40, R61: a time cell on a port that
carries cells and passes none over (R259): with another source than the fabric it is counted in `TIME_CNT[5]` and no
more; before a delay mark of its port it has no effect; on a port neither followed nor standby it is counted in
`TIME_CNT[2]`; with 64 hops or more in `TIME_CNT[3]`; on the followed port, from the followed root or where none is
followed, in ACQUIRING or LOCKED and with no announcement, it is counted in `TIME_CNT[0]`, its root is followed, its
sequence number kept and its depth shown. Completes: `TIME_CELL`. R42 to R44, R65: a source lost in LOCKED leaves the
clock in HOLDOVER, running at `acc` unless the host serves it; so does the silence of the upstream, which for a port
newly followed counts from then on (log entry 66), with no alternate port that was heard within `LOSS_US`, and with
one that port is followed, the state staying LOCKED. Without a loss nothing changes. Completes: `SOURCE_LOSS`,
`UPSTREAM_LOSS`. -/
def Obligations.TimeEventsComplete : Prop :=
  ((∀ (s : State) (l : List Nat), s.isRoot = true → s.fld F.TIME_CELL_CFG_PERIOD_US ≠ 0 →
    s.tm.lastPeriodic + usTicks (s.fld F.TIME_CELL_CFG_PERIOD_US) ≤ s.tick →
    ∃ t, exec (.periodicTimeCell l) s = .next t ∧ t.tm.timeSeq = s.tm.timeSeq + 1 ∧ t.tm.lastPeriodic = s.tick ∧
      t.clk = s.clk ∧ t.mem = s.mem) ∧
  (∀ s : State, s.nearest (s.tm.nextPps * secU) = true → ∃ t, exec .ppsOut s = .next t ∧
    t.tm.nextPps = s.tm.nextPps + 1 ∧ t.regs = s.regs ∧ t.mem = s.mem ∧
    (s.fld F.TIME_IO_PPS_OUT_W ≠ 0 →
      t.out = .pulse false true :: ((if s.tm.ppsEnd = none then [] else [.pulse false false]) ++ s.out) ∧
      t.tm.ppsEnd = some (s.tm.nextPps * secU + usU (s.fld F.TIME_IO_PPS_OUT_W))) ∧
    (s.fld F.TIME_IO_PPS_OUT_W = 0 → t.out = s.out)) ∧
  (∀ (s : State) (e : Nat), s.tm.fsyncEnd = some e →
    s.nearest (match s.nextPulse true with | some u => min e (u - s.inc) | none => e) = true →
    ∃ t, exec (.pulseEnd true) s = .next t ∧ t.out = .pulse true false :: s.out ∧ t.tm.fsyncEnd = none ∧
      t.tm.ppsEnd = s.tm.ppsEnd ∧ t.regs = s.regs ∧ t.mem = s.mem) ∧
  (∀ (s : State) (e : Nat), s.tm.ppsEnd = some e →
    s.nearest (if s.fld F.TIME_IO_PPS_OUT_W = 0 then e else min e (s.tm.nextPps * secU - s.inc)) = true →
    ∃ t, exec (.pulseEnd false) s = .next t ∧ t.out = .pulse false false :: s.out ∧ t.tm.ppsEnd = none ∧
      t.tm.fsyncEnd = s.tm.fsyncEnd ∧ t.regs = s.regs ∧ t.mem = s.mem)) ∧
  (∀ (s : State) (c : TimeCellIn), s.carries c.port.toNat = true → (s.lane c.port.toNat).rowHunt = false →
    (s.source ≠ srcFabric → exec (.timeCell c) s = .next (s.bump (F.TIME_CNT_COUNT 5))) ∧
    (s.source = srcFabric →
      (s.tm.marked.getD c.port.toNat false = false → exec (.timeCell c) s = .next s) ∧
      (s.tm.marked.getD c.port.toNat false = true →
        (c.port.toNat ≠ s.fld F.TIME_STAT_UPSTREAM_NOW → s.standbyPort ≠ some c.port.toNat →
          exec (.timeCell c) s = .next (s.bump (F.TIME_CNT_COUNT 2))) ∧
        (c.port.toNat = s.fld F.TIME_STAT_UPSTREAM_NOW → 64 ≤ c.hops.toNat →
          exec (.timeCell c) s = .next (s.bump (F.TIME_CNT_COUNT 3))) ∧
        (c.port.toNat = s.fld F.TIME_STAT_UPSTREAM_NOW → c.hops.toNat < 64 →
          (s.timeState = stAcquiring ∨ s.timeState = stLocked) → (s.tm.root = none ∨ s.tm.root = some c.root) →
          c.announce = [] →
          ∃ t, exec (.timeCell c) s = .next t ∧ t.tm.root = some c.root ∧ t.tm.cellSeq = some c.timeSeq ∧
            t.tm.lastValid = s.tick ∧ t.fld F.TIME_STAT_DEPTH = c.hops.toNat + 1 ∧
            t.fld (F.TIME_CNT_COUNT 0) = min (s.fld (F.TIME_CNT_COUNT 0) + 1) (2 ^ 32 - 1) ∧ t.mem = s.mem)))) ∧
  ((∀ s : State, s.sourceLost = true → s.timeState = stLocked →
    (s.source = srcPtp → s.bit F.TIME_POLICY_MASTER_CHANGE = false) →
    ∃ t, exec .sourceLoss s = .next t ∧ t.timeState = stHoldover ∧ t.tm.holdStart = s.tick ∧ t.clk = s.clk ∧
      (s.bit F.TIME_CTRL_SERVO_HOST = false → t.fld F.TIME_RATE_RATE = toBits 32 s.tm.acc) ∧ t.mem = s.mem) ∧
  (∀ s : State, s.sourceLost = false → exec .sourceLoss s = .next s) ∧
  (∀ s : State, s.source = srcFabric → s.timeState = stLocked →
    (s.tm.lastValid + usTicks (s.fld F.TIME_CELL_CFG_LOSS_US) ≤ s.tick →
      ((∀ q n, s.altPort = some q → s.tm.portSeen.getD q none = some n →
          n + usTicks (s.fld F.TIME_CELL_CFG_LOSS_US) < s.tick) →
        ∃ t, exec .upstreamLoss s = .next t ∧ t.timeState = stHoldover ∧ t.tm.holdStart = s.tick ∧ t.clk = s.clk ∧
          (s.bit F.TIME_CTRL_SERVO_HOST = false → t.fld F.TIME_RATE_RATE = toBits 32 s.tm.acc) ∧ t.mem = s.mem) ∧
      (∀ q n, s.altPort = some q → s.tm.portSeen.getD q none = some n →
        s.tick ≤ n + usTicks (s.fld F.TIME_CELL_CFG_LOSS_US) →
        ∃ t, exec .upstreamLoss s = .next t ∧ t.fld F.TIME_STAT_UPSTREAM_NOW = q ∧ t.timeState = stLocked ∧
          t.tm.switchTest = true ∧ t.clk = s.clk ∧ t.mem = s.mem)) ∧
    (s.tick < s.tm.lastValid + usTicks (s.fld F.TIME_CELL_CFG_LOSS_US) → exec .upstreamLoss s = .next s)))

/-- R50, R141, R142: an Announce that is heard is remembered, and the first one heard in ACQUIRING selects its master
on its port; a Sync of the selected master on its port leaves its time and interval; a Delay_Req leaves where none was
sent before, its time as originTimestamp, the launch less that time in its correctionField in units of 2^-16 ns (how
it is rounded stays open, log entry 13), its UDP checksum 0; its answer has the master's interval govern from then on,
and adds a measurement where a Sync had come before the Delay_Req. Completes: `PTP_ANNOUNCE`, `PTP_SYNC`, `DELAY_REQ`,
`PTP_DELAY_RESP`. R63, R143, R235: with the bridge enabled and both its links up, a PTP message to the group leaves by
the other port, an event message with its residence added to its correctionField (how it is rounded stays open, log
entry 13) and a UDP checksum of 0, a general one as it came, and either is counted in `ETH_CNT[9]` of one of the two
ports, which of them staying open (log entry 12); a peer-delay message does not pass. The measurement of a delay mark
whose reply has come, or comes with it, in time, half the round trip less the turnaround and half the asymmetry, joins
those of its port, which is measured from then on; the mark is then answered. Completes: `BRIDGED_PTP_MESSAGE`,
`LINK_DELAY_MEASURE`. -/
def Obligations.PtpAndLinkDelayComplete : Prop :=
  ((∀ (s : State) (m : PtpAnnounce), s.domBusy 1 = false → s.hearsPtp m.port m.domain = true → -3 ≤ m.logInterval →
    m.logInterval ≤ 1 → ∃ t, exec (.ptpAnnounce m) s = .next t ∧
      t.tm.ptp.masters.head? = some ⟨m.port, m.identity, m.portNumber, m.rank, m.logInterval, s.tick⟩ ∧
      (s.tm.ptp.masters = [] → s.tm.ptp.selected = none → s.timeState = stAcquiring →
        t.tm.ptp.selected = some (m.identity, m.portNumber) ∧ t.tm.ptp.selPort = m.port) ∧
      t.clk = s.clk ∧ t.mem = s.mem) ∧
  (∀ (s : State) (m : PtpSync), s.domBusy 1 = false → s.hearsPtp m.port m.domain = true →
    s.tm.ptp.selected = some (m.identity, m.portNumber) → s.tm.ptp.selPort = m.port → -7 ≤ m.logInterval →
    m.logInterval ≤ 0 → (s.timeState = stAcquiring ∨ s.timeState = stLocked) →
    ∃ t, exec (.ptpSync m) s = .next t ∧ t.tm.lastValid = s.tick ∧ t.tm.ptp.lastSync = some s.tick ∧
      t.tm.ptp.syncInterval = m.logInterval ∧
      t.tm.ptp.ms = some (q16 m.t1, s.rxStamp m.port.toNat m.t2 - q16 m.t1 - q16 m.cs) ∧ t.mem = s.mem) ∧
  (∀ (s : State) (a b : Int) (x : Rat × Rat), s.source = srcPtp → s.tm.ptp.selected.isSome = true →
    s.tm.ptp.lastReq = none → s.hasMac s.tm.ptp.selPort.toNat = true →
    s.bit (F.ETH_PORT_STAT_LINK_UP s.tm.ptp.selPort.toNat) = true → s.tm.ptp.ms = some x →
    ∃ t, exec (.delayReq a b) s = .next t ∧ t.tm.ptp.t3s = some (q16 a) ∧ t.tm.ptp.reqMs = x.2 ∧
      t.tm.ptp.lastReq = some s.tick ∧ t.regs = s.regs ∧ t.mem = s.mem ∧
      t.out = .delayReq s.tm.ptp.selPort (s.sendTag s.tm.ptp.selPort.toNat) (q16 a)
        (openRound 141 ((s.txStamp s.tm.ptp.selPort.toNat b - q16 a) * 65536)) 0 :: s.out) ∧
  (∀ (s : State) (m : PtpDelayResp) (t3 : Rat), s.domBusy 1 = false → s.hearsPtp m.port m.domain = true →
    s.tm.ptp.selected = some (m.identity, m.portNumber) → s.tm.ptp.selPort = m.port → s.tm.ptp.t3s = some t3 →
    s.tm.ptp.lastReq.isSome = true → (s.timeState = stAcquiring ∨ s.timeState = stLocked) →
    ∃ t, exec (.ptpDelayResp m) s = .next t ∧ t.tm.ptp.t3s = none ∧ t.tm.ptp.answered = true ∧ t.tm.ptp.reqInterval = m.logMinDelayReq ∧
      t.tm.ptp.means = ((s.tm.ptp.reqMs + (q16 m.t4 - t3 - q16 m.cr)) / (2 : Nat) :: s.tm.ptp.means).take 16 ∧
      t.mem = s.mem) ∧
  (∀ (s : State) (m : PtpDelayResp), s.domBusy 1 = false → s.hearsPtp m.port m.domain = true →
    s.tm.ptp.selected = some (m.identity, m.portNumber) → s.tm.ptp.selPort = m.port → s.tm.ptp.t3s = none →
    s.tm.ptp.lastReq.isSome = true →
    ∃ t, exec (.ptpDelayResp m) s = .next t ∧ t.tm.ptp.answered = true ∧ t.tm.ptp.reqInterval = m.logMinDelayReq ∧
      t.tm.ptp.means = s.tm.ptp.means ∧ t.clk = s.clk ∧ t.mem = s.mem)) ∧
  ((∀ (s : State) (m : PtpBridged), s.domBusy 1 = false → s.bit F.ETH_BRIDGE_EN = true →
    s.bit (F.ETH_PORT_STAT_LINK_UP 0) = true → s.bit (F.ETH_PORT_STAT_LINK_UP 1) = true →
    s.hasMac (m.port ^^^ 1).toNat = true → (m.udpPort = 319 ∨ m.udpPort = 320) → m.dstIp = 0xE0000181 →
    (m.msgType.toNat ≤ 1 → ∃ t, exec (.bridgedPtpMessage m) s = .next t ∧
      t.out = .ptpForward (m.port ^^^ 1) (s.sendTag (m.port ^^^ 1).toNat) m.msgType (m.correction + openRound 143
        ((s.txStamp (m.port ^^^ 1).toNat m.tOut - s.rxStamp m.port.toNat m.tIn) * 65536)) (some 0) :: s.out ∧
      (∃ p : BitVec 1, t.fld (F.ETH_CNT_COUNT p.toNat 9) = min (s.fld (F.ETH_CNT_COUNT p.toNat 9) + 1) (2 ^ 32 - 1) ∧
        t.fld (F.ETH_CNT_COUNT (p ^^^ 1).toNat 9) = s.fld (F.ETH_CNT_COUNT (p ^^^ 1).toNat 9)) ∧
      t.mem = s.mem ∧ t.cmd = s.cmd) ∧
    ((m.msgType = 8 ∨ m.msgType = 9 ∨ 11 ≤ m.msgType.toNat) → ∃ t, exec (.bridgedPtpMessage m) s = .next t ∧
      t.out = .ptpForward (m.port ^^^ 1) (s.sendTag (m.port ^^^ 1).toNat) m.msgType m.correction none :: s.out ∧
      (∃ p : BitVec 1, t.fld (F.ETH_CNT_COUNT p.toNat 9) = min (s.fld (F.ETH_CNT_COUNT p.toNat 9) + 1) (2 ^ 32 - 1) ∧
        t.fld (F.ETH_CNT_COUNT (p ^^^ 1).toNat 9) = s.fld (F.ETH_CNT_COUNT (p ^^^ 1).toNat 9)) ∧
      t.mem = s.mem ∧ t.cmd = s.cmd) ∧
    ((m.msgType = 2 ∨ m.msgType = 3 ∨ m.msgType = 10) → ∃ t, exec (.bridgedPtpMessage m) s = .next t ∧ t.out = s.out ∧
      t.mem = s.mem ∧ t.cmd = s.cmd)) ∧
  (∀ (s : State) (q : BitVec 2) (r : Int) (n : BitVec 16), s.carries q.toNat = true →
    ((s.lane q.toNat).markHeard = true ∨ ∃ m, (s.lane q.toNat).markOut = some m ∧ 0 < m.2) →
    q.toNat < s.tm.delays.length → q.toNat < s.tm.marked.length → q.toNat < s.lnk.ports.length →
    ∃ t, exec (.linkDelayMeasure q r n) s = .next t ∧ (t.lane q.toNat).markOut = none ∧ t.tm.marked.getD q.toNat false = true ∧
      t.tm.delays.getD q.toNat [] = ((((r - n.toNat : Int) : Rat) * s.tickNs / (256 : Nat) +
        (sext 32 (s.fld (F.TIME_ASYM_ASYM_PS q.toNat)) : Rat) / (2000 : Nat)) :: s.tm.delays.getD q.toNat []).take 16 ∧
      t.clk = s.clk ∧ t.mem = s.mem))

/-! ## Media, composition, fabric, links, tile, pair, memory: events -/

/-- R135 to R137: a running port with a MAC address answers an ARP request for its own IP address; a version 2 query
is counted, and a version 3 query of everything has a membership of the port reported; the repeats of a port's reports
that are due are taken, the others stay. A valid port that comes up after eclosion shows its link and its FEC lock,
and of the codewords corrected and uncorrectable since its last report all but the last of each are counted (the last
crosses later, log entry 78); one that goes down shows no link, and its lock as it reports it, and is counted. The one
word whose reply left 1 ms ago is in force and no longer waits; before that nothing happens. Completes: `ARP_REQUEST`,
`IGMP_QUERY`, `IGMP_REPORT_REPEAT`, `LINK_UP`, `ETH_MODE_APPLY`. R136, R147: a received packet is counted, and one
that its port's Ethernet, IP or UDP rules or the flows do not admit is counted once more, for the first of them it
fails, and stored nowhere. R147 to R152, R158: a packet of the first flow that matches it, of the stream's payload
type, is sequenced and, new, stored; the first one of a stream whose ring is empty, with one sound SRD, is the highest
seen, takes its buffer, opens it for its timestamp and counts its bytes on its line. An open buffer whose deadline has
passed closes: COMPLETE with every line, INCOMPLETE without, where nothing is filled. A stream silent for 100 ms on
both paths is lost, with a record. Completes: `RTP_PACKET`, `BUFFER_DEADLINE`, `STREAM_LOST`. -/
def Obligations.MediaAndStreamEventsComplete : Prop :=
  ((∀ (s : State) (m : BitVec 3) (x : BitVec 32) (a : BitVec 48), s.domBusy 1 = false → s.portRuns m.toNat = true →
    s.hasMac m.toNat = true → s.fld (F.ETH_IP_IP m.toNat) ≠ 0 →
    exec (.arpRequest m (BitVec.ofNat 32 (s.fld (F.ETH_IP_IP m.toNat))) x a) s =
      .next ((s.bump (F.ETH_CNT_COUNT m.toNat 0)).emit
        (.arpReply m (s.sendTag m.toNat) (BitVec.ofNat 32 (s.fld (F.ETH_IP_IP m.toNat))) x a))) ∧
  (∀ (s : State) (m : BitVec 3) (g : BitVec 32), s.domBusy 1 = false → s.portRuns m.toNat = true →
    (exec (.igmpQuery m 2 g) s =
      .next ((s.bump (F.ETH_CNT_COUNT m.toNat 0)).bump (F.ETH_CNT_COUNT m.toNat 11))) ∧
    (∀ j, s.hasMac m.toNat = true → s.eth.joined = [j] → j.port = m →
      exec (.igmpQuery m 3 0) s = .next (((s.bump (F.ETH_CNT_COUNT m.toNat 0)).bump (F.ETH_CNT_COUNT m.toNat 10)).emit
        (.igmpReport m (s.sendTag m.toNat) true j.group j.source)))) ∧
  (∀ (s : State) (m : BitVec 3), ∃ t, exec (.igmpReportRepeat m) s = .next t ∧
    (∀ r ∈ t.eth.repeats, r.join.port = m → s.tick < r.due) ∧
    (∀ r ∈ s.eth.repeats, (r.join.port ≠ m ∨ s.tick < r.due) → r ∈ t.eth.repeats) ∧ t.mem = s.mem ∧ t.cmd = s.cmd) ∧
  (∀ (s : State) (m : BitVec 3) (f : FecReport), s.domBusy 1 = false →
    (s.portValid m.toNat = true → 1 ≤ s.mode → s.bit F.SYS_BOOT_RECOVERY = false →
      ∃ t, exec (.linkUp m true f) s = .next t ∧ t.bit (F.ETH_PORT_STAT_LINK_UP m.toNat) = true ∧
        t.bit (F.ETH_PORT_STAT_FEC_LOCK m.toNat) = (f.lock || s.noFec m.toNat) ∧ t.mem = s.mem ∧
        (s.noFec m.toNat = false →
          t.fld (F.ETH_CNT_COUNT m.toNat 2) = min (s.fld (F.ETH_CNT_COUNT m.toNat 2) + (f.fixed.toNat - 1)) (2 ^ 32 - 1) ∧
          t.fld (F.ETH_CNT_COUNT m.toNat 3) = min (s.fld (F.ETH_CNT_COUNT m.toNat 3) + (f.bad.toNat - 1)) (2 ^ 32 - 1))) ∧
    (∃ t, exec (.linkUp m false f) s = .next t ∧ t.bit (F.ETH_PORT_STAT_LINK_UP m.toNat) = false ∧
      t.bit (F.ETH_PORT_STAT_FEC_LOCK m.toNat) = (!s.noFec m.toNat && f.lock && s.portValid m.toNat &&
        decide (1 ≤ s.mode) && !s.bit F.SYS_BOOT_RECOVERY) ∧ t.mem = s.mem ∧
      (s.bit (F.ETH_PORT_STAT_LINK_UP m.toNat) = true → t.fld (F.ETH_PORT_STAT_LINK_DOWNS m.toNat) =
        min (s.fld (F.ETH_PORT_STAT_LINK_DOWNS m.toNat) + 1) (2 ^ (F.ETH_PORT_STAT_LINK_DOWNS m.toNat).w - 1)))) ∧
  (∀ (s : State) (x : EthWrite), s.eth.waiting = [x] →
    (x.answered = true → x.due ≤ s.tick → ∃ t, exec .ethModeApply s = .next t ∧ t.eth.waiting = [] ∧ t.mem = s.mem ∧
      (x.fec = false → t.eth.modeNow = BitVec.ofNat 2 (F.ETH_MODE_MODE.get x.value) ∧ t.eth.fecNow = s.eth.fecNow) ∧
      (x.fec = true → t.eth.fecNow = x.value ∧ t.eth.modeNow = s.eth.modeNow)) ∧
    ((x.answered = false ∨ s.tick < x.due) → exec .ethModeApply s = .next s))) ∧
  (∀ (s : State) (p : RtpPacket), s.domBusy 1 = false → s.portRuns p.port.toNat = true → p.fcsOk = true →
    let t := s.bump (F.ETH_CNT_COUNT p.port.toNat 0)
    ((9216 < p.size ∨ p.stackedTags = true ∨ p.ipv4 = false) →
      exec (.rtpPacket p) s = .next (t.bump (F.ETH_CNT_COUNT p.port.toNat 4))) ∧
    (p.size ≤ 9216 → p.stackedTags = false → p.ipv4 = true → p.vlan = none → s.bit (F.ETH_VLAN_EN p.port.toNat) = false →
      (p.overflow = true → exec (.rtpPacket p) s = .next (t.bump (F.ETH_CNT_COUNT p.port.toNat 8))) ∧
      (p.overflow = false → p.ipOk = false → exec (.rtpPacket p) s = .next (t.bump (F.ETH_CNT_COUNT p.port.toNat 5))) ∧
      (p.overflow = false → p.ipOk = true → p.udpOk = false →
        exec (.rtpPacket p) s = .next (t.bump (F.ETH_CNT_COUNT p.port.toNat 6))) ∧
      (p.overflow = false → p.ipOk = true → p.udpOk = true → (∀ k, s.streamOn k = false) →
        exec (.rtpPacket p) s = .next (t.bump (F.ETH_CNT_COUNT p.port.toNat 7))))) ∧
  ((∀ (s : State) (p : RtpPacket) (f : Nat), s.domBusy 1 = false → s.portRuns p.port.toNat = true → p.fcsOk = true →
    p.size ≤ 9216 → p.stackedTags = false → p.ipv4 = true → p.vlan = none →
    s.bit (F.ETH_VLAN_EN p.port.toNat) = false → p.overflow = false → p.ipOk = true → p.udpOk = true → p.version = 2 →
    let t := s.bump (F.ETH_CNT_COUNT p.port.toNat 0)
    ((List.range 64).find? fun f =>
      t.streamOn (f / 2) && (f % 2 = 0 || t.bit (F.ING_S_CTRL_PAIR (f / 2))) &&
        t.fld (F.ETH_FLOW_PORT_MEDIA_PORT f) = p.port.toNat && t.fld (F.ETH_FLOW_DST_DST_IP f) = p.dstIp.toNat &&
        t.fld (F.ETH_FLOW_PORT_UDP_PORT f) = p.dstPort.toNat &&
        (t.fld (F.ETH_FLOW_SRC_SRC_IP f) = 0 || t.fld (F.ETH_FLOW_SRC_SRC_IP f) = p.srcIp.toNat)) = some f →
    p.pt.toNat = s.fld (F.ING_S_CTRL_PT (f / 2)) → s.bit (F.ING_S_CTRL_SSRC_EN (f / 2)) = false →
    (s.stream (f / 2)).lost = false →
    let r := (t.pathSeq (f / 2) (f % 2 = 1) p.seq).mergeSeq (f / 2) p.seq
    exec (.rtpPacket p) s = .next (if r.1 then r.2.storePacket (f / 2) p else r.2) ∧
    ∀ (b : Nat) (d : Srd), f / 2 < s.ing.streams.length → b < (s.stream (f / 2)).bufs.length →
      (s.stream (f / 2)).highest = none → (s.stream (f / 2)).overruns = [] → (∀ i, (s.buf (f / 2) i).st = 0) →
      s.takeBuf (f / 2) = some b → p.srds = [d] → s.srdOk (f / 2) d = true →
      ∃ u, exec (.rtpPacket p) s = .next u ∧ (u.stream (f / 2)).highest = some p.seq ∧
        (u.buf (f / 2) b).st ≠ 0 ∧ (u.buf (f / 2) b).ts = p.ts ∧ (u.buf (f / 2) b).seqs = some (p.seq, p.seq) ∧
        (u.buf (f / 2) b).lines.getD d.row.toNat 0 = d.data.length ∧ ∀ i, i ≠ b → u.buf (f / 2) i = s.buf (f / 2) i) ∧
  (∀ (s : State) (k : BitVec 5) (b : BitVec 4), (s.buf k.toNat b.toNat).st = 1 →
    s.deadlinePassed k.toNat b.toNat = true →
    exec (.bufferDeadline k b) s = .next (s.closeBuf k.toNat b.toNat) ∧
    (k.toNat < s.ing.streams.length → b.toNat < (s.stream k.toNat).bufs.length →
      s.bit (F.ING_S_CTRL_FILL k.toNat) = false → ((s.closeBuf k.toNat b.toNat).buf k.toNat b.toNat).st =
        if (s.buf k.toNat b.toNat).linesDone.length = (s.buf k.toNat b.toNat).height then 2 else 3)) ∧
  (∀ (s : State) (k : BitVec 5), s.streamOn k.toNat = true → (s.stream k.toNat).lost = false →
    s.receiving k.toNat = false → (s.stream k.toNat).since + ticks100ms ≤ s.tick → k.toNat < s.ing.streams.length →
    ∃ t, exec (.streamLost k) s = .next t ∧ (t.stream k.toNat).lost = true ∧ t.err.next = s.err.next + 1 ∧ t.mem = s.mem))

/-- R175, R213, R338: on a device in M3 or M4 the next line of the running frame, once its time has come, enters
blender 0, to leave 112 ticks later with the registers its image began under; the last line of an image is followed by
the first of the next, and the last image ends the run. The oldest line past blender 15 is gone from there; a READY
sender in M3 or M4 sends it to its region's cells and to write-back, one that is not READY queues no cell and sends it
to write-back only, and with no capture nothing is written to memory. Completes: `COMPOSE_LINE`,
`LINE_LEAVES_BLENDER`. -/
def Obligations.CompositionEventsComplete : Prop :=
  (∀ (s : State) (l : List (BitVec 4)), let img := s.withRegs s.cmp.img
    s.cmp.running = true → (s.mode = 3 ∨ s.mode = 4) → s.cmp.frame = s.tm.curFrame → s.cmp.phase < img.phases →
    s.cmp.start + 3000 + (s.cmp.phase * img.regionH + s.cmp.line) * img.lineTicks ≤ s.tick →
    ∃ (t : State) (o : LineOut), exec (.composeLine l) s = .next t ∧ t.cmp.inFlight = s.cmp.inFlight ++ [o] ∧
      o.frame = s.cmp.frame ∧ o.phase = s.cmp.phase ∧ o.line = s.cmp.line ∧ o.left = s.tick + 112 ∧ o.regs = s.cmp.img ∧
      t.cmp.line = (if img.regionH ≤ s.cmp.line + 1 then 0 else s.cmp.line + 1) ∧
      t.cmp.phase = (if img.regionH ≤ s.cmp.line + 1 then s.cmp.phase + 1 else s.cmp.phase) ∧
      (t.cmp.running = false ↔ img.regionH ≤ s.cmp.line + 1 ∧ img.phases ≤ s.cmp.phase + 1)) ∧
  (∀ (s : State) (o : LineOut) (rest : List LineOut) (room : Bool), s.cmp.inFlight = o :: rest → o.left ≤ s.tick →
    (s.mode = 3 ∨ s.mode = 4) → s.role = roleSender →
    let u := s.updCmp fun m => { m with inFlight := rest }
    exec (.lineLeavesBlender room) s =
      .next ((u.sendLine o (decide (s.fld F.RED_SND_STAT_STATE = 0))).wbLine o room) ∧
    (s.cmp.captures = [] →
      ∃ t, exec (.lineLeavesBlender room) s = .next t ∧ t.cmp.inFlight = rest ∧ t.mem = s.mem ∧
        (s.fld F.RED_SND_STAT_STATE ≠ 0 → t.fab = s.fab ∧ t.regs = s.regs ∧ t.out = s.out ∧ t.err = s.err)))

/-- R259, R260, R265, R269: a cell on a port that does not carry cells changes nothing; one on a port that passes
cells over frees its place in the receive buffer and no more; one that fails a check is counted on its class and for
its failure, and after a failure of order 1 or 2 the port passes over what follows; a sound SVC cell of 16 payload
bytes brings the credits the partner freed since; a source-routed probe of another length than 64 bytes is dropped and
counted (the model's choice, as is that a cell counts on its class before its checks: log entry 62), another takes its
hop; a command for this device frees its place and is taken as a packet's segment. Completes: `FABRIC_CELL`,
`SVC_CELL`, `PROBE_CELL`. R259, R276, R277, R341: a sound raster cell for this device frees its place in the receive
buffer; on a tile in M5 one whose source is no source of the tile is counted in `LCR_CNT[4]`, one for a frame before
the first, past the next, or whose latch lies within the lead time in `LCR_CNT[2]`, and another is accepted and
counted in `LCR_CNT[0]`; elsewhere it has no further effect. Completes: `RASTER_CELL`. R263, R269, R270: an ACTIVE
port with a cell that arbitration chooses, and room, outside M7, sends it and counts it; credits due are returned by
an SVC cell; at the end of the last route hold (that everything held waits for the last: log entry 52) nothing is
held, and before it nothing happens. Completes: `CELL_ARBITRATION`, `CREDIT_RETURN`, `ROUTE_HOLD_EXPIRY`. -/
def Obligations.CellsAndArbitrationComplete : Prop :=
  (∀ (s : State) (q : BitVec 2) (c : Cell),
    (s.carries q.toNat = false → exec (.fabricCell q c) s = .next s) ∧
    (s.carries q.toNat = true → (s.lane q.toNat).rowHunt = true →
      exec (.fabricCell q c) s = .next (s.freeCredits q.toNat c)) ∧
    (s.carries q.toNat = true → (s.lane q.toNat).rowHunt = false →
      let t := s.bump (F.FAB_CLS_CNT_COUNT q.toNat c.cls.toNat 3)
      (t.cellCheck c ≠ 0 → exec (.fabricCell q c) s = .next
        (((t.freeCredits q.toNat c).cellFail q.toNat c (t.cellCheck c)).resync q.toNat (t.cellCheck c))) ∧
      (t.cellCheck c = 0 → c.typ = CellType.svc →
        exec (.fabricCell q c) s = .next (t.svcCell q.toNat c) ∧
        (c.payload.length = 16 → q.toNat < s.fab.ports.length →
          ∃ u, exec (.svcCell q c) s = .next u ∧ u.regs = t.regs ∧ u.mem = s.mem ∧ ∀ i, i < 3 →
            (u.portQ q.toNat).partnerFreed.getD i 0 = BitVec.ofNat 32 (fieldBE c.payload (4 * i) 4) ∧
            (u.portQ q.toNat).credits.getD i 0 = (s.portQ q.toNat).credits.getD i 0 +
              (BitVec.ofNat 32 (fieldBE c.payload (4 * i) 4) - (s.portQ q.toNat).partnerFreed.getD i 0).toNat)) ∧
      (t.cellCheck c = 0 → c.typ = CellType.probe → c.flags.getLsbD 0 = true →
        exec (.probeCell q c) s = .next (t.probeHop q.toNat c) ∧
        (c.payload.length ≠ 64 →
          exec (.probeCell q c) s = .next ((t.freeCredits q.toNat c).bump (F.FAB_CNT_COUNT 13)))) ∧
      (t.cellCheck c = 0 → c.typ = CellType.cmd → c.dst = s.addr → s.addr ≠ 0 →
        exec (.fabricCell q c) s =
          .next (((t.bump (F.FAB_CNT_COUNT 2)).freeCredits q.toNat c).takeCarried (.fabric q c.src) c.payload)))) ∧
  (∀ (s : State) (q : BitVec 2) (c : Cell), s.carries q.toNat = true → (s.lane q.toNat).rowHunt = false →
    c.typ = CellType.raster → c.dst = s.addr → s.addr ≠ 0 →
    (s.bump (F.FAB_CLS_CNT_COUNT q.toNat c.cls.toNat 3)).cellCheck c = 0 →
    let t := ((s.bump (F.FAB_CLS_CNT_COUNT q.toNat c.cls.toNat 3)).bump (F.FAB_CNT_COUNT 2)).freeCredits q.toNat c
    let r := parseRaster (c.payload.take c.len.toNat)
    let n := (t.nearFrame r.frame).toNat
    ((t.role ≠ roleTile ∨ t.mode ≠ 5) → exec (.rasterCell q c) s = .next t) ∧
    (t.role = roleTile → t.mode = 5 →
      (sourceOf (t.governing n r.p) c.src = none → exec (.rasterCell q c) s = .next (t.bump (F.LCR_CNT_COUNT 4))) ∧
      (∀ src, sourceOf (t.governing n r.p) c.src = some src →
        ((t.nearFrame r.frame < 0 ∨ t.tm.curFrame + 1 < n ∨ t.tLatch n r.p ≤
            ((t.clk + usU (rfld (t.governing n r.p) F.LCR_CFG_LEAD_US) : Nat) : Int)) →
          ∃ u, exec (.rasterCell q c) s = .next u ∧
            u.fld (F.LCR_CNT_COUNT 2) = min (t.fld (F.LCR_CNT_COUNT 2) + 1) (2 ^ 32 - 1) ∧ u.mem = s.mem ∧
            u.tile = s.tile) ∧
        (0 ≤ t.nearFrame r.frame → n ≤ t.tm.curFrame + 1 →
          ((t.clk + usU (rfld (t.governing n r.p) F.LCR_CFG_LEAD_US) : Nat) : Int) < t.tLatch n r.p →
          ∃ u, exec (.rasterCell q c) s = .next u ∧
            u.fld (F.LCR_CNT_COUNT 0) = min (t.fld (F.LCR_CNT_COUNT 0) + 1) (2 ^ 32 - 1) ∧ u.clk = s.clk)))) ∧
  ((∀ (s : State) (q : BitVec 2) (n : Nat) (p : PortQ) (e : QCell) (rest : List QCell), s.lnkState q.toNat = lkActive →
    s.mode ≠ 7 → (s.lane q.toNat).slots.length ≤ 32 * (s.activeLanes q.toNat).length →
    s.choose q.toNat = (some n, p) → p.queue n = e :: rest →
    ∃ t, exec (.cellArbitration q) s = .next t ∧ t.out.head? = some (.cell q e.cell) ∧
      t.fld (F.FAB_CLS_CNT_COUNT q.toNat n 0) = min (s.fld (F.FAB_CLS_CNT_COUNT q.toNat n 0) + 1) (2 ^ 32 - 1) ∧
      t.mem = s.mem) ∧
  (∀ (s : State) (q : BitVec 2), s.svcDue q.toNat = true → q.toNat < s.fab.ports.length →
    ∃ t, exec (.creditReturn q) s = .next t ∧ (t.portQ q.toNat).freedSent = (s.portQ q.toNat).freed ∧
      (t.portQ q.toNat).freedTick = none ∧ (t.portQ q.toNat).svcTick = s.tick ∧ t.mem = s.mem) ∧
  (∀ (s : State) (e : Nat), s.fab.holdEnd = some e →
    (e ≤ s.tick →
      ∃ t, exec .routeHoldExpiry s = .next t ∧ t.fab.holdEnd = none ∧ t.fab.hold = [] ∧ t.mem = s.mem ∧ t.cmd = s.cmd) ∧
    (s.tick < e → exec .routeHoldExpiry s = .next s)))

/-- R240, R243, R245, R247: training goes state by state on what the port sees. From DISABLED, where it may train, to
CLOCK; from there on its partner's clock to BLOCK, connected; with every lane locked to EQ; with both sides'
adaptation done to DESKEW; with every lane aligned to CONFIG; there the partner's TS2, brought sixteen times over, is
confirmed, and 130 ticks later the port is ACTIVE on the lanes both ends chose; from DEEP_IDLE on its partner's clock
to CLOCK. Without a clock nothing is connected after 10 ms; CONFIG fails after 1 ms. Completes: `TRAINING_ADVANCE`,
`TRAINING_TIMEOUT`. R244, R384, R387: a port that carries cells and loses its forwarded clock shows it no more and
keeps the cause; its lanes' eyes read as after a reset; with retraining armed it trains again from CLOCK, without it
is FAILED. Completes: `FORWARDED_CLOCK_LOSS`. R246, R247: an ACTIVE port that is armed, has sent 1,024 IDLE slots and
has nothing to send and nothing unacknowledged sends EIOS, goes to LIGHT_IDLE and is counted; with something to send
it sends FTS and comes back, its frames starting 65 ticks later; a partner's EIOS and FTS are noted; a partner's EIOS
with `DEEP` takes the port to DEEP_IDLE. Completes: `LIGHT_IDLE_ENTRY`, `LIGHT_IDLE_EXIT`, `LIGHT_IDLE_EIOS`, `FTS`,
`DEEP_IDLE_EIOS`. R235, R238: a delay mark whose 16 frames have run out is void; slots that stay unacknowledged for
256 frames are replayed from the oldest, and counted, up to the third time in a row from one `ACK` value. Completes:
`DELAY_MARK_TIMEOUT`, `REPLAY_TIMEOUT`. -/
def Obligations.TrainingAndIdleComplete : Prop :=
  (∀ (s : State) (q : BitVec 2) (o : TrainObs), q.toNat < s.lnk.ports.length →
    (s.domBusy (2 + q.toNat) = false →
      (s.lnkState q.toNat = lkDisabled → s.mayTrain q.toNat = true →
        ∃ t, exec (.trainingAdvance q o) s = .next t ∧ t.lnkState q.toNat = lkClock ∧ (t.lane q.toNat).fresh = true) ∧
      (s.lnkState q.toNat = lkClock → o.clockSeen = true →
        ∃ t, exec (.trainingAdvance q o) s = .next t ∧ t.lnkState q.toNat = lkBlock ∧
          t.bit (F.LNK_STAT_CONNECTED q.toNat) = true ∧ bitOf (t.fld F.CLK_STAT_FRX_CLK) q.toNat = true) ∧
      (s.lnkState q.toNat = lkBlock → lockedLanes o = 15 →
        ∃ t, exec (.trainingAdvance q o) s = .next t ∧ t.lnkState q.toNat = lkEq) ∧
      (s.lnkState q.toNat = lkEq → o.eqDone = true → s.partnerEqDone q.toNat o = true →
        ∃ t, exec (.trainingAdvance q o) s = .next t ∧ t.lnkState q.toNat = lkDeskew) ∧
      (s.lnkState q.toNat = lkDeskew → o.aligned = 15 →
        ∃ t, exec (.trainingAdvance q o) s = .next t ∧ t.lnkState q.toNat = lkConfig) ∧
      (∀ x, s.lnkState q.toNat = lkConfig → s.partnerSet q.toNat o = some x →
        ((s.lane q.toNat).confirmAt = none →
          ∃ t, exec (.trainingAdvance q o) s = .next t ∧ t.lnkState q.toNat = lkConfig ∧
            (t.lane q.toNat).confirmAt = some s.tick) ∧
        (∀ a lanes, (s.lane q.toNat).confirmAt = some a → a + 130 ≤ s.tick →
          s.chosen q.toNat x.laneOk x.maxWidth = some lanes →
          ∃ t, exec (.trainingAdvance q o) s = .next t ∧ t.lnkState q.toNat = lkActive ∧
            t.fld (F.LNK_STAT_LANES q.toNat) = lanes.toNat)) ∧
      (s.lnkState q.toNat = lkDeep → o.clockSeen = true →
        ∃ t, exec (.trainingAdvance q o) s = .next t ∧ t.lnkState q.toNat = lkClock)) ∧
    (s.lnkState q.toNat = lkClock → (s.lane q.toNat).since + usTicks 10000 ≤ s.tick →
      ∃ t, exec (.trainingTimeout q o) s = .next t ∧ t.bit (F.LNK_STAT_CONNECTED q.toNat) = false ∧
        t.lnkState q.toNat = lkClock) ∧
    (s.lnkState q.toNat = lkConfig → (s.lane q.toNat).since + usTicks 1000 ≤ s.tick →
      ∃ t, exec (.trainingTimeout q o) s = .next t ∧ t.lnkState q.toNat = lkFailed ∧
        t.fld (F.LNK_STAT_LAST_FAIL q.toNat) = 4)) ∧
  (∀ (s : State) (q : BitVec 2), s.carries q.toNat = true → q.toNat < s.lnk.ports.length →
    ∃ t, exec (.forwardedClockLoss q) s = .next t ∧
      t.lnkState q.toNat = (if s.bit (F.LNK_POLICY_RETRAIN_EN q.toNat) = true then lkClock else lkFailed) ∧
      bitOf (t.fld F.CLK_STAT_FRX_CLK) q.toNat = false ∧ t.fld (F.LNK_STAT_LAST_FAIL q.toNat) = 6 ∧
      (∀ l, l < 4 → t.fld (F.LNK_EYE_HEIGHT_MV q.toNat l) = 0 ∧ t.fld (F.LNK_EYE_WIDTH q.toNat l) = 0) ∧ t.mem = s.mem) ∧
  (∀ (s : State) (q : BitVec 2), q.toNat < s.lnk.ports.length →
    (s.bit (F.LNK_POLICY_LIDLE_EN q.toNat) = true → s.lnkState q.toNat = lkActive → 1024 ≤ (s.lane q.toNat).idleRun →
      s.txEmpty q.toNat = true → (s.lane q.toNat).unacked = [] →
      ∃ t, exec (.lightIdleEntry q) s = .next t ∧ t.lnkState q.toNat = lkLight ∧
        t.out = .control q [eiosBlock false] :: s.out ∧
        t.fld (F.LNK_CNT_COUNT q.toNat 7) = min (s.fld (F.LNK_CNT_COUNT q.toNat 7) + 1) (2 ^ 32 - 1)) ∧
    (s.lnkState q.toNat = lkLight → s.txEmpty q.toNat = false →
      ∃ t, exec (.lightIdleExit q) s = .next t ∧ t.lnkState q.toNat = lkActive ∧
        (t.lane q.toNat).frameAt = 8 * (s.tick + 65) ∧ t.out = .control q ftsBlocks :: s.out) ∧
    (s.domBusy (2 + q.toNat) = false → s.carries q.toNat = true →
      (∃ t, exec (.lightIdleEios q) s = .next t ∧ (t.lane q.toNat).partnerIdle = true ∧ t.regs = s.regs) ∧
      (∃ t, exec (.fts q) s = .next t ∧ (t.lane q.toNat).partnerIdle = false ∧ t.regs = s.regs) ∧
      (∃ t, exec (.deepIdleEios q) s = .next t ∧ t.lnkState q.toNat = lkDeep ∧
        t.out.head? = some (.control q [eiosBlock true]) ∧
        t.fld (F.LNK_STAT_WIDTH q.toNat) = 0 ∧ t.fld (F.LNK_STAT_LANES q.toNat) = 0))) ∧
  (∀ (s : State) (q : BitVec 2), q.toNat < s.lnk.ports.length →
    (∀ m, (s.lane q.toNat).markOut = some (m, 0) →
      ∃ t, exec (.delayMarkTimeout q) s = .next t ∧ (t.lane q.toNat).markOut = none ∧ t.regs = s.regs ∧ t.mem = s.mem) ∧
    (s.carries q.toNat = true → (s.lane q.toNat).unacked ≠ [] → 256 ≤ (s.lane q.toNat).stall →
      ((s.lane q.toNat).replayAck = some (s.lane q.toNat).ack → (s.lane q.toNat).replayRuns < 3) →
      ∃ t, exec (.replayTimeout q) s = .next t ∧ (t.lane q.toNat).resend = some 0 ∧ (t.lane q.toNat).stall = 0 ∧
        (t.lane q.toNat).unacked = (s.lane q.toNat).unacked ∧ t.lnkState q.toNat = s.lnkState q.toNat ∧
        t.fld (F.LNK_CNT_COUNT q.toNat 4) = min (s.fld (F.LNK_CNT_COUNT q.toNat 4) + 1) (2 ^ 32 - 1) ∧ t.mem = s.mem))

/-- R236 to R238, R240, R244, R246, R254: what comes in is taken with the polarity that training found. A port that
carries no frames takes none, but in SERVICE, in loopback, it retransmits what it receives; while its partner is in
light idle, or sends on fewer lanes than are active, only TS1 counts, and has it retrain. A link frame that is good on
every active lane and begins at the slot awaited, with nothing new in its control block, is counted, and the port
awaits the slot after its last. Completes: `LINK_FRAME`. R249 to R251, R466: a window with too few transitions is
counted and moves no tap, and none moves while the lane's taps are held or the partner is in light idle; another moves
the CTLE setting of a port without a stored record one step, within its full scale. The temperature is read once a
second and shown, rounded to the nearest whole degree (of two as near, which stays open, log entry 13); a lane's eye
is measured once a millisecond while its partner is not in light idle, and in the first stage of a recalibration the
fine phase of a port without a stored record moves one step toward the centre. Completes: `ADAPT_WINDOW`,
`TEMP_CHECK`, `RECAL_STEP`. -/
def Obligations.LinkFramesAndAdaptationComplete : Prop :=
  (∀ (s : State) (q : BitVec 2) (l : List LaneFrame), s.domBusy (2 + q.toNat) = false → let fs := s.righted q.toNat l
    let rx := ((s.activeLanes q.toNat).filterMap fun i => fs.find? fun f => f.lane.toNat == i).map judgeLane
    (s.carries q.toNat = false → s.lnkState q.toNat ≠ lkService → exec (.linkFrame q l) s = .next s) ∧
    (∀ p, s.lnkState q.toNat = lkService → (s.lane q.toNat).pat = some p → p.action = 4 →
      exec (.linkFrame q l) s = .next (s.emit (.looped q fs))) ∧
    (s.carries q.toNat = true → ((s.lane q.toNat).partnerIdle = true ∨ rx.length ≠ (s.activeLanes q.toNat).length) →
      q.toNat < s.lnk.ports.length →
      ((∀ f ∈ fs, isTs1 f = false) → exec (.linkFrame q l) s = .next s) ∧
      ((∃ f ∈ fs, isTs1 f = true) → ∃ t, exec (.linkFrame q l) s = .next t ∧ t.lnkState q.toNat = lkBlock ∧
        t.fld (F.LNK_STAT_LAST_FAIL q.toNat) = 7)) ∧
    (s.carries q.toNat = true → (s.lane q.toNat).partnerIdle = false → q.toNat < s.lnk.ports.length →
      rx.length = (s.activeLanes q.toNat).length → rx ≠ [] →
      (∀ r ∈ rx, r.headerErrs = 0 ∧ r.typeOk = true ∧ r.chkOk = true ∧ r.crcOk = true ∧
        r.fbseq = (s.lane q.toNat).rxNext ∧ r.flags = 0 ∧ r.ack = (s.lane q.toNat).ack) →
      (s.lane q.toNat).rxNext < seqMod → frameSlots rx ≠ [] → (frameSlots rx).length < 2 ^ 23 →
      ∃ t, exec (.linkFrame q l) s = .next t ∧
        (t.lane q.toNat).rxNext = ((s.lane q.toNat).rxNext + (frameSlots rx).length) % seqMod ∧
        (t.lane q.toNat).nak = false ∧ t.lnkState q.toNat = s.lnkState q.toNat ∧
        t.fld (F.LNK_CNT_COUNT q.toNat 1) = min (s.fld (F.LNK_CNT_COUNT q.toNat 1) + 1) (2 ^ 32 - 1) ∧
        t.mem = s.mem ∧ t.cmd = s.cmd)) ∧
  ((∀ (s : State) (q l : BitVec 2) (n : BitVec 13) (c : Int) (d : List Int), s.carries q.toNat = true →
    bitOf (s.fld (F.LNK_STAT_LANES q.toNat)) l.toNat = true →
    (((s.lane q.toNat).partnerIdle = true ∨ s.bit (F.LNK_TAPS_HELD q.toNat l.toNat) = true) →
      exec (.adaptWindow q l n c d) s = .next s) ∧
    ((s.lane q.toNat).partnerIdle = false → s.bit (F.LNK_TAPS_HELD q.toNat l.toNat) = false →
      (n.toNat < s.fld F.LNK_ADAPT_CFG_DENS →
        exec (.adaptWindow q l n c d) s = .next (s.bump (F.LNK_LANE_CNT_COUNT q.toNat l.toNat 2))) ∧
      (s.fld F.LNK_ADAPT_CFG_DENS ≤ n.toNat → calValid (s.calRecord q.toNat) = false → (s.lane q.toNat).cal = none →
        ∃ t, exec (.adaptWindow q l n c d) s = .next t ∧ t.fld (F.LNK_TAPS_CTLE q.toNat l.toNat) =
          (max 0 (min 15 ((s.fld (F.LNK_TAPS_CTLE q.toNat l.toNat) : Int) + signOf c))).toNat ∧ t.mem = s.mem))) ∧
  (∀ (s : State) (x : BitVec 16),
    (s.lnk.tempTick + 1500000000 ≤ s.tick → ∃ t, exec (.tempCheck x) s = .next t ∧ t.fld F.SYS_TEMP_TEMP = x.toNat ∧
      t.fld F.LNK_CAL_STAT_T_NOW = toBits 8 (openNearest 466 ((x.toInt : Rat) / 8)) ∧ t.lnk.tempTick = s.tick ∧
      t.mem = s.mem) ∧
    (s.tick < s.lnk.tempTick + 1500000000 → exec (.tempCheck x) s = .next s)) ∧
  (∀ (s : State) (q l : BitVec 2) (e : EyeObs), s.domBusy (2 + q.toNat) = false →
    ((s.tick < (s.lane q.toNat).stepAt.getD l.toNat 0 + msTicks ∨ (s.lane q.toNat).partnerIdle = true) →
      exec (.recalStep q l e) s = .next s) ∧
    ((s.lane q.toNat).partnerIdle = false → (s.lane q.toNat).stepAt.getD l.toNat 0 + msTicks ≤ s.tick → s.carries q.toNat = true →
      ((s.lane q.toNat).cal = none →
        ∃ t, exec (.recalStep q l e) s = .next t ∧ t.fld (F.LNK_EYE_HEIGHT_MV q.toNat l.toNat) = e.heightMv.toNat ∧
          t.fld (F.LNK_EYE_WIDTH q.toNat l.toNat) = e.width.toNat ∧ t.mem = s.mem) ∧
      (∀ ls, (s.lane q.toNat).cal = some ls → (ls.getD l.toNat {}).stage = 0 → (ls.getD l.toNat {}).failed = none →
        l.toNat < ls.length → calValid (s.calRecord q.toNat) = false →
        ((0 < e.centre ∧ s.fld (F.LNK_SKEW_FINE q.toNat l.toNat) < 31 →
          ∃ t, exec (.recalStep q l e) s = .next t ∧
            t.fld (F.LNK_SKEW_FINE q.toNat l.toNat) = s.fld (F.LNK_SKEW_FINE q.toNat l.toNat) + 1 ∧
            (t.lane q.toNat).cal = (s.lane q.toNat).cal ∧ t.mem = s.mem) ∧
        (e.centre < 0 ∧ 0 < s.fld (F.LNK_SKEW_FINE q.toNat l.toNat) →
          ∃ t, exec (.recalStep q l e) s = .next t ∧
            t.fld (F.LNK_SKEW_FINE q.toNat l.toNat) = s.fld (F.LNK_SKEW_FINE q.toNat l.toNat) - 1 ∧
            (t.lane q.toNat).cal = (s.lane q.toNat).cal ∧ t.mem = s.mem))))))

/-- R280, R344: on a tile in M5 the correction deadline of an image that comes after the last one is taken once; with
no copy of it from either sender it counts as missing, whatever `CFG_ERR` is (log entry 44). When a job's correction
has run its time and the banks of its buffer serve no other owner, the image shows as corrected and counts, and its
buffer is ready, unless it came late. Completes: `CORRECTION_DEADLINE`, `CORRECTION_DONE`. R312, R317, R318: with
lamps driven in M5, at its load instant an image after the last one loaded is loaded, once, where the banks it reads
serve no other owner, and a phase without a lit time is loaded dark. A configuration load due on a driven chain goes
out when no load, timed symbol or measurement is in progress; the trims sent are those measured. Completes:
`CHAIN_LOAD`, `CONFIG_LOAD`. R67, R308, R317, R330: in its time the latch of a loaded image goes out once on every
driven chain and is counted (once an image: log entry 44); BLANK of a dark image, BLANK END of a latched lit window
that leaves 8 ns to the next latch, and the diagnostic pulse of an ended lit window that it follows, likewise, each
with the delay that keeps it apart from the others on its line (which delay is the model's choice, log entry 21).
Completes: `LATCH_LAUNCH`, `BLANK_LAUNCH`, `DIAG_LAUNCH`. R14, R307, R308, R318, R320, R321: a report due on a driven
chain with a free line, and that meets no timed symbol, is asked for, or skipped and counted while the return line is
busy. A time that is no symbol's counts as a symbol error; SYNC and an END word end the report of a chain whose
drivers have all answered; a word of another type without a report counts as discarded. With no lamps driven a
measurement does nothing, and it waits for a load; on a quiet chain (which it is: log entry 21) it shows how many
drivers answered, passes with one, and a configuration load follows, and fails with none (log entry 45). Completes:
`REPORT_SEND`, `RETURN_RECORD`, `CHAIN_MEASURE`. -/
def Obligations.LampImageEventsComplete : Prop :=
  ((∀ (s : State) (n : BitVec 64) (p : BitVec 2), s.role = roleTile → s.mode = 5 →
    (s.tile.lastTc.all fun l => imgLt l.1 l.2 n.toNat p.toNat) = true →
    p.toNat < phasesOf (s.governing n.toNat p.toNat) → s.at_ (s.tCorrect n.toNat p.toNat) = true →
    (s.clk : Int) < s.tLatch n.toNat p.toNat →
    ∃ t, exec (.correctionDeadline n p) s = .next t ∧ t.tile.lastTc = some (n.toNat, p.toNat) ∧ t.mem = s.mem ∧
      t.cmd = s.cmd ∧ (s.tile.imgs = [] →
        t.fld (F.LCR_CNT_COUNT 8) = min (s.fld (F.LCR_CNT_COUNT 8) + 1) (2 ^ 32 - 1))) ∧
  (∀ (s : State) (j : Job) (rest : List Job) (k : Nat), s.tile.jobs = j :: rest → j.buf = some k →
    (j.start + s.jobTicks j ≤ s.tick → s.bufDrains (s.imgBank k) = false →
      ∃ t, exec .correctionDone s = .next t ∧ t.fld F.LCR_IMG_LAST_FRAME = j.frame % 2 ^ 32 ∧
        t.fld F.LCR_IMG_LAST_INFO_PHASE = j.phase % 4 ∧
        t.fld (F.LCR_CNT_COUNT 7) = min (s.fld (F.LCR_CNT_COUNT 7) + 1) (2 ^ 32 - 1) ∧
        (k < s.tile.bufs.length → j.late = false → t.tile.bufs.getD k .free = .ready j.frame j.phase)) ∧
    ((s.tick < j.start + s.jobTicks j ∨ s.bufDrains (s.imgBank k) = true) → exec .correctionDone s = .next s))) ∧
  ((∀ (s : State) (n : BitVec 64) (p : BitVec 2), s.lampsOn = true → s.mode = 5 →
    (s.tile.lastLoad.all fun l => imgLt l.1 l.2 n.toNat p.toNat) = true →
    p.toNat < phasesOf (s.governing n.toNat p.toNat) → s.at_ (s.tLoad n.toNat p.toNat) = true →
    (s.clk : Int) < s.tLatch n.toNat p.toNat → s.loadDrains n.toNat p.toNat = false →
    ∃ t, exec (.chainLoad n p) s = .next t ∧ t.tile.lastLoad = some (n.toNat, p.toNat) ∧ t.mem = s.mem ∧
      t.cmd = s.cmd ∧ (s.litNs n.toNat p.toNat = 0 → (t.plan n.toNat p.toNat).map (fun x => x.load) = some 2)) ∧
  (∀ (s : State) (c : BitVec 7), s.lampsOn = true → (s.chain c.toNat).cfgDue = true →
    s.driven s.tblForce c.toNat = true → (s.chain c.toNat).loadEnd ≤ s.tick → (s.chain c.toNat).timedEnd ≤ (s.clk : Int) →
    (s.chain c.toNat).measuring = false → c.toNat < s.tile.chains.length →
    ∃ t, exec (.configLoad c) s = .next t ∧ (t.chain c.toNat).cfgDue = false ∧ t.regs = s.regs ∧ t.mem = s.mem ∧
      t.out.length = s.out.length + 1 ∧
      ∀ d, d < s.tblForce.drivers c.toNat → d < (s.chain c.toNat).drivers.length →
        ((t.chain c.toNat).driver d).sent = ((s.chain c.toNat).driver d).trim)) ∧
  (∀ (s : State) (n : BitVec 64) (p : BitVec 2) (x : Plan), s.lampsOn = true → s.plan n.toNat p.toNat = some x →
    (x.load = 1 → x.latched = false → s.launchDue x.lay ldLatch (s.tApply n.toNat p.toNat) = true →
      ∃ t, exec (.latchLaunch n p) s = .next t ∧ t.tile.lastWindow = some (n.toNat, p.toNat) ∧
        (t.plan n.toNat p.toNat).map (fun y => y.latched) = some true ∧
        t.out.length = s.out.length + (s.drivenChains x.lay).length ∧
        t.fld (F.LDR_CNT_COUNT 1) = min (s.fld (F.LDR_CNT_COUNT 1) + 1) (2 ^ 32 - 1) ∧ t.mem = s.mem ∧ t.cmd = s.cmd) ∧
    (let k := s.symbolDelay n.toNat p.toNat 2;
      x.load = 2 → x.ended = false → s.launchDue x.lay ldBlank (s.tApply n.toNat p.toNat) k = true →
      exec (.blankLaunch n p true) s = .next ((s.launch x.lay ldBlank p.toNat 1 (s.tApply n.toNat p.toNat) k).setPlan
        { x with ended := true })) ∧
    (let e := s.litEnd n.toNat p.toNat
      let k := s.symbolDelay n.toNat p.toNat 1;
      x.load = 1 → x.latched = true → x.ended = false → ((8 * nsU : Nat) : Int) ≤ e.2 →
      s.launchDue x.lay ldBlank e.1 k = true →
      exec (.blankLaunch n p false) s = .next (((s.launch x.lay ldBlank p.toNat 0 e.1 k).setPlan
        { x with ended := true }).windowEnded n.toNat p.toNat (s.windowOver n.toNat p.toNat))) ∧
    (let r := s.governing n.toNat p.toNat
      let us := rfld r F.LDR_DIAG_WIN_PULSE_US
      let t := (s.litEnd n.toNat p.toNat).1 + (rfld r F.LDR_DIAG_OFFSET_OFFSET_NS * nsU : Nat)
      let k := s.symbolDelay n.toNat p.toNat 3;
      s.diagFollows n.toNat p.toNat = true → x.load = 1 → x.ended = true → x.pulsed = false →
      s.launchDue x.lay ldDiag t k = true →
      let u := (s.launch x.lay ldDiag p.toNat us t k).setPlan { x with pulsed := true }
      exec (.diagLaunch n p) s = .next
        (if us = 0 then u else (u.windowEnded n.toNat p.toNat (t + (usU us : Nat))).bump (F.LDR_CNT_COUNT 9)))) ∧
  ((∀ (s : State) (c : BitVec 7) (x : Int) (f : Nat), s.lampsOn = true → (s.chain c.toNat).reportDue = some (x, f) →
    s.driven s.tblForce c.toNat = true → x ≤ (s.clk : Int) → (s.chain c.toNat).loadEnd ≤ s.tick →
    (s.chain c.toNat).lineEnd ≤ s.tick → c.toNat < s.tile.chains.length →
    (∀ w, s.tile.lastWindow = some w → s.lineFrom s.tblForce w.1 w.2 c.toNat s.tick (burstTicks 1) = s.tick) →
    ((s.chain c.toNat).returnTick + 1500 ≤ s.tick → (s.chain c.toNat).measuring = false →
      ∃ t, exec (.reportSend c) s = .next t ∧ (t.chain c.toNat).reportDue = none ∧
        (t.chain c.toNat).report = some { c0 := s.tblForce.drivers c.toNat - 1, latchFrame := f } ∧
        t.out.head? = some (.lampBurst c s.tick [typedWord ldReport 0 (s.tblForce.drivers c.toNat - 1) 0]) ∧
        t.mem = s.mem) ∧
    (s.tick < (s.chain c.toNat).returnTick + 1500 →
      ∃ t, exec (.reportSend c) s = .next t ∧ (t.chain c.toNat).reportDue = none ∧ t.out = s.out ∧
        t.fld (F.LDR_CNT_COUNT 10) = min (s.fld (F.LDR_CNT_COUNT 10) + 1) (2 ^ 32 - 1) ∧ t.mem = s.mem)) ∧
  (∀ (s : State) (c : BitVec 7), s.lampsOn = true → c.toNat < s.tile.chains.length → (s.chain c.toNat).rxBits = [] →
    (s.chain c.toNat).rxWords = none →
    (∀ hi lo, classify hi.toNat lo.toNat = none →
      ∃ t, exec (.returnRecord c [(hi, lo)]) s = .next t ∧
        t.fld (F.LDR_CNT_COUNT 7) = min (s.fld (F.LDR_CNT_COUNT 7) + 1) (2 ^ 32 - 1) ∧
        (t.chain c.toNat).returnTick = s.tick ∧ t.mem = s.mem) ∧
    (∀ w : BitVec 16, w.toNat / 4096 = ldEnd → parityOf 16 w.toNat = true →
      ∀ r, (s.chain c.toNat).report = some r → (∀ d, d < s.fld (F.LDR_CHAIN_STAT_DETECTED c.toNat) → d ∈ r.got) →
      ∃ t, exec (.returnRecord c (nominalEdges (burstSymbols [w]))) s = .next t ∧ (t.chain c.toNat).report = none ∧
        (t.chain c.toNat).returnTick = s.tick ∧ t.regs = s.regs ∧ t.mem = s.mem) ∧
    (∀ w : BitVec 16, w.toNat / 4096 ≠ ldEnd → w.toNat / 4096 ≠ ldEcho → w.toNat / 4096 ≠ ldRecord →
      (s.chain c.toNat).report = none →
      ∃ t, exec (.returnRecord c (nominalEdges (burstSymbols [w]))) s = .next t ∧
        t.fld (F.LDR_CNT_COUNT 3) = min (s.fld (F.LDR_CNT_COUNT 3) + 1) (2 ^ 32 - 1) ∧ t.mem = s.mem)) ∧
  (∀ (s : State) (e : ChainEcho), (s.chain e.chain.toNat).measuring = true → e.chain.toNat < s.tile.chains.length →
    ((s.tick < (s.chain e.chain.toNat).loadEnd ∨ s.lampsOn = false) → exec (.chainMeasure e) s = .next s) ∧
    (s.lampsOn = true → (s.chain e.chain.toNat).loadEnd ≤ s.tick → s.returnIdle e.chain.toNat = true →
      ∃ t, exec (.chainMeasure e) s = .next t ∧ (t.chain e.chain.toNat).measuring = false ∧
        t.fld (F.LDR_CHAIN_STAT_DETECTED e.chain.toNat) = min e.rt.length 64 ∧ t.mem = s.mem ∧
        (e.rt = [] → t.bit (F.LDR_CHAIN_STAT_MEAS_OK e.chain.toNat) = false) ∧
        (∀ x, e.rt = [x] → t.bit (F.LDR_CHAIN_STAT_MEAS_OK e.chain.toNat) = true ∧
          (t.chain e.chain.toNat).cfgDue = true ∧ (t.chain e.chain.toNat).a0 = arrivalDelay x))))

/-- R339, R345, R346: on a tile in M5 the loss of the port that carries the source in use is noted, shown and counted
once; a switch that is due takes the other source, shown and counted (with an event of its own: model's choice, log
entry 46); a READY standby whose pair port has been down for its time asks for M3. Completes: `LINK_LOSS`,
`RED_SWITCHED`, `PROMOTE`. R349 to R352, R360: an armed active sender serves a join of its partner on the pair port
and refuses another. At the joiner, copy data in order is written where it may be, a lost word as zero with poison,
and counted. At a wingbeat that the pair session has reached, idle, the copy sent, a snapshot is taken once. A sound
snapshot is installed early enough before the next frame, the join ends and is counted, and the held packets follow; a
late one counts as an attempt. A join that has lost its link fails, and the sender is INCOMPLETE. The copy's data and
the encoding under a snapshot's CRC (log entry 57), and the events of its steps (log entry 46), are the model's
choices. Completes: `JOIN_REQUEST`, `JOIN_COPY_CELL`, `SNAPSHOT_CAPTURE`, `SNAPSHOT_INSTALL`, `JOIN_FAIL`. R24, R28,
R29, R356, R365: a channel under training that passes, of 1 to 32 GiB with a sideband of at least a quarter, is in
service, wiping, its capacity shown, and shown as trained; one that fails keeps its cause (SIZE: log entry 55) and is
recorded. A wiped region holds zeros, counts as wiped, and every other byte stays. Completes: `CHANNEL_TRAINING_DONE`,
`REGION_WIPED`. R362, R368, R369, R372, R378: with no wrong and no poisoned word a scrub read leaves memory as it is;
in its time a read of the next granule of a channel, wiped, counts, and the next scratchpad word follows the one read
(a pass: log entry 55). Every 16 ms a new refresh rate of a trained channel shows. A drained bank shows none and keeps
its owner, and with no image composed memory stays; a bank whose time has come is ON. Completes: `SCRUB_STEP`,
`REFRESH_CHECK`, `BANK_DRAIN_DONE`, `BANK_POWER_DONE`. -/
def Obligations.PairAndMemoryEventsComplete : Prop :=
  ((∀ (s : State) (q : BitVec 2), s.role = roleTile → s.mode = 5 → s.sourcePort = some q →
    (s.red.lossSeen = true → exec .linkLoss s = .next s) ∧
    (s.red.lossSeen = false → s.carries q.toNat = false →
      ∃ t, exec .linkLoss s = .next t ∧ t.red.lossSeen = true ∧ t.bit F.RED_TILE_STAT_LINK_LOSS = true ∧ t.mem = s.mem ∧
        t.fld (F.RED_CNT_COUNT 5) = min (s.fld (F.RED_CNT_COUNT 5) + 1) (2 ^ 32 - 1))) ∧
  (∀ (s : State) (c : BitVec 1) (n : Nat), s.red.switchDue = some (c, n) →
    ∃ t, exec (.redSwitched c) s = .next t ∧ t.bit F.RED_TILE_STAT_SWITCHED = true ∧
      (s.using' ≤ 1 → t.fld F.RED_TILE_STAT_USING = 1 - s.using') ∧ t.red.switchDue = none ∧
      t.fld (F.RED_CNT_COUNT 6) = min (s.fld (F.RED_CNT_COUNT 6) + 1) (2 ^ 32 - 1) ∧ t.mem = s.mem) ∧
  (∀ s : State, s.role = roleSender → s.mode = 4 → s.pairState = 0 → s.bit F.RED_POLICY_PROMOTE_EN = true →
    s.carries (s.fld F.RED_CFG_PAIR_PORT) = false →
    (s.lane (s.fld F.RED_CFG_PAIR_PORT)).downAt + usTicks (1000 * s.fld F.RED_POLICY_PROMOTE_MS) ≤ s.tick →
    s.sys.change = none →
    ∃ t, exec .promote s = .next t ∧ t.fld F.SYS_MODE_LAST_REQ = 3 ∧ t.fld F.SYS_MODE_REQ_ERR = 0 ∧
      t.fld F.SYS_MODE_BUSY = 1 ∧ t.sys.change = some { target := 3, origin := 4, at_ := s.clk } ∧ t.mem = s.mem)) ∧
  ((∀ (s : State) (q : BitVec 2) (a p : BitVec 16) (rs : List (BitVec 40 × BitVec 40)),
    (s.mode = 3 → s.bit F.RED_CFG_SERVE_EN = true → s.fld F.RED_CFG_PARTNER = a.toNat →
      s.fld F.RED_CFG_PAIR_PORT = q.toNat →
      ∃ t, exec (.joinRequest q a p rs) s = .next t ∧ t.red.pairSrc = some p ∧
        t.red.serve = some { pairSrc := p, joiner := a, port := q, ranges := rs.map fun r => (r.1.toNat, r.2.toNat),
                             todo := ascending (rs.map fun r => (r.1.toNat, r.2.toNat)) } ∧
        t.regs = s.regs ∧ t.mem = s.mem) ∧
    (s.mode ≠ 3 → exec (.joinRequest q a p rs) s = .next (s.emit (.joinRefused q)))) ∧
  (∀ (s : State) (a : BitVec 40) (w : BitVec 64) (b : Bool) (j : JoinRun), s.red.join = some j → j.held = none →
    j.work = [] → a.toNat % 8 = 0 → a.toNat < 0x2000000000 → j.expects a.toNat 8 = true →
    s.memWaits a.toNat 8 true = false → s.mayAccess .bulk a.toNat = true →
    ∃ t, exec (.joinCopyCell a [(w, b)]) s = .next t ∧ t.data64 a.toNat = (if b then 0 else w) ∧
      sparseGet (fun _ => false) t.memc.poison a.toNat = b ∧ t.red.join.map (fun i => i.copied) = some (j.copied + 8) ∧
      ∀ x, (x < a.toNat ∨ a.toNat + 8 ≤ x) → t.byte x = s.byte x) ∧
  (∀ (s : State) (e : Word) (v : ServeRun) (k : Nat), s.red.serve = some v → s.sessionOf v.pairSrc = some k →
    s.serves v.port v.joiner = true → s.beat s.tm.curFrame ≤ s.clk + s.inc → s.clk ≤ s.beat s.tm.curFrame + s.inc →
    ((s.sess k).expected - e).toNat < 2 ^ 31 → s.opsRunning (s.sess k).uid = false → v.captured ≠ some s.tm.curFrame →
    v.todo = [] →
    let sn := s.snapshot (s.sess k).uid (s.sess k) s.tm.curFrame
    ∃ t, exec (.snapshotCapture e) s = .next t ∧ t.regs = s.regs ∧ t.mem = s.mem ∧ t.red.serve = some { v with
      marks := [], captured := some s.tm.curFrame, snap := some { sn with crc := sn.check },
      todo := ascending (v.marks.map fun i => (65536 * i, 65536)) }) ∧
  (∀ (s : State) (sn : Machine.Snapshot) (j : JoinRun) (k : Nat), s.red.join = some j → s.sessionOf j.pairSrc = some k →
    j.held ≠ none → j.attempts < 8 →
    (j.work = [] → sn.crc = sn.check → s.clk + usU 1000 < s.beat (sn.frame + 1) →
      ∃ u : State, exec (.snapshotInstall sn) s = .next (u.afterJoin k) ∧ u.red.join = none ∧
        u.red.joinWait = some (sn.frame + 1) ∧ (u.sess k).expected = sn.expected ∧
        u.fld (F.RED_CNT_COUNT 10) = min (s.fld (F.RED_CNT_COUNT 10) + 1) (2 ^ 32 - 1)) ∧
    (s.beat (sn.frame + 1) ≤ s.clk + usU 1000 →
      exec (.snapshotInstall sn) s =
        .next (s.updRed fun r => { r with join := some { j with attempts := j.attempts + 1, markNext := 0 } }))) ∧
  (∀ (s : State) (j : JoinRun), s.red.join = some j →
    (s.carries (s.fld F.RED_CFG_PAIR_PORT) = true → exec (.joinFail 0) s = .next s) ∧
    (s.carries (s.fld F.RED_CFG_PAIR_PORT) = false → s.sessionOf j.pairSrc = none →
      ∃ t, exec (.joinFail 0) s = .next t ∧ t.red.join = none ∧ t.fld F.RED_SND_STAT_STATE = 2 ∧
        t.fld (F.RED_CNT_COUNT 11) = min (s.fld (F.RED_CNT_COUNT 11) + 1) (2 ^ 32 - 1) ∧ t.mem = s.mem))) ∧
  ((∀ (s : State) (c : BitVec 2) (r : TrainResult), s.memc.training.getLsbD c.toNat = true →
    (∀ k, r.cause = 0 → k < 6 → r.dataMiB = 1024 * 2 ^ k → r.dataMiB ≤ 4 * r.sideMiB →
      ∃ t, exec (.channelTrainingDone c r) s = .next t ∧ t.channelIn c.toNat = true ∧
        t.bit (F.MEM_CH_STAT_TRAINED c.toNat) = true ∧ t.bit (F.MEM_CH_STAT_WIPING c.toNat) = true ∧
        t.fld (F.MEM_CH_STAT_SIZE_LOG2 c.toNat) = k ∧ bitOf (t.fld F.SYS_BOOT_DRAM_TRAINED) c.toNat = true ∧ t.memc.training.getLsbD c.toNat = false ∧ t.mem = s.mem) ∧
    (trainFailure r ≠ 0 → ∃ t, exec (.channelTrainingDone c r) s = .next t ∧
      t.bit (F.MEM_CH_STAT_TRAINED c.toNat) = false ∧ t.fld (F.MEM_CH_STAT_FAIL c.toNat) = trainFailure r ∧
      bitOf (t.fld F.SYS_BOOT_DRAM_TRAINED) c.toNat = false ∧ t.err.next = s.err.next + 1 ∧ t.mem = s.mem)) ∧
  (∀ (s : State) (k : BitVec 11), s.sys.inService.getLsbD k.toNat = true → s.sys.wiped.getLsbD k.toNat = false →
    s.bit (F.MEM_CH_STAT_WIPING (k.toNat / 512)) = true →
    ∃ t, exec (.regionWiped k) s = .next t ∧ t.sys.wiped.getLsbD k.toNat = true ∧
      (∀ a, k.toNat * 0x4000000 ≤ a → a < (k.toNat + 1) * 0x4000000 → t.byte a = 0) ∧
      (∀ a, (a < k.toNat * 0x4000000 ∨ (k.toNat + 1) * 0x4000000 ≤ a) → t.byte a = s.byte a))) ∧
  ((∀ (s : State) (a : BitVec 40), s.memc.flaws = [] → s.memc.poison = [] →
    (∃ t, exec (.scrubStep a) s = .next t ∧ t.mem = s.mem ∧ t.memc.flaws = [] ∧ t.memc.poison = []) ∧
    (∀ c, s.place a.toNat = .dram c → s.bit F.MEM_POLICY_SCRUB_EN = true →
      a.toNat % 0x800000000 = s.memc.scrubNext.getD c 0 →
      s.memc.scrubTick.getD c 0 + s.scrubPace (s.largest / 64) ≤ s.tick → s.sys.wiped.getLsbD (regionOf a.toNat) = true →
      ∃ t, exec (.scrubStep a) s = .next t ∧ t.mem = s.mem ∧
        t.fld (F.MEM_CH_CNT_COUNT c 5) = min (s.fld (F.MEM_CH_CNT_COUNT c 5) + 1) (2 ^ 32 - 1)) ∧
    (∀ b, s.place a.toNat = .bank b → s.bit F.MEM_POLICY_SP_SCRUB_EN = true → a.toNat - 0xFE00000000 = s.memc.spNext →
      s.memc.spTick + s.scrubPace (48 * 65536) ≤ s.tick → s.memc.spWrites = [] →
      ∃ t, exec (.scrubStep a) s = .next t ∧ t.mem = s.mem ∧ t.memc.spTick = s.tick ∧
        t.memc.spNext = if s.memc.spNext + 8 < 0x1800000 then s.memc.spNext + 8 else 0)) ∧
  (∀ (s : State) (l : List (BitVec 3)),
    (s.tick < s.memc.refreshTick + 24000000 → exec (.refreshCheck l) s = .next s) ∧
    (s.memc.refreshTick + 24000000 ≤ s.tick →
      ((∀ c, c < 4 → s.fld (F.MEM_CH_STAT_REFRESH c) = (l.getD c 0).toNat) →
        ∃ t, exec (.refreshCheck l) s = .next t ∧ t.memc.refreshTick = s.tick ∧ t.regs = s.regs ∧ t.mem = s.mem) ∧
      (∀ c, c < 4 → s.bit (F.MEM_CH_STAT_TRAINED c) = true →
        ∃ t, exec (.refreshCheck l) s = .next t ∧ t.fld (F.MEM_CH_STAT_REFRESH c) = (l.getD c 0).toNat ∧
          t.mem = s.mem))) ∧
  (∀ (s : State) (b : BitVec 6),
    (∃ t, exec (.bankDrainDone b) s = .next t ∧ t.bit (F.MEM_BANK_STAT_DRAINING b.toNat) = false ∧
      t.fld (F.MEM_BANK_STAT_OWNER b.toNat) = s.fld (F.MEM_BANK_STAT_OWNER b.toNat) ∧
      (s.cmp.running = false → t.mem = s.mem)) ∧
    (s.bit (F.MEM_BANK_STAT_CHANGING b.toNat) = true → s.memc.bankDone.getD b.toNat 0 ≤ s.tick →
      ∃ t, exec (.bankPowerDone b) s = .next t ∧ t.fld (F.MEM_BANK_STAT_PWR b.toNat) = 0 ∧ t.bankOn b.toNat = true ∧
        t.mem = s.mem)))

/-- What a link port, a media port or a lamp chain sees and does stays within its own registers, the counters of the
fabric, of memory reads and of the log: memory, sessions, transactions and the other parts of the device are as they
were. -/
def Obligations.EventsStayInTheirBlocks : Prop :=
  (∀ (s t : State) (c : Instr) (q : BitVec 2),
    (c = .delayMarkTimeout q ∨ (∃ l, c = .linkFrame q l) ∨ c = .replayTimeout q ∨ (∃ o, c = .trainingAdvance q o) ∨
      (∃ o, c = .trainingTimeout q o) ∨ c = .forwardedClockLoss q ∨ c = .lightIdleEntry q ∨ c = .lightIdleExit q ∨
      c = .deepIdleEios q ∨ c = .lightIdleEios q ∨ c = .fts q ∨ (∃ l n x d, c = .adaptWindow q l n x d) ∨
      (∃ x, c = .tempCheck x) ∨ (∃ l e, c = .recalStep q l e)) → exec c s = .next t →
    t.mem = s.mem ∧ t.cmd = s.cmd ∧ t.txn = s.txn ∧ t.ing = s.ing ∧ t.cmp = s.cmp ∧ t.tile = s.tile ∧ t.red = s.red ∧
    ∀ a, a / 0x10000 ≠ 0 → a / 0x10000 ≠ 9 → a / 0x10000 ≠ 0xA → a / 0x10000 ≠ 0xF → a / 0x10000 ≠ 0x11 →
      t.word a = s.word a) ∧
  (∀ (s t : State) (c : Instr) (m : BitVec 3),
    (c = .ethModeApply ∨ (∃ x y z, c = .arpRequest m x y z) ∨ (∃ v g, c = .igmpQuery m v g) ∨ c = .igmpReportRepeat m ∨
      (∃ u f, c = .linkUp m u f)) → exec c s = .next t →
    t.mem = s.mem ∧ t.cmd = s.cmd ∧ t.txn = s.txn ∧ t.ing = s.ing ∧ t.cmp = s.cmp ∧ t.lnk = s.lnk ∧ t.fab = s.fab ∧
    t.tile = s.tile ∧ t.red = s.red ∧ t.err = s.err ∧ ∀ a, a / 0x10000 ≠ 4 → t.word a = s.word a) ∧
  (∀ (s t : State) (c : Instr) (q : BitVec 7) (n : BitVec 64) (p : BitVec 2),
    (c = .correctionDeadline n p ∨ c = .chainLoad n p ∨ c = .latchLaunch n p ∨ (∃ d, c = .blankLaunch n p d) ∨
      c = .diagLaunch n p ∨ c = .reportSend q ∨ c = .configLoad q ∨ (∃ e, c = .chainMeasure e)) → exec c s = .next t →
    t.mem = s.mem ∧ t.cmd = s.cmd ∧ t.txn = s.txn ∧ t.ing = s.ing ∧ t.cmp = s.cmp ∧ t.lnk = s.lnk ∧ t.eth = s.eth ∧
    ∀ a, a / 0x10000 ≠ 9 → a / 0x10000 ≠ 0xB → a / 0x10000 ≠ 0xC → a / 0x10000 ≠ 0xD → a / 0x10000 ≠ 0xF →
      a / 0x10000 ≠ 0x10 → t.word a = s.word a)
end

