-- ==== Sys2Proof/Laws/State.lean ====
section
/-! SUPPORT. The fields of the state after each of its updates: one law a field and update, each by definition, so that no
proof unfolds a record update. -/

namespace Sys2Proof.Machine

open Sys2Proof

@[simp] theorem State.setWord_mem (s : State) (a : Nat) (v : Word) : (s.setWord a v).mem = s.mem := rfl
@[simp] theorem State.setWord_clk (s : State) (a : Nat) (v : Word) : (s.setWord a v).clk = s.clk := rfl
@[simp] theorem State.setWord_tick (s : State) (a : Nat) (v : Word) : (s.setWord a v).tick = s.tick := rfl
@[simp] theorem State.setWord_sys (s : State) (a : Nat) (v : Word) : (s.setWord a v).sys = s.sys := rfl
@[simp] theorem State.setWord_sec (s : State) (a : Nat) (v : Word) : (s.setWord a v).sec = s.sec := rfl
@[simp] theorem State.setWord_tm (s : State) (a : Nat) (v : Word) : (s.setWord a v).tm = s.tm := rfl
@[simp] theorem State.setWord_cmd (s : State) (a : Nat) (v : Word) : (s.setWord a v).cmd = s.cmd := rfl
@[simp] theorem State.setWord_txn (s : State) (a : Nat) (v : Word) : (s.setWord a v).txn = s.txn := rfl
@[simp] theorem State.setWord_err (s : State) (a : Nat) (v : Word) : (s.setWord a v).err = s.err := rfl
@[simp] theorem State.setWord_fab (s : State) (a : Nat) (v : Word) : (s.setWord a v).fab = s.fab := rfl
@[simp] theorem State.setWord_cdc (s : State) (a : Nat) (v : Word) : (s.setWord a v).cdc = s.cdc := rfl
@[simp] theorem State.setWord_ring (s : State) (a : Nat) (v : Word) : (s.setWord a v).ring = s.ring := rfl
@[simp] theorem State.setWord_memc (s : State) (a : Nat) (v : Word) : (s.setWord a v).memc = s.memc := rfl
@[simp] theorem State.setWord_eth (s : State) (a : Nat) (v : Word) : (s.setWord a v).eth = s.eth := rfl
@[simp] theorem State.setWord_ing (s : State) (a : Nat) (v : Word) : (s.setWord a v).ing = s.ing := rfl
@[simp] theorem State.setWord_cmp (s : State) (a : Nat) (v : Word) : (s.setWord a v).cmp = s.cmp := rfl
@[simp] theorem State.setWord_lnk (s : State) (a : Nat) (v : Word) : (s.setWord a v).lnk = s.lnk := rfl
@[simp] theorem State.setWord_tile (s : State) (a : Nat) (v : Word) : (s.setWord a v).tile = s.tile := rfl
@[simp] theorem State.setWord_red (s : State) (a : Nat) (v : Word) : (s.setWord a v).red = s.red := rfl
@[simp] theorem State.setWord_rnd (s : State) (a : Nat) (v : Word) : (s.setWord a v).rnd = s.rnd := rfl
@[simp] theorem State.setWord_out (s : State) (a : Nat) (v : Word) : (s.setWord a v).out = s.out := rfl
@[simp] theorem State.setWord_pending (s : State) (a : Nat) (v : Word) : (s.setWord a v).pending = s.pending := rfl

@[simp] theorem State.emit_regs (s : State) (o : Out) : (s.emit o).regs = s.regs := rfl
@[simp] theorem State.emit_mem (s : State) (o : Out) : (s.emit o).mem = s.mem := rfl
@[simp] theorem State.emit_clk (s : State) (o : Out) : (s.emit o).clk = s.clk := rfl
@[simp] theorem State.emit_tick (s : State) (o : Out) : (s.emit o).tick = s.tick := rfl
@[simp] theorem State.emit_sys (s : State) (o : Out) : (s.emit o).sys = s.sys := rfl
@[simp] theorem State.emit_sec (s : State) (o : Out) : (s.emit o).sec = s.sec := rfl
@[simp] theorem State.emit_tm (s : State) (o : Out) : (s.emit o).tm = s.tm := rfl
@[simp] theorem State.emit_cmd (s : State) (o : Out) : (s.emit o).cmd = s.cmd := rfl
@[simp] theorem State.emit_txn (s : State) (o : Out) : (s.emit o).txn = s.txn := rfl
@[simp] theorem State.emit_err (s : State) (o : Out) : (s.emit o).err = s.err := rfl
@[simp] theorem State.emit_fab (s : State) (o : Out) : (s.emit o).fab = s.fab := rfl
@[simp] theorem State.emit_cdc (s : State) (o : Out) : (s.emit o).cdc = s.cdc := rfl
@[simp] theorem State.emit_ring (s : State) (o : Out) : (s.emit o).ring = s.ring := rfl
@[simp] theorem State.emit_memc (s : State) (o : Out) : (s.emit o).memc = s.memc := rfl
@[simp] theorem State.emit_eth (s : State) (o : Out) : (s.emit o).eth = s.eth := rfl
@[simp] theorem State.emit_ing (s : State) (o : Out) : (s.emit o).ing = s.ing := rfl
@[simp] theorem State.emit_cmp (s : State) (o : Out) : (s.emit o).cmp = s.cmp := rfl
@[simp] theorem State.emit_lnk (s : State) (o : Out) : (s.emit o).lnk = s.lnk := rfl
@[simp] theorem State.emit_tile (s : State) (o : Out) : (s.emit o).tile = s.tile := rfl
@[simp] theorem State.emit_red (s : State) (o : Out) : (s.emit o).red = s.red := rfl
@[simp] theorem State.emit_rnd (s : State) (o : Out) : (s.emit o).rnd = s.rnd := rfl
@[simp] theorem State.emit_out (s : State) (o : Out) : (s.emit o).out = o :: s.out := rfl
@[simp] theorem State.emit_pending (s : State) (o : Out) : (s.emit o).pending = s.pending := rfl

@[simp] theorem State.setByte_regs (s : State) (a : Nat) (b : Byte) : (s.setByte a b).regs = s.regs := rfl
@[simp] theorem State.setByte_clk (s : State) (a : Nat) (b : Byte) : (s.setByte a b).clk = s.clk := rfl
@[simp] theorem State.setByte_tick (s : State) (a : Nat) (b : Byte) : (s.setByte a b).tick = s.tick := rfl
@[simp] theorem State.setByte_sys (s : State) (a : Nat) (b : Byte) : (s.setByte a b).sys = s.sys := rfl
@[simp] theorem State.setByte_sec (s : State) (a : Nat) (b : Byte) : (s.setByte a b).sec = s.sec := rfl
@[simp] theorem State.setByte_tm (s : State) (a : Nat) (b : Byte) : (s.setByte a b).tm = s.tm := rfl
@[simp] theorem State.setByte_cmd (s : State) (a : Nat) (b : Byte) : (s.setByte a b).cmd = s.cmd := rfl
@[simp] theorem State.setByte_txn (s : State) (a : Nat) (b : Byte) : (s.setByte a b).txn = s.txn := rfl
@[simp] theorem State.setByte_err (s : State) (a : Nat) (b : Byte) : (s.setByte a b).err = s.err := rfl
@[simp] theorem State.setByte_fab (s : State) (a : Nat) (b : Byte) : (s.setByte a b).fab = s.fab := rfl
@[simp] theorem State.setByte_cdc (s : State) (a : Nat) (b : Byte) : (s.setByte a b).cdc = s.cdc := rfl
@[simp] theorem State.setByte_ring (s : State) (a : Nat) (b : Byte) : (s.setByte a b).ring = s.ring := rfl
@[simp] theorem State.setByte_memc (s : State) (a : Nat) (b : Byte) : (s.setByte a b).memc = s.memc := rfl
@[simp] theorem State.setByte_eth (s : State) (a : Nat) (b : Byte) : (s.setByte a b).eth = s.eth := rfl
@[simp] theorem State.setByte_ing (s : State) (a : Nat) (b : Byte) : (s.setByte a b).ing = s.ing := rfl
@[simp] theorem State.setByte_cmp (s : State) (a : Nat) (b : Byte) : (s.setByte a b).cmp = s.cmp := rfl
@[simp] theorem State.setByte_lnk (s : State) (a : Nat) (b : Byte) : (s.setByte a b).lnk = s.lnk := rfl
@[simp] theorem State.setByte_tile (s : State) (a : Nat) (b : Byte) : (s.setByte a b).tile = s.tile := rfl
@[simp] theorem State.setByte_red (s : State) (a : Nat) (b : Byte) : (s.setByte a b).red = s.red := rfl
@[simp] theorem State.setByte_rnd (s : State) (a : Nat) (b : Byte) : (s.setByte a b).rnd = s.rnd := rfl
@[simp] theorem State.setByte_out (s : State) (a : Nat) (b : Byte) : (s.setByte a b).out = s.out := rfl
@[simp] theorem State.setByte_pending (s : State) (a : Nat) (b : Byte) : (s.setByte a b).pending = s.pending := rfl

@[simp] theorem State.updSys_regs (s : State) (f : SysSt → SysSt) : (s.updSys f).regs = s.regs := rfl
@[simp] theorem State.updSys_mem (s : State) (f : SysSt → SysSt) : (s.updSys f).mem = s.mem := rfl
@[simp] theorem State.updSys_clk (s : State) (f : SysSt → SysSt) : (s.updSys f).clk = s.clk := rfl
@[simp] theorem State.updSys_tick (s : State) (f : SysSt → SysSt) : (s.updSys f).tick = s.tick := rfl
@[simp] theorem State.updSys_sys (s : State) (f : SysSt → SysSt) : (s.updSys f).sys = f s.sys := rfl
@[simp] theorem State.updSys_sec (s : State) (f : SysSt → SysSt) : (s.updSys f).sec = s.sec := rfl
@[simp] theorem State.updSys_tm (s : State) (f : SysSt → SysSt) : (s.updSys f).tm = s.tm := rfl
@[simp] theorem State.updSys_cmd (s : State) (f : SysSt → SysSt) : (s.updSys f).cmd = s.cmd := rfl
@[simp] theorem State.updSys_txn (s : State) (f : SysSt → SysSt) : (s.updSys f).txn = s.txn := rfl
@[simp] theorem State.updSys_err (s : State) (f : SysSt → SysSt) : (s.updSys f).err = s.err := rfl
@[simp] theorem State.updSys_fab (s : State) (f : SysSt → SysSt) : (s.updSys f).fab = s.fab := rfl
@[simp] theorem State.updSys_cdc (s : State) (f : SysSt → SysSt) : (s.updSys f).cdc = s.cdc := rfl
@[simp] theorem State.updSys_ring (s : State) (f : SysSt → SysSt) : (s.updSys f).ring = s.ring := rfl
@[simp] theorem State.updSys_memc (s : State) (f : SysSt → SysSt) : (s.updSys f).memc = s.memc := rfl
@[simp] theorem State.updSys_eth (s : State) (f : SysSt → SysSt) : (s.updSys f).eth = s.eth := rfl
@[simp] theorem State.updSys_ing (s : State) (f : SysSt → SysSt) : (s.updSys f).ing = s.ing := rfl
@[simp] theorem State.updSys_cmp (s : State) (f : SysSt → SysSt) : (s.updSys f).cmp = s.cmp := rfl
@[simp] theorem State.updSys_lnk (s : State) (f : SysSt → SysSt) : (s.updSys f).lnk = s.lnk := rfl
@[simp] theorem State.updSys_tile (s : State) (f : SysSt → SysSt) : (s.updSys f).tile = s.tile := rfl
@[simp] theorem State.updSys_red (s : State) (f : SysSt → SysSt) : (s.updSys f).red = s.red := rfl
@[simp] theorem State.updSys_rnd (s : State) (f : SysSt → SysSt) : (s.updSys f).rnd = s.rnd := rfl
@[simp] theorem State.updSys_out (s : State) (f : SysSt → SysSt) : (s.updSys f).out = s.out := rfl
@[simp] theorem State.updSys_pending (s : State) (f : SysSt → SysSt) : (s.updSys f).pending = s.pending := rfl

@[simp] theorem State.updSec_regs (s : State) (f : SecSt → SecSt) : (s.updSec f).regs = s.regs := rfl
@[simp] theorem State.updSec_mem (s : State) (f : SecSt → SecSt) : (s.updSec f).mem = s.mem := rfl
@[simp] theorem State.updSec_clk (s : State) (f : SecSt → SecSt) : (s.updSec f).clk = s.clk := rfl
@[simp] theorem State.updSec_tick (s : State) (f : SecSt → SecSt) : (s.updSec f).tick = s.tick := rfl
@[simp] theorem State.updSec_sys (s : State) (f : SecSt → SecSt) : (s.updSec f).sys = s.sys := rfl
@[simp] theorem State.updSec_sec (s : State) (f : SecSt → SecSt) : (s.updSec f).sec = f s.sec := rfl
@[simp] theorem State.updSec_tm (s : State) (f : SecSt → SecSt) : (s.updSec f).tm = s.tm := rfl
@[simp] theorem State.updSec_cmd (s : State) (f : SecSt → SecSt) : (s.updSec f).cmd = s.cmd := rfl
@[simp] theorem State.updSec_txn (s : State) (f : SecSt → SecSt) : (s.updSec f).txn = s.txn := rfl
@[simp] theorem State.updSec_err (s : State) (f : SecSt → SecSt) : (s.updSec f).err = s.err := rfl
@[simp] theorem State.updSec_fab (s : State) (f : SecSt → SecSt) : (s.updSec f).fab = s.fab := rfl
@[simp] theorem State.updSec_cdc (s : State) (f : SecSt → SecSt) : (s.updSec f).cdc = s.cdc := rfl
@[simp] theorem State.updSec_ring (s : State) (f : SecSt → SecSt) : (s.updSec f).ring = s.ring := rfl
@[simp] theorem State.updSec_memc (s : State) (f : SecSt → SecSt) : (s.updSec f).memc = s.memc := rfl
@[simp] theorem State.updSec_eth (s : State) (f : SecSt → SecSt) : (s.updSec f).eth = s.eth := rfl
@[simp] theorem State.updSec_ing (s : State) (f : SecSt → SecSt) : (s.updSec f).ing = s.ing := rfl
@[simp] theorem State.updSec_cmp (s : State) (f : SecSt → SecSt) : (s.updSec f).cmp = s.cmp := rfl
@[simp] theorem State.updSec_lnk (s : State) (f : SecSt → SecSt) : (s.updSec f).lnk = s.lnk := rfl
@[simp] theorem State.updSec_tile (s : State) (f : SecSt → SecSt) : (s.updSec f).tile = s.tile := rfl
@[simp] theorem State.updSec_red (s : State) (f : SecSt → SecSt) : (s.updSec f).red = s.red := rfl
@[simp] theorem State.updSec_rnd (s : State) (f : SecSt → SecSt) : (s.updSec f).rnd = s.rnd := rfl
@[simp] theorem State.updSec_out (s : State) (f : SecSt → SecSt) : (s.updSec f).out = s.out := rfl
@[simp] theorem State.updSec_pending (s : State) (f : SecSt → SecSt) : (s.updSec f).pending = s.pending := rfl

@[simp] theorem State.updTm_regs (s : State) (f : TimeSt → TimeSt) : (s.updTm f).regs = s.regs := rfl
@[simp] theorem State.updTm_mem (s : State) (f : TimeSt → TimeSt) : (s.updTm f).mem = s.mem := rfl
@[simp] theorem State.updTm_clk (s : State) (f : TimeSt → TimeSt) : (s.updTm f).clk = s.clk := rfl
@[simp] theorem State.updTm_tick (s : State) (f : TimeSt → TimeSt) : (s.updTm f).tick = s.tick := rfl
@[simp] theorem State.updTm_sys (s : State) (f : TimeSt → TimeSt) : (s.updTm f).sys = s.sys := rfl
@[simp] theorem State.updTm_sec (s : State) (f : TimeSt → TimeSt) : (s.updTm f).sec = s.sec := rfl
@[simp] theorem State.updTm_tm (s : State) (f : TimeSt → TimeSt) : (s.updTm f).tm = f s.tm := rfl
@[simp] theorem State.updTm_cmd (s : State) (f : TimeSt → TimeSt) : (s.updTm f).cmd = s.cmd := rfl
@[simp] theorem State.updTm_txn (s : State) (f : TimeSt → TimeSt) : (s.updTm f).txn = s.txn := rfl
@[simp] theorem State.updTm_err (s : State) (f : TimeSt → TimeSt) : (s.updTm f).err = s.err := rfl
@[simp] theorem State.updTm_fab (s : State) (f : TimeSt → TimeSt) : (s.updTm f).fab = s.fab := rfl
@[simp] theorem State.updTm_cdc (s : State) (f : TimeSt → TimeSt) : (s.updTm f).cdc = s.cdc := rfl
@[simp] theorem State.updTm_ring (s : State) (f : TimeSt → TimeSt) : (s.updTm f).ring = s.ring := rfl
@[simp] theorem State.updTm_memc (s : State) (f : TimeSt → TimeSt) : (s.updTm f).memc = s.memc := rfl
@[simp] theorem State.updTm_eth (s : State) (f : TimeSt → TimeSt) : (s.updTm f).eth = s.eth := rfl
@[simp] theorem State.updTm_ing (s : State) (f : TimeSt → TimeSt) : (s.updTm f).ing = s.ing := rfl
@[simp] theorem State.updTm_cmp (s : State) (f : TimeSt → TimeSt) : (s.updTm f).cmp = s.cmp := rfl
@[simp] theorem State.updTm_lnk (s : State) (f : TimeSt → TimeSt) : (s.updTm f).lnk = s.lnk := rfl
@[simp] theorem State.updTm_tile (s : State) (f : TimeSt → TimeSt) : (s.updTm f).tile = s.tile := rfl
@[simp] theorem State.updTm_red (s : State) (f : TimeSt → TimeSt) : (s.updTm f).red = s.red := rfl
@[simp] theorem State.updTm_rnd (s : State) (f : TimeSt → TimeSt) : (s.updTm f).rnd = s.rnd := rfl
@[simp] theorem State.updTm_out (s : State) (f : TimeSt → TimeSt) : (s.updTm f).out = s.out := rfl
@[simp] theorem State.updTm_pending (s : State) (f : TimeSt → TimeSt) : (s.updTm f).pending = s.pending := rfl

@[simp] theorem State.updCmd_regs (s : State) (f : CmdSt → CmdSt) : (s.updCmd f).regs = s.regs := rfl
@[simp] theorem State.updCmd_mem (s : State) (f : CmdSt → CmdSt) : (s.updCmd f).mem = s.mem := rfl
@[simp] theorem State.updCmd_clk (s : State) (f : CmdSt → CmdSt) : (s.updCmd f).clk = s.clk := rfl
@[simp] theorem State.updCmd_tick (s : State) (f : CmdSt → CmdSt) : (s.updCmd f).tick = s.tick := rfl
@[simp] theorem State.updCmd_sys (s : State) (f : CmdSt → CmdSt) : (s.updCmd f).sys = s.sys := rfl
@[simp] theorem State.updCmd_sec (s : State) (f : CmdSt → CmdSt) : (s.updCmd f).sec = s.sec := rfl
@[simp] theorem State.updCmd_tm (s : State) (f : CmdSt → CmdSt) : (s.updCmd f).tm = s.tm := rfl
@[simp] theorem State.updCmd_cmd (s : State) (f : CmdSt → CmdSt) : (s.updCmd f).cmd = f s.cmd := rfl
@[simp] theorem State.updCmd_txn (s : State) (f : CmdSt → CmdSt) : (s.updCmd f).txn = s.txn := rfl
@[simp] theorem State.updCmd_err (s : State) (f : CmdSt → CmdSt) : (s.updCmd f).err = s.err := rfl
@[simp] theorem State.updCmd_fab (s : State) (f : CmdSt → CmdSt) : (s.updCmd f).fab = s.fab := rfl
@[simp] theorem State.updCmd_cdc (s : State) (f : CmdSt → CmdSt) : (s.updCmd f).cdc = s.cdc := rfl
@[simp] theorem State.updCmd_ring (s : State) (f : CmdSt → CmdSt) : (s.updCmd f).ring = s.ring := rfl
@[simp] theorem State.updCmd_memc (s : State) (f : CmdSt → CmdSt) : (s.updCmd f).memc = s.memc := rfl
@[simp] theorem State.updCmd_eth (s : State) (f : CmdSt → CmdSt) : (s.updCmd f).eth = s.eth := rfl
@[simp] theorem State.updCmd_ing (s : State) (f : CmdSt → CmdSt) : (s.updCmd f).ing = s.ing := rfl
@[simp] theorem State.updCmd_cmp (s : State) (f : CmdSt → CmdSt) : (s.updCmd f).cmp = s.cmp := rfl
@[simp] theorem State.updCmd_lnk (s : State) (f : CmdSt → CmdSt) : (s.updCmd f).lnk = s.lnk := rfl
@[simp] theorem State.updCmd_tile (s : State) (f : CmdSt → CmdSt) : (s.updCmd f).tile = s.tile := rfl
@[simp] theorem State.updCmd_red (s : State) (f : CmdSt → CmdSt) : (s.updCmd f).red = s.red := rfl
@[simp] theorem State.updCmd_rnd (s : State) (f : CmdSt → CmdSt) : (s.updCmd f).rnd = s.rnd := rfl
@[simp] theorem State.updCmd_out (s : State) (f : CmdSt → CmdSt) : (s.updCmd f).out = s.out := rfl
@[simp] theorem State.updCmd_pending (s : State) (f : CmdSt → CmdSt) : (s.updCmd f).pending = s.pending := rfl

@[simp] theorem State.updTxn_regs (s : State) (f : TxnSt → TxnSt) : (s.updTxn f).regs = s.regs := rfl
@[simp] theorem State.updTxn_mem (s : State) (f : TxnSt → TxnSt) : (s.updTxn f).mem = s.mem := rfl
@[simp] theorem State.updTxn_clk (s : State) (f : TxnSt → TxnSt) : (s.updTxn f).clk = s.clk := rfl
@[simp] theorem State.updTxn_tick (s : State) (f : TxnSt → TxnSt) : (s.updTxn f).tick = s.tick := rfl
@[simp] theorem State.updTxn_sys (s : State) (f : TxnSt → TxnSt) : (s.updTxn f).sys = s.sys := rfl
@[simp] theorem State.updTxn_sec (s : State) (f : TxnSt → TxnSt) : (s.updTxn f).sec = s.sec := rfl
@[simp] theorem State.updTxn_tm (s : State) (f : TxnSt → TxnSt) : (s.updTxn f).tm = s.tm := rfl
@[simp] theorem State.updTxn_cmd (s : State) (f : TxnSt → TxnSt) : (s.updTxn f).cmd = s.cmd := rfl
@[simp] theorem State.updTxn_txn (s : State) (f : TxnSt → TxnSt) : (s.updTxn f).txn = f s.txn := rfl
@[simp] theorem State.updTxn_err (s : State) (f : TxnSt → TxnSt) : (s.updTxn f).err = s.err := rfl
@[simp] theorem State.updTxn_fab (s : State) (f : TxnSt → TxnSt) : (s.updTxn f).fab = s.fab := rfl
@[simp] theorem State.updTxn_cdc (s : State) (f : TxnSt → TxnSt) : (s.updTxn f).cdc = s.cdc := rfl
@[simp] theorem State.updTxn_ring (s : State) (f : TxnSt → TxnSt) : (s.updTxn f).ring = s.ring := rfl
@[simp] theorem State.updTxn_memc (s : State) (f : TxnSt → TxnSt) : (s.updTxn f).memc = s.memc := rfl
@[simp] theorem State.updTxn_eth (s : State) (f : TxnSt → TxnSt) : (s.updTxn f).eth = s.eth := rfl
@[simp] theorem State.updTxn_ing (s : State) (f : TxnSt → TxnSt) : (s.updTxn f).ing = s.ing := rfl
@[simp] theorem State.updTxn_cmp (s : State) (f : TxnSt → TxnSt) : (s.updTxn f).cmp = s.cmp := rfl
@[simp] theorem State.updTxn_lnk (s : State) (f : TxnSt → TxnSt) : (s.updTxn f).lnk = s.lnk := rfl
@[simp] theorem State.updTxn_tile (s : State) (f : TxnSt → TxnSt) : (s.updTxn f).tile = s.tile := rfl
@[simp] theorem State.updTxn_red (s : State) (f : TxnSt → TxnSt) : (s.updTxn f).red = s.red := rfl
@[simp] theorem State.updTxn_rnd (s : State) (f : TxnSt → TxnSt) : (s.updTxn f).rnd = s.rnd := rfl
@[simp] theorem State.updTxn_out (s : State) (f : TxnSt → TxnSt) : (s.updTxn f).out = s.out := rfl
@[simp] theorem State.updTxn_pending (s : State) (f : TxnSt → TxnSt) : (s.updTxn f).pending = s.pending := rfl

@[simp] theorem State.updFab_regs (s : State) (f : FabSt → FabSt) : (s.updFab f).regs = s.regs := rfl
@[simp] theorem State.updFab_mem (s : State) (f : FabSt → FabSt) : (s.updFab f).mem = s.mem := rfl
@[simp] theorem State.updFab_clk (s : State) (f : FabSt → FabSt) : (s.updFab f).clk = s.clk := rfl
@[simp] theorem State.updFab_tick (s : State) (f : FabSt → FabSt) : (s.updFab f).tick = s.tick := rfl
@[simp] theorem State.updFab_sys (s : State) (f : FabSt → FabSt) : (s.updFab f).sys = s.sys := rfl
@[simp] theorem State.updFab_sec (s : State) (f : FabSt → FabSt) : (s.updFab f).sec = s.sec := rfl
@[simp] theorem State.updFab_tm (s : State) (f : FabSt → FabSt) : (s.updFab f).tm = s.tm := rfl
@[simp] theorem State.updFab_cmd (s : State) (f : FabSt → FabSt) : (s.updFab f).cmd = s.cmd := rfl
@[simp] theorem State.updFab_txn (s : State) (f : FabSt → FabSt) : (s.updFab f).txn = s.txn := rfl
@[simp] theorem State.updFab_err (s : State) (f : FabSt → FabSt) : (s.updFab f).err = s.err := rfl
@[simp] theorem State.updFab_fab (s : State) (f : FabSt → FabSt) : (s.updFab f).fab = f s.fab := rfl
@[simp] theorem State.updFab_cdc (s : State) (f : FabSt → FabSt) : (s.updFab f).cdc = s.cdc := rfl
@[simp] theorem State.updFab_ring (s : State) (f : FabSt → FabSt) : (s.updFab f).ring = s.ring := rfl
@[simp] theorem State.updFab_memc (s : State) (f : FabSt → FabSt) : (s.updFab f).memc = s.memc := rfl
@[simp] theorem State.updFab_eth (s : State) (f : FabSt → FabSt) : (s.updFab f).eth = s.eth := rfl
@[simp] theorem State.updFab_ing (s : State) (f : FabSt → FabSt) : (s.updFab f).ing = s.ing := rfl
@[simp] theorem State.updFab_cmp (s : State) (f : FabSt → FabSt) : (s.updFab f).cmp = s.cmp := rfl
@[simp] theorem State.updFab_lnk (s : State) (f : FabSt → FabSt) : (s.updFab f).lnk = s.lnk := rfl
@[simp] theorem State.updFab_tile (s : State) (f : FabSt → FabSt) : (s.updFab f).tile = s.tile := rfl
@[simp] theorem State.updFab_red (s : State) (f : FabSt → FabSt) : (s.updFab f).red = s.red := rfl
@[simp] theorem State.updFab_rnd (s : State) (f : FabSt → FabSt) : (s.updFab f).rnd = s.rnd := rfl
@[simp] theorem State.updFab_out (s : State) (f : FabSt → FabSt) : (s.updFab f).out = s.out := rfl
@[simp] theorem State.updFab_pending (s : State) (f : FabSt → FabSt) : (s.updFab f).pending = s.pending := rfl

@[simp] theorem State.updRing_regs (s : State) (f : RingSt → RingSt) : (s.updRing f).regs = s.regs := rfl
@[simp] theorem State.updRing_mem (s : State) (f : RingSt → RingSt) : (s.updRing f).mem = s.mem := rfl
@[simp] theorem State.updRing_clk (s : State) (f : RingSt → RingSt) : (s.updRing f).clk = s.clk := rfl
@[simp] theorem State.updRing_tick (s : State) (f : RingSt → RingSt) : (s.updRing f).tick = s.tick := rfl
@[simp] theorem State.updRing_sys (s : State) (f : RingSt → RingSt) : (s.updRing f).sys = s.sys := rfl
@[simp] theorem State.updRing_sec (s : State) (f : RingSt → RingSt) : (s.updRing f).sec = s.sec := rfl
@[simp] theorem State.updRing_tm (s : State) (f : RingSt → RingSt) : (s.updRing f).tm = s.tm := rfl
@[simp] theorem State.updRing_cmd (s : State) (f : RingSt → RingSt) : (s.updRing f).cmd = s.cmd := rfl
@[simp] theorem State.updRing_txn (s : State) (f : RingSt → RingSt) : (s.updRing f).txn = s.txn := rfl
@[simp] theorem State.updRing_err (s : State) (f : RingSt → RingSt) : (s.updRing f).err = s.err := rfl
@[simp] theorem State.updRing_fab (s : State) (f : RingSt → RingSt) : (s.updRing f).fab = s.fab := rfl
@[simp] theorem State.updRing_cdc (s : State) (f : RingSt → RingSt) : (s.updRing f).cdc = s.cdc := rfl
@[simp] theorem State.updRing_ring (s : State) (f : RingSt → RingSt) : (s.updRing f).ring = f s.ring := rfl
@[simp] theorem State.updRing_memc (s : State) (f : RingSt → RingSt) : (s.updRing f).memc = s.memc := rfl
@[simp] theorem State.updRing_eth (s : State) (f : RingSt → RingSt) : (s.updRing f).eth = s.eth := rfl
@[simp] theorem State.updRing_ing (s : State) (f : RingSt → RingSt) : (s.updRing f).ing = s.ing := rfl
@[simp] theorem State.updRing_cmp (s : State) (f : RingSt → RingSt) : (s.updRing f).cmp = s.cmp := rfl
@[simp] theorem State.updRing_lnk (s : State) (f : RingSt → RingSt) : (s.updRing f).lnk = s.lnk := rfl
@[simp] theorem State.updRing_tile (s : State) (f : RingSt → RingSt) : (s.updRing f).tile = s.tile := rfl
@[simp] theorem State.updRing_red (s : State) (f : RingSt → RingSt) : (s.updRing f).red = s.red := rfl
@[simp] theorem State.updRing_rnd (s : State) (f : RingSt → RingSt) : (s.updRing f).rnd = s.rnd := rfl
@[simp] theorem State.updRing_out (s : State) (f : RingSt → RingSt) : (s.updRing f).out = s.out := rfl
@[simp] theorem State.updRing_pending (s : State) (f : RingSt → RingSt) : (s.updRing f).pending = s.pending := rfl

@[simp] theorem State.updEth_regs (s : State) (f : EthSt → EthSt) : (s.updEth f).regs = s.regs := rfl
@[simp] theorem State.updEth_mem (s : State) (f : EthSt → EthSt) : (s.updEth f).mem = s.mem := rfl
@[simp] theorem State.updEth_clk (s : State) (f : EthSt → EthSt) : (s.updEth f).clk = s.clk := rfl
@[simp] theorem State.updEth_tick (s : State) (f : EthSt → EthSt) : (s.updEth f).tick = s.tick := rfl
@[simp] theorem State.updEth_sys (s : State) (f : EthSt → EthSt) : (s.updEth f).sys = s.sys := rfl
@[simp] theorem State.updEth_sec (s : State) (f : EthSt → EthSt) : (s.updEth f).sec = s.sec := rfl
@[simp] theorem State.updEth_tm (s : State) (f : EthSt → EthSt) : (s.updEth f).tm = s.tm := rfl
@[simp] theorem State.updEth_cmd (s : State) (f : EthSt → EthSt) : (s.updEth f).cmd = s.cmd := rfl
@[simp] theorem State.updEth_txn (s : State) (f : EthSt → EthSt) : (s.updEth f).txn = s.txn := rfl
@[simp] theorem State.updEth_err (s : State) (f : EthSt → EthSt) : (s.updEth f).err = s.err := rfl
@[simp] theorem State.updEth_fab (s : State) (f : EthSt → EthSt) : (s.updEth f).fab = s.fab := rfl
@[simp] theorem State.updEth_cdc (s : State) (f : EthSt → EthSt) : (s.updEth f).cdc = s.cdc := rfl
@[simp] theorem State.updEth_ring (s : State) (f : EthSt → EthSt) : (s.updEth f).ring = s.ring := rfl
@[simp] theorem State.updEth_memc (s : State) (f : EthSt → EthSt) : (s.updEth f).memc = s.memc := rfl
@[simp] theorem State.updEth_eth (s : State) (f : EthSt → EthSt) : (s.updEth f).eth = f s.eth := rfl
@[simp] theorem State.updEth_ing (s : State) (f : EthSt → EthSt) : (s.updEth f).ing = s.ing := rfl
@[simp] theorem State.updEth_cmp (s : State) (f : EthSt → EthSt) : (s.updEth f).cmp = s.cmp := rfl
@[simp] theorem State.updEth_lnk (s : State) (f : EthSt → EthSt) : (s.updEth f).lnk = s.lnk := rfl
@[simp] theorem State.updEth_tile (s : State) (f : EthSt → EthSt) : (s.updEth f).tile = s.tile := rfl
@[simp] theorem State.updEth_red (s : State) (f : EthSt → EthSt) : (s.updEth f).red = s.red := rfl
@[simp] theorem State.updEth_rnd (s : State) (f : EthSt → EthSt) : (s.updEth f).rnd = s.rnd := rfl
@[simp] theorem State.updEth_out (s : State) (f : EthSt → EthSt) : (s.updEth f).out = s.out := rfl
@[simp] theorem State.updEth_pending (s : State) (f : EthSt → EthSt) : (s.updEth f).pending = s.pending := rfl

@[simp] theorem State.updCmp_regs (s : State) (f : CmpSt → CmpSt) : (s.updCmp f).regs = s.regs := rfl
@[simp] theorem State.updCmp_mem (s : State) (f : CmpSt → CmpSt) : (s.updCmp f).mem = s.mem := rfl
@[simp] theorem State.updCmp_clk (s : State) (f : CmpSt → CmpSt) : (s.updCmp f).clk = s.clk := rfl
@[simp] theorem State.updCmp_tick (s : State) (f : CmpSt → CmpSt) : (s.updCmp f).tick = s.tick := rfl
@[simp] theorem State.updCmp_sys (s : State) (f : CmpSt → CmpSt) : (s.updCmp f).sys = s.sys := rfl
@[simp] theorem State.updCmp_sec (s : State) (f : CmpSt → CmpSt) : (s.updCmp f).sec = s.sec := rfl
@[simp] theorem State.updCmp_tm (s : State) (f : CmpSt → CmpSt) : (s.updCmp f).tm = s.tm := rfl
@[simp] theorem State.updCmp_cmd (s : State) (f : CmpSt → CmpSt) : (s.updCmp f).cmd = s.cmd := rfl
@[simp] theorem State.updCmp_txn (s : State) (f : CmpSt → CmpSt) : (s.updCmp f).txn = s.txn := rfl
@[simp] theorem State.updCmp_err (s : State) (f : CmpSt → CmpSt) : (s.updCmp f).err = s.err := rfl
@[simp] theorem State.updCmp_fab (s : State) (f : CmpSt → CmpSt) : (s.updCmp f).fab = s.fab := rfl
@[simp] theorem State.updCmp_cdc (s : State) (f : CmpSt → CmpSt) : (s.updCmp f).cdc = s.cdc := rfl
@[simp] theorem State.updCmp_ring (s : State) (f : CmpSt → CmpSt) : (s.updCmp f).ring = s.ring := rfl
@[simp] theorem State.updCmp_memc (s : State) (f : CmpSt → CmpSt) : (s.updCmp f).memc = s.memc := rfl
@[simp] theorem State.updCmp_eth (s : State) (f : CmpSt → CmpSt) : (s.updCmp f).eth = s.eth := rfl
@[simp] theorem State.updCmp_ing (s : State) (f : CmpSt → CmpSt) : (s.updCmp f).ing = s.ing := rfl
@[simp] theorem State.updCmp_cmp (s : State) (f : CmpSt → CmpSt) : (s.updCmp f).cmp = f s.cmp := rfl
@[simp] theorem State.updCmp_lnk (s : State) (f : CmpSt → CmpSt) : (s.updCmp f).lnk = s.lnk := rfl
@[simp] theorem State.updCmp_tile (s : State) (f : CmpSt → CmpSt) : (s.updCmp f).tile = s.tile := rfl
@[simp] theorem State.updCmp_red (s : State) (f : CmpSt → CmpSt) : (s.updCmp f).red = s.red := rfl
@[simp] theorem State.updCmp_rnd (s : State) (f : CmpSt → CmpSt) : (s.updCmp f).rnd = s.rnd := rfl
@[simp] theorem State.updCmp_out (s : State) (f : CmpSt → CmpSt) : (s.updCmp f).out = s.out := rfl
@[simp] theorem State.updCmp_pending (s : State) (f : CmpSt → CmpSt) : (s.updCmp f).pending = s.pending := rfl

@[simp] theorem State.updTile_regs (s : State) (f : TileSt → TileSt) : (s.updTile f).regs = s.regs := rfl
@[simp] theorem State.updTile_mem (s : State) (f : TileSt → TileSt) : (s.updTile f).mem = s.mem := rfl
@[simp] theorem State.updTile_clk (s : State) (f : TileSt → TileSt) : (s.updTile f).clk = s.clk := rfl
@[simp] theorem State.updTile_tick (s : State) (f : TileSt → TileSt) : (s.updTile f).tick = s.tick := rfl
@[simp] theorem State.updTile_sys (s : State) (f : TileSt → TileSt) : (s.updTile f).sys = s.sys := rfl
@[simp] theorem State.updTile_sec (s : State) (f : TileSt → TileSt) : (s.updTile f).sec = s.sec := rfl
@[simp] theorem State.updTile_tm (s : State) (f : TileSt → TileSt) : (s.updTile f).tm = s.tm := rfl
@[simp] theorem State.updTile_cmd (s : State) (f : TileSt → TileSt) : (s.updTile f).cmd = s.cmd := rfl
@[simp] theorem State.updTile_txn (s : State) (f : TileSt → TileSt) : (s.updTile f).txn = s.txn := rfl
@[simp] theorem State.updTile_err (s : State) (f : TileSt → TileSt) : (s.updTile f).err = s.err := rfl
@[simp] theorem State.updTile_fab (s : State) (f : TileSt → TileSt) : (s.updTile f).fab = s.fab := rfl
@[simp] theorem State.updTile_cdc (s : State) (f : TileSt → TileSt) : (s.updTile f).cdc = s.cdc := rfl
@[simp] theorem State.updTile_ring (s : State) (f : TileSt → TileSt) : (s.updTile f).ring = s.ring := rfl
@[simp] theorem State.updTile_memc (s : State) (f : TileSt → TileSt) : (s.updTile f).memc = s.memc := rfl
@[simp] theorem State.updTile_eth (s : State) (f : TileSt → TileSt) : (s.updTile f).eth = s.eth := rfl
@[simp] theorem State.updTile_ing (s : State) (f : TileSt → TileSt) : (s.updTile f).ing = s.ing := rfl
@[simp] theorem State.updTile_cmp (s : State) (f : TileSt → TileSt) : (s.updTile f).cmp = s.cmp := rfl
@[simp] theorem State.updTile_lnk (s : State) (f : TileSt → TileSt) : (s.updTile f).lnk = s.lnk := rfl
@[simp] theorem State.updTile_tile (s : State) (f : TileSt → TileSt) : (s.updTile f).tile = f s.tile := rfl
@[simp] theorem State.updTile_red (s : State) (f : TileSt → TileSt) : (s.updTile f).red = s.red := rfl
@[simp] theorem State.updTile_rnd (s : State) (f : TileSt → TileSt) : (s.updTile f).rnd = s.rnd := rfl
@[simp] theorem State.updTile_out (s : State) (f : TileSt → TileSt) : (s.updTile f).out = s.out := rfl
@[simp] theorem State.updTile_pending (s : State) (f : TileSt → TileSt) : (s.updTile f).pending = s.pending := rfl

@[simp] theorem State.updRed_regs (s : State) (f : RedSt → RedSt) : (s.updRed f).regs = s.regs := rfl
@[simp] theorem State.updRed_mem (s : State) (f : RedSt → RedSt) : (s.updRed f).mem = s.mem := rfl
@[simp] theorem State.updRed_clk (s : State) (f : RedSt → RedSt) : (s.updRed f).clk = s.clk := rfl
@[simp] theorem State.updRed_tick (s : State) (f : RedSt → RedSt) : (s.updRed f).tick = s.tick := rfl
@[simp] theorem State.updRed_sys (s : State) (f : RedSt → RedSt) : (s.updRed f).sys = s.sys := rfl
@[simp] theorem State.updRed_sec (s : State) (f : RedSt → RedSt) : (s.updRed f).sec = s.sec := rfl
@[simp] theorem State.updRed_tm (s : State) (f : RedSt → RedSt) : (s.updRed f).tm = s.tm := rfl
@[simp] theorem State.updRed_cmd (s : State) (f : RedSt → RedSt) : (s.updRed f).cmd = s.cmd := rfl
@[simp] theorem State.updRed_txn (s : State) (f : RedSt → RedSt) : (s.updRed f).txn = s.txn := rfl
@[simp] theorem State.updRed_err (s : State) (f : RedSt → RedSt) : (s.updRed f).err = s.err := rfl
@[simp] theorem State.updRed_fab (s : State) (f : RedSt → RedSt) : (s.updRed f).fab = s.fab := rfl
@[simp] theorem State.updRed_cdc (s : State) (f : RedSt → RedSt) : (s.updRed f).cdc = s.cdc := rfl
@[simp] theorem State.updRed_ring (s : State) (f : RedSt → RedSt) : (s.updRed f).ring = s.ring := rfl
@[simp] theorem State.updRed_memc (s : State) (f : RedSt → RedSt) : (s.updRed f).memc = s.memc := rfl
@[simp] theorem State.updRed_eth (s : State) (f : RedSt → RedSt) : (s.updRed f).eth = s.eth := rfl
@[simp] theorem State.updRed_ing (s : State) (f : RedSt → RedSt) : (s.updRed f).ing = s.ing := rfl
@[simp] theorem State.updRed_cmp (s : State) (f : RedSt → RedSt) : (s.updRed f).cmp = s.cmp := rfl
@[simp] theorem State.updRed_lnk (s : State) (f : RedSt → RedSt) : (s.updRed f).lnk = s.lnk := rfl
@[simp] theorem State.updRed_tile (s : State) (f : RedSt → RedSt) : (s.updRed f).tile = s.tile := rfl
@[simp] theorem State.updRed_red (s : State) (f : RedSt → RedSt) : (s.updRed f).red = f s.red := rfl
@[simp] theorem State.updRed_rnd (s : State) (f : RedSt → RedSt) : (s.updRed f).rnd = s.rnd := rfl
@[simp] theorem State.updRed_out (s : State) (f : RedSt → RedSt) : (s.updRed f).out = s.out := rfl
@[simp] theorem State.updRed_pending (s : State) (f : RedSt → RedSt) : (s.updRed f).pending = s.pending := rfl

@[simp] theorem State.updCross_regs (s : State) (k j : Nat) (f : Crossing → Crossing) : (s.updCross k j f).regs = s.regs := rfl
@[simp] theorem State.updCross_mem (s : State) (k j : Nat) (f : Crossing → Crossing) : (s.updCross k j f).mem = s.mem := rfl
@[simp] theorem State.updCross_clk (s : State) (k j : Nat) (f : Crossing → Crossing) : (s.updCross k j f).clk = s.clk := rfl
@[simp] theorem State.updCross_tick (s : State) (k j : Nat) (f : Crossing → Crossing) : (s.updCross k j f).tick = s.tick := rfl
@[simp] theorem State.updCross_sys (s : State) (k j : Nat) (f : Crossing → Crossing) : (s.updCross k j f).sys = s.sys := rfl
@[simp] theorem State.updCross_sec (s : State) (k j : Nat) (f : Crossing → Crossing) : (s.updCross k j f).sec = s.sec := rfl
@[simp] theorem State.updCross_tm (s : State) (k j : Nat) (f : Crossing → Crossing) : (s.updCross k j f).tm = s.tm := rfl
@[simp] theorem State.updCross_cmd (s : State) (k j : Nat) (f : Crossing → Crossing) : (s.updCross k j f).cmd = s.cmd := rfl
@[simp] theorem State.updCross_txn (s : State) (k j : Nat) (f : Crossing → Crossing) : (s.updCross k j f).txn = s.txn := rfl
@[simp] theorem State.updCross_err (s : State) (k j : Nat) (f : Crossing → Crossing) : (s.updCross k j f).err = s.err := rfl
@[simp] theorem State.updCross_fab (s : State) (k j : Nat) (f : Crossing → Crossing) : (s.updCross k j f).fab = s.fab := rfl
@[simp] theorem State.updCross_ring (s : State) (k j : Nat) (f : Crossing → Crossing) : (s.updCross k j f).ring = s.ring := rfl
@[simp] theorem State.updCross_memc (s : State) (k j : Nat) (f : Crossing → Crossing) : (s.updCross k j f).memc = s.memc := rfl
@[simp] theorem State.updCross_eth (s : State) (k j : Nat) (f : Crossing → Crossing) : (s.updCross k j f).eth = s.eth := rfl
@[simp] theorem State.updCross_ing (s : State) (k j : Nat) (f : Crossing → Crossing) : (s.updCross k j f).ing = s.ing := rfl
@[simp] theorem State.updCross_cmp (s : State) (k j : Nat) (f : Crossing → Crossing) : (s.updCross k j f).cmp = s.cmp := rfl
@[simp] theorem State.updCross_lnk (s : State) (k j : Nat) (f : Crossing → Crossing) : (s.updCross k j f).lnk = s.lnk := rfl
@[simp] theorem State.updCross_tile (s : State) (k j : Nat) (f : Crossing → Crossing) : (s.updCross k j f).tile = s.tile := rfl
@[simp] theorem State.updCross_red (s : State) (k j : Nat) (f : Crossing → Crossing) : (s.updCross k j f).red = s.red := rfl
@[simp] theorem State.updCross_rnd (s : State) (k j : Nat) (f : Crossing → Crossing) : (s.updCross k j f).rnd = s.rnd := rfl
@[simp] theorem State.updCross_out (s : State) (k j : Nat) (f : Crossing → Crossing) : (s.updCross k j f).out = s.out := rfl
@[simp] theorem State.updCross_pending (s : State) (k j : Nat) (f : Crossing → Crossing) : (s.updCross k j f).pending = s.pending := rfl

@[simp] theorem State.updSave_regs (s : State) (f : List Byte → List Byte) : (s.updSave f).regs = s.regs := rfl
@[simp] theorem State.updSave_mem (s : State) (f : List Byte → List Byte) : (s.updSave f).mem = s.mem := rfl
@[simp] theorem State.updSave_clk (s : State) (f : List Byte → List Byte) : (s.updSave f).clk = s.clk := rfl
@[simp] theorem State.updSave_tick (s : State) (f : List Byte → List Byte) : (s.updSave f).tick = s.tick := rfl
@[simp] theorem State.updSave_sys (s : State) (f : List Byte → List Byte) : (s.updSave f).sys = s.sys := rfl
@[simp] theorem State.updSave_tm (s : State) (f : List Byte → List Byte) : (s.updSave f).tm = s.tm := rfl
@[simp] theorem State.updSave_cmd (s : State) (f : List Byte → List Byte) : (s.updSave f).cmd = s.cmd := rfl
@[simp] theorem State.updSave_txn (s : State) (f : List Byte → List Byte) : (s.updSave f).txn = s.txn := rfl
@[simp] theorem State.updSave_err (s : State) (f : List Byte → List Byte) : (s.updSave f).err = s.err := rfl
@[simp] theorem State.updSave_fab (s : State) (f : List Byte → List Byte) : (s.updSave f).fab = s.fab := rfl
@[simp] theorem State.updSave_cdc (s : State) (f : List Byte → List Byte) : (s.updSave f).cdc = s.cdc := rfl
@[simp] theorem State.updSave_ring (s : State) (f : List Byte → List Byte) : (s.updSave f).ring = s.ring := rfl
@[simp] theorem State.updSave_memc (s : State) (f : List Byte → List Byte) : (s.updSave f).memc = s.memc := rfl
@[simp] theorem State.updSave_eth (s : State) (f : List Byte → List Byte) : (s.updSave f).eth = s.eth := rfl
@[simp] theorem State.updSave_ing (s : State) (f : List Byte → List Byte) : (s.updSave f).ing = s.ing := rfl
@[simp] theorem State.updSave_cmp (s : State) (f : List Byte → List Byte) : (s.updSave f).cmp = s.cmp := rfl
@[simp] theorem State.updSave_lnk (s : State) (f : List Byte → List Byte) : (s.updSave f).lnk = s.lnk := rfl
@[simp] theorem State.updSave_tile (s : State) (f : List Byte → List Byte) : (s.updSave f).tile = s.tile := rfl
@[simp] theorem State.updSave_red (s : State) (f : List Byte → List Byte) : (s.updSave f).red = s.red := rfl
@[simp] theorem State.updSave_rnd (s : State) (f : List Byte → List Byte) : (s.updSave f).rnd = s.rnd := rfl
@[simp] theorem State.updSave_out (s : State) (f : List Byte → List Byte) : (s.updSave f).out = s.out := rfl
@[simp] theorem State.updSave_pending (s : State) (f : List Byte → List Byte) : (s.updSave f).pending = s.pending := rfl

@[simp] theorem State.requestReset_regs (s : State) (c : BitVec 3) (w : Bool) : (s.requestReset c w).regs = s.regs := rfl
@[simp] theorem State.requestReset_mem (s : State) (c : BitVec 3) (w : Bool) : (s.requestReset c w).mem = s.mem := rfl
@[simp] theorem State.requestReset_clk (s : State) (c : BitVec 3) (w : Bool) : (s.requestReset c w).clk = s.clk := rfl
@[simp] theorem State.requestReset_tick (s : State) (c : BitVec 3) (w : Bool) : (s.requestReset c w).tick = s.tick := rfl
@[simp] theorem State.requestReset_sec (s : State) (c : BitVec 3) (w : Bool) : (s.requestReset c w).sec = s.sec := rfl
@[simp] theorem State.requestReset_tm (s : State) (c : BitVec 3) (w : Bool) : (s.requestReset c w).tm = s.tm := rfl
@[simp] theorem State.requestReset_cmd (s : State) (c : BitVec 3) (w : Bool) : (s.requestReset c w).cmd = s.cmd := rfl
@[simp] theorem State.requestReset_txn (s : State) (c : BitVec 3) (w : Bool) : (s.requestReset c w).txn = s.txn := rfl
@[simp] theorem State.requestReset_err (s : State) (c : BitVec 3) (w : Bool) : (s.requestReset c w).err = s.err := rfl
@[simp] theorem State.requestReset_fab (s : State) (c : BitVec 3) (w : Bool) : (s.requestReset c w).fab = s.fab := rfl
@[simp] theorem State.requestReset_cdc (s : State) (c : BitVec 3) (w : Bool) : (s.requestReset c w).cdc = s.cdc := rfl
@[simp] theorem State.requestReset_ring (s : State) (c : BitVec 3) (w : Bool) : (s.requestReset c w).ring = s.ring := rfl
@[simp] theorem State.requestReset_memc (s : State) (c : BitVec 3) (w : Bool) : (s.requestReset c w).memc = s.memc := rfl
@[simp] theorem State.requestReset_eth (s : State) (c : BitVec 3) (w : Bool) : (s.requestReset c w).eth = s.eth := rfl
@[simp] theorem State.requestReset_ing (s : State) (c : BitVec 3) (w : Bool) : (s.requestReset c w).ing = s.ing := rfl
@[simp] theorem State.requestReset_cmp (s : State) (c : BitVec 3) (w : Bool) : (s.requestReset c w).cmp = s.cmp := rfl
@[simp] theorem State.requestReset_lnk (s : State) (c : BitVec 3) (w : Bool) : (s.requestReset c w).lnk = s.lnk := rfl
@[simp] theorem State.requestReset_tile (s : State) (c : BitVec 3) (w : Bool) : (s.requestReset c w).tile = s.tile := rfl
@[simp] theorem State.requestReset_red (s : State) (c : BitVec 3) (w : Bool) : (s.requestReset c w).red = s.red := rfl
@[simp] theorem State.requestReset_rnd (s : State) (c : BitVec 3) (w : Bool) : (s.requestReset c w).rnd = s.rnd := rfl
@[simp] theorem State.requestReset_out (s : State) (c : BitVec 3) (w : Bool) : (s.requestReset c w).out = s.out := rfl
@[simp] theorem State.requestReset_pending (s : State) (c : BitVec 3) (w : Bool) : (s.requestReset c w).pending = s.pending := rfl

@[simp] theorem State.setFld_mem (s : State) (f : Fld) (v : Nat) : (s.setFld f v).mem = s.mem := rfl
@[simp] theorem State.setFld_clk (s : State) (f : Fld) (v : Nat) : (s.setFld f v).clk = s.clk := rfl
@[simp] theorem State.setFld_tick (s : State) (f : Fld) (v : Nat) : (s.setFld f v).tick = s.tick := rfl
@[simp] theorem State.setFld_sys (s : State) (f : Fld) (v : Nat) : (s.setFld f v).sys = s.sys := rfl
@[simp] theorem State.setFld_sec (s : State) (f : Fld) (v : Nat) : (s.setFld f v).sec = s.sec := rfl
@[simp] theorem State.setFld_tm (s : State) (f : Fld) (v : Nat) : (s.setFld f v).tm = s.tm := rfl
@[simp] theorem State.setFld_cmd (s : State) (f : Fld) (v : Nat) : (s.setFld f v).cmd = s.cmd := rfl
@[simp] theorem State.setFld_txn (s : State) (f : Fld) (v : Nat) : (s.setFld f v).txn = s.txn := rfl
@[simp] theorem State.setFld_err (s : State) (f : Fld) (v : Nat) : (s.setFld f v).err = s.err := rfl
@[simp] theorem State.setFld_fab (s : State) (f : Fld) (v : Nat) : (s.setFld f v).fab = s.fab := rfl
@[simp] theorem State.setFld_cdc (s : State) (f : Fld) (v : Nat) : (s.setFld f v).cdc = s.cdc := rfl
@[simp] theorem State.setFld_ring (s : State) (f : Fld) (v : Nat) : (s.setFld f v).ring = s.ring := rfl
@[simp] theorem State.setFld_memc (s : State) (f : Fld) (v : Nat) : (s.setFld f v).memc = s.memc := rfl
@[simp] theorem State.setFld_eth (s : State) (f : Fld) (v : Nat) : (s.setFld f v).eth = s.eth := rfl
@[simp] theorem State.setFld_ing (s : State) (f : Fld) (v : Nat) : (s.setFld f v).ing = s.ing := rfl
@[simp] theorem State.setFld_cmp (s : State) (f : Fld) (v : Nat) : (s.setFld f v).cmp = s.cmp := rfl
@[simp] theorem State.setFld_lnk (s : State) (f : Fld) (v : Nat) : (s.setFld f v).lnk = s.lnk := rfl
@[simp] theorem State.setFld_tile (s : State) (f : Fld) (v : Nat) : (s.setFld f v).tile = s.tile := rfl
@[simp] theorem State.setFld_red (s : State) (f : Fld) (v : Nat) : (s.setFld f v).red = s.red := rfl
@[simp] theorem State.setFld_rnd (s : State) (f : Fld) (v : Nat) : (s.setFld f v).rnd = s.rnd := rfl
@[simp] theorem State.setFld_out (s : State) (f : Fld) (v : Nat) : (s.setFld f v).out = s.out := rfl
@[simp] theorem State.setFld_pending (s : State) (f : Fld) (v : Nat) : (s.setFld f v).pending = s.pending := rfl

@[simp] theorem State.setBit_mem (s : State) (f : Fld) (b : Bool) : (s.setBit f b).mem = s.mem := rfl
@[simp] theorem State.setBit_clk (s : State) (f : Fld) (b : Bool) : (s.setBit f b).clk = s.clk := rfl
@[simp] theorem State.setBit_tick (s : State) (f : Fld) (b : Bool) : (s.setBit f b).tick = s.tick := rfl
@[simp] theorem State.setBit_sys (s : State) (f : Fld) (b : Bool) : (s.setBit f b).sys = s.sys := rfl
@[simp] theorem State.setBit_sec (s : State) (f : Fld) (b : Bool) : (s.setBit f b).sec = s.sec := rfl
@[simp] theorem State.setBit_tm (s : State) (f : Fld) (b : Bool) : (s.setBit f b).tm = s.tm := rfl
@[simp] theorem State.setBit_cmd (s : State) (f : Fld) (b : Bool) : (s.setBit f b).cmd = s.cmd := rfl
@[simp] theorem State.setBit_txn (s : State) (f : Fld) (b : Bool) : (s.setBit f b).txn = s.txn := rfl
@[simp] theorem State.setBit_err (s : State) (f : Fld) (b : Bool) : (s.setBit f b).err = s.err := rfl
@[simp] theorem State.setBit_fab (s : State) (f : Fld) (b : Bool) : (s.setBit f b).fab = s.fab := rfl
@[simp] theorem State.setBit_cdc (s : State) (f : Fld) (b : Bool) : (s.setBit f b).cdc = s.cdc := rfl
@[simp] theorem State.setBit_ring (s : State) (f : Fld) (b : Bool) : (s.setBit f b).ring = s.ring := rfl
@[simp] theorem State.setBit_memc (s : State) (f : Fld) (b : Bool) : (s.setBit f b).memc = s.memc := rfl
@[simp] theorem State.setBit_eth (s : State) (f : Fld) (b : Bool) : (s.setBit f b).eth = s.eth := rfl
@[simp] theorem State.setBit_ing (s : State) (f : Fld) (b : Bool) : (s.setBit f b).ing = s.ing := rfl
@[simp] theorem State.setBit_cmp (s : State) (f : Fld) (b : Bool) : (s.setBit f b).cmp = s.cmp := rfl
@[simp] theorem State.setBit_lnk (s : State) (f : Fld) (b : Bool) : (s.setBit f b).lnk = s.lnk := rfl
@[simp] theorem State.setBit_tile (s : State) (f : Fld) (b : Bool) : (s.setBit f b).tile = s.tile := rfl
@[simp] theorem State.setBit_red (s : State) (f : Fld) (b : Bool) : (s.setBit f b).red = s.red := rfl
@[simp] theorem State.setBit_rnd (s : State) (f : Fld) (b : Bool) : (s.setBit f b).rnd = s.rnd := rfl
@[simp] theorem State.setBit_out (s : State) (f : Fld) (b : Bool) : (s.setBit f b).out = s.out := rfl
@[simp] theorem State.setBit_pending (s : State) (f : Fld) (b : Bool) : (s.setBit f b).pending = s.pending := rfl

@[simp] theorem State.bump_mem (s : State) (f : Fld) (n : Nat) : (s.bump f n).mem = s.mem := rfl
@[simp] theorem State.bump_clk (s : State) (f : Fld) (n : Nat) : (s.bump f n).clk = s.clk := rfl
@[simp] theorem State.bump_tick (s : State) (f : Fld) (n : Nat) : (s.bump f n).tick = s.tick := rfl
@[simp] theorem State.bump_sys (s : State) (f : Fld) (n : Nat) : (s.bump f n).sys = s.sys := rfl
@[simp] theorem State.bump_sec (s : State) (f : Fld) (n : Nat) : (s.bump f n).sec = s.sec := rfl
@[simp] theorem State.bump_tm (s : State) (f : Fld) (n : Nat) : (s.bump f n).tm = s.tm := rfl
@[simp] theorem State.bump_cmd (s : State) (f : Fld) (n : Nat) : (s.bump f n).cmd = s.cmd := rfl
@[simp] theorem State.bump_txn (s : State) (f : Fld) (n : Nat) : (s.bump f n).txn = s.txn := rfl
@[simp] theorem State.bump_err (s : State) (f : Fld) (n : Nat) : (s.bump f n).err = s.err := rfl
@[simp] theorem State.bump_fab (s : State) (f : Fld) (n : Nat) : (s.bump f n).fab = s.fab := rfl
@[simp] theorem State.bump_cdc (s : State) (f : Fld) (n : Nat) : (s.bump f n).cdc = s.cdc := rfl
@[simp] theorem State.bump_ring (s : State) (f : Fld) (n : Nat) : (s.bump f n).ring = s.ring := rfl
@[simp] theorem State.bump_memc (s : State) (f : Fld) (n : Nat) : (s.bump f n).memc = s.memc := rfl
@[simp] theorem State.bump_eth (s : State) (f : Fld) (n : Nat) : (s.bump f n).eth = s.eth := rfl
@[simp] theorem State.bump_ing (s : State) (f : Fld) (n : Nat) : (s.bump f n).ing = s.ing := rfl
@[simp] theorem State.bump_cmp (s : State) (f : Fld) (n : Nat) : (s.bump f n).cmp = s.cmp := rfl
@[simp] theorem State.bump_lnk (s : State) (f : Fld) (n : Nat) : (s.bump f n).lnk = s.lnk := rfl
@[simp] theorem State.bump_tile (s : State) (f : Fld) (n : Nat) : (s.bump f n).tile = s.tile := rfl
@[simp] theorem State.bump_red (s : State) (f : Fld) (n : Nat) : (s.bump f n).red = s.red := rfl
@[simp] theorem State.bump_rnd (s : State) (f : Fld) (n : Nat) : (s.bump f n).rnd = s.rnd := rfl
@[simp] theorem State.bump_out (s : State) (f : Fld) (n : Nat) : (s.bump f n).out = s.out := rfl
@[simp] theorem State.bump_pending (s : State) (f : Fld) (n : Nat) : (s.bump f n).pending = s.pending := rfl

@[simp] theorem State.draw_regs (s : State) : s.draw.2.regs = s.regs := rfl
@[simp] theorem State.draw_mem (s : State) : s.draw.2.mem = s.mem := rfl
@[simp] theorem State.draw_clk (s : State) : s.draw.2.clk = s.clk := rfl
@[simp] theorem State.draw_tick (s : State) : s.draw.2.tick = s.tick := rfl
@[simp] theorem State.draw_sys (s : State) : s.draw.2.sys = s.sys := rfl
@[simp] theorem State.draw_sec (s : State) : s.draw.2.sec = s.sec := rfl
@[simp] theorem State.draw_tm (s : State) : s.draw.2.tm = s.tm := rfl
@[simp] theorem State.draw_cmd (s : State) : s.draw.2.cmd = s.cmd := rfl
@[simp] theorem State.draw_txn (s : State) : s.draw.2.txn = s.txn := rfl
@[simp] theorem State.draw_err (s : State) : s.draw.2.err = s.err := rfl
@[simp] theorem State.draw_fab (s : State) : s.draw.2.fab = s.fab := rfl
@[simp] theorem State.draw_cdc (s : State) : s.draw.2.cdc = s.cdc := rfl
@[simp] theorem State.draw_ring (s : State) : s.draw.2.ring = s.ring := rfl
@[simp] theorem State.draw_memc (s : State) : s.draw.2.memc = s.memc := rfl
@[simp] theorem State.draw_eth (s : State) : s.draw.2.eth = s.eth := rfl
@[simp] theorem State.draw_ing (s : State) : s.draw.2.ing = s.ing := rfl
@[simp] theorem State.draw_cmp (s : State) : s.draw.2.cmp = s.cmp := rfl
@[simp] theorem State.draw_lnk (s : State) : s.draw.2.lnk = s.lnk := rfl
@[simp] theorem State.draw_tile (s : State) : s.draw.2.tile = s.tile := rfl
@[simp] theorem State.draw_red (s : State) : s.draw.2.red = s.red := rfl
@[simp] theorem State.draw_rnd (s : State) : s.draw.2.rnd = s.rnd + 1 := rfl
@[simp] theorem State.draw_out (s : State) : s.draw.2.out = s.out := rfl
@[simp] theorem State.draw_pending (s : State) : s.draw.2.pending = s.pending := rfl

end Sys2Proof.Machine
end

