-- ==== Sys2Proof/Laws/Crossing.lean ====
section
/-! SUPPORT. What comes out of another clock domain, and what leaves by UDP: what each can do, said once. -/

namespace Sys2Proof.Machine

open Sys2Proof

/-- While no reset holds the domain, what comes in simply happens. -/
theorem State.crossIn_running (s : State) (kind : Nat) (f : State → State) (h : s.domBusy kind = false) :
    s.crossIn kind f = f s := by
  have none_ : (s.cdc.resets.find? fun r => r.kind.toNat == kind) = none := by
    rw [List.find?_eq_none]
    intro r hr hk
    exact absurd (List.any_eq_true.2 ⟨r, hr, hk⟩) (by rw [show s.cdc.resets.any _ = s.domBusy kind from rfl, h]; simp)
  unfold State.crossIn
  rw [none_]

/-- What comes in happens, or is lost, or comes twice; the last two with no more beside than a free value drawn. -/
theorem State.crossIn_cases (s : State) (kind : Nat) (f : State → State) :
    s.crossIn kind f = s ∨ s.crossIn kind f = f s ∨ s.crossIn kind f = s.draw.2 ∨ s.crossIn kind f = f s.draw.2 ∨
      s.crossIn kind f = f (f s.draw.2) := by
  unfold State.crossIn
  split
  · exact .inr (.inl rfl)
  · split
    · exact .inl rfl
    · dsimp only
      split
      · exact .inr (.inr (.inl rfl))
      · exact .inr (.inr (.inr (.inl rfl)))
      · exact .inr (.inr (.inr (.inr rfl)))

end Sys2Proof.Machine
end

