-- ==== Sys2Proof/Laws/Sparse.lean ====
section
/-! SUPPORT. Laws of the sparse stores: read after write, and the canonical form kept by every operation on memory and on
the register file. -/

namespace Sys2Proof.Machine

open Sys2Proof

variable {α : Type} {dflt : Nat → α}

theorem sparseGet_drop_same (l : List (Nat × α)) (a : Nat) : sparseGet dflt (sparseDrop l a) a = dflt a := by
  induction l with
  | nil => rfl
  | cons e t ih =>
    by_cases h : e.1 = a
    · simpa [sparseDrop, h] using ih
    · have h' : (sparseDrop (e :: t) a) = e :: sparseDrop t a := by simp [sparseDrop, h]
      rw [h', sparseGet, if_neg h]; exact ih

theorem sparseGet_drop_other (l : List (Nat × α)) {a b : Nat} (hab : b ≠ a) :
    sparseGet dflt (sparseDrop l a) b = sparseGet dflt l b := by
  induction l with
  | nil => rfl
  | cons e t ih =>
    by_cases h : e.1 = a
    · have : (sparseDrop (e :: t) a) = sparseDrop t a := by simp [sparseDrop, h]
      rw [this, ih, sparseGet, if_neg (by omega)]
    · have : (sparseDrop (e :: t) a) = e :: sparseDrop t a := by simp [sparseDrop, h]
      rw [this, sparseGet, sparseGet, ih]

theorem sparseGet_ins_same (l : List (Nat × α)) (a : Nat) (v : α) :
    (∀ e ∈ l, e.1 ≠ a) → sparseGet dflt (sparseIns a v l) a = v := by
  induction l with
  | nil => intro _; simp [sparseIns, sparseGet]
  | cons e t ih =>
    intro h
    unfold sparseIns
    split
    · simp [sparseGet]
    · rw [sparseGet, if_neg (h e (by simp))]
      exact ih fun x hx => h x (by simp [hx])

theorem sparseGet_ins_other (l : List (Nat × α)) {a b : Nat} (v : α) (hab : b ≠ a) :
    sparseGet dflt (sparseIns a v l) b = sparseGet dflt l b := by
  induction l with
  | nil => simp [sparseIns, sparseGet, hab.symm]
  | cons e t ih =>
    unfold sparseIns
    split
    · simp only [sparseGet, hab.symm, if_false]
    · rw [sparseGet, ih, sparseGet]

theorem sparseIns_mem {l : List (Nat × α)} {a : Nat} {v : α} {x : Nat × α} (h : x ∈ sparseIns a v l) :
    x = (a, v) ∨ x ∈ l := by
  induction l with
  | nil => simpa [sparseIns] using h
  | cons e t ih =>
    unfold sparseIns at h
    split at h
    · simpa using h
    · rcases List.mem_cons.mp h with rfl | h
      · simp
      · rcases ih h with rfl | h
        · simp
        · simp [h]

variable [DecidableEq α]

/-- Read after write at the same key. -/
theorem sparseGet_put_same (l : List (Nat × α)) (a : Nat) (v : α) :
    sparseGet dflt (sparsePut dflt l a v) a = v := by
  unfold sparsePut
  split
  · rename_i h; rw [sparseGet_drop_same, h]
  · exact sparseGet_ins_same _ _ _ fun e he => by simpa using (List.mem_filter.mp he).2

/-- A write leaves every other key. -/
theorem sparseGet_put_other (l : List (Nat × α)) {a b : Nat} (v : α) (hab : b ≠ a) :
    sparseGet dflt (sparsePut dflt l a v) b = sparseGet dflt l b := by
  unfold sparsePut
  split
  · exact sparseGet_drop_other l hab
  · rw [sparseGet_ins_other _ _ hab, sparseGet_drop_other l hab]

/-! ## The canonical form -/

theorem sparseWf_cons {e : Nat × α} {t : List (Nat × α)} :
    sparseWf dflt (e :: t) = true ↔ e.2 ≠ dflt e.1 ∧ (∀ x ∈ t, e.1 < x.1) ∧ sparseWf dflt t = true := by
  simp [sparseWf, and_assoc]

/-- Removing entries keeps the form. -/
theorem sparseWf_filter {l : List (Nat × α)} (p : Nat × α → Bool) (h : sparseWf dflt l = true) :
    sparseWf dflt (l.filter p) = true := by
  induction l with
  | nil => rfl
  | cons e t ih =>
    obtain ⟨h1, h2, h3⟩ := sparseWf_cons.mp h
    rw [List.filter_cons]
    split
    · exact sparseWf_cons.mpr ⟨h1, fun x hx => h2 x (List.mem_filter.mp hx).1, ih h3⟩
    · exact ih h3

theorem sparseWf_ins {l : List (Nat × α)} {a : Nat} {v : α} (h : sparseWf dflt l = true) (hv : v ≠ dflt a)
    (ha : ∀ e ∈ l, e.1 ≠ a) : sparseWf dflt (sparseIns a v l) = true := by
  induction l with
  | nil => simp [sparseIns, sparseWf, hv]
  | cons e t ih =>
    obtain ⟨h1, h2, h3⟩ := sparseWf_cons.mp h
    unfold sparseIns
    split
    · rename_i hlt
      refine sparseWf_cons.mpr ⟨hv, fun x hx => ?_, h⟩
      rcases List.mem_cons.mp hx with rfl | hx
      · exact hlt
      · exact lt_trans hlt (h2 x hx)
    · rename_i hge
      have hne : e.1 ≠ a := ha e (by simp)
      refine sparseWf_cons.mpr ⟨h1, fun x hx => ?_, ih h3 fun y hy => ha y (by simp [hy])⟩
      rcases sparseIns_mem hx with rfl | hx
      · simp only; omega
      · exact h2 x hx

/-- A write keeps the form. -/
theorem sparseWf_put {l : List (Nat × α)} (a : Nat) (v : α) (h : sparseWf dflt l = true) :
    sparseWf dflt (sparsePut dflt l a v) = true := by
  unfold sparsePut
  split
  · exact sparseWf_filter _ h
  · rename_i hv
    exact sparseWf_ins (sparseWf_filter _ h) hv fun e he => by simpa using (List.mem_filter.mp he).2

end Sys2Proof.Machine
end

