-- ==== Sys2Proof/Laws/Regs.lean ====
section
/-! SUPPORT. Laws of registers and their fields: what a write of a register, of a field or of a counter does to every
register and field. -/

namespace Sys2Proof.Machine

open Sys2Proof

/-! ## Words -/

@[simp] theorem State.word_setWord_same (s : State) (a : Nat) (v : Word) : (s.setWord a v).word a = v :=
  sparseGet_put_same _ _ _

theorem State.word_setWord_other (s : State) {a b : Nat} (v : Word) (h : b ≠ a) :
    (s.setWord a v).word b = s.word b :=
  sparseGet_put_other _ _ h

/-! ## Fields of a word -/

/-- A word is what stands above a field, the field, and what stands below it. -/
theorem Fld.split (f : Fld) (n : Nat) :
    n = n / 2 ^ (f.lo + f.w) * 2 ^ (f.lo + f.w) + n / 2 ^ f.lo % 2 ^ f.w * 2 ^ f.lo + n % 2 ^ f.lo := by
  have h1 := Nat.div_add_mod n (2 ^ f.lo)
  have h2 := Nat.div_add_mod (n / 2 ^ f.lo) (2 ^ f.w)
  rw [Nat.div_div_eq_div_mul, ← pow_add] at h2
  have h3 : n / 2 ^ (f.lo + f.w) * 2 ^ (f.lo + f.w) + n / 2 ^ f.lo % 2 ^ f.w * 2 ^ f.lo =
      (n / 2 ^ f.lo) * 2 ^ f.lo := by
    conv_rhs => rw [← h2]
    rw [pow_add]; ring
  rw [h3]; linarith [mul_comm (2 ^ f.lo) (n / 2 ^ f.lo)]

/-- A field's value and what lies below it stay below what lies above it. -/
theorem field_lt {lo w x l : Nat} (hx : x < 2 ^ w) (hl : l < 2 ^ lo) : x * 2 ^ lo + l < 2 ^ (lo + w) := by
  have h : (x + 1) * 2 ^ lo ≤ 2 ^ w * 2 ^ lo := Nat.mul_le_mul_right _ hx
  rw [Nat.add_mul, Nat.one_mul] at h
  rw [Nat.pow_add, Nat.mul_comm (2 ^ lo)]
  omega

/-- The number a word holds after a field of it takes a value. -/
theorem Fld.put_toNat (f : Fld) (hf : f.lo + f.w ≤ 32) (w : Word) (v : Nat) :
    (f.put w v).toNat =
      w.toNat / 2 ^ (f.lo + f.w) * 2 ^ (f.lo + f.w) + v % 2 ^ f.w * 2 ^ f.lo + w.toNat % 2 ^ f.lo := by
  have hs := Fld.split f w.toNat
  have e : w.toNat - f.get w * 2 ^ f.lo + v % 2 ^ f.w * 2 ^ f.lo =
      w.toNat / 2 ^ (f.lo + f.w) * 2 ^ (f.lo + f.w) + v % 2 ^ f.w * 2 ^ f.lo + w.toNat % 2 ^ f.lo := by
    unfold Fld.get; omega
  have hv : v % 2 ^ f.w < 2 ^ f.w := Nat.mod_lt _ (by positivity)
  have hl : w.toNat % 2 ^ f.lo < 2 ^ f.lo := Nat.mod_lt _ (by positivity)
  have hh : w.toNat / 2 ^ (f.lo + f.w) < 2 ^ (32 - (f.lo + f.w)) := by
    rw [Nat.div_lt_iff_lt_mul (by positivity), ← pow_add]
    simpa [Nat.sub_add_cancel hf] using w.isLt
  have lt : w.toNat / 2 ^ (f.lo + f.w) * 2 ^ (f.lo + f.w) + v % 2 ^ f.w * 2 ^ f.lo + w.toNat % 2 ^ f.lo < 2 ^ 32 := by
    have h1 := field_lt hv hl
    have h2 : (w.toNat / 2 ^ (f.lo + f.w) + 1) * 2 ^ (f.lo + f.w) ≤ 2 ^ 32 := by
      calc _ ≤ 2 ^ (32 - (f.lo + f.w)) * 2 ^ (f.lo + f.w) := Nat.mul_le_mul_right _ hh
        _ = 2 ^ 32 := by rw [← pow_add]; congr 1; omega
    rw [Nat.add_mul, Nat.one_mul] at h2; omega
  rw [Fld.put, e, BitVec.toNat_ofNat, Nat.mod_eq_of_lt lt]

/-- A field reads as written. -/
theorem Fld.get_put_same (f : Fld) (hf : f.lo + f.w ≤ 32) (w : Word) (v : Nat) : f.get (f.put w v) = v % 2 ^ f.w := by
  have hl : w.toNat % 2 ^ f.lo < 2 ^ f.lo := Nat.mod_lt _ (by positivity)
  rw [Fld.get, f.put_toNat hf, pow_add, ← mul_assoc, mul_comm _ (2 ^ f.w), mul_comm (2 ^ f.lo), ]
  have e : 2 ^ f.w * (w.toNat / (2 ^ f.w * 2 ^ f.lo) * 2 ^ f.lo) + v % 2 ^ f.w * 2 ^ f.lo + w.toNat % 2 ^ f.lo =
      w.toNat % 2 ^ f.lo + 2 ^ f.lo * (v % 2 ^ f.w + 2 ^ f.w * (w.toNat / (2 ^ f.w * 2 ^ f.lo))) := by ring
  rw [e, Nat.add_mul_div_left _ _ (by positivity), Nat.div_eq_of_lt hl, Nat.zero_add, Nat.add_mul_mod_self_left,
    Nat.mod_mod]

/-- A field keeps its value while one that lies wholly below or above it takes another. -/
theorem Fld.get_put_other (f g : Fld) (hf : f.lo + f.w ≤ 32) (w : Word) (v : Nat)
    (h : g.lo + g.w ≤ f.lo ∨ f.lo + f.w ≤ g.lo) : g.get (f.put w v) = g.get w := by
  have hs := Fld.split f w.toNat
  have hl : w.toNat % 2 ^ f.lo < 2 ^ f.lo := Nat.mod_lt _ (by positivity)
  have hv : v % 2 ^ f.w < 2 ^ f.w := Nat.mod_lt _ (by positivity)
  unfold Fld.get
  rw [f.put_toNat hf]
  rcases h with h | h
  · -- below: both words agree modulo 2 ^ f.lo
    have key : ∀ n : Nat, n / 2 ^ g.lo % 2 ^ g.w = n % 2 ^ f.lo / 2 ^ g.lo % 2 ^ g.w := by
      intro n
      have e : f.lo = g.lo + (f.lo - g.lo) := by omega
      rw [e, pow_add, Nat.mod_mul_right_div_self, Nat.mod_mod_of_dvd _ (pow_dvd_pow 2 (by omega))]
    rw [key, key w.toNat]
    congr 2
    rw [pow_add]
    have e : w.toNat / (2 ^ f.lo * 2 ^ f.w) * (2 ^ f.lo * 2 ^ f.w) + v % 2 ^ f.w * 2 ^ f.lo + w.toNat % 2 ^ f.lo =
        w.toNat % 2 ^ f.lo + 2 ^ f.lo * (w.toNat / (2 ^ f.lo * 2 ^ f.w) * 2 ^ f.w + v % 2 ^ f.w) := by ring
    rw [e, Nat.add_mul_mod_self_left, Nat.mod_mod]
  · -- above: both words agree above f
    have e : g.lo = (f.lo + f.w) + (g.lo - (f.lo + f.w)) := by omega
    have top : ∀ x : Nat, x < 2 ^ f.w →
        (w.toNat / 2 ^ (f.lo + f.w) * 2 ^ (f.lo + f.w) + x * 2 ^ f.lo + w.toNat % 2 ^ f.lo) / 2 ^ (f.lo + f.w) =
          w.toNat / 2 ^ (f.lo + f.w) := by
      intro x hx
      rw [add_assoc, Nat.add_comm, Nat.add_mul_div_right _ _ (by positivity), Nat.div_eq_of_lt (field_lt hx hl), Nat.zero_add]
    generalize g.lo - (f.lo + f.w) = k at e
    rw [e, pow_add _ (f.lo + f.w) k, ← Nat.div_div_eq_div_mul, ← Nat.div_div_eq_div_mul, top _ hv]

/-! ## Fields of the state -/

theorem State.fld_setFld_same (s : State) (f : Fld) (v : Nat) (hf : f.lo + f.w ≤ 32) :
    (s.setFld f v).fld f = v % 2 ^ f.w := by
  simp [State.fld, State.setFld, Fld.get_put_same f hf]

theorem State.word_setFld_other (s : State) (f : Fld) (v : Nat) {a : Nat} (h : a ≠ f.addr) :
    (s.setFld f v).word a = s.word a := State.word_setWord_other s _ h

theorem State.fld_setFld_addr (s : State) (f g : Fld) (v : Nat) (h : g.addr ≠ f.addr) :
    (s.setFld f v).fld g = s.fld g := by simp [State.fld, State.word_setFld_other s f v h]

theorem State.fld_setFld_other (s : State) (f g : Fld) (v : Nat) (hf : f.lo + f.w ≤ 32)
    (h : g.lo + g.w ≤ f.lo ∨ f.lo + f.w ≤ g.lo) : (s.setFld f v).fld g = s.fld g := by
  by_cases ha : g.addr = f.addr
  · simp [State.fld, State.setFld, ha, Fld.get_put_other f g hf _ v h]
  · exact s.fld_setFld_addr f g v ha

theorem State.bit_setBit_same (s : State) (f : Fld) (b : Bool) (hf : f.lo + f.w ≤ 32) (hw : f.w = 1) :
    (s.setBit f b).bit f = b := by
  rw [State.bit, State.setBit, s.fld_setFld_same f _ hf, hw]; cases b <;> simp

/-- A counter grows by `n` and holds at its greatest value (R464). -/
theorem State.fld_bump_same (s : State) (f : Fld) (n : Nat) (hf : f.lo + f.w ≤ 32) :
    (s.bump f n).fld f = min (s.fld f + n) (2 ^ f.w - 1) := by
  rw [State.bump, s.fld_setFld_same f _ hf, Nat.mod_eq_of_lt]
  have : 0 < 2 ^ f.w := by positivity
  omega

theorem State.word_bump_other (s : State) (f : Fld) (n : Nat) {a : Nat} (h : a ≠ f.addr) :
    (s.bump f n).word a = s.word a := s.word_setFld_other f _ h

/-! ## The canonical form of the register file -/

theorem State.regsWf_setWord (s : State) (a : Nat) (v : Word) (h : regsWf s.regs = true) :
    regsWf (s.setWord a v).regs = true := sparseWf_put a v h

theorem State.regsWf_setFld (s : State) (f : Fld) (v : Nat) (h : regsWf s.regs = true) :
    regsWf (s.setFld f v).regs = true := s.regsWf_setWord _ _ h

end Sys2Proof.Machine
end

