-- ==== Sys2Proof/Laws/Instants.lean ====
section
/-! SUPPORT. Laws of instants: when a tick is the one nearest to an instant, whichever way the advance of a tick is
rounded. -/

namespace Sys2Proof.Machine

open Sys2Proof

theorem sext_lt (n v : Nat) : sext n v < ((2 ^ n : Nat) : Int) := by
  unfold sext
  have h : v % 2 ^ n < 2 ^ n := Nat.mod_lt _ (by positivity)
  split <;> omega

/-- A tick advances the clock by less than 2 ns. -/
theorem State.inc_lt (s : State) : s.inc < 2 ^ 65 := by
  have h := sext_lt 32 (s.fld F.TIME_RATE_RATE)
  unfold State.inc
  dsimp only
  split <;> omega

/-- An instant that has come is no later than the one nearest to this tick. -/
theorem State.nearest_of_le {s : State} {t : Nat} (h : t ≤ s.clk) : s.nearest t = true := by
  unfold State.nearest; exact decide_eq_true (by omega)

/-- An instant 2 ns away or more is not yet nearest. -/
theorem State.not_nearest {s : State} {t : Nat} (h : s.clk + 2 ^ 65 ≤ t) : s.nearest t = false := by
  have := s.inc_lt
  unfold State.nearest; exact decide_eq_false (by omega)

end Sys2Proof.Machine
end

