-- ==== Sys2Proof/Laws/Memory.lean ====
section
/-! SUPPORT. Laws of memory and of the error log: read after write of a byte, the canonical form kept by every operation
that stores, and what a record, a count and a word's accounting leave unchanged. -/

namespace Sys2Proof.Machine

open Sys2Proof

/-! ## Bytes -/

/-- A byte stored reads back. -/
theorem State.byte_setByte_same (s : State) (a : Nat) (b : Byte) : (s.setByte a b).byte a = b :=
  sparseGet_put_same _ _ _

/-- A byte stored leaves every other byte. -/
theorem State.byte_setByte_other (s : State) {a x : Nat} (b : Byte) (h : x ≠ a) : (s.setByte a b).byte x = s.byte x :=
  sparseGet_put_other _ _ h

theorem State.setByte_wf {s : State} (a : Nat) (b : Byte) (h : Memory.wf s.mem = true) :
    Memory.wf (s.setByte a b).mem = true := sparseWf_put _ _ h

theorem State.eraseRange_wf {s : State} (a n : Nat) (h : Memory.wf s.mem = true) :
    Memory.wf (s.eraseRange a n).mem = true := sparseWf_filter _ h

theorem State.reset_memory_wf : Memory.wf State.reset.mem = true := rfl

/-! ## What counts and records leave -/

@[simp] theorem State.enqueue_regs (s : State) (q : Nat) (c : Cell) (own : Bool) (fr : Option (BitVec 2)) : (s.enqueue q c own fr).regs = s.regs := rfl
@[simp] theorem State.enqueue_mem (s : State) (q : Nat) (c : Cell) (own : Bool) (fr : Option (BitVec 2)) : (s.enqueue q c own fr).mem = s.mem := rfl
@[simp] theorem State.enqueue_clk (s : State) (q : Nat) (c : Cell) (own : Bool) (fr : Option (BitVec 2)) : (s.enqueue q c own fr).clk = s.clk := rfl
@[simp] theorem State.enqueue_tick (s : State) (q : Nat) (c : Cell) (own : Bool) (fr : Option (BitVec 2)) : (s.enqueue q c own fr).tick = s.tick := rfl
@[simp] theorem State.enqueue_sys (s : State) (q : Nat) (c : Cell) (own : Bool) (fr : Option (BitVec 2)) : (s.enqueue q c own fr).sys = s.sys := rfl
@[simp] theorem State.enqueue_sec (s : State) (q : Nat) (c : Cell) (own : Bool) (fr : Option (BitVec 2)) : (s.enqueue q c own fr).sec = s.sec := rfl
@[simp] theorem State.enqueue_tm (s : State) (q : Nat) (c : Cell) (own : Bool) (fr : Option (BitVec 2)) : (s.enqueue q c own fr).tm = s.tm := rfl
@[simp] theorem State.enqueue_cmd (s : State) (q : Nat) (c : Cell) (own : Bool) (fr : Option (BitVec 2)) : (s.enqueue q c own fr).cmd = s.cmd := rfl
@[simp] theorem State.enqueue_txn (s : State) (q : Nat) (c : Cell) (own : Bool) (fr : Option (BitVec 2)) : (s.enqueue q c own fr).txn = s.txn := rfl
@[simp] theorem State.enqueue_err (s : State) (q : Nat) (c : Cell) (own : Bool) (fr : Option (BitVec 2)) : (s.enqueue q c own fr).err = s.err := rfl
@[simp] theorem State.enqueue_cdc (s : State) (q : Nat) (c : Cell) (own : Bool) (fr : Option (BitVec 2)) : (s.enqueue q c own fr).cdc = s.cdc := rfl
@[simp] theorem State.enqueue_ring (s : State) (q : Nat) (c : Cell) (own : Bool) (fr : Option (BitVec 2)) : (s.enqueue q c own fr).ring = s.ring := rfl
@[simp] theorem State.enqueue_memc (s : State) (q : Nat) (c : Cell) (own : Bool) (fr : Option (BitVec 2)) : (s.enqueue q c own fr).memc = s.memc := rfl
@[simp] theorem State.enqueue_eth (s : State) (q : Nat) (c : Cell) (own : Bool) (fr : Option (BitVec 2)) : (s.enqueue q c own fr).eth = s.eth := rfl
@[simp] theorem State.enqueue_ing (s : State) (q : Nat) (c : Cell) (own : Bool) (fr : Option (BitVec 2)) : (s.enqueue q c own fr).ing = s.ing := rfl
@[simp] theorem State.enqueue_cmp (s : State) (q : Nat) (c : Cell) (own : Bool) (fr : Option (BitVec 2)) : (s.enqueue q c own fr).cmp = s.cmp := rfl
@[simp] theorem State.enqueue_lnk (s : State) (q : Nat) (c : Cell) (own : Bool) (fr : Option (BitVec 2)) : (s.enqueue q c own fr).lnk = s.lnk := rfl
@[simp] theorem State.enqueue_tile (s : State) (q : Nat) (c : Cell) (own : Bool) (fr : Option (BitVec 2)) : (s.enqueue q c own fr).tile = s.tile := rfl
@[simp] theorem State.enqueue_red (s : State) (q : Nat) (c : Cell) (own : Bool) (fr : Option (BitVec 2)) : (s.enqueue q c own fr).red = s.red := rfl
@[simp] theorem State.enqueue_rnd (s : State) (q : Nat) (c : Cell) (own : Bool) (fr : Option (BitVec 2)) : (s.enqueue q c own fr).rnd = s.rnd := rfl
@[simp] theorem State.enqueue_out (s : State) (q : Nat) (c : Cell) (own : Bool) (fr : Option (BitVec 2)) : (s.enqueue q c own fr).out = s.out := rfl
@[simp] theorem State.enqueue_pending (s : State) (q : Nat) (c : Cell) (own : Bool) (fr : Option (BitVec 2)) : (s.enqueue q c own fr).pending = s.pending := rfl

@[simp] theorem State.sendOn_regs (s : State) (ps : List Nat) (c : Cell) (own : Bool) : (s.sendOn ps c own).regs = s.regs := by
  unfold State.sendOn
  induction ps generalizing s with
  | nil => rfl
  | cons q l ih => rw [List.foldl_cons, ih]; rfl
@[simp] theorem State.sendOn_mem (s : State) (ps : List Nat) (c : Cell) (own : Bool) : (s.sendOn ps c own).mem = s.mem := by
  unfold State.sendOn
  induction ps generalizing s with
  | nil => rfl
  | cons q l ih => rw [List.foldl_cons, ih]; rfl
@[simp] theorem State.sendOn_clk (s : State) (ps : List Nat) (c : Cell) (own : Bool) : (s.sendOn ps c own).clk = s.clk := by
  unfold State.sendOn
  induction ps generalizing s with
  | nil => rfl
  | cons q l ih => rw [List.foldl_cons, ih]; rfl
@[simp] theorem State.sendOn_tick (s : State) (ps : List Nat) (c : Cell) (own : Bool) : (s.sendOn ps c own).tick = s.tick := by
  unfold State.sendOn
  induction ps generalizing s with
  | nil => rfl
  | cons q l ih => rw [List.foldl_cons, ih]; rfl
@[simp] theorem State.sendOn_sys (s : State) (ps : List Nat) (c : Cell) (own : Bool) : (s.sendOn ps c own).sys = s.sys := by
  unfold State.sendOn
  induction ps generalizing s with
  | nil => rfl
  | cons q l ih => rw [List.foldl_cons, ih]; rfl
@[simp] theorem State.sendOn_sec (s : State) (ps : List Nat) (c : Cell) (own : Bool) : (s.sendOn ps c own).sec = s.sec := by
  unfold State.sendOn
  induction ps generalizing s with
  | nil => rfl
  | cons q l ih => rw [List.foldl_cons, ih]; rfl
@[simp] theorem State.sendOn_tm (s : State) (ps : List Nat) (c : Cell) (own : Bool) : (s.sendOn ps c own).tm = s.tm := by
  unfold State.sendOn
  induction ps generalizing s with
  | nil => rfl
  | cons q l ih => rw [List.foldl_cons, ih]; rfl
@[simp] theorem State.sendOn_cmd (s : State) (ps : List Nat) (c : Cell) (own : Bool) : (s.sendOn ps c own).cmd = s.cmd := by
  unfold State.sendOn
  induction ps generalizing s with
  | nil => rfl
  | cons q l ih => rw [List.foldl_cons, ih]; rfl
@[simp] theorem State.sendOn_txn (s : State) (ps : List Nat) (c : Cell) (own : Bool) : (s.sendOn ps c own).txn = s.txn := by
  unfold State.sendOn
  induction ps generalizing s with
  | nil => rfl
  | cons q l ih => rw [List.foldl_cons, ih]; rfl
@[simp] theorem State.sendOn_err (s : State) (ps : List Nat) (c : Cell) (own : Bool) : (s.sendOn ps c own).err = s.err := by
  unfold State.sendOn
  induction ps generalizing s with
  | nil => rfl
  | cons q l ih => rw [List.foldl_cons, ih]; rfl
@[simp] theorem State.sendOn_cdc (s : State) (ps : List Nat) (c : Cell) (own : Bool) : (s.sendOn ps c own).cdc = s.cdc := by
  unfold State.sendOn
  induction ps generalizing s with
  | nil => rfl
  | cons q l ih => rw [List.foldl_cons, ih]; rfl
@[simp] theorem State.sendOn_ring (s : State) (ps : List Nat) (c : Cell) (own : Bool) : (s.sendOn ps c own).ring = s.ring := by
  unfold State.sendOn
  induction ps generalizing s with
  | nil => rfl
  | cons q l ih => rw [List.foldl_cons, ih]; rfl
@[simp] theorem State.sendOn_memc (s : State) (ps : List Nat) (c : Cell) (own : Bool) : (s.sendOn ps c own).memc = s.memc := by
  unfold State.sendOn
  induction ps generalizing s with
  | nil => rfl
  | cons q l ih => rw [List.foldl_cons, ih]; rfl
@[simp] theorem State.sendOn_eth (s : State) (ps : List Nat) (c : Cell) (own : Bool) : (s.sendOn ps c own).eth = s.eth := by
  unfold State.sendOn
  induction ps generalizing s with
  | nil => rfl
  | cons q l ih => rw [List.foldl_cons, ih]; rfl
@[simp] theorem State.sendOn_ing (s : State) (ps : List Nat) (c : Cell) (own : Bool) : (s.sendOn ps c own).ing = s.ing := by
  unfold State.sendOn
  induction ps generalizing s with
  | nil => rfl
  | cons q l ih => rw [List.foldl_cons, ih]; rfl
@[simp] theorem State.sendOn_cmp (s : State) (ps : List Nat) (c : Cell) (own : Bool) : (s.sendOn ps c own).cmp = s.cmp := by
  unfold State.sendOn
  induction ps generalizing s with
  | nil => rfl
  | cons q l ih => rw [List.foldl_cons, ih]; rfl
@[simp] theorem State.sendOn_lnk (s : State) (ps : List Nat) (c : Cell) (own : Bool) : (s.sendOn ps c own).lnk = s.lnk := by
  unfold State.sendOn
  induction ps generalizing s with
  | nil => rfl
  | cons q l ih => rw [List.foldl_cons, ih]; rfl
@[simp] theorem State.sendOn_tile (s : State) (ps : List Nat) (c : Cell) (own : Bool) : (s.sendOn ps c own).tile = s.tile := by
  unfold State.sendOn
  induction ps generalizing s with
  | nil => rfl
  | cons q l ih => rw [List.foldl_cons, ih]; rfl
@[simp] theorem State.sendOn_red (s : State) (ps : List Nat) (c : Cell) (own : Bool) : (s.sendOn ps c own).red = s.red := by
  unfold State.sendOn
  induction ps generalizing s with
  | nil => rfl
  | cons q l ih => rw [List.foldl_cons, ih]; rfl
@[simp] theorem State.sendOn_rnd (s : State) (ps : List Nat) (c : Cell) (own : Bool) : (s.sendOn ps c own).rnd = s.rnd := by
  unfold State.sendOn
  induction ps generalizing s with
  | nil => rfl
  | cons q l ih => rw [List.foldl_cons, ih]; rfl
@[simp] theorem State.sendOn_out (s : State) (ps : List Nat) (c : Cell) (own : Bool) : (s.sendOn ps c own).out = s.out := by
  unfold State.sendOn
  induction ps generalizing s with
  | nil => rfl
  | cons q l ih => rw [List.foldl_cons, ih]; rfl
@[simp] theorem State.sendOn_pending (s : State) (ps : List Nat) (c : Cell) (own : Bool) : (s.sendOn ps c own).pending = s.pending := by
  unfold State.sendOn
  induction ps generalizing s with
  | nil => rfl
  | cons q l ih => rw [List.foldl_cons, ih]; rfl

@[simp] theorem State.holdOwn_mem (s : State) (c : Cell) : (s.holdOwn c).mem = s.mem := by
  unfold State.holdOwn State.holdCell; split_ifs <;> simp
@[simp] theorem State.holdOwn_clk (s : State) (c : Cell) : (s.holdOwn c).clk = s.clk := by
  unfold State.holdOwn State.holdCell; split_ifs <;> simp
@[simp] theorem State.holdOwn_tick (s : State) (c : Cell) : (s.holdOwn c).tick = s.tick := by
  unfold State.holdOwn State.holdCell; split_ifs <;> simp
@[simp] theorem State.holdOwn_sys (s : State) (c : Cell) : (s.holdOwn c).sys = s.sys := by
  unfold State.holdOwn State.holdCell; split_ifs <;> simp
@[simp] theorem State.holdOwn_sec (s : State) (c : Cell) : (s.holdOwn c).sec = s.sec := by
  unfold State.holdOwn State.holdCell; split_ifs <;> simp
@[simp] theorem State.holdOwn_tm (s : State) (c : Cell) : (s.holdOwn c).tm = s.tm := by
  unfold State.holdOwn State.holdCell; split_ifs <;> simp
@[simp] theorem State.holdOwn_cmd (s : State) (c : Cell) : (s.holdOwn c).cmd = s.cmd := by
  unfold State.holdOwn State.holdCell; split_ifs <;> simp
@[simp] theorem State.holdOwn_txn (s : State) (c : Cell) : (s.holdOwn c).txn = s.txn := by
  unfold State.holdOwn State.holdCell; split_ifs <;> simp
@[simp] theorem State.holdOwn_err (s : State) (c : Cell) : (s.holdOwn c).err = s.err := by
  unfold State.holdOwn State.holdCell; split_ifs <;> simp
@[simp] theorem State.holdOwn_cdc (s : State) (c : Cell) : (s.holdOwn c).cdc = s.cdc := by
  unfold State.holdOwn State.holdCell; split_ifs <;> simp
@[simp] theorem State.holdOwn_ring (s : State) (c : Cell) : (s.holdOwn c).ring = s.ring := by
  unfold State.holdOwn State.holdCell; split_ifs <;> simp
@[simp] theorem State.holdOwn_memc (s : State) (c : Cell) : (s.holdOwn c).memc = s.memc := by
  unfold State.holdOwn State.holdCell; split_ifs <;> simp
@[simp] theorem State.holdOwn_eth (s : State) (c : Cell) : (s.holdOwn c).eth = s.eth := by
  unfold State.holdOwn State.holdCell; split_ifs <;> simp
@[simp] theorem State.holdOwn_ing (s : State) (c : Cell) : (s.holdOwn c).ing = s.ing := by
  unfold State.holdOwn State.holdCell; split_ifs <;> simp
@[simp] theorem State.holdOwn_cmp (s : State) (c : Cell) : (s.holdOwn c).cmp = s.cmp := by
  unfold State.holdOwn State.holdCell; split_ifs <;> simp
@[simp] theorem State.holdOwn_lnk (s : State) (c : Cell) : (s.holdOwn c).lnk = s.lnk := by
  unfold State.holdOwn State.holdCell; split_ifs <;> simp
@[simp] theorem State.holdOwn_tile (s : State) (c : Cell) : (s.holdOwn c).tile = s.tile := by
  unfold State.holdOwn State.holdCell; split_ifs <;> simp
@[simp] theorem State.holdOwn_red (s : State) (c : Cell) : (s.holdOwn c).red = s.red := by
  unfold State.holdOwn State.holdCell; split_ifs <;> simp
@[simp] theorem State.holdOwn_rnd (s : State) (c : Cell) : (s.holdOwn c).rnd = s.rnd := by
  unfold State.holdOwn State.holdCell; split_ifs <;> simp
@[simp] theorem State.holdOwn_out (s : State) (c : Cell) : (s.holdOwn c).out = s.out := by
  unfold State.holdOwn State.holdCell; split_ifs <;> simp
@[simp] theorem State.holdOwn_pending (s : State) (c : Cell) : (s.holdOwn c).pending = s.pending := by
  unfold State.holdOwn State.holdCell; split_ifs <;> simp

@[simp] theorem State.sendOwn_mem (s : State) (c : Cell) : (s.sendOwn c).mem = s.mem := by
  unfold State.sendOwn; dsimp only; split_ifs <;> simp
@[simp] theorem State.sendOwn_clk (s : State) (c : Cell) : (s.sendOwn c).clk = s.clk := by
  unfold State.sendOwn; dsimp only; split_ifs <;> simp
@[simp] theorem State.sendOwn_tick (s : State) (c : Cell) : (s.sendOwn c).tick = s.tick := by
  unfold State.sendOwn; dsimp only; split_ifs <;> simp
@[simp] theorem State.sendOwn_sys (s : State) (c : Cell) : (s.sendOwn c).sys = s.sys := by
  unfold State.sendOwn; dsimp only; split_ifs <;> simp
@[simp] theorem State.sendOwn_sec (s : State) (c : Cell) : (s.sendOwn c).sec = s.sec := by
  unfold State.sendOwn; dsimp only; split_ifs <;> simp
@[simp] theorem State.sendOwn_tm (s : State) (c : Cell) : (s.sendOwn c).tm = s.tm := by
  unfold State.sendOwn; dsimp only; split_ifs <;> simp
@[simp] theorem State.sendOwn_cmd (s : State) (c : Cell) : (s.sendOwn c).cmd = s.cmd := by
  unfold State.sendOwn; dsimp only; split_ifs <;> simp
@[simp] theorem State.sendOwn_txn (s : State) (c : Cell) : (s.sendOwn c).txn = s.txn := by
  unfold State.sendOwn; dsimp only; split_ifs <;> simp
@[simp] theorem State.sendOwn_err (s : State) (c : Cell) : (s.sendOwn c).err = s.err := by
  unfold State.sendOwn; dsimp only; split_ifs <;> simp
@[simp] theorem State.sendOwn_cdc (s : State) (c : Cell) : (s.sendOwn c).cdc = s.cdc := by
  unfold State.sendOwn; dsimp only; split_ifs <;> simp
@[simp] theorem State.sendOwn_ring (s : State) (c : Cell) : (s.sendOwn c).ring = s.ring := by
  unfold State.sendOwn; dsimp only; split_ifs <;> simp
@[simp] theorem State.sendOwn_memc (s : State) (c : Cell) : (s.sendOwn c).memc = s.memc := by
  unfold State.sendOwn; dsimp only; split_ifs <;> simp
@[simp] theorem State.sendOwn_eth (s : State) (c : Cell) : (s.sendOwn c).eth = s.eth := by
  unfold State.sendOwn; dsimp only; split_ifs <;> simp
@[simp] theorem State.sendOwn_ing (s : State) (c : Cell) : (s.sendOwn c).ing = s.ing := by
  unfold State.sendOwn; dsimp only; split_ifs <;> simp
@[simp] theorem State.sendOwn_cmp (s : State) (c : Cell) : (s.sendOwn c).cmp = s.cmp := by
  unfold State.sendOwn; dsimp only; split_ifs <;> simp
@[simp] theorem State.sendOwn_lnk (s : State) (c : Cell) : (s.sendOwn c).lnk = s.lnk := by
  unfold State.sendOwn; dsimp only; split_ifs <;> simp
@[simp] theorem State.sendOwn_tile (s : State) (c : Cell) : (s.sendOwn c).tile = s.tile := by
  unfold State.sendOwn; dsimp only; split_ifs <;> simp
@[simp] theorem State.sendOwn_red (s : State) (c : Cell) : (s.sendOwn c).red = s.red := by
  unfold State.sendOwn; dsimp only; split_ifs <;> simp
@[simp] theorem State.sendOwn_rnd (s : State) (c : Cell) : (s.sendOwn c).rnd = s.rnd := by
  unfold State.sendOwn; dsimp only; split_ifs <;> simp
@[simp] theorem State.sendOwn_out (s : State) (c : Cell) : (s.sendOwn c).out = s.out := by
  unfold State.sendOwn; dsimp only; split_ifs <;> simp
@[simp] theorem State.sendOwn_pending (s : State) (c : Cell) : (s.sendOwn c).pending = s.pending := by
  unfold State.sendOwn; dsimp only; split_ifs <;> simp

@[simp] theorem State.originate_mem (s : State) (c : Cell) : (s.originate c).mem = s.mem := by
  unfold State.originate; dsimp only; split_ifs <;> simp
@[simp] theorem State.originate_clk (s : State) (c : Cell) : (s.originate c).clk = s.clk := by
  unfold State.originate; dsimp only; split_ifs <;> simp
@[simp] theorem State.originate_tick (s : State) (c : Cell) : (s.originate c).tick = s.tick := by
  unfold State.originate; dsimp only; split_ifs <;> simp
@[simp] theorem State.originate_sys (s : State) (c : Cell) : (s.originate c).sys = s.sys := by
  unfold State.originate; dsimp only; split_ifs <;> simp
@[simp] theorem State.originate_sec (s : State) (c : Cell) : (s.originate c).sec = s.sec := by
  unfold State.originate; dsimp only; split_ifs <;> simp
@[simp] theorem State.originate_tm (s : State) (c : Cell) : (s.originate c).tm = s.tm := by
  unfold State.originate; dsimp only; split_ifs <;> simp
@[simp] theorem State.originate_cmd (s : State) (c : Cell) : (s.originate c).cmd = s.cmd := by
  unfold State.originate; dsimp only; split_ifs <;> simp
@[simp] theorem State.originate_txn (s : State) (c : Cell) : (s.originate c).txn = s.txn := by
  unfold State.originate; dsimp only; split_ifs <;> simp
@[simp] theorem State.originate_err (s : State) (c : Cell) : (s.originate c).err = s.err := by
  unfold State.originate; dsimp only; split_ifs <;> simp
@[simp] theorem State.originate_cdc (s : State) (c : Cell) : (s.originate c).cdc = s.cdc := by
  unfold State.originate; dsimp only; split_ifs <;> simp
@[simp] theorem State.originate_ring (s : State) (c : Cell) : (s.originate c).ring = s.ring := by
  unfold State.originate; dsimp only; split_ifs <;> simp
@[simp] theorem State.originate_memc (s : State) (c : Cell) : (s.originate c).memc = s.memc := by
  unfold State.originate; dsimp only; split_ifs <;> simp
@[simp] theorem State.originate_eth (s : State) (c : Cell) : (s.originate c).eth = s.eth := by
  unfold State.originate; dsimp only; split_ifs <;> simp
@[simp] theorem State.originate_ing (s : State) (c : Cell) : (s.originate c).ing = s.ing := by
  unfold State.originate; dsimp only; split_ifs <;> simp
@[simp] theorem State.originate_cmp (s : State) (c : Cell) : (s.originate c).cmp = s.cmp := by
  unfold State.originate; dsimp only; split_ifs <;> simp
@[simp] theorem State.originate_lnk (s : State) (c : Cell) : (s.originate c).lnk = s.lnk := by
  unfold State.originate; dsimp only; split_ifs <;> simp
@[simp] theorem State.originate_tile (s : State) (c : Cell) : (s.originate c).tile = s.tile := by
  unfold State.originate; dsimp only; split_ifs <;> simp
@[simp] theorem State.originate_red (s : State) (c : Cell) : (s.originate c).red = s.red := by
  unfold State.originate; dsimp only; split_ifs <;> simp
@[simp] theorem State.originate_rnd (s : State) (c : Cell) : (s.originate c).rnd = s.rnd := by
  unfold State.originate; dsimp only; split_ifs <;> simp
@[simp] theorem State.originate_out (s : State) (c : Cell) : (s.originate c).out = s.out := by
  unfold State.originate; dsimp only; split_ifs <;> simp
@[simp] theorem State.originate_pending (s : State) (c : Cell) : (s.originate c).pending = s.pending := by
  unfold State.originate; dsimp only; split_ifs <;> simp

@[simp] theorem State.alarmCell_mem (s : State) (r : ErrRec) : (s.alarmCell r).mem = s.mem := by
  unfold State.alarmCell; dsimp only; split_ifs <;> simp
@[simp] theorem State.alarmCell_clk (s : State) (r : ErrRec) : (s.alarmCell r).clk = s.clk := by
  unfold State.alarmCell; dsimp only; split_ifs <;> simp
@[simp] theorem State.alarmCell_tick (s : State) (r : ErrRec) : (s.alarmCell r).tick = s.tick := by
  unfold State.alarmCell; dsimp only; split_ifs <;> simp
@[simp] theorem State.alarmCell_sys (s : State) (r : ErrRec) : (s.alarmCell r).sys = s.sys := by
  unfold State.alarmCell; dsimp only; split_ifs <;> simp
@[simp] theorem State.alarmCell_sec (s : State) (r : ErrRec) : (s.alarmCell r).sec = s.sec := by
  unfold State.alarmCell; dsimp only; split_ifs <;> simp
@[simp] theorem State.alarmCell_tm (s : State) (r : ErrRec) : (s.alarmCell r).tm = s.tm := by
  unfold State.alarmCell; dsimp only; split_ifs <;> simp
@[simp] theorem State.alarmCell_cmd (s : State) (r : ErrRec) : (s.alarmCell r).cmd = s.cmd := by
  unfold State.alarmCell; dsimp only; split_ifs <;> simp
@[simp] theorem State.alarmCell_txn (s : State) (r : ErrRec) : (s.alarmCell r).txn = s.txn := by
  unfold State.alarmCell; dsimp only; split_ifs <;> simp
@[simp] theorem State.alarmCell_cdc (s : State) (r : ErrRec) : (s.alarmCell r).cdc = s.cdc := by
  unfold State.alarmCell; dsimp only; split_ifs <;> simp
@[simp] theorem State.alarmCell_ring (s : State) (r : ErrRec) : (s.alarmCell r).ring = s.ring := by
  unfold State.alarmCell; dsimp only; split_ifs <;> simp
@[simp] theorem State.alarmCell_memc (s : State) (r : ErrRec) : (s.alarmCell r).memc = s.memc := by
  unfold State.alarmCell; dsimp only; split_ifs <;> simp
@[simp] theorem State.alarmCell_eth (s : State) (r : ErrRec) : (s.alarmCell r).eth = s.eth := by
  unfold State.alarmCell; dsimp only; split_ifs <;> simp
@[simp] theorem State.alarmCell_ing (s : State) (r : ErrRec) : (s.alarmCell r).ing = s.ing := by
  unfold State.alarmCell; dsimp only; split_ifs <;> simp
@[simp] theorem State.alarmCell_cmp (s : State) (r : ErrRec) : (s.alarmCell r).cmp = s.cmp := by
  unfold State.alarmCell; dsimp only; split_ifs <;> simp
@[simp] theorem State.alarmCell_lnk (s : State) (r : ErrRec) : (s.alarmCell r).lnk = s.lnk := by
  unfold State.alarmCell; dsimp only; split_ifs <;> simp
@[simp] theorem State.alarmCell_tile (s : State) (r : ErrRec) : (s.alarmCell r).tile = s.tile := by
  unfold State.alarmCell; dsimp only; split_ifs <;> simp
@[simp] theorem State.alarmCell_red (s : State) (r : ErrRec) : (s.alarmCell r).red = s.red := by
  unfold State.alarmCell; dsimp only; split_ifs <;> simp
@[simp] theorem State.alarmCell_rnd (s : State) (r : ErrRec) : (s.alarmCell r).rnd = s.rnd := by
  unfold State.alarmCell; dsimp only; split_ifs <;> simp
@[simp] theorem State.alarmCell_out (s : State) (r : ErrRec) : (s.alarmCell r).out = s.out := by
  unfold State.alarmCell; dsimp only; split_ifs <;> simp
@[simp] theorem State.alarmCell_pending (s : State) (r : ErrRec) : (s.alarmCell r).pending = s.pending := by
  unfold State.alarmCell; dsimp only; split_ifs <;> simp

@[simp] theorem State.pushRec_mem (s : State) (r : ErrRec) : (s.pushRec r).mem = s.mem := by
  unfold State.pushRec; split_ifs <;> simp
@[simp] theorem State.pushRec_clk (s : State) (r : ErrRec) : (s.pushRec r).clk = s.clk := by
  unfold State.pushRec; split_ifs <;> simp
@[simp] theorem State.pushRec_tick (s : State) (r : ErrRec) : (s.pushRec r).tick = s.tick := by
  unfold State.pushRec; split_ifs <;> simp
@[simp] theorem State.pushRec_sys (s : State) (r : ErrRec) : (s.pushRec r).sys = s.sys := by
  unfold State.pushRec; split_ifs <;> simp
@[simp] theorem State.pushRec_sec (s : State) (r : ErrRec) : (s.pushRec r).sec = s.sec := by
  unfold State.pushRec; split_ifs <;> simp
@[simp] theorem State.pushRec_tm (s : State) (r : ErrRec) : (s.pushRec r).tm = s.tm := by
  unfold State.pushRec; split_ifs <;> simp
@[simp] theorem State.pushRec_cmd (s : State) (r : ErrRec) : (s.pushRec r).cmd = s.cmd := by
  unfold State.pushRec; split_ifs <;> simp
@[simp] theorem State.pushRec_txn (s : State) (r : ErrRec) : (s.pushRec r).txn = s.txn := by
  unfold State.pushRec; split_ifs <;> simp
@[simp] theorem State.pushRec_fab (s : State) (r : ErrRec) : (s.pushRec r).fab = s.fab := by
  unfold State.pushRec; split_ifs <;> simp
@[simp] theorem State.pushRec_cdc (s : State) (r : ErrRec) : (s.pushRec r).cdc = s.cdc := by
  unfold State.pushRec; split_ifs <;> simp
@[simp] theorem State.pushRec_ring (s : State) (r : ErrRec) : (s.pushRec r).ring = s.ring := by
  unfold State.pushRec; split_ifs <;> simp
@[simp] theorem State.pushRec_memc (s : State) (r : ErrRec) : (s.pushRec r).memc = s.memc := by
  unfold State.pushRec; split_ifs <;> simp
@[simp] theorem State.pushRec_eth (s : State) (r : ErrRec) : (s.pushRec r).eth = s.eth := by
  unfold State.pushRec; split_ifs <;> simp
@[simp] theorem State.pushRec_ing (s : State) (r : ErrRec) : (s.pushRec r).ing = s.ing := by
  unfold State.pushRec; split_ifs <;> simp
@[simp] theorem State.pushRec_cmp (s : State) (r : ErrRec) : (s.pushRec r).cmp = s.cmp := by
  unfold State.pushRec; split_ifs <;> simp
@[simp] theorem State.pushRec_lnk (s : State) (r : ErrRec) : (s.pushRec r).lnk = s.lnk := by
  unfold State.pushRec; split_ifs <;> simp
@[simp] theorem State.pushRec_tile (s : State) (r : ErrRec) : (s.pushRec r).tile = s.tile := by
  unfold State.pushRec; split_ifs <;> simp
@[simp] theorem State.pushRec_red (s : State) (r : ErrRec) : (s.pushRec r).red = s.red := by
  unfold State.pushRec; split_ifs <;> simp
@[simp] theorem State.pushRec_rnd (s : State) (r : ErrRec) : (s.pushRec r).rnd = s.rnd := by
  unfold State.pushRec; split_ifs <;> simp
@[simp] theorem State.pushRec_out (s : State) (r : ErrRec) : (s.pushRec r).out = s.out := by
  unfold State.pushRec; split_ifs <;> simp
@[simp] theorem State.pushRec_pending (s : State) (r : ErrRec) : (s.pushRec r).pending = s.pending := by
  unfold State.pushRec; split_ifs <;> simp

@[simp] theorem State.alertEdge_regs (s : State) (t : State) : (State.alertEdge t s).regs = s.regs := by
  unfold State.alertEdge; split_ifs <;> simp
@[simp] theorem State.alertEdge_mem (s : State) (t : State) : (State.alertEdge t s).mem = s.mem := by
  unfold State.alertEdge; split_ifs <;> simp
@[simp] theorem State.alertEdge_clk (s : State) (t : State) : (State.alertEdge t s).clk = s.clk := by
  unfold State.alertEdge; split_ifs <;> simp
@[simp] theorem State.alertEdge_tick (s : State) (t : State) : (State.alertEdge t s).tick = s.tick := by
  unfold State.alertEdge; split_ifs <;> simp
@[simp] theorem State.alertEdge_sys (s : State) (t : State) : (State.alertEdge t s).sys = s.sys := by
  unfold State.alertEdge; split_ifs <;> simp
@[simp] theorem State.alertEdge_sec (s : State) (t : State) : (State.alertEdge t s).sec = s.sec := by
  unfold State.alertEdge; split_ifs <;> simp
@[simp] theorem State.alertEdge_tm (s : State) (t : State) : (State.alertEdge t s).tm = s.tm := by
  unfold State.alertEdge; split_ifs <;> simp
@[simp] theorem State.alertEdge_cmd (s : State) (t : State) : (State.alertEdge t s).cmd = s.cmd := by
  unfold State.alertEdge; split_ifs <;> simp
@[simp] theorem State.alertEdge_txn (s : State) (t : State) : (State.alertEdge t s).txn = s.txn := by
  unfold State.alertEdge; split_ifs <;> simp
@[simp] theorem State.alertEdge_err (s : State) (t : State) : (State.alertEdge t s).err = s.err := by
  unfold State.alertEdge; split_ifs <;> simp
@[simp] theorem State.alertEdge_fab (s : State) (t : State) : (State.alertEdge t s).fab = s.fab := by
  unfold State.alertEdge; split_ifs <;> simp
@[simp] theorem State.alertEdge_cdc (s : State) (t : State) : (State.alertEdge t s).cdc = s.cdc := by
  unfold State.alertEdge; split_ifs <;> simp
@[simp] theorem State.alertEdge_ring (s : State) (t : State) : (State.alertEdge t s).ring = s.ring := by
  unfold State.alertEdge; split_ifs <;> simp
@[simp] theorem State.alertEdge_memc (s : State) (t : State) : (State.alertEdge t s).memc = s.memc := by
  unfold State.alertEdge; split_ifs <;> simp
@[simp] theorem State.alertEdge_eth (s : State) (t : State) : (State.alertEdge t s).eth = s.eth := by
  unfold State.alertEdge; split_ifs <;> simp
@[simp] theorem State.alertEdge_ing (s : State) (t : State) : (State.alertEdge t s).ing = s.ing := by
  unfold State.alertEdge; split_ifs <;> simp
@[simp] theorem State.alertEdge_cmp (s : State) (t : State) : (State.alertEdge t s).cmp = s.cmp := by
  unfold State.alertEdge; split_ifs <;> simp
@[simp] theorem State.alertEdge_lnk (s : State) (t : State) : (State.alertEdge t s).lnk = s.lnk := by
  unfold State.alertEdge; split_ifs <;> simp
@[simp] theorem State.alertEdge_tile (s : State) (t : State) : (State.alertEdge t s).tile = s.tile := by
  unfold State.alertEdge; split_ifs <;> simp
@[simp] theorem State.alertEdge_red (s : State) (t : State) : (State.alertEdge t s).red = s.red := by
  unfold State.alertEdge; split_ifs <;> simp
@[simp] theorem State.alertEdge_rnd (s : State) (t : State) : (State.alertEdge t s).rnd = s.rnd := by
  unfold State.alertEdge; split_ifs <;> simp
@[simp] theorem State.alertEdge_pending (s : State) (t : State) : (State.alertEdge t s).pending = s.pending := by
  unfold State.alertEdge; split_ifs <;> simp

@[simp] theorem State.log_mem (s : State) (n : RecName) (d : List Byte) (p : Nat) : (s.log n d p).mem = s.mem := by
  unfold State.log; dsimp only; split_ifs <;> simp [State.crossEvent, State.updCross]
@[simp] theorem State.log_clk (s : State) (n : RecName) (d : List Byte) (p : Nat) : (s.log n d p).clk = s.clk := by
  unfold State.log; dsimp only; split_ifs <;> simp [State.crossEvent, State.updCross]
@[simp] theorem State.log_tick (s : State) (n : RecName) (d : List Byte) (p : Nat) : (s.log n d p).tick = s.tick := by
  unfold State.log; dsimp only; split_ifs <;> simp [State.crossEvent, State.updCross]
@[simp] theorem State.log_sys (s : State) (n : RecName) (d : List Byte) (p : Nat) : (s.log n d p).sys = s.sys := by
  unfold State.log; dsimp only; split_ifs <;> simp [State.crossEvent, State.updCross]
@[simp] theorem State.log_sec (s : State) (n : RecName) (d : List Byte) (p : Nat) : (s.log n d p).sec = s.sec := by
  unfold State.log; dsimp only; split_ifs <;> simp [State.crossEvent, State.updCross]
@[simp] theorem State.log_tm (s : State) (n : RecName) (d : List Byte) (p : Nat) : (s.log n d p).tm = s.tm := by
  unfold State.log; dsimp only; split_ifs <;> simp [State.crossEvent, State.updCross]
@[simp] theorem State.log_cmd (s : State) (n : RecName) (d : List Byte) (p : Nat) : (s.log n d p).cmd = s.cmd := by
  unfold State.log; dsimp only; split_ifs <;> simp [State.crossEvent, State.updCross]
@[simp] theorem State.log_txn (s : State) (n : RecName) (d : List Byte) (p : Nat) : (s.log n d p).txn = s.txn := by
  unfold State.log; dsimp only; split_ifs <;> simp [State.crossEvent, State.updCross]
@[simp] theorem State.log_ring (s : State) (n : RecName) (d : List Byte) (p : Nat) : (s.log n d p).ring = s.ring := by
  unfold State.log; dsimp only; split_ifs <;> simp [State.crossEvent, State.updCross]
@[simp] theorem State.log_memc (s : State) (n : RecName) (d : List Byte) (p : Nat) : (s.log n d p).memc = s.memc := by
  unfold State.log; dsimp only; split_ifs <;> simp [State.crossEvent, State.updCross]
@[simp] theorem State.log_eth (s : State) (n : RecName) (d : List Byte) (p : Nat) : (s.log n d p).eth = s.eth := by
  unfold State.log; dsimp only; split_ifs <;> simp [State.crossEvent, State.updCross]
@[simp] theorem State.log_ing (s : State) (n : RecName) (d : List Byte) (p : Nat) : (s.log n d p).ing = s.ing := by
  unfold State.log; dsimp only; split_ifs <;> simp [State.crossEvent, State.updCross]
@[simp] theorem State.log_cmp (s : State) (n : RecName) (d : List Byte) (p : Nat) : (s.log n d p).cmp = s.cmp := by
  unfold State.log; dsimp only; split_ifs <;> simp [State.crossEvent, State.updCross]
@[simp] theorem State.log_lnk (s : State) (n : RecName) (d : List Byte) (p : Nat) : (s.log n d p).lnk = s.lnk := by
  unfold State.log; dsimp only; split_ifs <;> simp [State.crossEvent, State.updCross]
@[simp] theorem State.log_tile (s : State) (n : RecName) (d : List Byte) (p : Nat) : (s.log n d p).tile = s.tile := by
  unfold State.log; dsimp only; split_ifs <;> simp [State.crossEvent, State.updCross]
@[simp] theorem State.log_red (s : State) (n : RecName) (d : List Byte) (p : Nat) : (s.log n d p).red = s.red := by
  unfold State.log; dsimp only; split_ifs <;> simp [State.crossEvent, State.updCross]
@[simp] theorem State.log_rnd (s : State) (n : RecName) (d : List Byte) (p : Nat) : (s.log n d p).rnd = s.rnd := by
  unfold State.log; dsimp only; split_ifs <;> simp [State.crossEvent, State.updCross]
@[simp] theorem State.log_pending (s : State) (n : RecName) (d : List Byte) (p : Nat) : (s.log n d p).pending = s.pending := by
  unfold State.log; dsimp only; split_ifs <;> simp [State.crossEvent, State.updCross]

/-- A cell originated changes no register outside the fabric's counters. -/
theorem State.originate_word (s : State) (c : Cell) {a : Nat} (h0 : a ≠ (F.FAB_CNT_COUNT 0).addr)
    (h7 : a ≠ (F.FAB_CNT_COUNT 7).addr) (h11 : a ≠ (F.FAB_CNT_COUNT 11).addr) : (s.originate c).word a = s.word a := by
  have key : (s.bump (F.FAB_CNT_COUNT 0)).word a = s.word a := State.word_bump_other _ _ _ h0
  unfold State.originate; dsimp only
  split_ifs
  · exact key
  · unfold State.holdOwn State.holdCell
    split_ifs
    · rw [State.word_bump_other _ _ _ h11]; exact key
    · exact key
  · unfold State.sendOwn; dsimp only
    split_ifs
    · exact key
    · rw [State.word_bump_other _ _ _ h7]; exact key
    · simpa [State.word] using key

/-- A record written changes no register outside the counters of errors and of the fabric. -/
theorem State.log_word (s : State) (n : RecName) (d : List Byte) (p : Nat) {a : Nat}
    (he : ∀ k, a ≠ (F.ERR_CNT_COUNT k).addr) (hf : ∀ k, a ≠ (F.FAB_CNT_COUNT k).addr) :
    (s.log n d p).word a = s.word a := by
  have push : ∀ (t : State) (r : ErrRec), (t.pushRec r).word a = t.word a := by
    intro t r; unfold State.pushRec; split_ifs
    · rw [State.word_bump_other _ _ _ (he 4)]; rfl
    · rfl
  have edge : ∀ t u : State, (State.alertEdge t u).word a = u.word a := by
    intro t u; simp [State.word]
  have alarm : ∀ (t : State) (r : ErrRec), (t.alarmCell r).word a = t.word a := by
    intro t r; unfold State.alarmCell; dsimp only
    split
    · rfl
    · generalize (if t.err.alarmSec = timeSec t.clk then t.err.alarmCount else 0) = n
      split
      · rw [State.word_bump_other _ _ _ (he 6)]; rfl
      · change State.word (State.originate _ _) a = _
        rw [State.originate_word _ _ (hf 0) (hf 7) (hf 11), State.word_bump_other _ _ _ (he 5)]; rfl
  unfold State.log; dsimp only
  rw [edge]
  split_ifs
  · rw [alarm]
    change State.word (State.bump _ _) a = _
    rw [State.word_bump_other _ _ _ (he _), push]; rfl
  · rw [State.word_bump_other _ _ _ (he _), push]; rfl

/-! ## Reads and writes of words -/

@[simp] theorem State.limit_mem (s : State) (k m : Nat) : (s.limit k m).2.mem = s.mem := by
  unfold State.limit; dsimp only; split_ifs <;> rfl

@[simp] theorem State.accountWord_mem (s : State) (cl : Client) (w : Nat) : (s.accountWord cl w).mem = s.mem := by
  unfold State.accountWord
  split
  · rfl
  · dsimp only
    split_ifs <;> simp <;> split <;> simp

@[simp] theorem State.serve_mem (s : State) (cl : Client) (a n : Nat) : (s.serve cl a n).mem = s.mem := by
  unfold State.serve
  generalize hl : List.range 4 = l
  clear hl
  suffices h : ∀ u : State, u.mem = s.mem → (l.foldl (fun (t : State) c =>
      let lo := max a (0x800000000 * c)
      let hi := min (a + n) (0x800000000 * c + s.capacity c)
      if s.channelIn c ∧ lo < hi then t.bump (F.MEM_CLS_CNT_COUNT c (cl.rank - 1) 0) ((hi - 1) / 64 + 1 - lo / 64)
      else t) u).mem = s.mem from h s rfl
  induction l with
  | nil => intro u h; exact h
  | cons c l ih =>
    intro u h
    rw [List.foldl_cons]
    apply ih
    dsimp only
    split_ifs <;> simp [h]

@[simp] theorem State.accountWords_mem (s : State) (cl : Client) (a n : Nat) : (s.accountWords cl a n).mem = s.mem := by
  unfold State.accountWords
  rw [State.bump_mem]
  generalize s.markedWords a n = l
  induction l generalizing s with
  | nil => rfl
  | cons w l ih => rw [List.foldl_cons, ih, State.accountWord_mem]

@[simp] theorem State.accountRead_mem (s : State) (cl : Client) (a n : Nat) : (s.accountRead cl a n).mem = s.mem := by
  simp [State.accountRead]

@[simp] theorem State.tblInvalidate_mem (s : State) (t : Nat) : (s.tblInvalidate t).mem = s.mem := by
  simp [State.tblInvalidate]

@[simp] theorem State.noteWrite_mem (s : State) (a n : Nat) : (s.noteWrite a n).mem = s.mem := by
  have step : ∀ (t : State) (k : Nat) (b : Bool), (if b then t.tblInvalidate k else t).mem = t.mem := by
    intro t k b; split <;> simp
  unfold State.noteWrite; dsimp only [List.foldl]
  split
  · split <;> simp only [step]
  · simp only [step]

/-- The bytes of a word after it is stored: the word's own at its eight addresses, every other as before. -/
theorem State.byte_storeWord (s : State) (w : Nat) (d : BitVec 64) (p : Bool) (x : Nat) :
    (s.storeWord w d p).byte x =
      if w ≤ x ∧ x < w + 8 then BitVec.ofNat 8 (d.toNat / 256 ^ (x - w)) else s.byte x := by
  have fold : ∀ (n : Nat) (t : State), ((List.range n).foldl (fun (u : State) i =>
      u.setByte (w + i) (BitVec.ofNat 8 (d.toNat / 256 ^ i))) t).byte x =
      if w ≤ x ∧ x < w + n then BitVec.ofNat 8 (d.toNat / 256 ^ (x - w)) else t.byte x := by
    intro n
    induction n with
    | zero => intro t; rw [if_neg (by omega)]; rfl
    | succ n ih =>
      intro t
      rw [List.range_succ, List.foldl_append, List.foldl_cons, List.foldl_nil]
      by_cases h : x = w + n
      · subst h; rw [State.byte_setByte_same, if_pos (by omega)]; simp
      · rw [State.byte_setByte_other _ _ h, ih]
        by_cases h' : w ≤ x ∧ x < w + n
        · rw [if_pos h', if_pos (by omega)]
        · rw [if_neg h', if_neg (by omega)]
  have h8 := fold 8 (s.noteWrite w 8)
  have hn : (s.noteWrite w 8).byte x = s.byte x := by simp [State.byte]
  rw [hn] at h8
  rw [← h8]
  unfold State.storeWord; dsimp only
  split_ifs
  · split <;> simp [State.byte]
  · rfl

theorem State.storeWord_wf {s : State} (w : Nat) (d : BitVec 64) (p : Bool) (h : Memory.wf s.mem = true) :
    Memory.wf (s.storeWord w d p).mem = true := by
  have fold : ∀ (l : List Nat) (t : State), Memory.wf t.mem = true → Memory.wf (l.foldl (fun (u : State) i =>
      u.setByte (w + i) (BitVec.ofNat 8 (d.toNat / 256 ^ i))) t).mem = true := by
    intro l
    induction l with
    | nil => exact fun _ ht => ht
    | cons i l ih => exact fun t ht => ih _ (State.setByte_wf _ _ ht)
  have h8 := fold (List.range 8) (s.noteWrite w 8) (by simpa using h)
  unfold State.storeWord; dsimp only
  split_ifs
  · split <;> simpa using h8
  · exact h8

@[simp] theorem State.dropScrub_mem (s : State) (cl : Client) (w : Nat) : (s.dropScrub cl w).mem = s.mem := by
  unfold State.dropScrub; dsimp only
  generalize List.filter _ s.memc.scrubBack = gone
  split_ifs
  · rfl
  · split <;> simp

/-- A word stored by a client leaves memory as it was, where its port loses a collision (R376), or as `storeWord` does. -/
theorem State.putWord_mem (s : State) (cl : Client) (w : Nat) (d : BitVec 64) (p : Bool) :
    (s.putWord cl w d p).mem = s.mem ∨ ∃ t : State, t.mem = s.mem ∧ (s.putWord cl w d p).mem = (t.storeWord w d p).mem := by
  unfold State.putWord; dsimp only
  split
  · split
    · left; split <;> simp
    · refine .inr ⟨_, ?_, rfl⟩
      split <;> simp
  · exact .inr ⟨_, State.dropScrub_mem _ _ _, rfl⟩

theorem State.putWord_wf {s : State} (cl : Client) (w : Nat) (d : BitVec 64) (p : Bool) (h : Memory.wf s.mem = true) :
    Memory.wf (s.putWord cl w d p).mem = true := by
  rcases s.putWord_mem cl w d p with e | ⟨t, et, e⟩
  · rw [e]; exact h
  · rw [e]; exact State.storeWord_wf _ _ _ (et ▸ h)

theorem State.writeWord_wf {s : State} (cl : Client) (w : Nat) (bs : List (Option Byte)) (h : Memory.wf s.mem = true) :
    Memory.wf (s.writeWord cl w bs).mem = true := by
  unfold State.writeWord; dsimp only
  split
  · exact h
  · split
    · exact State.putWord_wf _ _ _ _ h
    · exact State.putWord_wf _ _ _ _ (by simpa using h)

theorem State.putBytes_wf {s : State} (cl : Client) (a : Nat) (bs : List Byte) (h : Memory.wf s.mem = true) :
    Memory.wf (s.putBytes cl a bs).mem = true := by
  unfold State.putBytes; dsimp only
  split_ifs
  · exact h
  · generalize List.range ((a + bs.length - 1) / 8 + 1 - a / 8) = l
    induction l generalizing s with
    | nil => exact h
    | cons i l ih => rw [List.foldl_cons]; exact ih (State.writeWord_wf _ _ _ h)

theorem State.writeBytes_wf {s : State} (cl : Client) (a : Nat) (bs : List Byte) (h : Memory.wf s.mem = true) :
    Memory.wf (s.writeBytes cl a bs).mem = true := by
  unfold State.writeBytes
  rw [State.serve_mem]; exact State.putBytes_wf _ _ _ h

theorem State.copyWord_wf {s : State} (rd wr : Client) (src dst : Nat) (h : Memory.wf s.mem = true) :
    Memory.wf (s.copyWord rd wr src dst).2.mem = true := by
  unfold State.copyWord; dsimp only
  split
  · simpa using h
  · exact State.putWord_wf _ _ _ _ (by simpa using h)

end Sys2Proof.Machine
end

