-- ==== Sys2Proof/Laws/Receive.lean ====
section
/-! SUPPORT. A packet at its turn: receipt comes to its body, and its body's answer to its reply. -/

namespace Sys2Proof.Machine

open Sys2Proof

theorem State.sess_updSess_same (s : State) {k : Nat} (f : Sess → Sess) (h : k < s.cmd.sess.length) :
    (s.updSess k f).sess k = f (s.sess k) := by
  simp [State.sess, State.updSess, State.updCmd, List.getD_eq_getElem?_getD, h]

theorem State.sess_updSess_other (s : State) {k j : Nat} (f : Sess → Sess) (h : j ≠ k) :
    (s.updSess k f).sess j = s.sess j := by
  simp [State.sess, State.updSess, State.updCmd, List.getD_eq_getElem?_getD, Ne.symm h]

@[simp] theorem State.sess_bump (s : State) (f : Fld) (n k : Nat) : (s.bump f n).sess k = s.sess k := rfl

@[simp] theorem State.length_updSess (s : State) (k : Nat) (f : Sess → Sess) :
    (s.updSess k f).cmd.sess.length = s.cmd.sess.length := by simp [State.updSess, State.updCmd]

/-- A session that is open lies in the table. -/
theorem State.lt_of_isOpen {s : State} {k : Nat} (h : (s.sess k).isOpen = true) : k < s.cmd.sess.length := by
  by_contra hk
  simp [State.sess, List.getD_eq_getElem?_getD, List.getElem?_eq_none (not_lt.mp hk)] at h

/-- The session found for a host identifier is open and its own. -/
theorem State.sessionOf_some {s : State} {src : BitVec 16} {k : Nat} (h : s.sessionOf src = some k) :
    (s.sess k).isOpen = true ∧ (s.sess k).src = src ∧ k < 64 := by
  have h1 := List.find?_some h
  have h2 := List.mem_of_find?_eq_some h
  simp only [Bool.and_eq_true, beq_iff_eq] at h1
  exact ⟨h1.1, h1.2, by simpa using h2⟩

/-- What `ready` says, part by part. -/
theorem State.ready_iff {s : State} {c : Instr} {k : Nat} {x : Option Txn} :
    s.ready c k x = true ↔
      s.accepts (Item.cmd c).hdr.via = true ∧ s.executes (Item.cmd c).hdr = true ∧ (Item.cmd c).opcode ≠ 0x01 ∧
      s.sessionOf (Item.cmd c).hdr.src = some k ∧ viaNumber (s.sess k).via = viaNumber (Item.cmd c).hdr.via ∧
      (Item.cmd c).hdr.seq = (s.sess k).expected ∧ s.joinHolds k = false ∧ (s.sess k).held = [] ∧
      (s.sess k).waiting = [] ∧ (s.sess k).assigning = none ∧
      (s.turn c k).checkPacket (s.sess k).uid (.cmd c) = .ok x ∧
      ((Item.cmd c).barrier && (s.turn c k).opsRunning (s.sess k).uid) = false := by
  unfold State.ready State.atTurn
  cases hc : (s.turn c k).checkPacket (s.sess k).uid (.cmd c) <;>
    cases hb : (Item.cmd c).barrier <;> simp [hc, hb, and_assoc]

/-- The session of a packet at its turn. -/
theorem State.sess_turn {s : State} {c : Instr} {k : Nat} (h : k < s.cmd.sess.length) :
    (s.turn c k).sess k =
      { s.sess k with via := nextVia (s.sess k).via (Item.cmd c).hdr.via, expected := (s.sess k).expected + 1 } := by
  rw [State.turn, State.sess_bump, State.sess_updSess_same _ _ (by simpa using h), State.sess_updSess_same _ _ h]

/-- A packet at its turn is executed (R86, R89). -/
theorem State.receive_ready {s : State} {c : Instr} {k : Nat} {x : Option Txn} (h : s.ready c k x = true) :
    s.receive (.cmd c) = ((s.turn c k).execItem k (.cmd c) x).releaseAll k := by
  obtain ⟨ha, he, ho, hs, hv, hq, hj, hh, hw, hg, hc, hb⟩ := State.ready_iff.mp h
  have hk := State.lt_of_isOpen (State.sessionOf_some hs).1
  let s1 := s.updSess k fun e => { e with via := nextVia e.via (Item.cmd c).hdr.via }
  have e1 : s1.sess k = { s.sess k with via := nextVia (s.sess k).via (Item.cmd c).hdr.via } :=
    State.sess_updSess_same _ _ hk
  have hj1 : s1.joinHolds k = false := by
    have : s1.joinHolds k = s.joinHolds k := by simp [State.joinHolds, e1]; rfl
    rw [this, hj]
  have e2 := State.sess_turn (s := s) (c := c) hk
  have hd : distance (s.sess k).expected (Item.cmd c).hdr.seq = 0 := by simp [distance, hq]
  have hrecv : s.receive (.cmd c) = s1.sequence k (.cmd c) := by
    simp only [State.receive, ha, he, hs, hv, Bool.true_eq_false, if_false, if_neg ho, ne_eq, not_true_eq_false, s1]
  have hseq : s1.sequence k (.cmd c) = (s1.dispatch k (.cmd c)).releaseAll k := by
    simp [State.sequence, e1, hd, hj1]
  have hdisp : s1.dispatch k (.cmd c) = (s.turn c k).execItem k (.cmd c) x := by
    have e3 : ((s1.updSess k fun e => { e with expected := e.expected + 1 }).sess k) =
        { s.sess k with via := nextVia (s.sess k).via (Item.cmd c).hdr.via, expected := (s.sess k).expected + 1 } := by
      rw [State.sess_updSess_same _ _ (by simpa [s1] using hk), e1]
    have hc' : ((s1.updSess k fun e => { e with expected := e.expected + 1 }).bump (F.CMD_CNT_COUNT 0)).checkPacket
        (s.sess k).uid (.cmd c) = .ok x := hc
    have hb' : ((Item.cmd c).barrier && ((s1.updSess k fun e => { e with expected := e.expected + 1 }).bump
        (F.CMD_CNT_COUNT 0)).opsRunning (s.sess k).uid) = false := hb
    simp only [State.dispatch, e3, hw, hg, State.runItem, ne_eq, not_true_eq_false, Option.isSome_none,
      Bool.false_eq_true, or_self, if_false, hc']
    simp only [Bool.and_eq_false_iff] at hb'
    rw [if_neg]
    · rfl
    · rintro ⟨p, q⟩
      rcases hb' with h' | h'
      · rw [p] at h'; exact Bool.noConfusion h'
      · rw [q] at h'; exact Bool.noConfusion h'
  rw [hrecv, hseq, hdisp]

/-- A packet at its turn whose body ends with an answer is answered (R71, R90). -/
theorem State.receive_answered {s u : State} {c : Instr} {k : Nat} {x : Option Txn} {st : BitVec 8} {ws : List Word}
    (h : s.ready c k x = true) (hb : (s.turn c k).hostBody (s.who k) x c = .done st ws u) :
    s.receive (.cmd c) = u.answered s c k st ws := by
  have hk := State.lt_of_isOpen (State.sessionOf_some (State.ready_iff.mp h).2.2.2.1).1
  have e2 := State.sess_turn (s := s) (c := c) hk
  have : (s.turn c k).execItem k (.cmd c) x =
      u.finishItem k (nextVia (s.sess k).via (Item.cmd c).hdr.via) (.cmd c) st ws := by
    have hb' : (s.turn c k).hostBody ⟨(s.sess k).uid, BitVec.ofNat 6 k, (s.sess k).src⟩ x c = .done st ws u := hb
    simp only [State.execItem, e2, State.spell, hb']
  rw [State.receive_ready h, this, State.answered]

end Sys2Proof.Machine
end

