-- ==== Sys2Proof/Laws/OpSlot.lean ====
section
/-! SUPPORT. Laws of sessions and operation slots: what an update of one leaves of the others and of the rest of the state,
what the start and the end of an operation do to its slot. -/

namespace Sys2Proof.Machine

open Sys2Proof

/-! ## What updates of the session and slot tables leave -/

@[simp] theorem State.updSess_regs (s : State) (k : Nat) (g : Sess → Sess) : (s.updSess k g).regs = s.regs := rfl
@[simp] theorem State.updSess_mem (s : State) (k : Nat) (g : Sess → Sess) : (s.updSess k g).mem = s.mem := rfl
@[simp] theorem State.updSess_clk (s : State) (k : Nat) (g : Sess → Sess) : (s.updSess k g).clk = s.clk := rfl
@[simp] theorem State.updSess_tick (s : State) (k : Nat) (g : Sess → Sess) : (s.updSess k g).tick = s.tick := rfl
@[simp] theorem State.updSess_sys (s : State) (k : Nat) (g : Sess → Sess) : (s.updSess k g).sys = s.sys := rfl
@[simp] theorem State.updSess_sec (s : State) (k : Nat) (g : Sess → Sess) : (s.updSess k g).sec = s.sec := rfl
@[simp] theorem State.updSess_tm (s : State) (k : Nat) (g : Sess → Sess) : (s.updSess k g).tm = s.tm := rfl
@[simp] theorem State.updSess_txn (s : State) (k : Nat) (g : Sess → Sess) : (s.updSess k g).txn = s.txn := rfl
@[simp] theorem State.updSess_err (s : State) (k : Nat) (g : Sess → Sess) : (s.updSess k g).err = s.err := rfl
@[simp] theorem State.updSess_fab (s : State) (k : Nat) (g : Sess → Sess) : (s.updSess k g).fab = s.fab := rfl
@[simp] theorem State.updSess_cdc (s : State) (k : Nat) (g : Sess → Sess) : (s.updSess k g).cdc = s.cdc := rfl
@[simp] theorem State.updSess_ring (s : State) (k : Nat) (g : Sess → Sess) : (s.updSess k g).ring = s.ring := rfl
@[simp] theorem State.updSess_memc (s : State) (k : Nat) (g : Sess → Sess) : (s.updSess k g).memc = s.memc := rfl
@[simp] theorem State.updSess_eth (s : State) (k : Nat) (g : Sess → Sess) : (s.updSess k g).eth = s.eth := rfl
@[simp] theorem State.updSess_ing (s : State) (k : Nat) (g : Sess → Sess) : (s.updSess k g).ing = s.ing := rfl
@[simp] theorem State.updSess_cmp (s : State) (k : Nat) (g : Sess → Sess) : (s.updSess k g).cmp = s.cmp := rfl
@[simp] theorem State.updSess_lnk (s : State) (k : Nat) (g : Sess → Sess) : (s.updSess k g).lnk = s.lnk := rfl
@[simp] theorem State.updSess_tile (s : State) (k : Nat) (g : Sess → Sess) : (s.updSess k g).tile = s.tile := rfl
@[simp] theorem State.updSess_red (s : State) (k : Nat) (g : Sess → Sess) : (s.updSess k g).red = s.red := rfl
@[simp] theorem State.updSess_rnd (s : State) (k : Nat) (g : Sess → Sess) : (s.updSess k g).rnd = s.rnd := rfl
@[simp] theorem State.updSess_out (s : State) (k : Nat) (g : Sess → Sess) : (s.updSess k g).out = s.out := rfl
@[simp] theorem State.updSess_pending (s : State) (k : Nat) (g : Sess → Sess) : (s.updSess k g).pending = s.pending := rfl

@[simp] theorem State.setOp_regs (s : State) (k : Nat) (o : OpSlot) : (s.setOp k o).regs = s.regs := rfl
@[simp] theorem State.setOp_mem (s : State) (k : Nat) (o : OpSlot) : (s.setOp k o).mem = s.mem := rfl
@[simp] theorem State.setOp_clk (s : State) (k : Nat) (o : OpSlot) : (s.setOp k o).clk = s.clk := rfl
@[simp] theorem State.setOp_tick (s : State) (k : Nat) (o : OpSlot) : (s.setOp k o).tick = s.tick := rfl
@[simp] theorem State.setOp_sys (s : State) (k : Nat) (o : OpSlot) : (s.setOp k o).sys = s.sys := rfl
@[simp] theorem State.setOp_sec (s : State) (k : Nat) (o : OpSlot) : (s.setOp k o).sec = s.sec := rfl
@[simp] theorem State.setOp_tm (s : State) (k : Nat) (o : OpSlot) : (s.setOp k o).tm = s.tm := rfl
@[simp] theorem State.setOp_txn (s : State) (k : Nat) (o : OpSlot) : (s.setOp k o).txn = s.txn := rfl
@[simp] theorem State.setOp_err (s : State) (k : Nat) (o : OpSlot) : (s.setOp k o).err = s.err := rfl
@[simp] theorem State.setOp_fab (s : State) (k : Nat) (o : OpSlot) : (s.setOp k o).fab = s.fab := rfl
@[simp] theorem State.setOp_cdc (s : State) (k : Nat) (o : OpSlot) : (s.setOp k o).cdc = s.cdc := rfl
@[simp] theorem State.setOp_ring (s : State) (k : Nat) (o : OpSlot) : (s.setOp k o).ring = s.ring := rfl
@[simp] theorem State.setOp_memc (s : State) (k : Nat) (o : OpSlot) : (s.setOp k o).memc = s.memc := rfl
@[simp] theorem State.setOp_eth (s : State) (k : Nat) (o : OpSlot) : (s.setOp k o).eth = s.eth := rfl
@[simp] theorem State.setOp_ing (s : State) (k : Nat) (o : OpSlot) : (s.setOp k o).ing = s.ing := rfl
@[simp] theorem State.setOp_cmp (s : State) (k : Nat) (o : OpSlot) : (s.setOp k o).cmp = s.cmp := rfl
@[simp] theorem State.setOp_lnk (s : State) (k : Nat) (o : OpSlot) : (s.setOp k o).lnk = s.lnk := rfl
@[simp] theorem State.setOp_tile (s : State) (k : Nat) (o : OpSlot) : (s.setOp k o).tile = s.tile := rfl
@[simp] theorem State.setOp_red (s : State) (k : Nat) (o : OpSlot) : (s.setOp k o).red = s.red := rfl
@[simp] theorem State.setOp_rnd (s : State) (k : Nat) (o : OpSlot) : (s.setOp k o).rnd = s.rnd := rfl
@[simp] theorem State.setOp_out (s : State) (k : Nat) (o : OpSlot) : (s.setOp k o).out = s.out := rfl
@[simp] theorem State.setOp_pending (s : State) (k : Nat) (o : OpSlot) : (s.setOp k o).pending = s.pending := rfl

@[simp] theorem State.startOp_regs (s : State) (w : Who) (k : Nat) (opc : BitVec 8) (kd : OpKind) : (s.startOp w k opc kd).regs = s.regs := rfl
@[simp] theorem State.startOp_mem (s : State) (w : Who) (k : Nat) (opc : BitVec 8) (kd : OpKind) : (s.startOp w k opc kd).mem = s.mem := rfl
@[simp] theorem State.startOp_clk (s : State) (w : Who) (k : Nat) (opc : BitVec 8) (kd : OpKind) : (s.startOp w k opc kd).clk = s.clk := rfl
@[simp] theorem State.startOp_tick (s : State) (w : Who) (k : Nat) (opc : BitVec 8) (kd : OpKind) : (s.startOp w k opc kd).tick = s.tick := rfl
@[simp] theorem State.startOp_sys (s : State) (w : Who) (k : Nat) (opc : BitVec 8) (kd : OpKind) : (s.startOp w k opc kd).sys = s.sys := rfl
@[simp] theorem State.startOp_sec (s : State) (w : Who) (k : Nat) (opc : BitVec 8) (kd : OpKind) : (s.startOp w k opc kd).sec = s.sec := rfl
@[simp] theorem State.startOp_tm (s : State) (w : Who) (k : Nat) (opc : BitVec 8) (kd : OpKind) : (s.startOp w k opc kd).tm = s.tm := rfl
@[simp] theorem State.startOp_txn (s : State) (w : Who) (k : Nat) (opc : BitVec 8) (kd : OpKind) : (s.startOp w k opc kd).txn = s.txn := rfl
@[simp] theorem State.startOp_err (s : State) (w : Who) (k : Nat) (opc : BitVec 8) (kd : OpKind) : (s.startOp w k opc kd).err = s.err := rfl
@[simp] theorem State.startOp_fab (s : State) (w : Who) (k : Nat) (opc : BitVec 8) (kd : OpKind) : (s.startOp w k opc kd).fab = s.fab := rfl
@[simp] theorem State.startOp_cdc (s : State) (w : Who) (k : Nat) (opc : BitVec 8) (kd : OpKind) : (s.startOp w k opc kd).cdc = s.cdc := rfl
@[simp] theorem State.startOp_ring (s : State) (w : Who) (k : Nat) (opc : BitVec 8) (kd : OpKind) : (s.startOp w k opc kd).ring = s.ring := rfl
@[simp] theorem State.startOp_memc (s : State) (w : Who) (k : Nat) (opc : BitVec 8) (kd : OpKind) : (s.startOp w k opc kd).memc = s.memc := rfl
@[simp] theorem State.startOp_eth (s : State) (w : Who) (k : Nat) (opc : BitVec 8) (kd : OpKind) : (s.startOp w k opc kd).eth = s.eth := rfl
@[simp] theorem State.startOp_ing (s : State) (w : Who) (k : Nat) (opc : BitVec 8) (kd : OpKind) : (s.startOp w k opc kd).ing = s.ing := rfl
@[simp] theorem State.startOp_cmp (s : State) (w : Who) (k : Nat) (opc : BitVec 8) (kd : OpKind) : (s.startOp w k opc kd).cmp = s.cmp := rfl
@[simp] theorem State.startOp_lnk (s : State) (w : Who) (k : Nat) (opc : BitVec 8) (kd : OpKind) : (s.startOp w k opc kd).lnk = s.lnk := rfl
@[simp] theorem State.startOp_tile (s : State) (w : Who) (k : Nat) (opc : BitVec 8) (kd : OpKind) : (s.startOp w k opc kd).tile = s.tile := rfl
@[simp] theorem State.startOp_red (s : State) (w : Who) (k : Nat) (opc : BitVec 8) (kd : OpKind) : (s.startOp w k opc kd).red = s.red := rfl
@[simp] theorem State.startOp_rnd (s : State) (w : Who) (k : Nat) (opc : BitVec 8) (kd : OpKind) : (s.startOp w k opc kd).rnd = s.rnd := rfl
@[simp] theorem State.startOp_out (s : State) (w : Who) (k : Nat) (opc : BitVec 8) (kd : OpKind) : (s.startOp w k opc kd).out = s.out := rfl
@[simp] theorem State.startOp_pending (s : State) (w : Who) (k : Nat) (opc : BitVec 8) (kd : OpKind) : (s.startOp w k opc kd).pending = s.pending := rfl

@[simp] theorem State.freeOp_regs (s : State) (k : Nat) : (s.freeOp k).regs = s.regs := rfl
@[simp] theorem State.freeOp_mem (s : State) (k : Nat) : (s.freeOp k).mem = s.mem := rfl
@[simp] theorem State.freeOp_clk (s : State) (k : Nat) : (s.freeOp k).clk = s.clk := rfl
@[simp] theorem State.freeOp_tick (s : State) (k : Nat) : (s.freeOp k).tick = s.tick := rfl
@[simp] theorem State.freeOp_sys (s : State) (k : Nat) : (s.freeOp k).sys = s.sys := rfl
@[simp] theorem State.freeOp_sec (s : State) (k : Nat) : (s.freeOp k).sec = s.sec := rfl
@[simp] theorem State.freeOp_tm (s : State) (k : Nat) : (s.freeOp k).tm = s.tm := rfl
@[simp] theorem State.freeOp_txn (s : State) (k : Nat) : (s.freeOp k).txn = s.txn := rfl
@[simp] theorem State.freeOp_err (s : State) (k : Nat) : (s.freeOp k).err = s.err := rfl
@[simp] theorem State.freeOp_fab (s : State) (k : Nat) : (s.freeOp k).fab = s.fab := rfl
@[simp] theorem State.freeOp_cdc (s : State) (k : Nat) : (s.freeOp k).cdc = s.cdc := rfl
@[simp] theorem State.freeOp_ring (s : State) (k : Nat) : (s.freeOp k).ring = s.ring := rfl
@[simp] theorem State.freeOp_memc (s : State) (k : Nat) : (s.freeOp k).memc = s.memc := rfl
@[simp] theorem State.freeOp_eth (s : State) (k : Nat) : (s.freeOp k).eth = s.eth := rfl
@[simp] theorem State.freeOp_ing (s : State) (k : Nat) : (s.freeOp k).ing = s.ing := rfl
@[simp] theorem State.freeOp_cmp (s : State) (k : Nat) : (s.freeOp k).cmp = s.cmp := rfl
@[simp] theorem State.freeOp_lnk (s : State) (k : Nat) : (s.freeOp k).lnk = s.lnk := rfl
@[simp] theorem State.freeOp_tile (s : State) (k : Nat) : (s.freeOp k).tile = s.tile := rfl
@[simp] theorem State.freeOp_red (s : State) (k : Nat) : (s.freeOp k).red = s.red := rfl
@[simp] theorem State.freeOp_rnd (s : State) (k : Nat) : (s.freeOp k).rnd = s.rnd := rfl
@[simp] theorem State.freeOp_out (s : State) (k : Nat) : (s.freeOp k).out = s.out := rfl
@[simp] theorem State.freeOp_pending (s : State) (k : Nat) : (s.freeOp k).pending = s.pending := rfl

@[simp] theorem State.finishOp_regs (s : State) (k : Nat) (f : BitVec 8) (r : List Word) : (s.finishOp k f r).regs = s.regs := by
  unfold State.finishOp; dsimp only; split <;> rfl
@[simp] theorem State.finishOp_mem (s : State) (k : Nat) (f : BitVec 8) (r : List Word) : (s.finishOp k f r).mem = s.mem := by
  unfold State.finishOp; dsimp only; split <;> rfl
@[simp] theorem State.finishOp_clk (s : State) (k : Nat) (f : BitVec 8) (r : List Word) : (s.finishOp k f r).clk = s.clk := by
  unfold State.finishOp; dsimp only; split <;> rfl
@[simp] theorem State.finishOp_tick (s : State) (k : Nat) (f : BitVec 8) (r : List Word) : (s.finishOp k f r).tick = s.tick := by
  unfold State.finishOp; dsimp only; split <;> rfl
@[simp] theorem State.finishOp_sys (s : State) (k : Nat) (f : BitVec 8) (r : List Word) : (s.finishOp k f r).sys = s.sys := by
  unfold State.finishOp; dsimp only; split <;> rfl
@[simp] theorem State.finishOp_sec (s : State) (k : Nat) (f : BitVec 8) (r : List Word) : (s.finishOp k f r).sec = s.sec := by
  unfold State.finishOp; dsimp only; split <;> rfl
@[simp] theorem State.finishOp_tm (s : State) (k : Nat) (f : BitVec 8) (r : List Word) : (s.finishOp k f r).tm = s.tm := by
  unfold State.finishOp; dsimp only; split <;> rfl
@[simp] theorem State.finishOp_txn (s : State) (k : Nat) (f : BitVec 8) (r : List Word) : (s.finishOp k f r).txn = s.txn := by
  unfold State.finishOp; dsimp only; split <;> rfl
@[simp] theorem State.finishOp_err (s : State) (k : Nat) (f : BitVec 8) (r : List Word) : (s.finishOp k f r).err = s.err := by
  unfold State.finishOp; dsimp only; split <;> rfl
@[simp] theorem State.finishOp_fab (s : State) (k : Nat) (f : BitVec 8) (r : List Word) : (s.finishOp k f r).fab = s.fab := by
  unfold State.finishOp; dsimp only; split <;> rfl
@[simp] theorem State.finishOp_cdc (s : State) (k : Nat) (f : BitVec 8) (r : List Word) : (s.finishOp k f r).cdc = s.cdc := by
  unfold State.finishOp; dsimp only; split <;> rfl
@[simp] theorem State.finishOp_ring (s : State) (k : Nat) (f : BitVec 8) (r : List Word) : (s.finishOp k f r).ring = s.ring := by
  unfold State.finishOp; dsimp only; split <;> rfl
@[simp] theorem State.finishOp_memc (s : State) (k : Nat) (f : BitVec 8) (r : List Word) : (s.finishOp k f r).memc = s.memc := by
  unfold State.finishOp; dsimp only; split <;> rfl
@[simp] theorem State.finishOp_eth (s : State) (k : Nat) (f : BitVec 8) (r : List Word) : (s.finishOp k f r).eth = s.eth := by
  unfold State.finishOp; dsimp only; split <;> rfl
@[simp] theorem State.finishOp_ing (s : State) (k : Nat) (f : BitVec 8) (r : List Word) : (s.finishOp k f r).ing = s.ing := by
  unfold State.finishOp; dsimp only; split <;> rfl
@[simp] theorem State.finishOp_cmp (s : State) (k : Nat) (f : BitVec 8) (r : List Word) : (s.finishOp k f r).cmp = s.cmp := by
  unfold State.finishOp; dsimp only; split <;> rfl
@[simp] theorem State.finishOp_lnk (s : State) (k : Nat) (f : BitVec 8) (r : List Word) : (s.finishOp k f r).lnk = s.lnk := by
  unfold State.finishOp; dsimp only; split <;> rfl
@[simp] theorem State.finishOp_tile (s : State) (k : Nat) (f : BitVec 8) (r : List Word) : (s.finishOp k f r).tile = s.tile := by
  unfold State.finishOp; dsimp only; split <;> rfl
@[simp] theorem State.finishOp_red (s : State) (k : Nat) (f : BitVec 8) (r : List Word) : (s.finishOp k f r).red = s.red := by
  unfold State.finishOp; dsimp only; split <;> rfl
@[simp] theorem State.finishOp_rnd (s : State) (k : Nat) (f : BitVec 8) (r : List Word) : (s.finishOp k f r).rnd = s.rnd := by
  unfold State.finishOp; dsimp only; split <;> rfl
@[simp] theorem State.finishOp_out (s : State) (k : Nat) (f : BitVec 8) (r : List Word) : (s.finishOp k f r).out = s.out := by
  unfold State.finishOp; dsimp only; split <;> rfl
@[simp] theorem State.finishOp_pending (s : State) (k : Nat) (f : BitVec 8) (r : List Word) : (s.finishOp k f r).pending = s.pending := by
  unfold State.finishOp; dsimp only; split <;> rfl

/-! ## Slots -/

theorem State.op_setOp_same (s : State) {k : Nat} (o : OpSlot) (h : k < s.cmd.ops.length) : (s.setOp k o).op k = o := by
  simp [State.op, State.setOp, State.updCmd, h]

theorem State.op_setOp_other (s : State) {k j : Nat} (o : OpSlot) (h : j ≠ k) : (s.setOp k o).op j = s.op j := by
  simp [State.op, State.setOp, State.updCmd, List.getD_eq_getElem?_getD, Ne.symm h]

@[simp] theorem State.sess_setOp (s : State) (k : Nat) (o : OpSlot) (j : Nat) : (s.setOp k o).sess j = s.sess j := rfl

@[simp] theorem State.op_updSess (s : State) (k : Nat) (f : Sess → Sess) (j : Nat) : (s.updSess k f).op j = s.op j := rfl

/-- A free slot is one of the sixteen and holds nothing. -/
theorem State.opFree_some {s : State} {k : Nat} (h : s.opFree = some k) : k < 16 ∧ (s.op k).st = 0 := by
  unfold State.opFree at h
  exact ⟨List.mem_range.mp (List.mem_of_find?_eq_some h), by simpa using List.find?_some h⟩

/-- An operation starts: its slot RUNS it with the next generation, every other slot stays. -/
theorem State.op_startOp (s : State) (w : Who) {k : Nat} (opc : BitVec 8) (kd : OpKind) (h : k < s.cmd.ops.length) :
    (s.startOp w k opc kd).op k =
        { st := 1, gen := (s.op k).gen + 1, opcode := opc, ownerUid := w.uid, ownerSlot := w.slot, kind := kd,
          start := s.tick } ∧
      ∀ j, j ≠ k → (s.startOp w k opc kd).op j = s.op j :=
  ⟨State.op_setOp_same s _ h, fun _ hj => State.op_setOp_other s _ hj⟩

/-- An operation of a session that still exists ends: its slot is DONE with its final status and result, every other slot
stays. -/
theorem State.op_finishOp (s : State) {k : Nat} (f : BitVec 8) (r : List Word) (h : k < s.cmd.ops.length)
    (ho : (s.op k).orphan = false) :
    (s.finishOp k f r).op k =
        { s.op k with st := 2, progress := 100, final := f, result := r.take 4096, kind := .idle } ∧
      ∀ j, j ≠ k → (s.finishOp k f r).op j = s.op j := by
  have e : s.finishOp k f r =
      s.setOp k { s.op k with st := 2, progress := 100, final := f, result := r.take 4096, kind := .idle } := by
    unfold State.finishOp; simp [ho]
  rw [e]
  exact ⟨State.op_setOp_same s _ h, fun _ hj => State.op_setOp_other s _ hj⟩

/-- An operation whose session has ended ends: its slot is FREE with its generation, every other slot stays. -/
theorem State.op_finishOp_orphan (s : State) {k : Nat} (f : BitVec 8) (r : List Word) (h : k < s.cmd.ops.length)
    (ho : (s.op k).orphan = true) :
    (s.finishOp k f r).op k = { gen := (s.op k).gen } ∧ ∀ j, j ≠ k → (s.finishOp k f r).op j = s.op j := by
  have e : s.finishOp k f r = s.setOp k { gen := (s.op k).gen } := by
    unfold State.finishOp; simp [ho, State.freeOp]
  rw [e]
  exact ⟨State.op_setOp_same s _ h, fun _ hj => State.op_setOp_other s _ hj⟩

end Sys2Proof.Machine
end

