-- ==== Sys2Proof/Tests/Slice0.lean ====
section
/-! SUPPORT. Tests: ill-formed commands the checks refuse, command packets written out from the spec's layouts, the worked
examples of the spec, and, for each obligation with hypotheses, a state and operands that meet them, clause by clause. -/

namespace Sys2Proof.Tests

set_option maxRecDepth 100000
set_option Elab.async false

open Sys2Proof Sys2Proof.Machine

/-! ## What the tests are run on -/

/-- The transport of the packets here. -/
def udp : Via := .udp 1 2 0 0

/-- A header of session 0's next packet. -/
def hd : Hdr := { via := udp, barrier := false, noReply := false, tag := 7, src := 5, dst := 0, seq := 10, txnId := 0 }

/-- The header with another transaction. -/
def hdT (n : BitVec 16) : Hdr := { hd with txnId := n }

/-- The header that asks for no reply. -/
def hdN : Hdr := { hd with noReply := true }

/-- The header with another `SRC`. -/
def hdS (n : BitVec 16) : Hdr := { hd with src := n }

/-- The header with another `SEQ`. -/
def hdQ (n : Word) : Hdr := { hd with seq := n }

/-- A device of a role in a mode, its DRAM wiped, with one open session that expects `SEQ` 10. -/
def base (role mode : Nat) : State :=
  let s := { State.reset with
    sys := { sramReady := true, wiped := BitVec.allOnes 2048, inService := BitVec.allOnes 2048 }
    cmd := { sess := { isOpen := true, uid := 1, src := 5, via := udp, expected := 10 } :: List.replicate 63 {}
             nextUid := 2 } }
  ((s.setFld F.SYS_ROLE_ROLE role).setFld F.SYS_MODE_CUR mode).setFld F.CMD_CFG_UDP_EN 1

/-- The device with a command in front. -/
def queued (c : Instr) (s : State) : State := { s with pending := [c] }

/-- The declaration of the register at an address. -/
def decl (a : Nat) : RegDecl := ((regFind a).getD (⟨0, [], []⟩, [])).1

/-- The device with the session's transaction 3, global or not, in a state, with entries. -/
def withTxn (g : Bool) (st : TxnState) (es : List Entry) (s : State) : State :=
  { s with txn := { s.txn with txns := [{ uid := 1, slot := 0, src := 5, id := 3, global := g, state := st, began := 1, entries := es }]
                               seq := 2 } }

def txn3 (g : Bool) (st : TxnState) (es : List Entry) : Txn :=
  { uid := 1, slot := 0, src := 5, id := 3, global := g, state := st, began := 1, entries := es }

/-- The device with DRAM channel 0 in service. -/
def dram (s : State) : State := (s.setFld (F.MEM_CH_CTRL_IN_SERVICE 0) 1).setFld (F.MEM_CH_STAT_SIZE_LOG2 0) 1

/-- The device with an operation of session 0 RUNNING in slot 2. -/
def running (kind : OpKind) (s : State) : State := s.setOp 2 { st := 1, ownerUid := 1, kind := kind }

/-- The device with one wrong bit in the word at 0x10. -/
def flawed : State :=
  let s := (dram (base 1 2)).setByte 0x10 0x55
  { s with memc := { s.memc with flaws := [(0x10, 1#80 <<< 3)] } }

/-- The target of second 10, its first wingbeat, phase 0. -/
def ten : Target := ⟨10, 0, 0⟩

/-- What the target comes to on the grid in force: frame 600 at 600 * 1001/60000 s, in units of 2^-64 ns. -/
def tenAim : Aim := ⟨600, 184651908177832611676160000000, 184651908177832611676160000000, false⟩

/-- Transaction 3 as a commit for that target accepts it. -/
def accepted3 (g : Bool) (st : TxnState) : Txn :=
  { txn3 g .opened [.write 0x20200 1001] with
    state := st, beat := tenAim.beat, frame := tenAim.frame, phase := 0, at_ := tenAim.at_, accepted := if st = .pending then 2 else 0 }

/-- The device as a root. -/
def root (s : State) : State := s.setFld F.TIME_SRC_SOURCE 1

/-- An action of a session. -/
def action4 (uid : Nat) (at_ : Nat) : Action :=
  { id := 4, uid := uid, slot := 0, src := 5, frame := 600, phase := 0, at_ := at_, opcode := 0x09,
    payload := [0x44, 7], hdr := hd, pend := 0 }

/-- The device with that action. -/
def withAction (uid at_ : Nat) (s : State) : State := { s with txn := { s.txn with actions := [action4 uid at_] } }

/-- As many entries as a transaction holds. -/
def fullEntries : List Entry := List.replicate 4096 (.write 0x20200 1)

/-- The device with port `q` in a state of its lanes. -/
def port (q st : Nat) (s : State) : State := s.setFld (F.LNK_STAT_STATE q) st

/-- The device with its session on the service ring. -/
def onRing (s : State) : State := s.updSess 0 fun e => { e with via := .ring }

/-- A header of the session's next packet by the ring. -/
def hdR : Hdr := { hd with via := .ring }

/-- A tile with both correction tables valid. -/
def tabled (s : State) : State := s.setFld F.LCR_STAT_VALID 3

/-- The device with a second session, the pair's. -/
def paired (s : State) : State :=
  (s.setFld (F.LNK_STAT_STATE (s.fld F.RED_CFG_PAIR_PORT)) lkActive).updSess 1 fun _ =>
    { isOpen := true, uid := 2, src := 6, via := udp, expected := 20 }

/-- The device with one record in its log. -/
def logged (s : State) : State := s.log Rec.pllRelock [1]

/-- The device with fence 3 waiting for value 5 in frame 9, its value 2. -/
def fenced (s : State) : State := s.setFence 3 { visible := 2, timed := [(9, 5)] }

/-- The device at an instar, with an owner's key enrolled. -/
def atInstar (n : Nat) (s : State) : State :=
  (s.setFld F.SYS_INSTAR_INSTAR n).updSec fun c => { c with nvm := { c.nvm with ownerKey := some 7 } }

/-- A provisioning record without entries (R401). -/
def provRecord : List Byte :=
  let head : List Byte := [0x45, 0x58, 0x50, 0x52, 1, 0, 28, 0, 0, 0, 0, 0, 0, 0, 0, 0, 1, 2, 0, 0, 0, 0, 0, 0]
  head ++ bytesLE 4 (crc32c head).toNat

/-- The device with that record in flash. -/
def provisioned (s : State) : State := s.flashPut 0x10000 provRecord

/-- A device whose table holds no running slot runs none. -/
theorem no_op_runs (s : State) (h : (s.cmd.ops.all fun o => o.st != 1) = true) (i : Nat) : (s.op i).st ≠ 1 := by
  by_cases hi : i < s.cmd.ops.length
  · have := List.all_eq_true.mp h _ (List.getElem_mem hi)
    simpa [State.op, List.getD_eq_getElem?_getD, hi] using this
  · simp [State.op, List.getD_eq_getElem?_getD, List.getElem?_eq_none (not_lt.mp hi)]

/-- A device that takes datagrams of key 1 at address 9, its owner's key enrolled. -/
def wired (s : State) : State :=
  (((atInstar 1 s).setFld (F.ETH_PORT_STAT_LINK_UP 0) 1).setFld (F.ETH_IP_IP 0) 9)

/-- A datagram for that address, with its tag still open. -/
def plainGram : Datagram :=
  { mediaPort := 0, srcIp := 1, srcPort := 2, dstIp := 9, dstPort := 51570, seg := ⟨7, 0, 1, List.replicate 1020 0⟩,
    keySrc := 9, keyId := 1, tag := 0 }

/-- The datagram with the tag of its key. -/
def gram : Datagram := { plainGram with tag := ((wired (base 1 2)).udpTag plainGram 1).getD 0 }

/-- A packet's bytes whose check code matches. -/
def coded (bs : List Byte) : List Byte := bs ++ bytesBE 4 (crc32c bs).toNat

/-- The device with the first segment of a packet of two. -/
def half (s : State) : State :=
  { s with tick := 1500000, cmd := { s.cmd with partials := [⟨udp, 7, 1, 0, [(0, [])], []⟩] } }

/-- A ring frame for the chain with count `n`. -/
def ringFrm (dir kind : BitVec 2) (n : BitVec 10) : RingFrame :=
  let f : RingFrame := { dir := dir, kind := kind, zero := 0, count := n, len := 0, payload := [], crc := 0 }
  { f with crc := crc32c (ringBytes f) }

/-- The device with its clocks locked and its ring running. -/
def clocked (s : State) : State := (s.setFld F.CLK_STAT_CPLL_LOCK 1).updSys fun y => { y with sramReady := true }

/-- The device whose PLLs hold their last control value. -/
def holdingPll (s : State) : State := s.setHolding fun _ => 15

/-- The device with a reset of its service ring due. -/
def resetDue (s : State) : State := { s with cdc := { s.cdc with due := [10] } }

/-- The device with a packet of session 0 held, 1 ms after. -/
def heldOne (s : State) : State :=
  { s.updSess 0 fun e => { e with held := [.cmd (.nop (hdQ 12))] } with tick := 1500000 }

/-- The device with a packet of session 0 that waits. -/
def waitingOne (c : Instr) (s : State) : State := s.updSess 0 fun e => { e with waiting := [⟨.cmd c, true⟩] }

/-- The device 10 ms after a probe of slot 2, its answer so far. -/
def probing (a : Option (List Byte)) (s : State) : State :=
  { s with tick := 15000000, fab := { s.fab with probes := [⟨1, .slot 2, 0, a⟩] } }

/-- The device whose session 0 waits for an assignment's answer, 10 ms after. -/
def assigning (s : State) : State :=
  { s.updSess 0 fun e => { e with assigning := some (.fabAssign hd 1 9 0 0) } with
    tick := 15000000, fab := { s.fab with probes := [⟨1, .session 1, 0, none⟩] } }

/-- A path test of slot 2 with `n` requests sent. -/
def test2 (n : Nat) : PathTest :=
  { slot := 2, id := 1, sent := n, last := 0, answered := 1, outOfOrder := 0, expect := 1, least := 5, sum := 5, greatest := 5,
    hops := 1 }

/-- The device 10 ms after the last of them. -/
def testing (n : Nat) (s : State) : State := { s with tick := 15000000, fab := { s.fab with tests := [test2 n] } }

/-- A mode change asked for at time 0 in M2. -/
def change0 (m : BitVec 3) : ModeChange := { target := m, origin := 2, at_ := 0 }

/-- The device with a mode change under way. -/
def changing (m : BitVec 3) (s : State) : State := s.updSys fun y => { y with change := some (change0 m) }

/-- The device with a molt due, its chrysalis in a state. -/
def molting (c : Nat) (s : State) : State :=
  (s.setFld F.SEC_STAT_CHRYS_STATE c).updSec fun x => { x with moltDue := some false }

/-- The device served by a source, its clock in a state. -/
def timed (src st : Nat) (s : State) : State := (s.setFld F.TIME_SRC_SOURCE src).setFld F.TIME_STAT_STATE st

/-- The device late in its run. -/
def late (s : State) : State := { s with tick := 10 ^ 12, clk := 2 ^ 100 }

/-- A time cell on port 0, `h` hops from its root. -/
def cellIn (h : BitVec 8) : TimeCellIn :=
  { port := 0, hop := 1, originSec := 5, originNs := 0, originFrac := 0, correction := 0, wingbeatFrame := 1, timeSeq := 8, root := 3,
    hops := h, status := 0, tag := 0, announce := [], tIn := 0, tOut := [0, 0, 0, 0] }

/-- The device that follows the fabric on port 0, measured. -/
def follower (st : Nat) (s : State) : State :=
  (port 0 lkActive (timed srcFabric st s)).updTm fun t => { t with marked := [true, true, true, true] }

/-- The device that follows a PTP master on media port 0. -/
def ptpSlave (s : State) : State :=
  (((timed srcPtp stLocked s).setFld (F.ETH_PORT_STAT_LINK_UP 0) 1).setFld (F.ETH_MAC_MAC 0 0) 5).updTm fun t =>
    { t with ptp := { t.ptp with selected := some (7, 1), ms := some (1, 2) } }

/-- A sender whose media port 0 runs with an address. -/
def media (s : State) : State :=
  ((s.setFld (F.ETH_PORT_STAT_LINK_UP 0) 1).setFld (F.ETH_IP_IP 0) 9).setFld (F.ETH_MAC_MAC 0 0) 5

/-- A sender with stream 3 valid on media port 0. -/
def streaming (s : State) : State :=
  let s := (((dram (media s)).setFld (F.ING_S_CTRL_EN 3) 1).setFld (F.ING_S_CTRL_PT 3) 0).setFld (F.ING_S_DIM_WIDTH 3) 16
  let s := ((s.setFld (F.ING_S_DIM_HEIGHT 3) 16).setFld (F.ING_S_CTRL_RING_N 3) 2).setFld (F.ING_S_GEOM_BUF_STRIDE_4K 3) 2
  ((s.setFld (F.ING_S_GEOM_LINE_STRIDE_64 3) 1).setFld (F.ETH_FLOW_DST_DST_IP 6) 9).setFld (F.ETH_FLOW_PORT_UDP_PORT 6) 50

/-- A video packet on media port 0. -/
def video : RtpPacket :=
  { port := 0, vlan := none, stackedTags := false, ipv4 := true, size := 100, fcsOk := true, overflow := false, ipOk := true,
    udpOk := true, srcIp := 4, dstIp := 9, dstPort := 50, version := 2, pt := 0, ssrc := 0, seq := 70, ts := 90, srds := [] }

/-- The device with a mode change of the media ports due. -/
def ethDue (s : State) : State := s.updEth fun e => { e with waiting := [⟨false, 2, true, 0⟩] }

/-- The device in one multicast group. -/
def joined (s : State) : State := s.updEth fun e => { e with joined := [⟨0, 0xEF000001, 0⟩] }

/-- A line that leaves the blender. -/
def line1 : LineOut := ⟨0, 0, 0, 0, [], [], []⟩

/-- The device with a frame under composition. -/
def composing (s : State) : State :=
  { s with tick := 10 ^ 9, cmp := { s.cmp with running := true, inFlight := [line1] } }

/-- A device whose streams run nowhere receives none. -/
theorem no_stream_on (s : State) (h : s.ingests = false) (k : Nat) : s.streamOn k = false := by
  simp [State.streamOn, h]

/-- A stream whose buffers are all free has no other. -/
theorem free_bufs (s : State) (k : Nat) (h : ((s.stream k).bufs.all fun b => b.st == 0) = true) (i : Nat) :
    (s.buf k i).st = 0 := by
  by_cases hi : i < (s.stream k).bufs.length
  · have := List.all_eq_true.mp h _ (List.getElem_mem hi)
    simpa [State.buf, List.getD_eq_getElem?_getD, hi] using this
  · simp [State.buf, List.getD_eq_getElem?_getD, List.getElem?_eq_none (not_lt.mp hi)]

/-- A cell with its check codes. -/
def cellOf (typ : BitVec 6) (cls : BitVec 2) (flags : Byte) (dst : BitVec 16) : Cell :=
  let c : Cell := { dst := dst, src := 3, cls := cls, typ := typ, flags := flags, len := 4, seq := 1, frameTxn := 0, hop := 1,
                    hchk := 0, payload := [1, 2, 3, 4], crc := 0 }
  { c with hchk := crc8 (cellHead c), crc := cellCrc c }

/-- The device with address 9. -/
def addressed (s : State) : State := s.setFld F.FAB_ADDR_ADDR 9

/-- The device with a T0 cell to send on port 0. -/
def sending (s : State) : State :=
  (port 0 lkActive s).updPortQ 0 fun p => { p with t0 := [⟨cellOf 3 0 0 9, 0, true, none⟩] }

/-- The device in a route hold that ends at once. -/
def holding (s : State) : State := { s with fab := { s.fab with holdEnd := some 0 } }

/-- What a port sees that trains without trouble, the partner's training blocks aside. -/
def seen : TrainObs :=
  { clockSeen := true, rx := [], eqDone := true, eyes := [90, 90, 90, 90], ctle := [1, 1, 1, 1], dfe := [], coarse := [1, 1, 1, 1],
    fine := [1, 1, 1, 1], deskewPs := [0, 0, 0, 0], aligned := 15 }

/-- The device with another state of port 0's lanes. -/
def laned (f : LaneSt → LaneSt) (s : State) : State := s.updLane 0 f

/-- An ACTIVE port 0 with lane 0. -/
def lanes1 (s : State) : State := (port 0 lkActive s).setFld (F.LNK_STAT_LANES 0) 1

/-- A link frame of lane 0 as it leaves the partner, before the scrambler: 32 blocks of data, then its control block. -/
def plainFrame : List (BitVec 2 × List Byte) :=
  let pay := List.replicate 16 (5 : Byte)
  let crc := crc32 ((List.replicate 32 ((1 : Byte) :: pay)).flatten)
  let head : List Byte := [0x2D, 0, 0, 0, 0, 0, 0, 0] ++ bytesBE 4 crc.toNat ++ [0, 0, 0]
  List.replicate 32 (1, pay) ++ [(2, head ++ [crc8 head])]

/-- That frame, scrambled. -/
def frame1 : List LaneFrame := [⟨0, descramble 0 plainFrame⟩]

/-- An eye. -/
def eye1 : EyeObs := { heightMv := 90, width := 30, centre := 0 }

/-- A tile at an instant of its local time. -/
def tileAt (t : Int) : State := { base 2 5 with clk := t.toNat, tick := 10 ^ 12 }

/-- The image whose instants the tests use. -/
def plan1 (load : Nat) (latched ended : Bool) : Plan := { frame := 600, phase := 0, load := load, latched := latched, ended := ended }

/-- A tile with that image's course. -/
def planned (x : Plan) (s : State) : State := { s with tile := { s.tile with plans := [x] } }

/-- A table with one lamp share on chain 5, driver 1. -/
def tbl5 : TblSt := { shares := [(321, 7)] }

/-- A tile with that table and chain 5 measured. -/
def chained (f : Chain → Chain) (s : State) : State :=
  let s := ((s.setFld F.LCR_STAT_VALID 3).setFld (F.LDR_CHAIN_STAT_MEAS_OK 5) 1)
  { s with tile := { s.tile with tables := [tbl5, tbl5], chains := s.tile.chains.modify 5 f } }

/-- An active sender that serves its partner. -/
def serving (s : State) : State := (s.setFld F.RED_CFG_SERVE_EN 1).setFld F.RED_CFG_PARTNER 6

/-- The run of a served join by session 0. -/
def serve5 : ServeRun := { pairSrc := 5, joiner := 6, port := 0, ranges := [], marks := [], captured := none }

/-- The run of a join by session 0. -/
def join5 : JoinRun := { slot := 2, pairSrc := 5, ranges := [], prior := 0, held := some 10 }

/-- The device with those runs. -/
def joining (s : State) : State := { s with red := { s.red with join := some join5, serve := some serve5 } }

/-- A snapshot. -/
def snap (n : Nat) : Machine.Snapshot :=
  { frame := n, regs := [], shadows := [], tables := [], txns := [], lastBegin := none, actions := [], nextAction := 0, fences := [], shown := [],
    flips := [], wbCount := 0, wbLast := 0, ops := [], kept := [], expected := 10 }

/-- The device whose DRAM channels train. -/
def training (s : State) : State := { s with memc := { s.memc with training := 15 } }

/-- A tile with a diagnostic window of 20 us behind phase 0, whose lit window is short. -/
def diagOn (s : State) : State :=
  ((((s.setFld F.LDR_POLICY_DIAG_WIN_EN 1).setFld F.LDR_DIAG_WIN_PHASE_MASK 1).setFld F.LDR_DIAG_WIN_PULSE_US 20).setFld
    F.LDR_DIAG_OFFSET_OFFSET_NS 100).setFld (F.TIME_LIT_LIT_NS 0) 1000

/-- The tile at the start of that window's pulse. -/
def diagAt (s : State) : State := { s with clk := ((s.litEnd 600 0).1 + (100 * nsU : Nat)).toNat }

/-- A segment beyond the last of its packet. -/
def segBeyond : Segment := ⟨7, 2, 1, []⟩

/-- The first of two segments, full. -/
def segFirst : Segment := ⟨7, 0, 1, List.replicate 1020 0⟩

/-- One-segment packets: too short, unchecked, checked. -/
def segShort : Segment := ⟨7, 0, 0, [1, 2]⟩

def segBad : Segment := ⟨7, 0, 0, List.replicate 20 1⟩

def segGood : Segment := ⟨7, 0, 0, coded (List.replicate 16 0)⟩

/-- The device with its next wingbeat that of frame 20. -/
def frame20 (s : State) : State := { s with tm := { nextFrame := 20 } }

/-- A decision about transaction 3. -/
def dec53 : Decision := ⟨5, 3, true, 600, 0, 1⟩

/-- A decision for the target of the tests. -/
def dec10 (c : Bool) : Decision := ⟨5, 3, c, tenAim.frame, 0, (base 1 2).txn.seq⟩

/-- The device that has recorded a decision. -/
def decided (s : State) : State := { s with txn := { decisions := [dec53] } }

/-- A grid of 59.94 frames a second. -/
def grid1 : Grid := ⟨1001, 60000, 5⟩

/-- The device with an operation of session 0 DONE in slot 2. -/
def doneOp (s : State) : State := s.setOp 2 { st := 2, ownerUid := 1, gen := 5, final := 3, result := [7, 8, 9] }

/-- The device without keys. -/
def keyless (s : State) : State := s.updSec fun _ => {}

/-- The packet of which a half has come. -/
def partial7 : Partial := ⟨udp, 7, 1, 0, [(0, [])], []⟩

/-- The device that has relayed a command to address 9. -/
def relaying (s : State) : State := { s with cmd := { s.cmd with relay := [(9, udp)] } }

/-- A cell with a relayed command's reply. -/
def relayCell : Cell := ⟨9, 0, 3, 3, 0, 0, 0, 0, 0, 0, [1], 0⟩

/-- The header with the barrier set. -/
def hdB : Hdr := { hd with barrier := true }

/-- A packet that waits at its barrier. -/
def waitB : Waiting := ⟨.cmd (.nop hdB), true⟩

/-- A packet that waits. -/
def wait1 : Waiting := ⟨.cmd (.nop hd), true⟩

/-- A probe of slot 2. -/
def probe2 (a : Option (List Byte)) : ProbeWait := ⟨1, .slot 2, 0, a⟩

/-- The probe of session 0's assignment. -/
def probeSession : ProbeWait := ⟨1, .session 1, 0, none⟩

/-- The device that has reserved attestation identifiers to 4. -/
def identified (s : State) : State := s.updSec fun x => { x with idLimit := 4 }

/-- The device that enters M4 by itself. -/
def autoM4 (s : State) : State := s.updSys fun y => { y with auto := some 4 }

/-- The device for which a reset with cause 2 is asked. -/
def resetAsked (s : State) : State := s.updSys fun y => { y with resetReq := some 2 }

/-- The device whose flash domain is in reset. -/
def resetting (s : State) : State := { s with cdc := { resets := [⟨11, 0⟩] } }

/-- A crossing with one event under way. -/
def cross1 : Crossing := { busy := true, sent := [[0x11000C]] }

/-- The device with that crossing. -/
def crossing (s : State) : State :=
  { s with cdc := { cross := [[{}], [{}], [{}], [{}], [{}], [{}], [{}, {}, {}, {}], [cross1]] } }

/-- The device with both output pulses high. -/
def pulsing (s : State) : State := s.updTm fun t => { t with ppsEnd := some 3, fsyncEnd := some 3 }

/-- The device that may take time cells from port 1 as well. -/
def alternate (s : State) : State :=
  ((s.setFld F.TIME_POLICY_ALT_EN 1).setFld F.TIME_SRC_ALT_UPSTREAM 1).updTm fun t =>
    { t with portSeen := [none, some (10 ^ 12), none, none] }

/-- PTP messages as they come in. -/
def announce1 : PtpAnnounce := ⟨0, 127, 7, 1, [1], 1, 37, true⟩

/-- A Sync. -/
def sync1 : PtpSync := ⟨0, 127, 7, 1, 0, 65536, 131072, 0⟩

/-- A Delay_Resp. -/
def resp1 : PtpDelayResp := ⟨0, 127, 7, 1, 0, 65536, 0⟩

/-- A message the bridge forwards. -/
def bridged1 : PtpBridged := ⟨0, 319, 0xE0000181, 0, 3, 65536, 131072⟩

/-- The device that waits for a Delay_Resp. -/
def asked (s : State) : State := s.updTm fun t => { t with ptp := { t.ptp with t3s := some 5, lastReq := some 0 } }

/-- The device with its bridge on. -/
def bridge (s : State) : State :=
  ((s.setFld F.ETH_BRIDGE_EN 1).setFld (F.ETH_PORT_STAT_LINK_UP 1) 1).setFld (F.ETH_MAC_MAC 1 0) 6

/-- A multicast group. -/
def group1 : Join := ⟨0, 0xEF000001, 0⟩

/-- Video packets that fail a check each. -/
def videoLong : RtpPacket := { video with size := 9217 }

def videoOver : RtpPacket := { video with overflow := true }

def videoIp : RtpPacket := { video with ipOk := false }

def videoUdp : RtpPacket := { video with udpOk := false }

/-- Stream 3's buffer 1 filling. -/
def filling (s : State) : State := s.updBuf 3 1 fun b => { b with st := 1 }

/-- A cell whose CRC is wrong. -/
def badCell : Cell := { cellOf 3 0 0 9 with crc := 0 }

/-- A cell as it is queued. -/
def queued1 : QCell := ⟨cellOf 3 0 0 9, 0, true, none⟩

/-- The queues behind arbitration's choice. -/
def queues1 : PortQ := ((sending (base 1 2)).choose 0).2

/-- Port 0's lanes in several courses. -/
def idling (s : State) : State := laned (fun l => { l with idleRun := 1024 }) (s.setFld (F.LNK_POLICY_LIDLE_EN 0) 1)

def marking (s : State) : State := laned (fun l => { l with markOut := some (3, 0) }) s

def stalled (s : State) : State := laned (fun l => { l with unacked := [none], stall := 256 }) s

/-- The second loss of progress after the same acknowledgement. -/
def stalledTwice (s : State) : State := laned (fun l => { l with replayAck := some 0, replayRuns := 2 }) (stalled s)

def partnerIdle (s : State) : State := laned (fun l => { l with partnerIdle := true }) s

/-- A job of the correction engine. -/
def job1 : Job := { frame := 600, phase := 0, src := 0, slot := 0, format := 0, fade := [], derate := [], buf := some 1 }

/-- The tile with that job. -/
def jobbed (s : State) : State := { s with tile := { s.tile with jobs := [job1] } }

/-- A chain's courses. -/
def chainCfg (c : Chain) : Chain := { c with cfgDue := true }

def chainReport (c : Chain) : Chain := { c with reportDue := some (7, 599) }

def chainMeas (c : Chain) : Chain := { c with measuring := true }

/-- What a measured chain answers. -/
def echo2 : ChainEcho := ⟨5, [100, 120]⟩

def echo0 : ChainEcho := ⟨5, []⟩

/-- The tile whose source in use came by port 2. -/
def arrived (s : State) : State := { s with red := { s.red with arrival := [(0, 2)] } }

/-- The tile with a switch due. -/
def switchNow (s : State) : State := { s with red := { s.red with switchDue := some (1, 0) } }

/-- The device without sessions. -/
def noSessions (s : State) : State := { s with cmd := {} }

/-- The device that wipes channel 3. -/
def wiping (s : State) : State := (s.setFld (F.MEM_CH_STAT_WIPING 3) 1).updSys fun y => { y with wiped := 0 }

/-- The device after it has taken an action of session 0. -/
def scheduled : State :=
  match (base 1 2).schedAction ((base 1 2).who 0) hd ten 0x09 [0x44, 7] with
  | .done _ _ u => u
  | _ => base 1 2

/-- The first segment of two as a datagram with the tag of its key. -/
def plainGram2 : Datagram := { plainGram with seg := ⟨7, 0, 1, List.replicate 1020 0⟩ }

/-- A NOP of a source with no session, whole in one segment, from the key's source. -/
def gramWhole : Datagram :=
  let d := { plainGram with seg := ⟨7, 0, 0, coded (wordsBytes [0x10000000, 0x00060000, 0, 0])⟩, keySrc := 6 }
  { d with tag := ((wired (base 2 2)).udpTag d 1).getD 0 }

/-- The datagram for another address. -/
def gramElse : Datagram := { gram with dstIp := 8 }

/-- The device with key 1 wired that has told the datagram's address of a failure in this millisecond. -/
def told (s : State) : State := { s with cmd := { s.cmd with authNotice := [(1, 0)] } }

/-- The device that holds the first of the two segments of a sound packet. -/
def halfGood : State :=
  { base 1 2 with cmd := { (base 1 2).cmd with
    partials := [⟨udp, 7, 1, 0, [(0, (coded (List.replicate 1036 0x10)).take 1020)], []⟩] } }

def partialGood : Partial := ⟨udp, 7, 1, 0, [(0, (coded (List.replicate 1036 0x10)).take 1020)], []⟩

/-- Its last segment. -/
def segLast : Segment := ⟨7, 1, 1, (coded (List.replicate 1036 0x10)).drop 1020⟩

/-- The device with four packets of the transport under way. -/
def crowded : State :=
  { base 1 2 with cmd := { (base 1 2).cmd with partials := (List.range 4).map fun i => ⟨udp, BitVec.ofNat 16 (20 + i), 1, 0, [], []⟩ } }

/-- A ring frame with the first segment of two. -/
def ringSeg : RingFrame :=
  let f : RingFrame := { dir := 0, kind := 0, zero := 0, count := 0, len := 1024,
                         payload := [0, 7, 0, 1] ++ List.replicate 1020 0, crc := 0 }
  { f with crc := crc32c (ringBytes f) }

/-- A ring frame whose check code is wrong. -/
def ringBad : RingFrame := { ringFrm 0 0 3 with crc := 0 }

/-- Session 0's packet that waits, as it runs. -/
def waitRun (c : Instr) : State := (waitingOne c (base 1 2)).updSess 0 fun e => { e with waiting := [] }

/-- Port 1 with lane 0 whose recalibration for slot 2 is over, a check having failed or none. -/
def calOver (st : Nat) (f : Option Nat) (s : State) : State :=
  ((port 1 lkActive s).setFld (F.LNK_STAT_LANES 1) 1).updLane 1 fun y =>
    { y with calSlot := some 2, cal := some (List.replicate 4 { stage := st, failed := f, ctle0 := s.fld (F.LNK_TAPS_CTLE 1 0) }) }

/-- The device with an action due. -/
def actionDue (s : State) : State := { s with txn := { s.txn with actions := [action4 1 0] } }

/-- Transaction 3, prepared, with an abort heard. -/
def aborting (s : State) : State :=
  { s with txn := { s.txn with txns := [{ txn3 true .prepared [.write 0x20200 1001] with gotAbort := true }] } }

/-- The device in M1 from which M7 was asked for at time 0. -/
def beating (s : State) : State := s.updSys fun y => { y with change := some { target := 4, origin := 3, at_ := 0 } }

/-- A change to a mode from M2 that a wingbeat makes or not. -/
def beaten (m : BitVec 3) (s : State) : State := s.updSys fun y => { y with change := some { change0 m with beat := true } }

/-- The device that has sent an alarm over the ring's crossing. -/
def ringCross : Crossing := { busy := true, sent := [[]] }

/-- The device with that crossing. -/
def ringCrossing (s : State) : State :=
  { s with cdc := { cross := [[ringCross], [{}], [{}], [{}], [{}], [{}], [{}, {}, {}, {}], [{}]] } }

/-- The device whose source's other port is silent. -/
def alternateOld (s : State) : State :=
  (alternate s).updTm fun t => { t with portSeen := [none, some 0, none, none] }

/-- The device that has heard its source now. -/
def heardNow (s : State) : State := s.updTm fun t => { t with lastValid := s.tick }

/-- The device with an output pulse of 1 us. -/
def ppsWide (s : State) : State := s.setFld F.TIME_IO_PPS_OUT_W 1

/-- The device that has chosen no master yet. -/
def ptpNew (s : State) : State := (ptpSlave (s.setFld F.TIME_STAT_STATE stAcquiring)).updTm fun t => { t with ptp := {} }

/-- Messages of another type for the bridge. -/
def bridgedAs (n : BitVec 4) (p : BitVec 16) : PtpBridged := { bridged1 with msgType := n, udpPort := p }

/-- One sound row segment of stream 3, 8 pixels of line 2. -/
def srd1 : Srd := { field := false, row := 2, offset := 0, length := BitVec.ofNat 16 (ppg 0 0).2, data := List.replicate (ppg 0 0).2 7 }

/-- The video packet with it. -/
def videoSrd : RtpPacket := { video with srds := [srd1] }

/-- The device with a port setting due. -/
def fecDue (s : State) : State := s.updEth fun e => { e with waiting := [⟨true, 2, true, 0⟩] }

/-- The device with one that waits. -/
def ethWaits (s : State) : State := s.updEth fun e => { e with waiting := [⟨false, 2, true, 9⟩] }

/-- The device with one report to repeat. -/
def repeating (s : State) : State := s.updEth fun e => { e with repeats := [⟨group1, true, 0⟩] }

/-- The device in the last line of its last image. -/
def composingLast (s : State) : State :=
  (composing s).updCmp fun m => { m with line := (s.withRegs s.cmp.img).regionH - 1, phase := (s.withRegs s.cmp.img).phases - 1 }

/-- The device whose pair is not READY. -/
def copying (s : State) : State := s.setFld F.RED_SND_STAT_STATE 1

/-- A port that passes cells over. -/
def hunting (s : State) : State := laned (fun l => { l with rx := { l.rx with hunt := true }, rowHunt := true }) s

/-- A sound SVC cell of 16 bytes. -/
def svc16 : Cell := cellSeal { cellOf 3 0 0 9 with len := 16, payload := [0, 0, 0, 2, 0, 0, 0, 3, 0, 0, 0, 4, 0, 0, 0, 0] }

/-- A sound probe of 64 bytes. -/
def probe64 : Cell := cellSeal { cellOf 6 2 1 9 with len := 64, payload := List.replicate 64 0 }

/-- A sound raster cell of source 3 for a frame. -/
def rasterOf (n : Nat) : Cell := cellSeal { cellOf 1 1 0 9 with len := 20, payload := bytesBE 4 n ++ List.replicate 16 0 }

/-- A tile in M5 with address 9 whose source 0 is the cell's. -/
def rasterTile : State := (addressed (port 0 lkActive (base 2 5))).setFld F.RED_TILE_SRC_SRC0 3

/-- The device in a route hold that goes on. -/
def holdingOn (s : State) : State := { s with fab := { s.fab with holdEnd := some 9 } }

/-- What a partner's training set says on lane `l`. -/
def heard (typ : Byte) (eq confirm : Bool) (l : Nat) : TrainSet :=
  { typ := typ, lane := BitVec.ofNat 2 l, eqDone := eq, confirm := confirm, deep := false, laneOk := 15, maxWidth := 0, width := 0,
    rxNext := 0 }

/-- A port that sees one block over and over on each lane. -/
def hears (n : Nat) (b : Nat → BitVec 2 × List Byte) : TrainObs :=
  { seen with rx := (List.range 4).map fun l => ⟨BitVec.ofNat 2 l, List.replicate n (b l)⟩ }

/-- A port that sees valid headers. -/
def hearsBlocks : TrainObs := hears 64 fun _ => (2, List.replicate 16 0)

/-- A port whose partner is done with adapting. -/
def hearsEq : TrainObs := hears 1 fun l => (heard 0x4B true false l).block 0

/-- A port whose partner sends TS2. -/
def hearsTs2 : TrainObs := hears 16 fun l => (heard 0x55 true true l).block 0

/-- The device with an instant from which it confirms. -/
def confirming (s : State) : State := laned (fun l => { l with confirmAt := some 0 }) s

/-- A port of one lane in SERVICE that sends back what it receives. -/
def looping (s : State) : State := laned (fun l => { l with pat := some ⟨4, 0, 1, 0⟩ }) (port 0 lkService s)

/-- A frame with a TS1 on lane 0. -/
def ts1Frame : List LaneFrame :=
  [⟨0, [({ typ := 0x4B, lane := 0, eqDone := false, confirm := false, deep := false, laneOk := 15, maxWidth := 0, width := 0,
           rxNext := 0 } : TrainSet).block 0]⟩]

/-- A lane whose recalibration is at its first stage, its phase in the middle. -/
def recalibrating (s : State) : State :=
  laned (fun l => { l with cal := some (List.replicate 4 {}) }) ((late (lanes1 s)).setFld (F.LNK_SKEW_FINE 0 0) 16)

/-- An eye off its centre. -/
def eyeAt (c : Int) : EyeObs := { eye1 with centre := c }

/-- The course of an image whose load is laid out by that table. -/
def plan5 (load : Nat) (latched ended : Bool) : Plan := { plan1 load latched ended with lay := tbl5 }

/-- At a rate at which a tick is a whole number of 2^-64 ns. -/
def evenRate (s : State) : State := s.setFld F.TIME_RATE_RATE 2

/-- A tile with chain 5 driven, at an instant, with that image's course. -/
def lit (t : Int) (x : Plan) (s : State) : State := planned x { chained id s with clk := t.toNat, tick := 10 ^ 12 }

/-- A tile at that rate. -/
def even5 : State := evenRate (base 2 5)

/-- A tile whose phase 0 has a lit time of 100 us. -/
def litOn (s : State) : State := s.setFld (F.TIME_LIT_LIT_NS 0) 100000

/-- A chain with a report under way whose drivers have answered. -/
def reporting (c : Chain) : Chain := { c with report := some { c0 := 0, latchFrame := 599, got := [] } }

/-- A chain whose return line is busy. -/
def chainBusy (c : Chain) : Chain := { chainReport c with returnTick := 10 ^ 12 }

/-- A chain that measures behind a load. -/
def measLoad (c : Chain) : Chain := { chainMeas c with loadEnd := 10 ^ 13 }

/-- A job that is not over. -/
def jobOpen : Job := { job1 with start := 10 ^ 13 }

def jobNow (s : State) : State := { s with tile := { s.tile with jobs := [jobOpen] } }

/-- An END word and one of no return type, their parity bits even. -/
def endWord : BitVec 16 := typedWord ldEnd 0 1 0

def latchWord : BitVec 16 := typedWord ldLatch 0 0 0

/-- A served join whose copy is all sent, its pair session reached. -/
def captureNow (s : State) : State := { s with clk := s.beat s.tm.curFrame }

/-- The run of a join that takes its copy. -/
def joinCopy : JoinRun := { join5 with held := none, ranges := [(0x1000, 0x1000)] }

def joinsCopy (s : State) : State := { s with red := { s.red with join := some joinCopy } }

/-- A sound snapshot. -/
def snapOk (n : Nat) : Machine.Snapshot := { snap n with crc := (snap n).check }

/-- The first word of the scratchpad, and of channel 0, in its scrub. -/
def scrubbing (s : State) : State := (s.setFld F.MEM_POLICY_SCRUB_EN 1).setFld F.MEM_POLICY_SP_SCRUB_EN 1

/-- A link loss already noted. -/
def lossNoted (s : State) : State := { s with red := { s.red with lossSeen := true } }

/-- Channel 3 trained. -/
def trained (s : State) : State := s.setFld (F.MEM_CH_STAT_TRAINED 3) 1

/-- The device with a delay mark answered on port `q`. -/
def markHeard (q : Nat) (s : State) : State := s.updLane q fun l => { l with markHeard := true }

/-- The device that has sent a Delay_Req before any Sync. -/
def askedEarly (s : State) : State := s.updTm fun t => { t with ptp := { t.ptp with lastReq := some 0 } }

/-- Transaction 3, prepared, with a commit heard. -/
def committing (s : State) : State :=
  { s with txn := { s.txn with txns := [{ txn3 true .prepared [.write 0x80010 1001] with gotCommit := true }] } }

/-- What a wingbeat of frame 5 kept in this tick. -/
def beatGate : Gate := { tick := 0, frame := 5, before := 4, fences := List.replicate 64 {}, flips := List.replicate 10 none, flds := [] }

/-- The device whose wingbeat has come already in this tick. -/
def beatNow (s : State) : State := s.updCmp fun c => { c with gate := some beatGate }

/-- The device whose JTAG port is held by its pin. -/
def tapHeld (s : State) : State := s.updSys fun y => { y with trstN := false }

/-- The device with a port setting whose reply has not left. -/
def ethAsked (s : State) : State := s.updEth fun e => { e with waiting := [⟨false, 2, false, 0⟩] }

/-- A tile that has latched no image yet. -/
theorem no_window {P : Nat × Nat → Prop} (s : State) (h : s.tile.lastWindow = none) :
    ∀ w, s.tile.lastWindow = some w → P w := fun w e => by rw [h] at e; cases e

/-- The part with `n` of its instar fuses blown. -/
def blown (n : Nat) (s : State) : State := s.updSec fun c => { c with
  fuses := { c.fuses with instar := List.replicate n (true, true) ++ List.replicate (4 - n) (false, false) } }

/-! ## Ill-formed commands are refused (WellFormed) -/

/-- A payload of more words than a packet holds. -/
theorem test_regWrite_too_long : (Instr.regWrite hd 0 (List.replicate 16383 0)).wellFormed = false := by decide +kernel

theorem test_memWrite_too_long : (Instr.memWrite hd 0 (List.replicate 16382 0)).wellFormed = false := by decide +kernel

theorem test_schedAction_too_long : (Instr.schedAction hd ten 9 (List.replicate 16379 0)).wellFormed = false := by decide +kernel

theorem test_fwStage_too_long : (Instr.fwStage hd 0 false 0 0 0 (List.replicate 16379 0)).wellFormed = false := by decide +kernel

/-- More entries than `COUNT` and `RANGES` can say. -/
theorem test_counts_too_great : (Instr.fabRouteSet hd 0 false 0 (List.replicate 256 ⟨0, 0, 0, false⟩)).wellFormed = false ∧
    (Instr.redJoin hd 0 (List.replicate 32 (0, 0))).wellFormed = false := by decide +kernel

theorem test_attest_nonce : (Instr.attest hd [1, 2, 3, 4, 5, 6, 7] false).wellFormed = false := by decide +kernel

/-- There are 48 banks (R362). -/
theorem test_banks : (Instr.bankSetOwner 48 0).wellFormed = false ∧ (Instr.bankSetPwr 48 0).wellFormed = false ∧
    (Instr.bankDrainDone 48).wellFormed = false ∧ (Instr.bankPowerDone 48).wellFormed = false := by decide +kernel

/-- Domain resets are 1 to 11 (R385), crossings of events 7 to 14 (R391). -/
theorem test_kinds : (Instr.domainResetRelease 0).wellFormed = false ∧ (Instr.domainResetRelease 12).wellFormed = false ∧
    (Instr.eventCrossing 6 0).wellFormed = false ∧ (Instr.eventCrossing 15 0).wellFormed = false := by decide +kernel

/-! ## Command packets written out from the layouts -/

/-- The command that a packet's words spell, by UDP. -/
def spelled (ws : List Word) : Option Instr := decodePacket (false, false) (packetOf udp ws)

/-- The example of spec/03: `REG_READ` of three registers from 0x110, and the packet as words again. -/
theorem test_packet_regRead :
    let h : Hdr := { via := udp, barrier := false, noReply := false, tag := 0x2A, src := 0x0F00, dst := 0x0153, seq := 0x412, txnId := 0 }
    let ws : List Word := [0x1008002A, 0x0F000153, 0x412, 2, 0x110, 3]
    spelled ws = some (.regRead h 0x110 3) ∧ (encodePacket (.regRead h 0x110 3)).map packetWords = some ws := by
  decide +kernel

/-- R96: `MEM_FILL`. -/
theorem test_packet_memFill : spelled [0x10120007, 0x00050000, 10, 6, 0xFF, 0x00080000, 0, 16, 0x01020304, 0x05060708] =
    some (.memFill hd 0xFF00080000 16 0x0102030405060708) := by decide +kernel

/-- R132: `TXN_COMMIT` of transaction 3 for (1002, 7, 2), to validate, global. -/
theorem test_packet_txnCommit : spelled [0x10190007, 0x00050000, 10, 0x00030004, 3, 0, 1002, 0x702] =
    some (.txnCommitValidate (hdT 3) true ⟨1002, 7, 2⟩) := by decide +kernel

/-- R179: `LAYER_FLIP` of layer 9 to buffer 2, fence 3, no fence, value 4, frame 2^32 + 5. -/
theorem test_packet_layerFlip : spelled [0x10220007, 0x00050000, 10, 4, 0x01030209, 4, 1, 5] =
    some (.layerFlip hd 9 2 3 true 4 0x100000005) := by decide +kernel

/-- R99: `OP_RESULT` of slot 2, generation 5, and R132: an embedded `REG_WRITE` scheduled. -/
theorem test_packet_opResult : spelled [0x10310007, 0x00050000, 10, 3, 0x00050002, 1, 4096] =
    some (.opResult hd 2 5 1 4096) := by decide +kernel

theorem test_packet_schedAction : spelled [0x10280007, 0x00050000, 10, 7, 0, 0, 10, 0, 0x00090002, 0x44, 7] =
    some (.schedAction hd ⟨10, 0, 0⟩ 9 [0x44, 7]) := by decide +kernel

/-- R262: a route, and R268: the probe of the spec's example, with `ROUTE_LEN` 2. -/
theorem test_packet_fabric : spelled [0x103A0007, 0x00050000, 10, 3, 0x00510101, 0xFFFF0103, 0x80000002] =
      some (.fabRouteSet hd 1 true 5 [⟨0xFFFF, 0x0103, 2, true⟩]) ∧
    spelled [0x10380007, 0x00050000, 10, 5, 2, 0x10000000, 0, 0, 0] =
      some (.fabProbe hd 2 0x10000000000000000000000000000000) := by decide +kernel

/-- R292, R331: a table from flash; a scan of chain 33. -/
theorem test_packet_lamp : spelled [0x10400007, 0x00050000, 10, 5, 0x101, 0, 0x20000, 0, 0x100] =
      some (.tableLoad hd 1 true 0x20000 0x100) ∧
    spelled [0x10480007, 0x00050000, 10, 9, 0, 2, 0, 0, 5, 9, 1, 0x10, 100] =
      some (.lampScan hd 0x200000000 true false true 9 0x100000010 100) := by decide +kernel

/-- R254: the checker of port 2's lanes 0 and 3; R251: `CAL_RUN`, full. -/
theorem test_packet_link : spelled [0x10780007, 0x00050000, 10, 2, 0x00025920, 7] = some (.diagPatternCheck hd 2 9 5 7) ∧
    spelled [0x10500007, 0x00050000, 10, 1, 0x102] = some (.calRun hd 2 true) := by decide +kernel

/-- R349, R347: a join of one range, and a switch. -/
theorem test_packet_red : spelled [0x10580007, 0x00050000, 10, 6, 0x00010006, 0, 0, 0x10000, 0, 0x20000] =
      some (.redJoin hd 6 [(0x10000, 0x20000)]) ∧
    spelled [0x105A0007, 0x00050000, 10, 1, 1] = some (.redSwitch hd 1) := by decide +kernel

/-- R409: two words staged inline; R32: `INSTAR_ADVANCE` with its confirmation. -/
theorem test_packet_firmware : spelled [0x10600007, 0x00050000, 10, 7, 1, 4096, 8, 0, 0, 11, 12] =
      some (.fwStage hd 1 false 4096 8 0 [11, 12]) ∧
    spelled [0x10690007, 0x00050000, 10, 2, 3, 0x494E5354] = some (.instarAdvance hd 3 0x494E5354 false false) := by
  decide +kernel

/-- R93, R385: device reset, FRX 3, DRAM 0, flash; a kind not listed spells none. -/
theorem test_packet_reset : spelled [0x107F0007, 0x00050000, 10, 1, 0] = some (.reset hd) ∧
    spelled [0x107F0007, 0x00050000, 10, 1, 5] = some (.resetFrx hd 3) ∧
    spelled [0x107F0007, 0x00050000, 10, 1, 6] = some (.resetDram hd 0) ∧
    spelled [0x107F0007, 0x00050000, 10, 1, 11] = some (.resetFlash hd) ∧
    spelled [0x107F0007, 0x00050000, 10, 1, 12] = none := by decide +kernel

/-- R89: a `LEN` that does not match the layout, and an opcode not assigned. -/
theorem test_packet_none : spelled [0x10080007, 0x00050000, 10, 2, 0x110] = none ∧
    spelled [0x10030007, 0x00050000, 10, 0] = none := by decide +kernel

/-! ## The worked examples of the spec -/

/-- 1001/60000 without an offset (spec/00). -/
def grid0 : Grid := ⟨1001, 60000, 0⟩

/-- Frame 60,000 is at 1,001 s exactly; second 1,001 holds f = 0 to 59; the targets named in spec/00 and spec/04. -/
theorem test_grid : grid0.beat 60000 = 1001 * secU ∧ grid0.target 1001 0 = some 60000 ∧ grid0.target 1001 59 = some 60059 ∧
    grid0.target 1001 60 = none ∧ grid0.target 1001 30 = some 60030 ∧ grid0.target 1002 0 = some 60060 := by
  decide +kernel

/-- The registers of the phase layout of spec/02. -/
def layout4 : List (Nat × Word) :=
  let s := ((State.reset.setFld F.TIME_FRAME_NUM_FRAME_NUM 1001).setFld F.TIME_FRAME_DEN_FRAME_DEN 60000).setFld
    F.TIME_FRAME_OFFSET_FRAME_OFFSET_NS 0
  let s := ((s.setFld F.TIME_PHASE_CFG_PHASES 4).setFld F.TIME_PHASE_CFG_DELAY 2).setFld F.TIME_LATCH_OFFSET_LATCH_OFFSET_NS 1500
  ((List.range 4).foldl (fun (t : State) p =>
    (t.setFld (F.TIME_PHASE_START_PHASE_START_NS p) (p * 4170000)).setFld (F.TIME_LIT_LIT_NS p) 2085000) s).regs

/-- It passes R56, and phase 2 of frame 60,000 latches at 1,001 s, `NS` 41,708,166, `FRAC` 0xAAAAAAAA. -/
theorem test_latch : timingOk layout4 = true ∧ (latchAt layout4 60000 2 - 1001 * secU) / nsU = 41708166 ∧
    (latchAt layout4 60000 2 - 1001 * secU) % nsU / 2 ^ 32 = 0xAAAAAAAA := by decide +kernel

/-- A round trip of 720/128 tick with a turnaround of 240/128 tick is 2,500 ps net of it; with +40 ps of asymmetry the delay is
1,250 + 20 = 1,270 ps (R63). -/
theorem test_link_delay : (match exec (.linkDelayMeasure 1 720 240)
      ((markHeard 1 (port 1 lkActive (base 1 2))).setFld (F.TIME_ASYM_ASYM_PS 1) 40) with
    | .next t => t.fld (F.TIME_LINK_DELAY_D_PS 1)
    | _ => 0) = 1270 := by decide +kernel

/-- A finite number of a pixel. -/
def num (q : Rat) : Fp := .fin (decide (q < 0)) (if q < 0 then -q else q)

/-- Blender 0's pixel and GL0's of the example of spec/06. -/
def below6 : Px := ⟨num (1 / 4), num (1 / 2), num (1 / 8)⟩

def gl6 : Px := ⟨ofHalf (nearestHalfQ (2 / 10)), ofHalf (nearestHalfQ (1 / 10)), fpZero⟩

def over6 : Px := blend 0 (num (3 / 4)) gl6 (ofHalf (nearestHalfQ (4 / 10))) below6

/-- Source-over, then an additive layer: the composites of spec/06, the codes of spec/08. -/
theorem test_blend : over6 = ⟨num (1331 / 4096), num (1741 / 4096), num (1434 / 16384)⟩ ∧
    (let p := blend 1 (num 1) ⟨num (1 / 16), fpZero, fpZero⟩ fpZero over6
     (halfBits p.r, halfBits p.g, halfBits p.b) = (0x3633, 0x36CD, 0x2D9A)) := by decide +kernel

theorem test_log36 : log36 0x3633 = 0xAA2 ∧ log36 0x36CD = 0xAC4 ∧ log36 0x2D9A = 0x87C ∧ log36 0x3C00 = 0xC00 := by
  decide +kernel

/-- Canvas line 0 of a slice mounted portrait: its first cell starts at pixel 639 and steps by 640 (spec/08). -/
theorem test_rotation : (⟨0x101, 1, false, 0, true, 0, 0, 360, 640⟩ : MapEntry).run 0 = (639, 2, 640) := by decide

/-- The table and pixel of spec/11's example: three light levels, and the derated peak. -/
def table11 : TblSt := { peak := 0x4000, edges := [0x1C00, 0x2800, 0x3400], z := 0x3400 }

def bands11 : List (List Fp) :=
  [[-1 / 32, 9 / 8, -1 / 16], [-1 / 64, 17 / 16, -1 / 32], [-1 / 128, 33 / 32, -1 / 64], [0, 63 / 64, -1 / 128]].map fun r =>
    [1, 0, 0].map num ++ r.map num ++ [0, 0, 1].map num

def curve11 : List Nat := [0, 2, 4, 8, 16, 33, 66, 132, 265, 530, 1061, 2124, 4252, 8520, 17110, 34500, 65535]

def green11 (code : Nat) (k : Rat) : Nat :=
  let v := log36Value code
  (curveCode table11.peak curve11 ((pixelLights table11 bands11 (num k) ⟨v, v, v⟩).getD 1 fpZero)).1

theorem test_correction : green11 1280 (1 / 2) = 135 ∧ green11 2560 (1 / 2) = 4285 ∧ green11 3328 (1 / 2) = 33685 ∧
    green11 3328 (3 / 8) = 25194 := by decide +kernel

/-- The trims of spec/12's chain 17, its LATCH word and the length of its load. -/
theorem test_chain : ((List.range 6).map fun d => trimOf d (6 / 5)
      ((([66.40, 99.10, 131.94, 164.50, 197.30, 230.04] : List Rat).getD d 0 - 64) / 2)) = [0, -6, -12, -17, -23, -29] ∧
    typedWord ldLatch 2 5 0 = 0x2851 ∧ 2 * burstTicks (1 + 6 * 902) = 3 * 692888 := by decide +kernel

/-! ## The hypotheses of the obligations -/

/-- What O1 supposes, met clause by clause. -/
theorem witness_StepRunsFrontCommand :
    ((queued (Instr.nop hd) (base 1 2)).pending = [Instr.nop hd]) := by
  decide +kernel

/-- What O2 supposes, met clause by clause. -/
theorem witness_IdleStepIsOneTick :
    ((base 1 2).pending = []) := by
  decide +kernel

/-- What O3 supposes, met clause by clause. -/
theorem witness_PacketsWithoutASession :
    (hostParts (Instr.nop hd) ≠ none) ∧
    (hostParts (Instr.regRead (hdS 9) 256 1) ≠ none ∧ (base 1 2).accepts (Item.cmd (Instr.regRead (hdS 9) 256
      1)).hdr.via = true ∧ (base 1 2).executes (Item.cmd (Instr.regRead (hdS 9) 256 1)).hdr = true ∧ (base 1
      2).sessionOf (Item.cmd (Instr.regRead (hdS 9) 256 1)).hdr.src = none ∧ (Item.cmd (Instr.regRead (hdS 9) 256
      1)).opcode ≠ 0 ∧ (Item.cmd (Instr.regRead (hdS 9) 256 1)).opcode ≠ 1) ∧
    ((base 1 2).accepts (hdS 9).via = true ∧ (base 1 2).executes (hdS 9) = true ∧ (base 1 2).sessionOf (hdS 9).src =
      none ∧ (hdS 9).txnId = 0) ∧
    ((base 1 2).accepts hd.via = true ∧ (base 1 2).executes hd = true ∧ (base 1 2).sessionOf hd.src = some 0 ∧
      viaNumber ((base 1 2).sess 0).via = viaNumber hd.via) ∧
    ((base 1 2).accepts hd.via = true ∧ (base 1 2).executes hd = true) := by
  decide +kernel

/-- What O4 supposes, met clause by clause. -/
theorem witness_DecodeOfEncodeIsTheCommand :
    ((Instr.memWrite hd 16 [1, 2]).wellFormed = true ∧ encodePacket (Instr.memWrite hd 16 [1, 2]) = some (Packet.mk hd
      17 4 [0, 16, 1, 2])) := by
  decide +kernel

/-- What O5 supposes, met clause by clause. -/
theorem witness_AnswerIsSentAndKept :
    (((media (base 1 2)).sess 0).held = [] ∧ 0 < (media (base 1 2)).cmd.sess.length ∧ (Item.cmd (Instr.nop hd)).opcode
      ≠ 2 ∧ nextVia ((media (base 1 2)).sess 0).via (Item.cmd (Instr.nop hd)).hdr.via = Via.udp 1 2 0 0) := by
  decide +kernel

/-- What O6 supposes, met clause by clause. -/
theorem witness_OutOfOrderPacketsAreNotExecuted :
    ((Item.cmd (Instr.nop (hdQ 9))).hdr.via = Via.udp 1 2 0 0 ∧ (base 1 2).accepts (Item.cmd (Instr.nop (hdQ
      9))).hdr.via = true ∧ (base 1 2).executes (Item.cmd (Instr.nop (hdQ 9))).hdr = true ∧ (Item.cmd (Instr.nop (hdQ
      9))).opcode ≠ 1 ∧ hostParts (Instr.nop (hdQ 9)) ≠ none ∧ (base 1 2).sessionOf (Item.cmd (Instr.nop (hdQ
      9))).hdr.src = some 0 ∧ viaNumber ((base 1 2).sess 0).via = 1 ∧ 2 ^ 31 ≤ distance ((base 1 2).sess 0).expected
      (Item.cmd (Instr.nop (hdQ 9))).hdr.seq) ∧
    ((Item.cmd (Instr.nop (hdQ 1034))).hdr.via = Via.udp 1 2 0 0 ∧ (media (base 1 2)).accepts (Item.cmd (Instr.nop
      (hdQ 1034))).hdr.via = true ∧ (media (base 1 2)).executes (Item.cmd (Instr.nop (hdQ 1034))).hdr = true ∧
      (Item.cmd (Instr.nop (hdQ 1034))).opcode ≠ 1 ∧ hostParts (Instr.nop (hdQ 1034)) ≠ none ∧ (media (base 1
      2)).sessionOf (Item.cmd (Instr.nop (hdQ 1034))).hdr.src = some 0 ∧ viaNumber ((media (base 1 2)).sess 0).via = 1
      ∧ 1024 ≤ distance ((media (base 1 2)).sess 0).expected (Item.cmd (Instr.nop (hdQ 1034))).hdr.seq ∧ distance
      ((media (base 1 2)).sess 0).expected (Item.cmd (Instr.nop (hdQ 1034))).hdr.seq < 2 ^ 31 ∧ (media (base 1
      2)).udpOut = true) := by
  decide +kernel

/-- What O7 supposes, met clause by clause. -/
theorem witness_SessionCommandsComplete :
    ((base 1 2).ready (Instr.nop hd) 0 none = true) ∧
    ((base 1 2).accepts (hdS 9).via = true ∧ (base 1 2).executes (hdS 9) = true ∧ (hdS 9).txnId = 0 ∧ (base 1
      2).sessionOf (hdS 9).src = none ∧ (base 1 2).sessFree = some 1 ∧ 1 < (base 1 2).cmd.sess.length) ∧
    ((base 1 2).ready (Instr.sessionClose hd) 0 none = true) := by
  decide +kernel

/-- What O8 supposes, met clause by clause. -/
theorem witness_LiveAliasReadsTheLiveCopy :
    (131584 % 65536 < 32768 ∧ regFind 131584 = some (decl 131584, []) ∧ (decl 131584).shadowed = true ∧ (base 1
      2).readable 131584 = true) := by
  decide +kernel

/-- What O9 supposes, met clause by clause. -/
theorem witness_RegisterReadsComplete :
    (regsNamed 131584 3 ∧ (base 1 2).ready (Instr.regRead hd 131584 3) 0 none = true) ∧
    (regsNamed 131584 1 ∧ (base 1 2).ready (Instr.regReadLive hd 131584 1) 0 none = true) := by
  and_intros
  all_goals decide +kernel

/-- What O10 supposes, met clause by clause. -/
theorem witness_RegisterWritesComplete :
    (regsNamed 64 [1, 2].length ∧ (base 1 2).ready (Instr.regWrite hd 64 [1, 2]) 0 none = true ∧ (∀ i < [1, 2].length,
      isShadowed (64 + 4 * i) = false)) ∧
    (regsNamed 68 1 ∧ (base 1 2).ready (Instr.regModify hd 68 255 4660) 0 none = true ∧ isShadowed 68 = false) ∧
    (regsNamed 131584 1 ∧ 131584 % 65536 < 32768 ∧ regFind 131584 = some (decl 131584, []) ∧ (decl 131584).shadowed =
      true ∧ (withTxn false TxnState.opened [] (base 1 2)).ready (Instr.regWrite (hdT 3) 131584 [5]) 0 (some (txn3
      false TxnState.opened [])) = true ∧ (txn3 false TxnState.opened []).entries.any isMolt = false ∧ (txn3 false
      TxnState.opened []).entries.length < 4096) ∧
    (regsNamed 131584 1 ∧ 131584 % 65536 < 32768 ∧ regFind 131584 = some (decl 131584, []) ∧ (decl 131584).shadowed =
      true ∧ (withTxn false TxnState.opened [] (base 1 2)).ready (Instr.regModify (hdT 3) 131584 1 5) 0 (some (txn3
      false TxnState.opened [])) = true ∧ (txn3 false TxnState.opened []).entries.any isMolt = false ∧ (txn3 false
      TxnState.opened []).entries.length < 4096) := by
  and_intros
  all_goals decide +kernel

/-- What O11 supposes, met clause by clause. -/
theorem witness_RegisterWriteFrame :
    (68 % 65536 < 32768 ∧ regFind 68 = some (decl 68, [1]) ∧ (∀ f ∈ (decl 68).fields, f.acc = Acc.rw) ∧ (∀ (x : State)
      (x_1 : Word), x.writeSpecial 0 [1] (decl 68).base 68 x_1 7 7 = none)) ∧
    ((regFind 294912 = none ∨ 32768 ≤ 294912 % 65536)) := by
  and_intros
  all_goals first
    | decide +kernel
    | exact fun _ _ => rfl

/-- What O12 supposes, met clause by clause. -/
theorem witness_MemoryCommandsComplete :
    ((dram (base 1 2)).ready (Instr.memRead hd 260 3) 0 none = true ∧ 260 % 4 = 0 ∧ 3 ≤ 16382 ∧ 260 + 4 * 3 ≤ 2 ^ 40 ∧
      (dram (base 1 2)).memWaits 260 (4 * 3) false = false) ∧
    ((dram (base 1 2)).ready (Instr.memWrite hd 260 [1, 2]) 0 none = true ∧ 260 % 4 = 0 ∧ 260 + 4 * [1, 2].length ≤ 2
      ^ 40 ∧ ((dram (base 1 2)).turn (Instr.memWrite hd 260 [1, 2]) 0).writeLocked 260 (4 * [1, 2].length) = none ∧
      (dram (base 1 2)).memWaits 260 (4 * [1, 2].length) true = false) ∧
    ((dram (base 1 2)).ready (Instr.memFill hd 264 16 5) 0 none = true ∧ 264 % 8 = 0 ∧ 16 % 8 = 0 ∧ 264 + 16 ≤ 2 ^ 40
      ∧ ((dram (base 1 2)).turn (Instr.memFill hd 264 16 5) 0).writeLocked 264 16 = none ∧ (dram (base 1 2)).opFree =
      some 0) ∧
    ((dram (base 1 2)).ready (Instr.memFill hd 264 0 5) 0 none = true ∧ 264 % 8 = 0 ∧ 0 % 8 = 0 ∧ 264 + 0 ≤ 2 ^ 40 ∧
      ((dram (base 1 2)).turn (Instr.memFill hd 264 0 5) 0).writeLocked 264 0 = none ∧ (dram (base 1 2)).opFree = some
      0) ∧
    ((dram (base 1 2)).ready (Instr.memCopy hd 256 512 16) 0 none = true ∧ 256 % 8 = 0 ∧ 512 % 8 = 0 ∧ 16 % 8 = 0 ∧
      256 + 16 ≤ 2 ^ 40 ∧ 512 + 16 ≤ 2 ^ 40 ∧ (256 + 16 ≤ 512 ∨ 512 + 16 ≤ 256) ∧ ((dram (base 1 2)).turn
      (Instr.memCopy hd 256 512 16) 0).writeLocked 512 16 = none ∧ (dram (base 1 2)).opFree = some 0) := by
  decide +kernel

/-- What O13 supposes, met clause by clause. -/
theorem witness_MemoryWriteFrame :
    ([1, 2, 3] ≠ []) ∧
    (256 % 8 = 0 ∧ [1, 2, 3, 4, 5, 6, 7, 8].length % 8 = 0 ∧ 256 ≤ 261 ∧ 261 < 256 + [1, 2, 3, 4, 5, 6, 7, 8].length ∧
      (dram (base 1 2)).mayAccess Client.host (261 / 8 * 8) = true) := by
  decide +kernel

/-- What O14 supposes, met clause by clause. -/
theorem witness_MoverOperationsEnd :
    ((2 < (running (OpKind.memFill 16 16 72623859790382856) (dram (base 1 2))).cmd.ops.length ∧ ((running
      (OpKind.memFill 16 16 72623859790382856) (dram (base 1 2))).op 2).st = 1 ∧ ((running (OpKind.memFill 16 16
      72623859790382856) (dram (base 1 2))).op 2).orphan = false ∧ ((running (OpKind.memFill 16 16 72623859790382856)
      (dram (base 1 2))).op 2).kind = OpKind.memFill 16 16 72623859790382856) ∧ 16 % 8 = 0 ∧ (running (OpKind.memFill
      16 16 72623859790382856) (dram (base 1 2))).drains 16 16 = false) ∧
    ((2 < (running (OpKind.memCopy 16 32 16) ((dram (base 1 2)).setByte 19 9)).cmd.ops.length ∧ ((running
      (OpKind.memCopy 16 32 16) ((dram (base 1 2)).setByte 19 9)).op 2).st = 1 ∧ ((running (OpKind.memCopy 16 32 16)
      ((dram (base 1 2)).setByte 19 9)).op 2).orphan = false ∧ ((running (OpKind.memCopy 16 32 16) ((dram (base 1
      2)).setByte 19 9)).op 2).kind = OpKind.memCopy 16 32 16) ∧ 16 % 8 = 0 ∧ 32 % 8 = 0 ∧ (16 + 16 ≤ 32 ∨ 32 + 16 ≤
      16) ∧ (running (OpKind.memCopy 16 32 16) ((dram (base 1 2)).setByte 19 9)).drains 16 16 = false ∧ (running
      (OpKind.memCopy 16 32 16) ((dram (base 1 2)).setByte 19 9)).drains 32 16 = false) := by
  decide +kernel

/-- What O15 supposes, met clause by clause. -/
theorem witness_DemandReadsWriteNothing :
    ((flawed.readWord Client.host 16).dec = some (decodeWord (codeWord 85 false ^^^ 1#80 <<< 3)) ∧ (decodeWord
      (codeWord 85 false ^^^ 1#80 <<< 3)).bad = false ∧ (decodeWord (codeWord 85 false ^^^ 1#80 <<< 3)).word.getLsbD
      78 = false) ∧
    ((dram (base 1 2)).ready (Instr.memRead hd 260 3) 0 none = true ∧ 260 % 4 = 0 ∧ 3 ≤ 16382 ∧ 260 + 4 * 3 ≤ 2 ^ 40 ∧
      (dram (base 1 2)).memWaits 260 (4 * 3) false = false) := by
  decide +kernel

/-- What O16 supposes, met clause by clause. -/
theorem witness_TwoWrongBitsAreCorrected :
    (3 < 80 ∧ 79 < 80 ∧ 3 ≠ 79) := by
  decide +kernel

/-- What O17 supposes, met clause by clause. -/
theorem witness_MemoryStaysCanonical :
    (Memory.wf (dram (base 1 2)).mem = true) := by
  decide +kernel

/-- What O18 supposes, met clause by clause. -/
theorem witness_EveryStepKeepsCanonicalForms :
    (Memory.wf (queued (Instr.reset hd) (base 1 2)).mem = true ∧ regsWf (queued (Instr.reset hd) (base 1 2)).regs =
      true ∧ (∃ t, step (queued (Instr.reset hd) (base 1 2)) = .next t)) := by
  and_intros
  all_goals first
    | decide +kernel
    | exact ⟨_, rfl⟩

/-- What O20 supposes, met clause by clause. -/
theorem witness_TransactionBeginAbortQueryComplete :
    ((base 1 2).ready (Instr.txnBegin (hdT 3) false) 0 none = true ∧ (hdT 3).txnId ≠ 0 ∧ (Option.all (fun (p : BitVec
      16) => decide (1 ≤ ((hdT 3).txnId - p).toNat ∧ ((hdT 3).txnId - p).toNat ≤ 32767)) ((base 1 2).sess 0).lastBegin
      = true) ∧ (Option.any (fun (x : Txn) => !x.over) ((base 1 2).txnNamed ((base 1 2).sess 0).uid (hdT 3).txnId) =
      false) ∧ ((List.filter (fun (x : Txn) => x.uid == ((base 1 2).sess 0).uid && x.state == TxnState.opened) (base 1
      2).txn.txns).length < 8)) ∧
    ((withTxn false TxnState.opened [] (base 1 2)).ready (Instr.txnAbort (hdT 3)) 0 none = true ∧ (withTxn false
      TxnState.opened [] (base 1 2)).txnNamed ((withTxn false TxnState.opened [] (base 1 2)).sess 0).uid (hdT 3).txnId
      = some (txn3 false TxnState.opened []) ∧ ((txn3 false TxnState.opened []).state = TxnState.opened ∨ (txn3 false
      TxnState.opened []).state = TxnState.uncertain)) ∧
    ((withTxn true TxnState.uncertain [] (base 1 2)).ready (Instr.txnAbort (hdT 3)) 0 none = true ∧ (withTxn true
      TxnState.uncertain [] (base 1 2)).txnNamed ((withTxn true TxnState.uncertain [] (base 1 2)).sess 0).uid (hdT
      3).txnId = some (txn3 true TxnState.uncertain []) ∧ ((txn3 true TxnState.uncertain []).state = TxnState.opened ∨
      (txn3 true TxnState.uncertain []).state = TxnState.uncertain)) ∧
    ((base 1 2).ready (Instr.txnQuery (hdT 3)) 0 none = true ∧ (base 1 2).txnNamed ((base 1 2).sess 0).uid (hdT
      3).txnId = none) ∧
    ((withTxn false TxnState.opened [] (base 1 2)).ready (Instr.txnQuery (hdT 3)) 0 none = true ∧ (withTxn false
      TxnState.opened [] (base 1 2)).txnNamed ((withTxn false TxnState.opened [] (base 1 2)).sess 0).uid (hdT 3).txnId
      = some (txn3 false TxnState.opened []) ∧ (txn3 false TxnState.opened []).state ≠ TxnState.uncertain) ∧
    ((decided (root (base 1 2))).ready (Instr.txnQueryGlobal (hdT 3)) 0 none = true ∧ (decided (root (base 1
      2))).isRoot = true ∧ (List.find? (fun (e : Decision) => e.src == ((decided (root (base 1 2))).sess 0).src &&
      e.id == (hdT 3).txnId) (decided (root (base 1 2))).txn.decisions = some dec53)) ∧
    ((withTxn true TxnState.uncertain [] (base 1 2)).ready (Instr.txnQuery (hdT 3)) 0 none = true ∧ (withTxn true
      TxnState.uncertain [] (base 1 2)).txnNamed ((withTxn true TxnState.uncertain [] (base 1 2)).sess 0).uid (hdT
      3).txnId = some (txn3 true TxnState.uncertain []) ∧ (txn3 true TxnState.uncertain []).state =
      TxnState.uncertain) := by
  decide +kernel

/-- What O21 supposes, met clause by clause. -/
theorem witness_CommitsAndPreparesComplete :
    ((withTxn false TxnState.opened [Entry.write 131584 1001] (base 1 2)).ready (Instr.txnCommit (hdT 3) ten) 0 none =
      true ∧ (withTxn false TxnState.opened [Entry.write 131584 1001] (base 1 2)).txnNamed ((withTxn false
      TxnState.opened [Entry.write 131584 1001] (base 1 2)).sess 0).uid (hdT 3).txnId = some (txn3 false
      TxnState.opened [Entry.write 131584 1001]) ∧ ((txn3 false TxnState.opened [Entry.write 131584 1001]).state =
      TxnState.opened ∧ (txn3 false TxnState.opened [Entry.write 131584 1001]).global = false ∨ (txn3 false
      TxnState.opened [Entry.write 131584 1001]).state = TxnState.uncertain) ∧ ((withTxn false TxnState.opened
      [Entry.write 131584 1001] (base 1 2)).turn (Instr.txnCommit (hdT 3) ten) 0).commitWaits (txn3 false
      TxnState.opened [Entry.write 131584 1001]) = false ∧ (((withTxn false TxnState.opened [Entry.write 131584 1001]
      (base 1 2)).turn (Instr.txnCommit (hdT 3) ten) 0).aim (txn3 false TxnState.opened [Entry.write 131584
      1001]).entries ten = some tenAim ∧ ((withTxn false TxnState.opened [Entry.write 131584 1001] (base 1 2)).turn
      (Instr.txnCommit (hdT 3) ten) 0).leadFault tenAim.at_ = 0 ∧ ((withTxn false TxnState.opened [Entry.write 131584
      1001] (base 1 2)).turn (Instr.txnCommit (hdT 3) ten) 0).outOfOrder (txn3 false TxnState.opened [Entry.write
      131584 1001]) tenAim.at_ = false ∧ ((txn3 false TxnState.opened [Entry.write 131584 1001]).state =
      TxnState.uncertain ∨ ((withTxn false TxnState.opened [Entry.write 131584 1001] (base 1 2)).turn (Instr.txnCommit
      (hdT 3) ten) 0).pendUsed < 16) ∧ accepted3 false TxnState.pending = Txn.mk (txn3 false TxnState.opened
      [Entry.write 131584 1001]).uid (txn3 false TxnState.opened [Entry.write 131584 1001]).slot (txn3 false
      TxnState.opened [Entry.write 131584 1001]).src (txn3 false TxnState.opened [Entry.write 131584 1001]).id (txn3
      false TxnState.opened [Entry.write 131584 1001]).global TxnState.pending (txn3 false TxnState.opened
      [Entry.write 131584 1001]).began (txn3 false TxnState.opened [Entry.write 131584 1001]).entries tenAim.frame
      ten.p.toNat tenAim.at_ tenAim.beat false (if TxnState.pending = TxnState.pending then ((withTxn false
      TxnState.opened [Entry.write 131584 1001] (base 1 2)).turn (Instr.txnCommit (hdT 3) ten) 0).txn.seq else 0)
      false false (txn3 false TxnState.opened [Entry.write 131584 1001]).ended (txn3 false TxnState.opened
      [Entry.write 131584 1001]).reason (if (txn3 false TxnState.opened [Entry.write 131584 1001]).state =
      TxnState.uncertain then (txn3 false TxnState.opened [Entry.write 131584 1001]).pend else ((withTxn false
      TxnState.opened [Entry.write 131584 1001] (base 1 2)).turn (Instr.txnCommit (hdT 3) ten) 0).pendFree) ∧ ((txn3
      false TxnState.opened [Entry.write 131584 1001]).entries = [] ∨ ((withTxn false TxnState.opened [Entry.write
      131584 1001] (base 1 2)).turn (Instr.txnCommit (hdT 3) ten) 0).txnInfeasible (accepted3 false TxnState.pending)
      tenAim = none))) ∧
    ((withTxn true TxnState.uncertain [Entry.write 131584 1001] (base 1 2)).ready (Instr.txnCommit (hdT 3) ten) 0 none
      = true ∧ (withTxn true TxnState.uncertain [Entry.write 131584 1001] (base 1 2)).txnNamed ((withTxn true
      TxnState.uncertain [Entry.write 131584 1001] (base 1 2)).sess 0).uid (hdT 3).txnId = some (txn3 true
      TxnState.uncertain [Entry.write 131584 1001]) ∧ ((txn3 true TxnState.uncertain [Entry.write 131584 1001]).state
      = TxnState.opened ∧ (txn3 true TxnState.uncertain [Entry.write 131584 1001]).global = false ∨ (txn3 true
      TxnState.uncertain [Entry.write 131584 1001]).state = TxnState.uncertain) ∧ ((withTxn true TxnState.uncertain
      [Entry.write 131584 1001] (base 1 2)).turn (Instr.txnCommit (hdT 3) ten) 0).commitWaits (txn3 true
      TxnState.uncertain [Entry.write 131584 1001]) = false ∧ (((withTxn true TxnState.uncertain [Entry.write 131584
      1001] (base 1 2)).turn (Instr.txnCommit (hdT 3) ten) 0).aim (txn3 true TxnState.uncertain [Entry.write 131584
      1001]).entries ten = some tenAim ∧ ((withTxn true TxnState.uncertain [Entry.write 131584 1001] (base 1 2)).turn
      (Instr.txnCommit (hdT 3) ten) 0).leadFault tenAim.at_ = 0 ∧ ((withTxn true TxnState.uncertain [Entry.write
      131584 1001] (base 1 2)).turn (Instr.txnCommit (hdT 3) ten) 0).outOfOrder (txn3 true TxnState.uncertain
      [Entry.write 131584 1001]) tenAim.at_ = false ∧ ((txn3 true TxnState.uncertain [Entry.write 131584 1001]).state
      = TxnState.uncertain ∨ ((withTxn true TxnState.uncertain [Entry.write 131584 1001] (base 1 2)).turn
      (Instr.txnCommit (hdT 3) ten) 0).pendUsed < 16) ∧ accepted3 true TxnState.pending = Txn.mk (txn3 true
      TxnState.uncertain [Entry.write 131584 1001]).uid (txn3 true TxnState.uncertain [Entry.write 131584 1001]).slot
      (txn3 true TxnState.uncertain [Entry.write 131584 1001]).src (txn3 true TxnState.uncertain [Entry.write 131584
      1001]).id (txn3 true TxnState.uncertain [Entry.write 131584 1001]).global TxnState.pending (txn3 true
      TxnState.uncertain [Entry.write 131584 1001]).began (txn3 true TxnState.uncertain [Entry.write 131584
      1001]).entries tenAim.frame ten.p.toNat tenAim.at_ tenAim.beat false (if TxnState.pending = TxnState.pending
      then ((withTxn true TxnState.uncertain [Entry.write 131584 1001] (base 1 2)).turn (Instr.txnCommit (hdT 3) ten)
      0).txn.seq else 0) false false (txn3 true TxnState.uncertain [Entry.write 131584 1001]).ended (txn3 true
      TxnState.uncertain [Entry.write 131584 1001]).reason (if (txn3 true TxnState.uncertain [Entry.write 131584
      1001]).state = TxnState.uncertain then (txn3 true TxnState.uncertain [Entry.write 131584 1001]).pend else
      ((withTxn true TxnState.uncertain [Entry.write 131584 1001] (base 1 2)).turn (Instr.txnCommit (hdT 3) ten)
      0).pendFree) ∧ ((txn3 true TxnState.uncertain [Entry.write 131584 1001]).entries = [] ∨ ((withTxn true
      TxnState.uncertain [Entry.write 131584 1001] (base 1 2)).turn (Instr.txnCommit (hdT 3) ten) 0).txnInfeasible
      (accepted3 true TxnState.pending) tenAim = none))) ∧
    ((withTxn false TxnState.opened [Entry.write 131584 1001] (base 1 2)).ready (Instr.txnCommitValidate (hdT 3) false
      ten) 0 none = true ∧ (withTxn false TxnState.opened [Entry.write 131584 1001] (base 1 2)).txnNamed ((withTxn
      false TxnState.opened [Entry.write 131584 1001] (base 1 2)).sess 0).uid (hdT 3).txnId = some (txn3 false
      TxnState.opened [Entry.write 131584 1001]) ∧ (txn3 false TxnState.opened [Entry.write 131584 1001]).state =
      TxnState.opened ∧ (txn3 false TxnState.opened [Entry.write 131584 1001]).global = false ∧ ((withTxn false
      TxnState.opened [Entry.write 131584 1001] (base 1 2)).turn (Instr.txnCommitValidate (hdT 3) false ten)
      0).commitWaits (txn3 false TxnState.opened [Entry.write 131584 1001]) = false ∧ (((withTxn false TxnState.opened
      [Entry.write 131584 1001] (base 1 2)).turn (Instr.txnCommitValidate (hdT 3) false ten) 0).aim (txn3 false
      TxnState.opened [Entry.write 131584 1001]).entries ten = some tenAim ∧ ((withTxn false TxnState.opened
      [Entry.write 131584 1001] (base 1 2)).turn (Instr.txnCommitValidate (hdT 3) false ten) 0).leadFault tenAim.at_ =
      0 ∧ ((withTxn false TxnState.opened [Entry.write 131584 1001] (base 1 2)).turn (Instr.txnCommitValidate (hdT 3)
      false ten) 0).outOfOrder (txn3 false TxnState.opened [Entry.write 131584 1001]) tenAim.at_ = false ∧ ((txn3
      false TxnState.opened [Entry.write 131584 1001]).state = TxnState.uncertain ∨ ((withTxn false TxnState.opened
      [Entry.write 131584 1001] (base 1 2)).turn (Instr.txnCommitValidate (hdT 3) false ten) 0).pendUsed < 16) ∧
      accepted3 false TxnState.pending = Txn.mk (txn3 false TxnState.opened [Entry.write 131584 1001]).uid (txn3 false
      TxnState.opened [Entry.write 131584 1001]).slot (txn3 false TxnState.opened [Entry.write 131584 1001]).src (txn3
      false TxnState.opened [Entry.write 131584 1001]).id (txn3 false TxnState.opened [Entry.write 131584
      1001]).global TxnState.pending (txn3 false TxnState.opened [Entry.write 131584 1001]).began (txn3 false
      TxnState.opened [Entry.write 131584 1001]).entries tenAim.frame ten.p.toNat tenAim.at_ tenAim.beat false (if
      TxnState.pending = TxnState.pending then ((withTxn false TxnState.opened [Entry.write 131584 1001] (base 1
      2)).turn (Instr.txnCommitValidate (hdT 3) false ten) 0).txn.seq else 0) false false (txn3 false TxnState.opened
      [Entry.write 131584 1001]).ended (txn3 false TxnState.opened [Entry.write 131584 1001]).reason (if (txn3 false
      TxnState.opened [Entry.write 131584 1001]).state = TxnState.uncertain then (txn3 false TxnState.opened
      [Entry.write 131584 1001]).pend else ((withTxn false TxnState.opened [Entry.write 131584 1001] (base 1 2)).turn
      (Instr.txnCommitValidate (hdT 3) false ten) 0).pendFree) ∧ ((txn3 false TxnState.opened [Entry.write 131584
      1001]).entries = [] ∨ ((withTxn false TxnState.opened [Entry.write 131584 1001] (base 1 2)).turn
      (Instr.txnCommitValidate (hdT 3) false ten) 0).txnInfeasible (accepted3 false TxnState.pending) tenAim = none)))
      ∧
    ((withTxn true TxnState.opened [Entry.write 131584 1001] (base 1 2)).ready (Instr.txnPrepare (hdT 3) ten) 0 none =
      true ∧ (withTxn true TxnState.opened [Entry.write 131584 1001] (base 1 2)).txnNamed ((withTxn true
      TxnState.opened [Entry.write 131584 1001] (base 1 2)).sess 0).uid (hdT 3).txnId = some (txn3 true
      TxnState.opened [Entry.write 131584 1001]) ∧ (txn3 true TxnState.opened [Entry.write 131584 1001]).state =
      TxnState.opened ∧ (txn3 true TxnState.opened [Entry.write 131584 1001]).global = true ∧ (withTxn true
      TxnState.opened [Entry.write 131584 1001] (base 1 2)).decisionOf ((withTxn true TxnState.opened [Entry.write
      131584 1001] (base 1 2)).sess 0).src (hdT 3).txnId = none ∧ ((withTxn true TxnState.opened [Entry.write 131584
      1001] (base 1 2)).turn (Instr.txnPrepare (hdT 3) ten) 0).commitWaits (txn3 true TxnState.opened [Entry.write
      131584 1001]) = false ∧ (((withTxn true TxnState.opened [Entry.write 131584 1001] (base 1 2)).turn
      (Instr.txnPrepare (hdT 3) ten) 0).aim (txn3 true TxnState.opened [Entry.write 131584 1001]).entries ten = some
      tenAim ∧ ((withTxn true TxnState.opened [Entry.write 131584 1001] (base 1 2)).turn (Instr.txnPrepare (hdT 3)
      ten) 0).leadFault tenAim.at_ = 0 ∧ ((withTxn true TxnState.opened [Entry.write 131584 1001] (base 1 2)).turn
      (Instr.txnPrepare (hdT 3) ten) 0).outOfOrder (txn3 true TxnState.opened [Entry.write 131584 1001]) tenAim.at_ =
      false ∧ ((txn3 true TxnState.opened [Entry.write 131584 1001]).state = TxnState.uncertain ∨ ((withTxn true
      TxnState.opened [Entry.write 131584 1001] (base 1 2)).turn (Instr.txnPrepare (hdT 3) ten) 0).pendUsed < 16) ∧
      accepted3 true TxnState.prepared = Txn.mk (txn3 true TxnState.opened [Entry.write 131584 1001]).uid (txn3 true
      TxnState.opened [Entry.write 131584 1001]).slot (txn3 true TxnState.opened [Entry.write 131584 1001]).src (txn3
      true TxnState.opened [Entry.write 131584 1001]).id (txn3 true TxnState.opened [Entry.write 131584 1001]).global
      TxnState.prepared (txn3 true TxnState.opened [Entry.write 131584 1001]).began (txn3 true TxnState.opened
      [Entry.write 131584 1001]).entries tenAim.frame ten.p.toNat tenAim.at_ tenAim.beat false (if TxnState.prepared =
      TxnState.pending then ((withTxn true TxnState.opened [Entry.write 131584 1001] (base 1 2)).turn
      (Instr.txnPrepare (hdT 3) ten) 0).txn.seq else 0) false false (txn3 true TxnState.opened [Entry.write 131584
      1001]).ended (txn3 true TxnState.opened [Entry.write 131584 1001]).reason (if (txn3 true TxnState.opened
      [Entry.write 131584 1001]).state = TxnState.uncertain then (txn3 true TxnState.opened [Entry.write 131584
      1001]).pend else ((withTxn true TxnState.opened [Entry.write 131584 1001] (base 1 2)).turn (Instr.txnPrepare
      (hdT 3) ten) 0).pendFree) ∧ ((txn3 true TxnState.opened [Entry.write 131584 1001]).entries = [] ∨ ((withTxn true
      TxnState.opened [Entry.write 131584 1001] (base 1 2)).turn (Instr.txnPrepare (hdT 3) ten) 0).txnInfeasible
      (accepted3 true TxnState.prepared) tenAim = none))) ∧
    ((withTxn true TxnState.uncertain [Entry.write 131584 1001] (base 1 2)).atTurn (Instr.txnPrepare (hdT 3) ten) 0 =
      true ∧ (withTxn true TxnState.uncertain [Entry.write 131584 1001] (base 1 2)).instar ≠ 4 ∧ (withTxn true
      TxnState.uncertain [Entry.write 131584 1001] (base 1 2)).bit F.SYS_BOOT_RECOVERY = false ∧ (withTxn true
      TxnState.uncertain [Entry.write 131584 1001] (base 1 2)).txnNamed ((withTxn true TxnState.uncertain [Entry.write
      131584 1001] (base 1 2)).sess 0).uid (hdT 3).txnId = some (txn3 true TxnState.uncertain [Entry.write 131584
      1001]) ∧ (txn3 true TxnState.uncertain [Entry.write 131584 1001]).state = TxnState.uncertain) := by
  and_intros
  all_goals decide +kernel

/-- What O23 supposes, met clause by clause. -/
theorem witness_TransactionsHoldAtMost4096Entries :
    ((withTxn false TxnState.opened fullEntries (base 1 2)).txnNamed (txn3 false TxnState.opened fullEntries).uid
      (txn3 false TxnState.opened fullEntries).id = some (txn3 false TxnState.opened fullEntries) ∧ (txn3 false
      TxnState.opened fullEntries).entries.any isMolt = false ∧ [Entry.write 131584 1].any isMolt = false ∧ 4096 <
      (txn3 false TxnState.opened fullEntries).entries.length + [Entry.write 131584 1].length) ∧
    ((withTxn false TxnState.opened [] (base 1 2)).txnNamed (txn3 false TxnState.opened []).uid (txn3 false
      TxnState.opened []).id = some (txn3 false TxnState.opened []) ∧ (withTxn false TxnState.opened [] (base 1
      2)).addEntries (txn3 false TxnState.opened []) [Entry.write 131584 1] = Res.done Status.ok [] (withTxn false
      TxnState.opened [Entry.write 131584 1] (base 1 2)) ∧ (withTxn false TxnState.opened [Entry.write 131584 1] (base
      1 2)).txnNamed (txn3 false TxnState.opened []).uid (txn3 false TxnState.opened []).id = some (txn3 false
      TxnState.opened [Entry.write 131584 1])) ∧
    (regsNamed 131584 1 ∧ 131584 % 65536 < 32768 ∧ regFind 131584 = some (decl 131584, []) ∧ (decl 131584).shadowed =
      true ∧ (withTxn false TxnState.opened fullEntries (base 1 2)).ready (Instr.regWrite (hdT 3) 131584 [5]) 0 (some
      (txn3 false TxnState.opened fullEntries)) = true ∧ (txn3 false TxnState.opened fullEntries).entries.any isMolt =
      false ∧ (txn3 false TxnState.opened fullEntries).entries.length = 4096) := by
  and_intros
  all_goals decide +kernel

/-- What O24 supposes, met clause by clause. -/
theorem witness_GlobalDecisionsComplete :
    ((root (base 1 2)).ready (Instr.txnCommitGlobal (hdT 3) ten) 0 none = true ∧ ((root (base 1 2)).turn
      (Instr.txnCommitGlobal (hdT 3) ten) 0).checkDecision ((root (base 1 2)).sess 0).src (hdT 3).txnId ten true true
      = Except.ok (dec10 true)) ∧
    ((root (base 1 2)).ready (Instr.txnAbortGlobal (hdT 3) ten) 0 none = true ∧ ((root (base 1 2)).turn
      (Instr.txnAbortGlobal (hdT 3) ten) 0).checkDecision ((root (base 1 2)).sess 0).src (hdT 3).txnId ten false true
      = Except.ok (dec10 false)) ∧
    ((root (base 1 2)).ready (Instr.txnCommitValidate (hdT 3) true ten) 0 none = true ∧ ((root (base 1 2)).turn
      (Instr.txnCommitValidate (hdT 3) true ten) 0).checkDecision ((root (base 1 2)).sess 0).src (hdT 3).txnId ten
      true false = Except.ok (dec10 true)) := by
  decide +kernel

/-- What O25 supposes, met clause by clause. -/
theorem witness_ScheduledActionsComplete :
    ((base 1 2).ready (Instr.schedAction hd ten 9 [68, 7]) 0 none = true ∧ actionOk 9 [68, 7] = true ∧ ((base 1
      2).turn (Instr.schedAction hd ten 9 [68, 7]) 0).actionRes 0 hd 9 [68, 7] = Res.done Status.ok [] (((base 1
      2).turn (Instr.schedAction hd ten 9 [68, 7]) 0).writeReg 0 68 7) ∧ ((base 1 2).turn (Instr.schedAction hd ten 9
      [68, 7]) 0).aim [] ten = some tenAim ∧ ((base 1 2).turn (Instr.schedAction hd ten 9 [68, 7]) 0).leadFault
      tenAim.at_ = 0 ∧ ((base 1 2).turn (Instr.schedAction hd ten 9 [68, 7]) 0).pendUsed < 16 ∧ ((base 1 2).turn
      (Instr.schedAction hd ten 9 [68, 7]) 0).gridBusy none tenAim = false) ∧
    ((withAction 1 (2 ^ 97) (base 1 2)).ready (Instr.schedCancel hd 4) 0 none = true ∧ (List.find? (fun (b :
      Machine.Action) => b.id == 4) (withAction 1 (2 ^ 97) (base 1 2)).txn.actions = some (action4 1 (2 ^ 97))) ∧
      (action4 1 (2 ^ 97)).uid = ((withAction 1 (2 ^ 97) (base 1 2)).sess 0).uid ∧ (withAction 1 (2 ^ 97) (base 1
      2)).clk < (action4 1 (2 ^ 97)).at_) := by
  decide +kernel

/-- What O26 supposes, met clause by clause. -/
theorem witness_ActionIdsAndCancels :
    (State.reset.sys.resetReq = some 0 ∧ State.reset.sys.pwrOff = false ∧ State.reset.resetHeld = false ∧ (∃ t, exec
      Instr.deviceReset State.reset = .next t)) ∧
    ((base 1 2).schedAction ((base 1 2).who 0) hd ten 9 [68, 7] = Res.done Status.ok [1] scheduled ∧
      scheduled.txn.actions ≠ (base 1 2).txn.actions) ∧
    ((base 1 2).ready (Instr.schedCancel hd 4) 0 none = true ∧ (∀ b ∈ (base 1 2).txn.actions, b.id ≠ 4)) ∧
    ((withAction 9 (2 ^ 97) (base 1 2)).ready (Instr.schedCancel hd 4) 0 none = true ∧ (List.find? (fun (b :
      Machine.Action) => b.id == 4) (withAction 9 (2 ^ 97) (base 1 2)).txn.actions = some (action4 9 (2 ^ 97))) ∧
      (action4 9 (2 ^ 97)).uid ≠ ((withAction 9 (2 ^ 97) (base 1 2)).sess 0).uid) ∧
    ((withAction 1 0 (base 1 2)).ready (Instr.schedCancel hd 4) 0 none = true ∧ (List.find? (fun (b : Machine.Action)
      => b.id == 4) (withAction 1 0 (base 1 2)).txn.actions = some (action4 1 0)) ∧ (action4 1 0).uid = ((withAction 1
      0 (base 1 2)).sess 0).uid ∧ (action4 1 0).at_ ≤ (withAction 1 0 (base 1 2)).clk) ∧
    ((withAction 1 (2 ^ 97) (base 1 2)).ready (Instr.schedCancel hd 4) 0 none = true ∧ (List.find? (fun (b :
      Machine.Action) => b.id == 4) (withAction 1 (2 ^ 97) (base 1 2)).txn.actions = some (action4 1 (2 ^ 97))) ∧
      (action4 1 (2 ^ 97)).uid = ((withAction 1 (2 ^ 97) (base 1 2)).sess 0).uid ∧ (withAction 1 (2 ^ 97) (base 1
      2)).clk < (action4 1 (2 ^ 97)).at_) := by
  and_intros
  all_goals first
    | decide +kernel
    | exact ⟨_, rfl⟩

/-- What O27 supposes, met clause by clause. -/
theorem witness_EntriesWriteTheirRegisters :
    ((∀ e ∈ [Entry.molt true], ∀ (w x : Word), e ≠ Entry.write 131584 w ∧ e ≠ Entry.modify 131584 x w)) ∧
    (regsWf [] = true) := by
  exact ⟨by simp, by decide⟩

/-- What O28 supposes, met clause by clause. -/
theorem witness_WingbeatsOrderFrames :
    (0 < grid1.den ∧ grid1.den ≤ grid1.num * 1000000000 * 2 ^ 32) ∧
    (0 < grid1.den ∧ grid1.den ≤ grid1.num * 1000000000 * 2 ^ 32 ∧ grid1.off * 2 ^ 64 ≤ 2 ^ 70) ∧
    (0 < grid1.den ∧ grid1.den ≤ grid1.num * 1000000000 * 2 ^ 32 ∧ 2 ^ 70 ≤ grid1.beat 10000000) := by
  decide +kernel

/-- What O29 supposes, met clause by clause. -/
theorem witness_FencesAndFlipsComplete :
    ((base 1 2).ready (Instr.fenceSignal hd 3 7 0) 0 none = true ∧ (base 1 2).gated = false ∧ ((base 1 2).fence
      3).visible < 7 ∧ (∀ x ∈ ((base 1 2).fence 3).timed, x.2 < 7 ∧ 0 ≠ 0 ∧ x.1 ≤ 0) ∧ (0 = 0 ∨ ((base 1 2).fence
      3).timed.length < 4)) ∧
    ((fenced (base 1 2)).ready (Instr.fenceSignal hd 3 7 9) 0 none = true ∧ (fenced (base 1 2)).gated = false ∧
      ((fenced (base 1 2)).fence 3).visible < 7 ∧ (∀ x ∈ ((fenced (base 1 2)).fence 3).timed, x.2 < 7 ∧ 9 ≠ 0 ∧ x.1 ≤
      9) ∧ (9 = 0 ∨ ((fenced (base 1 2)).fence 3).timed.length < 4)) ∧
    ((frame20 (base 1 2)).ready (Instr.fenceSignal hd 3 7 9) 0 none = true ∧ (frame20 (base 1 2)).gated = false ∧
      ((frame20 (base 1 2)).fence 3).visible < 7 ∧ (∀ x ∈ ((frame20 (base 1 2)).fence 3).timed, x.2 < 7 ∧ 9 ≠ 0 ∧ x.1
      ≤ 9) ∧ (9 = 0 ∨ ((frame20 (base 1 2)).fence 3).timed.length < 4)) ∧
    ((base 1 2).ready (Instr.fenceSignalReset hd 3 7 0) 0 none = true ∧ (base 1 2).gated = false ∧ ((base 1 2).fence
      3).timed = [] ∧ (∀ x ∈ (base 1 2).cmp.flips, ∀ (y : Flip), x = some y → y.noFence = true ∨ y.fence ≠ 3)) ∧
    ((fenced (base 1 2)).ready (Instr.fenceQuery hd 15 1) 0 none = true) ∧
    ((beatNow (base 1 2)).ready (Instr.fenceQuery hd 15 1) 0 none = true) ∧
    ((beatNow (base 1 2)).ready (Instr.fenceSignal hd 3 7 0) 0 none = true ∧ (beatNow (base 1 2)).cmp.gate = some
      beatGate ∧ beatGate.tick = (beatNow (base 1 2)).tick ∧ (∃ u, (((beatNow (base 1 2)).turn (Instr.fenceSignal hd 3
      7 0) 0).ungate beatGate).fenceSignal 3 7 0 = .done Status.ok [7] u)) ∧
    ((beatNow (base 1 2)).ready (Instr.fenceSignalReset hd 3 7 0) 0 none = true ∧ (beatNow (base 1 2)).cmp.gate = some
      beatGate ∧ beatGate.tick = (beatNow (base 1 2)).tick ∧ (∃ u, (((beatNow (base 1 2)).turn (Instr.fenceSignalReset
      hd 3 7 0) 0).ungate beatGate).fenceReset 3 7 0 = .done Status.ok [7] u)) ∧
    ((base 1 2).ready (Instr.layerFlip hd 9 2 3 false 4 0) 0 none = true ∧ 9 ≤ 9 ∧ (base 1 2).gated = false) ∧
    ((frame20 (base 1 2)).ready (Instr.layerFlip hd 0 2 3 false 4 9) 0 none = true ∧ 0 ≤ 9 ∧ (frame20 (base 1
      2)).gated = false) ∧
    ((beatNow (base 1 2)).ready (Instr.layerFlip hd 0 2 3 false 4 9) 0 none = true ∧ 0 ≤ 9 ∧ (beatNow (base 1
      2)).cmp.gate = some beatGate ∧ beatGate.tick = (beatNow (base 1 2)).tick ∧ (∃ u, (((beatNow (base 1 2)).turn
      (Instr.layerFlip hd 0 2 3 false 4 9) 0).ungate beatGate).layerFlip 0 (Flip.mk 2 3 false 4 9) = .done Status.ok
      [] u)) := by
  and_intros
  all_goals first
    | decide +kernel
    | exact ⟨_, rfl⟩

/-- What O30 supposes, met clause by clause. -/
theorem witness_SlotLogAndCounterCommandsComplete :
    ((running OpKind.idle (base 1 2)).ready (Instr.opStatus hd 5) 0 none = true) ∧
    ((running OpKind.idle (base 1 2)).ready (Instr.opResult hd 2 0 4096 1) 0 none = true ∧ ((running OpKind.idle (base
      1 2)).op 2).st ≠ 0 ∧ ((running OpKind.idle (base 1 2)).op 2).gen = 0 ∧ ((running OpKind.idle (base 1 2)).op
      2).ownerUid = ((running OpKind.idle (base 1 2)).sess 0).uid ∧ 4096 ≤ 4096 ∧ 1 ≤ 4096) ∧
    ((doneOp (base 1 2)).ready (Instr.opResult hd 2 5 1 4096) 0 none = true ∧ ((doneOp (base 1 2)).op 2).st ≠ 0 ∧
      ((doneOp (base 1 2)).op 2).gen = 5 ∧ ((doneOp (base 1 2)).op 2).ownerUid = ((doneOp (base 1 2)).sess 0).uid ∧ 1
      ≤ 4096 ∧ 4096 ≤ 4096) ∧
    ((doneOp (base 1 2)).ready (Instr.opRelease hd 2 5) 0 none = true ∧ ((doneOp (base 1 2)).op 2).st ≠ 0 ∧ ((doneOp
      (base 1 2)).op 2).st ≠ 1 ∧ ((doneOp (base 1 2)).op 2).gen = 5 ∧ ((doneOp (base 1 2)).op 2).ownerUid = ((doneOp
      (base 1 2)).sess 0).uid ∧ 2 < (doneOp (base 1 2)).cmd.ops.length) ∧
    ((logged (base 1 2)).ready (Instr.errRead hd 0 128) 0 none = true ∧ 128 ≤ 128) ∧
    ((logged (base 1 2)).ready (Instr.errClear hd 0) 0 none = true) ∧
    ((base 1 2).ready (Instr.diagCounters hd 1 true) 0 none = true ∧ 1 ≠ 5 ∧ diagRegs 1 = some ((diagRegs 1).getD []))
      ∧
    ((base 1 2).ready (Instr.diagCounters hd 14 false) 0 none = true ∧ 14 ≠ 5 ∧ diagRegs 14 = some ((diagRegs 14).getD
      [])) ∧
    ((base 1 2).ready (Instr.diagCounters hd 5 true) 0 none = true) := by
  decide +kernel

/-- What O31 supposes, met clause by clause. -/
theorem witness_ResetCommandsComplete :
    ((base 1 2).ready (Instr.reset hd) 0 none = true) ∧
    ((base 1 2).ready (Instr.resetMedia hd) 0 none = true) ∧
    ((base 1 2).ready (Instr.resetFrx hd 3) 0 none = true) ∧
    ((base 1 2).ready (Instr.resetDram hd 3) 0 none = true ∧ (base 1 2).channelIn 3 = false ∧ (base 1
      2).memc.training.getLsbD 3 = false) ∧
    ((base 1 2).ready (Instr.resetService hd) 0 none = true) ∧
    ((base 1 2).ready (Instr.resetFlash hd) 0 none = true ∧ (base 1 2).flashBusy = false) ∧
    ((base 1 2).ready (Instr.resetMedia hdN) 0 none = true) ∧
    ((base 1 2).ready (Instr.resetService hdN) 0 none = true) ∧
    ((resetDue (base 1 2)).replyQueued = false ∧ 10 ∈ (resetDue (base 1 2)).cdc.due ∧ 1 ≤ 10 ∧ 10 ≤ 11) := by
  and_intros
  all_goals decide +kernel

/-- What O32 supposes, met clause by clause. -/
theorem witness_FabricCommandsComplete :
    ((port 0 lkActive (base 1 2)).ready (Instr.fabProbe hd 2 9) 0 none = true ∧ 1 ≤ 2 ∧ 2 ≤ 64 ∧ (port 0 lkActive
      (base 1 2)).lnkState (hopGet (routeBytes 9) 0 0) = lkActive ∧ (port 0 lkActive (base 1 2)).opFree = some 0) ∧
    (65519 ≠ 0 ∧ 65519 ≤ 65519 ∧ (base 1 2).ready (Instr.fabAssign hd 0 65519 0 (base 1 2).sec.fuses.serial) 0 none =
      true ∧ ((base 1 2).mode = 1 ∨ (base 1 2).mode = 2)) ∧
    ((base 1 2).ready (Instr.fabPathTest hd 9 64 3) 0 none = true ∧ 64 ≤ 64 ∧ 64 ≤ 1024 ∧ 64 % 4 = 0 ∧ (base 1
      2).opFree = some 0) ∧
    ((base 1 2).ready (Instr.fabRouteSet hd 63 true 5 [RouteEntry.mk 1 1 2 true]) 0 none = true ∧ 63 + [RouteEntry.mk
      1 1 2 true].length ≤ 64) := by
  decide +kernel

/-- What O33 supposes, met clause by clause. -/
theorem witness_TableAndLampCommandsComplete :
    ((dram ((base 2 2).setFld (F.LCR_TBL_BASE_BASE_4K 1) 16)).ready (Instr.tableLoad hd 1 false 131072 256) 0 none =
      true ∧ (dram ((base 2 2).setFld (F.LCR_TBL_BASE_BASE_4K 1) 16)).tblSelected 1 = false ∧ (dram ((base 2 2).setFld
      (F.LCR_TBL_BASE_BASE_4K 1) 16)).tblOp = none ∧ 131072 % 8 = 0 ∧ 256 ≤ 256 ∧ 256 ≤ 67109056 ∧ (131072 + 256 ≤ if
      false = true then 268435456 else 2 ^ 40) ∧ (dram ((base 2 2).setFld (F.LCR_TBL_BASE_BASE_4K 1) 16)).inDram
      ((dram ((base 2 2).setFld (F.LCR_TBL_BASE_BASE_4K 1) 16)).tblBase 1) 256 = true ∧ (false = false → 131072 =
      (dram ((base 2 2).setFld (F.LCR_TBL_BASE_BASE_4K 1) 16)).tblBase 1 ∨ (dram ((base 2 2).setFld
      (F.LCR_TBL_BASE_BASE_4K 1) 16)).tblBase 1 + 256 ≤ 131072 ∨ 131072 + 256 ≤ (dram ((base 2 2).setFld
      (F.LCR_TBL_BASE_BASE_4K 1) 16)).tblBase 1) ∧ (false = true → (dram ((base 2 2).setFld (F.LCR_TBL_BASE_BASE_4K 1)
      16)).flashBusy = false) ∧ (dram ((base 2 2).setFld (F.LCR_TBL_BASE_BASE_4K 1) 16)).opFree = some 0) ∧
    ((dram ((base 2 2).setFld (F.LCR_TBL_BASE_BASE_4K 1) 16)).ready (Instr.tableLoad hd 1 true 34603008 67109056) 0
      none = true ∧ (dram ((base 2 2).setFld (F.LCR_TBL_BASE_BASE_4K 1) 16)).tblSelected 1 = false ∧ (dram ((base 2
      2).setFld (F.LCR_TBL_BASE_BASE_4K 1) 16)).tblOp = none ∧ 34603008 % 8 = 0 ∧ 256 ≤ 67109056 ∧ 67109056 ≤ 67109056
      ∧ (34603008 + 67109056 ≤ if true = true then 268435456 else 2 ^ 40) ∧ (dram ((base 2 2).setFld
      (F.LCR_TBL_BASE_BASE_4K 1) 16)).inDram ((dram ((base 2 2).setFld (F.LCR_TBL_BASE_BASE_4K 1) 16)).tblBase 1)
      67109056 = true ∧ (true = false → 34603008 = (dram ((base 2 2).setFld (F.LCR_TBL_BASE_BASE_4K 1) 16)).tblBase 1
      ∨ (dram ((base 2 2).setFld (F.LCR_TBL_BASE_BASE_4K 1) 16)).tblBase 1 + 67109056 ≤ 34603008 ∨ 34603008 + 67109056
      ≤ (dram ((base 2 2).setFld (F.LCR_TBL_BASE_BASE_4K 1) 16)).tblBase 1) ∧ (true = true → (dram ((base 2 2).setFld
      (F.LCR_TBL_BASE_BASE_4K 1) 16)).flashBusy = false) ∧ (dram ((base 2 2).setFld (F.LCR_TBL_BASE_BASE_4K 1)
      16)).opFree = some 0) ∧
    ((base 2 2).ready (Instr.tableVerify hd 1) 0 none = true ∧ (base 2 2).tblOp = none ∧ (base 2 2).opFree = some 0) ∧
    ((dram (tabled (base 2 5))).ready (Instr.lampScan hd 5 true false true 9 4096 100) 0 none = true ∧ (∀ (i : ℕ),
      ((dram (tabled (base 2 5))).op i).st = 1 → ((dram (tabled (base 2 5))).op i).opcode ≠ 72) ∧ (dram (tabled (base
      2 5))).tblValid (dram (tabled (base 2 5))).tblNow = true ∧ 4096 % 16 = 0 ∧ 100 ≤ 1048576 ∧ (dram (tabled (base 2
      5))).inDram 4096 (16 * 100) = true ∧ (dram (tabled (base 2 5))).opFree = some 0) ∧
    ((base 2 2).ready (Instr.lampReport hd 3 4 1000 24) 0 none = true ∧ 1000 + 24 ≤ 1024) := by
  and_intros
  all_goals first
    | decide +kernel
    | exact fun i h => absurd h (no_op_runs _ (by decide +kernel) i)

/-- What O34 supposes, met clause by clause. -/
theorem witness_LinkServiceCommandsComplete :
    ((∀ q < 4, (2#4).getLsbD q = true → (port 1 lkActive (base 1 7)).lnkState q = lkActive ∧ ((port 1 lkActive (base 1
      7)).lane q).cal = none ∧ ((port 1 lkActive (base 1 7)).lane q).calSlot = none) ∧ (port 1 lkActive (base 1
      7)).opFree = some 0 ∧ (port 1 lkActive (base 1 7)).lnk.ports.length = 4 ∧ (port 1 lkActive (base 1 7)).ready
      (Instr.calRun hd 2 true) 0 none = true ∧ (true = true → (port 1 lkActive (base 1 7)).mode = 7)) ∧
    ((∀ q < 4, (2#4).getLsbD q = true → (port 1 lkActive (base 1 2)).lnkState q = lkActive ∧ ((port 1 lkActive (base 1
      2)).lane q).cal = none ∧ ((port 1 lkActive (base 1 2)).lane q).calSlot = none) ∧ (port 1 lkActive (base 1
      2)).opFree = some 0 ∧ (port 1 lkActive (base 1 2)).lnk.ports.length = 4 ∧ (port 1 lkActive (base 1 2)).ready
      (Instr.calStore hd 2) 0 none = true) ∧
    ((base 1 7).ready (Instr.diagPatternGenerate hd 3 5 5 7) 0 none = true ∧ (base 1 7).mode = 7 ∧ 5 < 6 ∧ 3 < (base 1
      7).lnk.ports.length ∧ (Instr.diagPatternGenerate hd 3 5 5 7 = Instr.diagPatternGenerate hd 3 5 5 7 ∧ 1 = 1 ∨
      Instr.diagPatternGenerate hd 3 5 5 7 = Instr.diagPatternCheck hd 3 5 5 7 ∧ 1 = 2 ∨ Instr.diagPatternGenerate hd
      3 5 5 7 = Instr.diagPatternGenerateCheck hd 3 5 5 7 ∧ 1 = 3 ∨ Instr.diagPatternGenerate hd 3 5 5 7 =
      Instr.diagPatternLoopback hd 3 5 5 7 ∧ 1 = 4)) ∧
    ((base 1 7).ready (Instr.diagPatternCheck hd 3 5 5 7) 0 none = true ∧ (base 1 7).mode = 7 ∧ 5 < 6 ∧ 3 < (base 1
      7).lnk.ports.length ∧ (Instr.diagPatternCheck hd 3 5 5 7 = Instr.diagPatternGenerate hd 3 5 5 7 ∧ 2 = 1 ∨
      Instr.diagPatternCheck hd 3 5 5 7 = Instr.diagPatternCheck hd 3 5 5 7 ∧ 2 = 2 ∨ Instr.diagPatternCheck hd 3 5 5
      7 = Instr.diagPatternGenerateCheck hd 3 5 5 7 ∧ 2 = 3 ∨ Instr.diagPatternCheck hd 3 5 5 7 =
      Instr.diagPatternLoopback hd 3 5 5 7 ∧ 2 = 4)) ∧
    ((base 1 7).ready (Instr.diagPatternGenerateCheck hd 3 5 5 7) 0 none = true ∧ (base 1 7).mode = 7 ∧ 5 < 6 ∧ 3 <
      (base 1 7).lnk.ports.length ∧ (Instr.diagPatternGenerateCheck hd 3 5 5 7 = Instr.diagPatternGenerate hd 3 5 5 7
      ∧ 3 = 1 ∨ Instr.diagPatternGenerateCheck hd 3 5 5 7 = Instr.diagPatternCheck hd 3 5 5 7 ∧ 3 = 2 ∨
      Instr.diagPatternGenerateCheck hd 3 5 5 7 = Instr.diagPatternGenerateCheck hd 3 5 5 7 ∧ 3 = 3 ∨
      Instr.diagPatternGenerateCheck hd 3 5 5 7 = Instr.diagPatternLoopback hd 3 5 5 7 ∧ 3 = 4)) ∧
    ((base 1 7).ready (Instr.diagPatternLoopback hd 3 5 5 7) 0 none = true ∧ (base 1 7).mode = 7 ∧ 5 < 6 ∧ 3 < (base 1
      7).lnk.ports.length ∧ (Instr.diagPatternLoopback hd 3 5 5 7 = Instr.diagPatternGenerate hd 3 5 5 7 ∧ 4 = 1 ∨
      Instr.diagPatternLoopback hd 3 5 5 7 = Instr.diagPatternCheck hd 3 5 5 7 ∧ 4 = 2 ∨ Instr.diagPatternLoopback hd
      3 5 5 7 = Instr.diagPatternGenerateCheck hd 3 5 5 7 ∧ 4 = 3 ∨ Instr.diagPatternLoopback hd 3 5 5 7 =
      Instr.diagPatternLoopback hd 3 5 5 7 ∧ 4 = 4)) ∧
    ((port 3 lkService (base 1 7)).ready (Instr.diagPatternStop hd 3 5 5 7) 0 none = true ∧ (port 3 lkService (base 1
      7)).mode = 7 ∧ 5 < 6 ∧ (port 3 lkService (base 1 7)).lnkState 3 = lkService ∧ 3 < (port 3 lkService (base 1
      7)).lnk.ports.length) ∧
    ((tabled (base 2 7)).ready (Instr.diagPatternLampStart hd 3 7) 0 none = true ∧ (tabled (base 2 7)).role = roleTile
      ∧ (tabled (base 2 7)).mode = 7 ∧ (tabled (base 2 7)).tblValid (tabled (base 2 7)).tblNow = true ∧ 3 < 4) ∧
    ((tabled (base 2 7)).ready (Instr.diagPatternLampStop hd 3 7) 0 none = true ∧ (tabled (base 2 7)).role = roleTile
      ∧ (tabled (base 2 7)).mode = 7 ∧ (tabled (base 2 7)).tblValid (tabled (base 2 7)).tblNow = true ∧ 3 < 4) ∧
    (2 ≤ (port 3 lkActive (base 1 2)).mode ∧ (port 3 lkActive (base 1 2)).lnkState 3 = lkActive ∧ 5 < 6 ∧ (port 3
      lkActive (base 1 2)).ready (Instr.diagPatternInjectBit hd 3 5 5 7) 0 none = true) ∧
    (2 ≤ (port 3 lkActive (base 1 2)).mode ∧ (port 3 lkActive (base 1 2)).lnkState 3 = lkActive ∧ 5 < 6 ∧ (port 3
      lkActive (base 1 2)).ready (Instr.diagPatternInjectLcb hd 3 5 5 7) 0 none = true) := by
  and_intros
  all_goals decide +kernel

/-- What O35 supposes, met clause by clause. -/
theorem witness_RedundancyCommandsComplete :
    ((dram (paired (base 1 4))).ready (Instr.redJoin hd 6 [(65536, 65536)]) 0 none = true ∧ (((dram (paired (base 1
      4))).turn (Instr.redJoin hd 6 [(65536, 65536)]) 0).joinRefusal ((dram (paired (base 1 4))).who 0) 6 (List.map
      (fun (r : BitVec 40 × BitVec 40) => (r.1.toNat, r.2.toNat)) [(65536, 65536)]) = none) ∧ (dram (paired (base 1
      4))).opFree = some 0) ∧
    ((base 1 2).ready (Instr.redState hd) 0 none = true) ∧
    ((base 1 3).ready (Instr.redSwitch hd 1) 0 none = true ∧ (base 1 3).role = roleSender ∧ (base 1 3).pairState = 0)
      ∧
    ((base 2 5).ready (Instr.redSwitch hd 1) 0 none = true ∧ (base 2 5).role = roleTile) := by
  decide +kernel

/-- What O36 supposes, met clause by clause. -/
theorem witness_FirmwareCommandsComplete :
    ((onRing (base 1 2)).ready (Instr.fwStage hdR 0 false 4096 0 0 []) 0 none = true ∧ (if false = true then ([] :
      List Word) = [] else 0 = 4 * ([] : List Word).length) ∧ 4096 % 4096 = 0 ∧ 0 % 4096 = 0 ∧ (false = true → 0 % 8 =
      0 ∧ (onRing (base 1 2)).inDram 0 0 = true) ∧ 4096 + 0 ≤ ((onRing (base 1 2)).areaOf 0).2 ∧ (onRing (base 1
      2)).ringSession 0 = true ∧ (onRing (base 1 2)).moltPending = false ∧ (onRing (base 1 2)).flashBusy = false ∧
      (onRing (base 1 2)).opFree = some 0) ∧
    ((dram (onRing (base 1 2))).ready (Instr.fwStage hdR 0 true 4096 8192 8 []) 0 none = true ∧ (if true = true then
      ([] : List Word) = [] else 8192 = 4 * ([] : List Word).length) ∧ 4096 % 4096 = 0 ∧ 8192 % 4096 = 0 ∧ (true =
      true → 8 % 8 = 0 ∧ (dram (onRing (base 1 2))).inDram 8 8192 = true) ∧ 4096 + 8192 ≤ ((dram (onRing (base 1
      2))).areaOf 0).2 ∧ (dram (onRing (base 1 2))).ringSession 0 = true ∧ (dram (onRing (base 1 2))).moltPending =
      false ∧ (dram (onRing (base 1 2))).flashBusy = false ∧ (dram (onRing (base 1 2))).opFree = some 0) ∧
    ((base 1 2).ready (Instr.fwVerify hd) 0 none = true ∧ (base 1 2).flashBusy = false ∧ (base 1 2).opFree = some 0) ∧
    (((onRing (base 1 2)).setFld F.SEC_STAT_CHRYS_STATE 1).ready (Instr.fwMolt hdR true) 0 none = true ∧ ((onRing
      (base 1 2)).setFld F.SEC_STAT_CHRYS_STATE 1).ringSession 0 = true ∧ ((onRing (base 1 2)).setFld
      F.SEC_STAT_CHRYS_STATE 1).fld F.SEC_STAT_CHRYS_STATE = 1 ∧ ((onRing (base 1 2)).setFld F.SEC_STAT_CHRYS_STATE
      1).moltPending = false) ∧
    ((base 1 2).ready (Instr.attest hd [1, 2, 3, 4, 5, 6, 7, 8] true) 0 none = true ∧ (base 1 2).sec.idNext < 2 ^ 30 ∧
      (∀ (i : ℕ), ((base 1 2).op i).st = 1 → ((base 1 2).op i).opcode ≠ 104) ∧ (base 1 2).opFree = some 0) ∧
    ((provisioned (base 1 1)).ready (Instr.instarAdvance hd 1 1229869908 true true) 0 none = true ∧ (provisioned (base
      1 1)).instar < 4 ∧ 1 = (provisioned (base 1 1)).instar + 1 ∧ (provisioned (base 1 1)).mode = 1 ∧ (provisioned
      (base 1 1)).txn.actions = [] ∧ (∀ x ∈ (provisioned (base 1 1)).txn.txns, x.state = TxnState.applied ∨ x.state =
      TxnState.aborted ∨ x.state = TxnState.uncertain) ∧ (1 = 1 → (provisioned (base 1 1)).provOk = true) ∧ (1 = 2 →
      (provisioned (base 1 1)).sec.nvm.ownerKey ≠ none) ∧ (3 ≤ 1 → (provisioned (base 1 1)).ownerSession 0 = true)) ∧
    ((atInstar 1 (base 1 1)).ready (Instr.instarAdvance hd 2 1229869908 true true) 0 none = true ∧ (atInstar 1 (base 1
      1)).instar < 4 ∧ 2 = (atInstar 1 (base 1 1)).instar + 1 ∧ (atInstar 1 (base 1 1)).mode = 1 ∧ (atInstar 1 (base 1
      1)).txn.actions = [] ∧ (∀ x ∈ (atInstar 1 (base 1 1)).txn.txns, x.state = TxnState.applied ∨ x.state =
      TxnState.aborted ∨ x.state = TxnState.uncertain) ∧ (2 = 1 → (atInstar 1 (base 1 1)).provOk = true) ∧ (2 = 2 →
      (atInstar 1 (base 1 1)).sec.nvm.ownerKey ≠ none) ∧ (3 ≤ 2 → (atInstar 1 (base 1 1)).ownerSession 0 = true)) ∧
    ((atInstar 3 (base 1 1)).ready (Instr.instarAdvance hd 4 1229869908 true true) 0 none = true ∧ (atInstar 3 (base 1
      1)).instar < 4 ∧ 4 = (atInstar 3 (base 1 1)).instar + 1 ∧ (atInstar 3 (base 1 1)).mode = 1 ∧ (atInstar 3 (base 1
      1)).txn.actions = [] ∧ (∀ x ∈ (atInstar 3 (base 1 1)).txn.txns, x.state = TxnState.applied ∨ x.state =
      TxnState.aborted ∨ x.state = TxnState.uncertain) ∧ (4 = 1 → (atInstar 3 (base 1 1)).provOk = true) ∧ (4 = 2 →
      (atInstar 3 (base 1 1)).sec.nvm.ownerKey ≠ none) ∧ (3 ≤ 4 → (atInstar 3 (base 1 1)).ownerSession 0 = true)) :=
      by
  and_intros
  all_goals first
    | decide +kernel
    | exact fun i h => absurd h (no_op_runs _ (by decide +kernel) i)

/-- What O37 supposes, met clause by clause. -/
theorem witness_ModesAndRoleAreRequested :
    ((base 1 1).lands = true ∧ (base 1 1).mode = 1 ∧ (base 1 1).sys.change = none ∧ (2 = 2 ∨ 2 = 7) ∧ (2 = 2 → (base 1
      1).role ≠ 0)) ∧
    ((base 0 1).lands = true ∧ (base 0 1).mode = 1 ∧ (base 0 1).sys.change = none ∧ (7 = 2 ∨ 7 = 7) ∧ (7 = 2 → (base 0
      1).role ≠ 0)) ∧
    ((base 1 1).lands = true ∧ (base 1 1).sys.change = none ∧ modePath (base 1 1).mode 5 = false) ∧
    ((base 0 1).lands = true ∧ (base 0 1).role = 0 ∧ 3 ≠ 0) ∧
    ((base 0 1).lands = true ∧ (base 0 1).role = 0 ∧ 1 ≠ 0) ∧
    ((base 1 1).lands = true ∧ (base 1 1).role ≠ 0) ∧
    (((base 1 0).mode = 0 ∨ (base 1 0).bit F.SYS_BOOT_RECOVERY = true ∨ (base 1 0).instar = 4)) ∧
    ((((base 1 2).setFld F.SYS_BOOT_RECOVERY 1).mode = 0 ∨ ((base 1 2).setFld F.SYS_BOOT_RECOVERY 1).bit
      F.SYS_BOOT_RECOVERY = true ∨ ((base 1 2).setFld F.SYS_BOOT_RECOVERY 1).instar = 4)) ∧
    (((atInstar 4 (base 1 2)).mode = 0 ∨ (atInstar 4 (base 1 2)).bit F.SYS_BOOT_RECOVERY = true ∨ (atInstar 4 (base 1
      2)).instar = 4)) := by
  decide +kernel

/-- What O38 supposes, met clause by clause. -/
theorem witness_ClockWritesComplete :
    ((base 1 2).lands = true) ∧
    ((base 1 4).lands = true) ∧
    ((timed srcFabric stLocked (base 1 2)).lands = true) ∧
    ((base 1 2).lands = true ∧ (base 1 2).stepGate true = 0) ∧
    ((base 1 3).lands = true ∧ (base 1 3).stepGate true ≠ 0) ∧
    (((base 1 2).setFld F.TIME_STAT_STATE 3).lands = true ∧ ((base 1 2).setFld F.TIME_STAT_STATE 3).timeState =
      stHoldover ∧ ((base 1 2).setFld F.TIME_STAT_STATE 3).stepGate false = 0) ∧
    ((base 1 3).lands = true ∧ (base 1 3).stepGate false ≠ 0) ∧
    ((base 1 3).lands = true) := by
  decide +kernel

/-- What O39 supposes, met clause by clause. -/
theorem witness_MediaAndLinkWritesComplete :
    ((ethWaits (base 1 2)).lands = true ∧ (ethWaits (base 1 2)).replyQueued = false) ∧
    ((base 1 2).lands = true) ∧
    ((base 2 5).lands = true ∧ (base 2 5).lampsOn = true) ∧
    ((port 3 lkFailed (base 1 2)).lands = true ∧ 3 < (port 3 lkFailed (base 1 2)).lnk.ports.length ∧ (port 3 lkFailed
      (base 1 2)).lnkState 3 = lkFailed) ∧
    ((port 3 lkLight (base 1 2)).lands = true ∧ 3 < (port 3 lkLight (base 1 2)).lnk.ports.length ∧ (port 3 lkLight
      (base 1 2)).carries 3 = true) ∧
    ((port 3 lkActive (base 1 2)).lands = true ∧ 3 < (port 3 lkActive (base 1 2)).lnk.ports.length ∧ (port 3 lkActive
      (base 1 2)).lnkState 3 ≠ lkDeep) ∧
    ((port 3 lkActive (base 1 2)).lands = true ∧ 3 < (port 3 lkActive (base 1 2)).lnk.ports.length) ∧
    ((port 3 lkDeskew (base 1 2)).lands = true ∧ 3 < (port 3 lkDeskew (base 1 2)).lnk.ports.length) ∧
    ((port 3 lkDeep (base 1 2)).lands = true ∧ 3 < (port 3 lkDeep (base 1 2)).lnk.ports.length ∧ (port 3 lkDeep (base
      1 2)).lnkState 3 = lkDeep) := by
  decide +kernel

/-- What O40 supposes, met clause by clause. -/
theorem witness_OwnershipAndMemoryWritesComplete :
    ((onRing (base 1 2)).lands = true ∧ (onRing (base 1 2)).ringSession 0 = true ∧ (onRing (base 1 2)).instar ≤ 1) ∧
    ((base 1 2).lands = true ∧ (base 1 2).ownerSession 0 = true) ∧
    ((onRing (base 1 2)).lands = true ∧ (onRing (base 1 2)).ringSession 0 = true) ∧
    ((dram (base 1 2)).lands = true ∧ ((dram (base 1 2)).mode = 1 ∨ (dram (base 1 2)).mode = 2 ∨ (dram (base 1
      2)).mode = 7) ∧ (dram (base 1 2)).channelIn 0 = true) ∧
    ((base 1 2).lands = true ∧ ((base 1 2).mode = 1 ∨ (base 1 2).mode = 2 ∨ (base 1 2).mode = 7) ∧ (base 1
      2).channelIn 3 = false ∧ (base 1 2).memc.training.getLsbD 3 = false) ∧
    ((base 1 2).lands = true ∧ 47 < 48 ∧ (base 1 2).ownerLocked 47 2 = false) ∧
    ((base 1 2).lands = true ∧ 0 < 48 ∧ (base 1 2).ownerLocked 0 15 = false) ∧
    ((base 1 2).lands = true ∧ 47 < 48 ∧ (base 1 2).fld (F.MEM_BANK_STAT_OWNER 47) = 0 ∧ (F.MEM_BANK_OWNER_OWNER
      47).get ((base 1 2).shadowWord (F.MEM_BANK_OWNER_OWNER 47).addr) = 0 ∧ (base 1 2).entryPending
      (F.MEM_BANK_OWNER_OWNER 47).addr = false ∧ 2 ≠ 3 ∧ (base 1 2).fld (F.MEM_BANK_SET_PWR 47) ≠ 2) ∧
    (((base 1 2).setFld (F.MEM_BANK_SET_PWR 47) 1).lands = true ∧ 47 < 48 ∧ ((base 1 2).setFld (F.MEM_BANK_SET_PWR 47)
      1).fld (F.MEM_BANK_STAT_OWNER 47) = 0 ∧ (F.MEM_BANK_OWNER_OWNER 47).get (((base 1 2).setFld (F.MEM_BANK_SET_PWR
      47) 1).shadowWord (F.MEM_BANK_OWNER_OWNER 47).addr) = 0 ∧ ((base 1 2).setFld (F.MEM_BANK_SET_PWR 47)
      1).entryPending (F.MEM_BANK_OWNER_OWNER 47).addr = false ∧ 0 ≠ 3 ∧ ((base 1 2).setFld (F.MEM_BANK_SET_PWR 47)
      1).fld (F.MEM_BANK_SET_PWR 47) ≠ 0) := by
  decide +kernel

/-- What O41 supposes, met clause by clause. -/
theorem witness_CommandTransportsComplete :
    ((wired (base 1 2)).accepts (Via.udp gram.srcIp gram.srcPort gram.keyId gram.keyId) = true ∧ (wired (base 1
      2)).udpForMe gram = true ∧ (wired (base 1 2)).udpKey gram = some 1 ∧ (wired (base 1 2)).udpTag gram 1 = some
      gram.tag ∧ (List.find? (fun (p : Partial) => p.isOf (Via.udp gram.srcIp gram.srcPort gram.keyId 1)
      gram.seg.pktId) (wired (base 1 2)).cmd.partials = none) ∧ gram.seg.index ≤ gram.seg.last ∧ gram.seg.last ≠ 0 ∧
      gram.seg.last.toNat ≤ 64 ∧ (gram.seg.index = gram.seg.last ∨ gram.seg.bytes.length = 1020) ∧ ((List.filter (fun
      (p : Partial) => viaSource p.via == viaSource (Via.udp gram.srcIp gram.srcPort gram.keyId 1)) (wired (base 1
      2)).cmd.partials).length < 4)) ∧
    ((wired (base 2 2)).accepts (Via.udp gramWhole.srcIp gramWhole.srcPort gramWhole.keyId gramWhole.keyId) = true ∧
      (wired (base 2 2)).udpForMe gramWhole = true ∧ (wired (base 2 2)).udpKey gramWhole = some 1 ∧ (wired (base 2
      2)).udpTag gramWhole 1 = some gramWhole.tag ∧ (List.find? (fun (p : Partial) => p.isOf (Via.udp gramWhole.srcIp
      gramWhole.srcPort gramWhole.keyId 1) gramWhole.seg.pktId) (wired (base 2 2)).cmd.partials = none) ∧
      gramWhole.seg.index = 0 ∧ gramWhole.seg.last = 0 ∧ (wired (base 2 2)).relays = false ∧ (wired (base 2
      2)).sessionOf gramWhole.keySrc = none ∧ (packetOf (Via.udp gramWhole.srcIp gramWhole.srcPort gramWhole.keyId 1)
      (bytesWords (List.take (gramWhole.seg.bytes.length - 4) gramWhole.seg.bytes))).hdr.src = gramWhole.keySrc ∧
      gramWhole.seg.bytes.length % 4 = 0 ∧ 20 ≤ gramWhole.seg.bytes.length ∧ bytesBE 4 (BitVec.toNat (crc32c
      (List.take (gramWhole.seg.bytes.length - 4) gramWhole.seg.bytes))) = List.drop (gramWhole.seg.bytes.length - 4)
      gramWhole.seg.bytes ∧ BitVec.toNat (gramWhole.seg.bytes.getD 0 0) / 16 = 1) ∧
    ((keyless (wired (base 1 2))).accepts (Via.udp plainGram.srcIp plainGram.srcPort plainGram.keyId plainGram.keyId)
      = true ∧ (keyless (wired (base 1 2))).udpForMe plainGram = true ∧ ((keyless (wired (base 1 2))).udpKey plainGram
      = none ∨ ∃ (i : BitVec 8), (keyless (wired (base 1 2))).udpKey plainGram = some i ∧ (keyless (wired (base 1
      2))).udpTag plainGram i ≠ some plainGram.tag)) ∧
    ((told (keyless (wired (base 1 2)))).accepts (Via.udp plainGram.srcIp plainGram.srcPort plainGram.keyId
      plainGram.keyId) = true ∧ (told (keyless (wired (base 1 2)))).udpForMe plainGram = true ∧ ((told (keyless (wired
      (base 1 2)))).udpKey plainGram = none ∨ ∃ (i : BitVec 8), (told (keyless (wired (base 1 2)))).udpKey plainGram =
      some i ∧ (told (keyless (wired (base 1 2)))).udpTag plainGram i ≠ some plainGram.tag)) ∧
    ((wired (base 1 2)).udpForMe gramElse = false ∧ (wired (base 1 2)).domBusy 1 = false ∧ (wired (base 1 2)).portRuns
      gramElse.mediaPort.toNat = true) ∧
    ((base 1 2).accepts udp = true ∧ (segBeyond.last < segBeyond.index ∨ 64 < segBeyond.last.toNat ∨ segBeyond.index ≠
      segBeyond.last ∧ segBeyond.bytes.length ≠ 1020)) ∧
    ((base 1 2).accepts udp = true ∧ segFirst.index ≤ segFirst.last ∧ segFirst.last.toNat ≤ 64 ∧ (segFirst.index =
      segFirst.last ∨ segFirst.bytes.length = 1020) ∧ (List.find? (fun (p : Partial) => p.isOf udp segFirst.pktId)
      (base 1 2).cmd.partials = none) ∧ segFirst.last ≠ 0 ∧ ((List.filter (fun (p : Partial) => viaSource p.via ==
      viaSource udp) (base 1 2).cmd.partials).length < 4)) ∧
    (crowded.accepts udp = true ∧ segFirst.index ≤ segFirst.last ∧ segFirst.last.toNat ≤ 64 ∧ (segFirst.index =
      segFirst.last ∨ segFirst.bytes.length = 1020) ∧ (List.find? (fun (p : Partial) => p.isOf udp segFirst.pktId)
      crowded.cmd.partials = none) ∧ segFirst.last ≠ 0 ∧ (4 ≤ (List.filter (fun (p : Partial) => viaSource p.via ==
      viaSource udp) crowded.cmd.partials).length)) ∧
    ((half (base 1 2)).accepts udp = true ∧ segFirst.index ≤ segFirst.last ∧ segFirst.last.toNat ≤ 64 ∧
      (segFirst.index = segFirst.last ∨ segFirst.bytes.length = 1020) ∧ (List.find? (fun (p : Partial) => p.isOf udp
      segFirst.pktId) (half (base 1 2)).cmd.partials = some partial7) ∧ partial7.last = segFirst.last ∧
      ((partial7.parts.any fun (e : ℕ × List Byte) => e.1 == segFirst.index.toNat) = true)) ∧
    (halfGood.accepts udp = true ∧ segLast.index ≤ segLast.last ∧ segLast.last.toNat ≤ 64 ∧ (segLast.index =
      segLast.last ∨ segLast.bytes.length = 1020) ∧ (List.find? (fun (p : Partial) => p.isOf udp segLast.pktId)
      halfGood.cmd.partials = some partialGood) ∧ partialGood.last = segLast.last ∧ ((partialGood.parts.any fun (e : ℕ
      × List Byte) => e.1 == segLast.index.toNat) = false) ∧ partialGood.parts.length = segLast.last.toNat ∧
      partialGood.keySrcs = [] ∧ ((List.flatMap Prod.snd (insertBy (fun (a b : ℕ × List Byte) => decide (a.1 < b.1))
      (segLast.index.toNat, segLast.bytes) partialGood.parts)).length % 4 = 0) ∧ (20 ≤ (List.flatMap Prod.snd
      (insertBy (fun (a b : ℕ × List Byte) => decide (a.1 < b.1)) (segLast.index.toNat, segLast.bytes)
      partialGood.parts)).length) ∧ (bytesBE 4 (BitVec.toNat (crc32c (List.take ((List.flatMap Prod.snd (insertBy (fun
      (a b : ℕ × List Byte) => decide (a.1 < b.1)) (segLast.index.toNat, segLast.bytes) partialGood.parts)).length -
      4) (List.flatMap Prod.snd (insertBy (fun (a b : ℕ × List Byte) => decide (a.1 < b.1)) (segLast.index.toNat,
      segLast.bytes) partialGood.parts))))) = List.drop ((List.flatMap Prod.snd (insertBy (fun (a b : ℕ × List Byte)
      => decide (a.1 < b.1)) (segLast.index.toNat, segLast.bytes) partialGood.parts)).length - 4) (List.flatMap
      Prod.snd (insertBy (fun (a b : ℕ × List Byte) => decide (a.1 < b.1)) (segLast.index.toNat, segLast.bytes)
      partialGood.parts))) ∧ (BitVec.toNat ((List.flatMap Prod.snd (insertBy (fun (a b : ℕ × List Byte) => decide (a.1
      < b.1)) (segLast.index.toNat, segLast.bytes) partialGood.parts)).getD 0 0) / 16 = 1)) ∧
    ((base 1 2).accepts udp = true ∧ segShort.index = 0 ∧ segShort.last = 0 ∧ (List.find? (fun (p : Partial) => p.isOf
      udp segShort.pktId) (base 1 2).cmd.partials = none) ∧ (segShort.bytes.length % 4 ≠ 0 ∨ segShort.bytes.length <
      20)) ∧
    ((base 1 2).accepts udp = true ∧ segBad.index = 0 ∧ segBad.last = 0 ∧ (List.find? (fun (p : Partial) => p.isOf udp
      segBad.pktId) (base 1 2).cmd.partials = none) ∧ segBad.bytes.length % 4 = 0 ∧ 20 ≤ segBad.bytes.length ∧
      ¬bytesBE 4 (BitVec.toNat (crc32c (List.take (segBad.bytes.length - 4) segBad.bytes))) = List.drop
      (segBad.bytes.length - 4) segBad.bytes) ∧
    ((base 1 2).accepts udp = true ∧ segGood.index = 0 ∧ segGood.last = 0 ∧ (List.find? (fun (p : Partial) => p.isOf
      udp segGood.pktId) (base 1 2).cmd.partials = none) ∧ segGood.bytes.length % 4 = 0 ∧ 20 ≤ segGood.bytes.length ∧
      bytesBE 4 (BitVec.toNat (crc32c (List.take (segGood.bytes.length - 4) segGood.bytes))) = List.drop
      (segGood.bytes.length - 4) segGood.bytes ∧ BitVec.toNat (segGood.bytes.getD 0 0) / 16 ≠ 1) ∧
    ((List.find? (fun (e : BitVec 16 × Via) => e.1 == relayCell.dst) (relaying (base 1 2)).cmd.relay = some
      (relayCell.dst, udp))) ∧
    ((List.find? (fun (e : BitVec 16 × Via) => e.1 == relayCell.dst) (base 1 2).cmd.relay = none)) ∧
    ((clocked (base 1 2)).domBusy 10 = false ∧ (clocked (base 1 2)).ringRuns = true ∧ (ringFrm 0 0 3).crc = crc32c
      (ringBytes (ringFrm 0 0 3)) ∧ (ringFrm 0 0 3).kind ≠ 3 ∧ (ringFrm 0 0 3).zero = 0 ∧ (ringFrm 0 0 3).len.toNat ≤
      1080 ∧ (ringFrm 0 0 3).payload.length = (ringFrm 0 0 3).len.toNat ∧ (ringFrm 0 0 3).dir = 0 ∧ (ringFrm 0 0
      3).count ≠ 0 ∧ (clocked (base 1 2)).ring.forward = [] ∧ (clocked (base 1 2)).ring.own = [] ∧ (clocked (base 1
      2)).ring.busyTo ≤ (clocked (base 1 2)).tick) ∧
    ((clocked (base 1 2)).domBusy 10 = false ∧ (clocked (base 1 2)).ringRuns = true ∧ ringSeg.crc = crc32c (ringBytes
      ringSeg) ∧ ringSeg.kind ≠ 3 ∧ ringSeg.zero = 0 ∧ ringSeg.len.toNat ≤ 1080 ∧ ringSeg.payload.length =
      ringSeg.len.toNat ∧ ringSeg.dir = 0 ∧ ringSeg.count = 0 ∧ (clocked (base 1 2)).mode ≠ 0 ∧ ringSeg.kind = 0 ∧
      segmentOf ringSeg.payload = some segFirst ∧ segFirst.index ≤ segFirst.last ∧ segFirst.last ≠ 0 ∧
      segFirst.last.toNat ≤ 64 ∧ (segFirst.index = segFirst.last ∨ segFirst.bytes.length = 1020) ∧ (List.find? (fun (p
      : Partial) => p.isOf Via.ring segFirst.pktId) (clocked (base 1 2)).cmd.partials = none) ∧ ((List.filter (fun (p
      : Partial) => viaSource p.via == Via.ring) (clocked (base 1 2)).cmd.partials).length < 4)) ∧
    ((clocked (base 1 2)).domBusy 10 = false ∧ (clocked (base 1 2)).ringRuns = true ∧ (ringFrm 0 1 0).crc = crc32c
      (ringBytes (ringFrm 0 1 0)) ∧ (ringFrm 0 1 0).kind ≠ 3 ∧ (ringFrm 0 1 0).zero = 0 ∧ (ringFrm 0 1 0).len.toNat ≤
      1080 ∧ (ringFrm 0 1 0).payload.length = (ringFrm 0 1 0).len.toNat ∧ (ringFrm 0 1 0).dir = 0 ∧ (ringFrm 0 1
      0).count = 0 ∧ (clocked (base 1 2)).mode ≠ 0 ∧ (ringFrm 0 1 0).kind = 1) ∧
    ((clocked (base 1 2)).domBusy 10 = false ∧ (clocked (base 1 2)).ringRuns = true ∧ (ringFrm 1 0 1023).crc = crc32c
      (ringBytes (ringFrm 1 0 1023)) ∧ (ringFrm 1 0 1023).kind ≠ 3 ∧ (ringFrm 1 0 1023).zero = 0 ∧ (ringFrm 1 0
      1023).len.toNat ≤ 1080 ∧ (ringFrm 1 0 1023).payload.length = (ringFrm 1 0 1023).len.toNat ∧ (ringFrm 1 0
      1023).dir = 1 ∧ (ringFrm 1 0 1023).count = 1023) ∧
    ((clocked (base 1 2)).domBusy 10 = false ∧ (clocked (base 1 2)).ringRuns = true ∧ (ringFrm 1 0 1022).crc = crc32c
      (ringBytes (ringFrm 1 0 1022)) ∧ (ringFrm 1 0 1022).kind ≠ 3 ∧ (ringFrm 1 0 1022).zero = 0 ∧ (ringFrm 1 0
      1022).len.toNat ≤ 1080 ∧ (ringFrm 1 0 1022).payload.length = (ringFrm 1 0 1022).len.toNat ∧ (ringFrm 1 0
      1022).dir = 1 ∧ (ringFrm 1 0 1022).count ≠ 1023) ∧
    ((clocked (base 1 2)).domBusy 10 = false ∧ (clocked (base 1 2)).ringRuns = true ∧ ringBad.crc ≠ crc32c (ringBytes
      ringBad)) := by
  and_intros
  all_goals first
    | decide +kernel
    | rfl

/-- What O42 supposes, met clause by clause. -/
theorem witness_WaitsEnd :
    ((List.find? (fun (p : Partial) => p.isOf udp 7) (half (base 1 2)).cmd.partials = some partial7) ∧ partial7.start
      + usTicks 1000 ≤ (half (base 1 2)).tick) ∧
    (((heldOne (media (base 1 2))).sess 0).held ≠ [] ∧ (heldOne (media (base 1 2))).joinHolds 0 = false ∧ ((heldOne
      (media (base 1 2))).sess 0).holdStart + usTicks 1000 ≤ (heldOne (media (base 1 2))).tick) ∧
    (((waitingOne (Instr.memRead hdB 0 1) (base 1 2)).sess 0).isOpen = true ∧ ((waitingOne (Instr.memRead hdB 0 1)
      (base 1 2)).sess 0).assigning = none ∧ ((waitingOne (Instr.memRead hdB 0 1) (base 1 2)).sess 0).waiting =
      [Waiting.mk (Item.cmd (Instr.memRead hdB 0 1)) true] ∧ (Item.cmd (Instr.memRead hdB 0 1)).hdr.txnId = 0 ∧
      (waitingOne (Instr.memRead hdB 0 1) (base 1 2)).opsRunning ((waitingOne (Instr.memRead hdB 0 1) (base 1 2)).sess
      0).uid = false ∧ (((waitingOne (Instr.memRead hdB 0 1) (base 1 2)).updSess 0 fun (e : Sess) => Sess.mk e.isOpen
      e.uid e.src e.openId e.via e.expected e.held e.holdStart [] e.assigning e.kept e.lastBegin e.topApplied
      e.owner).hostBody ((waitingOne (Instr.memRead hdB 0 1) (base 1 2)).who 0) none (Instr.memRead hdB 0 1) =
      Res.done Status.ok [0, 0] (waitRun (Instr.memRead hdB 0 1))) ∧ (Item.cmd (Instr.memRead hdB 0 1)).barrier =
      true) ∧
    (((waitingOne (Instr.memRead hd 0 0) (base 1 2)).sess 0).isOpen = true ∧ ((waitingOne (Instr.memRead hd 0 0) (base
      1 2)).sess 0).assigning = none ∧ ((waitingOne (Instr.memRead hd 0 0) (base 1 2)).sess 0).waiting = [Waiting.mk
      (Item.cmd (Instr.memRead hd 0 0)) true] ∧ (Item.cmd (Instr.memRead hd 0 0)).hdr.txnId = 0 ∧ (waitingOne
      (Instr.memRead hd 0 0) (base 1 2)).opsRunning ((waitingOne (Instr.memRead hd 0 0) (base 1 2)).sess 0).uid =
      false ∧ (((waitingOne (Instr.memRead hd 0 0) (base 1 2)).updSess 0 fun (e : Sess) => Sess.mk e.isOpen e.uid
      e.src e.openId e.via e.expected e.held e.holdStart [] e.assigning e.kept e.lastBegin e.topApplied
      e.owner).hostBody ((waitingOne (Instr.memRead hd 0 0) (base 1 2)).who 0) none (Instr.memRead hd 0 0) = Res.done
      Status.ok [0] (waitRun (Instr.memRead hd 0 0)))) ∧
    (((waitingOne (Instr.nop hdB) (base 1 2)).sess 0).isOpen = true ∧ ((waitingOne (Instr.nop hdB) (base 1 2)).sess
      0).assigning = none ∧ ((waitingOne (Instr.nop hdB) (base 1 2)).sess 0).waiting = [Waiting.mk (Item.cmd
      (Instr.nop hdB)) true] ∧ hdB.txnId = 0 ∧ hdB.barrier = true ∧ (waitingOne (Instr.nop hdB) (base 1 2)).opsRunning
      ((waitingOne (Instr.nop hdB) (base 1 2)).sess 0).uid = false) ∧
    (((waitingOne (Instr.nop hd) (base 1 2)).sess 0).isOpen = true ∧ ((waitingOne (Instr.nop hd) (base 1 2)).sess
      0).uid = 1 ∧ ((waitingOne (Instr.nop hd) (base 1 2)).sess 0).assigning = none ∧ ((waitingOne (Instr.nop hd)
      (base 1 2)).sess 0).waiting = [wait1]) := by
  decide +kernel

/-- What O43 supposes, met clause by clause. -/
theorem witness_LinkAndFabricOperationsEnd :
    ((2 < (probing none (running (OpKind.fabProbe 2 9) (base 1 2))).cmd.ops.length ∧ ((probing none (running
      (OpKind.fabProbe 2 9) (base 1 2))).op 2).st = 1 ∧ ((probing none (running (OpKind.fabProbe 2 9) (base 1 2))).op
      2).orphan = false ∧ ((probing none (running (OpKind.fabProbe 2 9) (base 1 2))).op 2).kind = OpKind.fabProbe 2 9)
      ∧ (probing none (running (OpKind.fabProbe 2 9) (base 1 2))).probeOf (ProbeFor.slot 2) = some (probe2 none) ∧
      (probe2 none).answer = none ∧ (probe2 none).start + usTicks 10000 ≤ (probing none (running (OpKind.fabProbe 2 9)
      (base 1 2))).tick) ∧
    ((2 < (probing (some (List.replicate 64 5)) (running (OpKind.fabProbe 2 9) (base 1 2))).cmd.ops.length ∧ ((probing
      (some (List.replicate 64 5)) (running (OpKind.fabProbe 2 9) (base 1 2))).op 2).st = 1 ∧ ((probing (some
      (List.replicate 64 5)) (running (OpKind.fabProbe 2 9) (base 1 2))).op 2).orphan = false ∧ ((probing (some
      (List.replicate 64 5)) (running (OpKind.fabProbe 2 9) (base 1 2))).op 2).kind = OpKind.fabProbe 2 9) ∧ (probing
      (some (List.replicate 64 5)) (running (OpKind.fabProbe 2 9) (base 1 2))).probeOf (ProbeFor.slot 2) = some
      (probe2 (some (List.replicate 64 5))) ∧ (probe2 (some (List.replicate 64 5))).answer = some (List.replicate 64
      5) ∧ (List.replicate 64 5).length = 64) ∧
    (((assigning (base 1 2)).sess 0).assigning = some (Instr.fabAssign hd 1 9 0 0) ∧ ((assigning (base 1 2)).sess
      0).waiting = [] ∧ (∀ o ∈ (assigning (base 1 2)).cmd.orphans, o.1 ≠ 0) ∧ (assigning (base 1 2)).probeOf
      (ProbeFor.session ((assigning (base 1 2)).sess 0).uid) = some probeSession ∧ probeSession.answer = none ∧
      probeSession.start + usTicks 10000 ≤ (assigning (base 1 2)).tick) ∧
    ((2 < (testing 3 (running (OpKind.fabPathTest 9 64 3) (base 1 2))).cmd.ops.length ∧ ((testing 3 (running
      (OpKind.fabPathTest 9 64 3) (base 1 2))).op 2).st = 1 ∧ ((testing 3 (running (OpKind.fabPathTest 9 64 3) (base 1
      2))).op 2).orphan = false ∧ ((testing 3 (running (OpKind.fabPathTest 9 64 3) (base 1 2))).op 2).kind =
      OpKind.fabPathTest 9 64 3) ∧ (List.find? (fun (t : PathTest) => t.slot == 2) (testing 3 (running
      (OpKind.fabPathTest 9 64 3) (base 1 2))).fab.tests = some (test2 3)) ∧ 3 ≤ (test2 3).sent ∧ (test2 3).last +
      usTicks 10000 ≤ (testing 3 (running (OpKind.fabPathTest 9 64 3) (base 1 2))).tick) ∧
    ((2 < (testing 2 (running (OpKind.fabPathTest 9 64 3) (base 1 2))).cmd.ops.length ∧ ((testing 2 (running
      (OpKind.fabPathTest 9 64 3) (base 1 2))).op 2).st = 1 ∧ ((testing 2 (running (OpKind.fabPathTest 9 64 3) (base 1
      2))).op 2).orphan = false ∧ ((testing 2 (running (OpKind.fabPathTest 9 64 3) (base 1 2))).op 2).kind =
      OpKind.fabPathTest 9 64 3) ∧ (List.find? (fun (t : PathTest) => t.slot == 2) (testing 2 (running
      (OpKind.fabPathTest 9 64 3) (base 1 2))).fab.tests = some (test2 2)) ∧ (test2 2).sent < 3 ∧ (test2 2).last +
      usTicks 10 ≤ (testing 2 (running (OpKind.fabPathTest 9 64 3) (base 1 2))).tick) ∧
    ((2 < (running (OpKind.calRun 2 false) (calOver 5 none (base 1 7))).cmd.ops.length ∧ ((running (OpKind.calRun 2
      false) (calOver 5 none (base 1 7))).op 2).st = 1 ∧ ((running (OpKind.calRun 2 false) (calOver 5 none (base 1
      7))).op 2).orphan = false ∧ ((running (OpKind.calRun 2 false) (calOver 5 none (base 1 7))).op 2).kind =
      OpKind.calRun 2 false) ∧ (running (OpKind.calRun 2 false) (calOver 5 none (base 1 7))).calEnded 2 = true) ∧
    ((2 < (running (OpKind.calRun 2 false) (calOver 5 (some 1) (base 1 7))).cmd.ops.length ∧ ((running (OpKind.calRun
      2 false) (calOver 5 (some 1) (base 1 7))).op 2).st = 1 ∧ ((running (OpKind.calRun 2 false) (calOver 5 (some 1)
      (base 1 7))).op 2).orphan = false ∧ ((running (OpKind.calRun 2 false) (calOver 5 (some 1) (base 1 7))).op
      2).kind = OpKind.calRun 2 false) ∧ (running (OpKind.calRun 2 false) (calOver 5 (some 1) (base 1 7))).calEnded 2
      = true) ∧
    ((2 < (running (OpKind.calRun 2 true) (calOver 0 none (base 1 7))).cmd.ops.length ∧ ((running (OpKind.calRun 2
      true) (calOver 0 none (base 1 7))).op 2).st = 1 ∧ ((running (OpKind.calRun 2 true) (calOver 0 none (base 1
      7))).op 2).orphan = false ∧ ((running (OpKind.calRun 2 true) (calOver 0 none (base 1 7))).op 2).kind =
      OpKind.calRun 2 true) ∧ (running (OpKind.calRun 2 true) (calOver 0 none (base 1 7))).calEnded 2 = false) ∧
    ((2 < (running (OpKind.calStore 2) (port 1 lkActive (base 1 2))).cmd.ops.length ∧ ((running (OpKind.calStore 2)
      (port 1 lkActive (base 1 2))).op 2).st = 1 ∧ ((running (OpKind.calStore 2) (port 1 lkActive (base 1 2))).op
      2).orphan = false ∧ ((running (OpKind.calStore 2) (port 1 lkActive (base 1 2))).op 2).kind = OpKind.calStore 2)
      ∧ (∀ (x : ℕ), (2#4).getLsbD x = true → (2#4).getLsbD x = true)) := by
  and_intros
  all_goals first
    | decide +kernel
    | exact fun _ h => h

/-- What O44 supposes, met clause by clause. -/
theorem witness_TableAndFirmwareOperationsEnd :
    ((2 < (dram (running (OpKind.tableLoad 1 false 131072 256) (base 2 2))).cmd.ops.length ∧ ((dram (running
      (OpKind.tableLoad 1 false 131072 256) (base 2 2))).op 2).st = 1 ∧ ((dram (running (OpKind.tableLoad 1 false
      131072 256) (base 2 2))).op 2).orphan = false ∧ ((dram (running (OpKind.tableLoad 1 false 131072 256) (base 2
      2))).op 2).kind = OpKind.tableLoad 1 false 131072 256)) ∧
    ((2 < (dram (running (OpKind.tableLoad 1 true 131072 256) (base 2 2))).cmd.ops.length ∧ ((dram (running
      (OpKind.tableLoad 1 true 131072 256) (base 2 2))).op 2).st = 1 ∧ ((dram (running (OpKind.tableLoad 1 true 131072
      256) (base 2 2))).op 2).orphan = false ∧ ((dram (running (OpKind.tableLoad 1 true 131072 256) (base 2 2))).op
      2).kind = OpKind.tableLoad 1 true 131072 256)) ∧
    ((2 < (running (OpKind.tableVerify 1) (base 2 2)).cmd.ops.length ∧ ((running (OpKind.tableVerify 1) (base 2 2)).op
      2).st = 1 ∧ ((running (OpKind.tableVerify 1) (base 2 2)).op 2).orphan = false ∧ ((running (OpKind.tableVerify 1)
      (base 2 2)).op 2).kind = OpKind.tableVerify 1)) ∧
    ((2 < (dram (running (OpKind.lampScan 5 true false false 9 4096 100) (base 2 5))).cmd.ops.length ∧ ((dram (running
      (OpKind.lampScan 5 true false false 9 4096 100) (base 2 5))).op 2).st = 1 ∧ ((dram (running (OpKind.lampScan 5
      true false false 9 4096 100) (base 2 5))).op 2).orphan = false ∧ ((dram (running (OpKind.lampScan 5 true false
      false 9 4096 100) (base 2 5))).op 2).kind = OpKind.lampScan 5 true false false 9 4096 100)) ∧
    (4 = 4 * [7].length ∧ (2 < (running (OpKind.fwStage 0 false 4096 4 0 [7]) (base 1 2)).cmd.ops.length ∧ ((running
      (OpKind.fwStage 0 false 4096 4 0 [7]) (base 1 2)).op 2).st = 1 ∧ ((running (OpKind.fwStage 0 false 4096 4 0 [7])
      (base 1 2)).op 2).orphan = false ∧ ((running (OpKind.fwStage 0 false 4096 4 0 [7]) (base 1 2)).op 2).kind =
      OpKind.fwStage 0 false 4096 4 0 [7])) ∧
    ((2 < (running OpKind.fwVerify (base 1 2)).cmd.ops.length ∧ ((running OpKind.fwVerify (base 1 2)).op 2).st = 1 ∧
      ((running OpKind.fwVerify (base 1 2)).op 2).orphan = false ∧ ((running OpKind.fwVerify (base 1 2)).op 2).kind =
      OpKind.fwVerify)) ∧
    ((2 < (identified (running (OpKind.attest [1, 2, 3, 4, 5, 6, 7, 8] true) (base 1 2))).cmd.ops.length ∧
      ((identified (running (OpKind.attest [1, 2, 3, 4, 5, 6, 7, 8] true) (base 1 2))).op 2).st = 1 ∧ ((identified
      (running (OpKind.attest [1, 2, 3, 4, 5, 6, 7, 8] true) (base 1 2))).op 2).orphan = false ∧ ((identified (running
      (OpKind.attest [1, 2, 3, 4, 5, 6, 7, 8] true) (base 1 2))).op 2).kind = OpKind.attest [1, 2, 3, 4, 5, 6, 7, 8]
      true) ∧ (identified (running (OpKind.attest [1, 2, 3, 4, 5, 6, 7, 8] true) (base 1 2))).sec.idNext < (identified
      (running (OpKind.attest [1, 2, 3, 4, 5, 6, 7, 8] true) (base 1 2))).sec.idLimit) := by
  decide +kernel

/-- What O45 supposes, met clause by clause. -/
theorem witness_InstantsResolve :
    ((late (base 1 3)).nearest (late (base 1 3)).nextBeat = true ∧ (late (base 1 3)).txn.txns = [] ∧ (late (base 1
      3)).txn.actions = [] ∧ (late (base 1 3)).tm.beatAt = none) ∧
    ((beating (late (base 1 3))).nearest (beating (late (base 1 3))).nextBeat = true ∧ (beating (late (base 1
      3))).txn.txns = [] ∧ (beating (late (base 1 3))).txn.actions = [] ∧ (beating (late (base 1 3))).tm.beatAt =
      none) ∧
    ((base 1 3).nearest (base 1 3).nextBeat = false) ∧
    ((late (withTxn false TxnState.pending [Entry.write 524304 1001] (base 1 2))).txn.txns = [txn3 false
      TxnState.pending [Entry.write 524304 1001]] ∧ (late (withTxn false TxnState.pending [Entry.write 524304 1001]
      (base 1 2))).txn.actions = [] ∧ (late (withTxn false TxnState.pending [Entry.write 524304 1001] (base 1
      2))).nearest (txn3 false TxnState.pending [Entry.write 524304 1001]).at_ = true ∧ ((txn3 false TxnState.pending
      [Entry.write 524304 1001]).state = TxnState.pending ∨ (txn3 false TxnState.pending [Entry.write 524304
      1001]).state = TxnState.prepared ∧ (txn3 false TxnState.pending [Entry.write 524304 1001]).gotCommit = true ∧
      (txn3 false TxnState.pending [Entry.write 524304 1001]).gotAbort = false)) ∧
    ((late (aborting (base 1 2))).txn.txns = [Txn.mk (txn3 true TxnState.prepared [Entry.write 131584 1001]).uid (txn3
      true TxnState.prepared [Entry.write 131584 1001]).slot (txn3 true TxnState.prepared [Entry.write 131584
      1001]).src (txn3 true TxnState.prepared [Entry.write 131584 1001]).id (txn3 true TxnState.prepared [Entry.write
      131584 1001]).global (txn3 true TxnState.prepared [Entry.write 131584 1001]).state (txn3 true TxnState.prepared
      [Entry.write 131584 1001]).began (txn3 true TxnState.prepared [Entry.write 131584 1001]).entries (txn3 true
      TxnState.prepared [Entry.write 131584 1001]).frame (txn3 true TxnState.prepared [Entry.write 131584 1001]).phase
      (txn3 true TxnState.prepared [Entry.write 131584 1001]).at_ (txn3 true TxnState.prepared [Entry.write 131584
      1001]).beat (txn3 true TxnState.prepared [Entry.write 131584 1001]).begun (txn3 true TxnState.prepared
      [Entry.write 131584 1001]).accepted (txn3 true TxnState.prepared [Entry.write 131584 1001]).gotCommit true (txn3
      true TxnState.prepared [Entry.write 131584 1001]).ended (txn3 true TxnState.prepared [Entry.write 131584
      1001]).reason (txn3 true TxnState.prepared [Entry.write 131584 1001]).pend] ∧ (late (aborting (base 1
      2))).txn.actions = [] ∧ (late (aborting (base 1 2))).nearest (Txn.mk (txn3 true TxnState.prepared [Entry.write
      131584 1001]).uid (txn3 true TxnState.prepared [Entry.write 131584 1001]).slot (txn3 true TxnState.prepared
      [Entry.write 131584 1001]).src (txn3 true TxnState.prepared [Entry.write 131584 1001]).id (txn3 true
      TxnState.prepared [Entry.write 131584 1001]).global (txn3 true TxnState.prepared [Entry.write 131584
      1001]).state (txn3 true TxnState.prepared [Entry.write 131584 1001]).began (txn3 true TxnState.prepared
      [Entry.write 131584 1001]).entries (txn3 true TxnState.prepared [Entry.write 131584 1001]).frame (txn3 true
      TxnState.prepared [Entry.write 131584 1001]).phase (txn3 true TxnState.prepared [Entry.write 131584 1001]).at_
      (txn3 true TxnState.prepared [Entry.write 131584 1001]).beat (txn3 true TxnState.prepared [Entry.write 131584
      1001]).begun (txn3 true TxnState.prepared [Entry.write 131584 1001]).accepted (txn3 true TxnState.prepared
      [Entry.write 131584 1001]).gotCommit true (txn3 true TxnState.prepared [Entry.write 131584 1001]).ended (txn3
      true TxnState.prepared [Entry.write 131584 1001]).reason (txn3 true TxnState.prepared [Entry.write 131584
      1001]).pend).at_ = true ∧ (Txn.mk (txn3 true TxnState.prepared [Entry.write 131584 1001]).uid (txn3 true
      TxnState.prepared [Entry.write 131584 1001]).slot (txn3 true TxnState.prepared [Entry.write 131584 1001]).src
      (txn3 true TxnState.prepared [Entry.write 131584 1001]).id (txn3 true TxnState.prepared [Entry.write 131584
      1001]).global (txn3 true TxnState.prepared [Entry.write 131584 1001]).state (txn3 true TxnState.prepared
      [Entry.write 131584 1001]).began (txn3 true TxnState.prepared [Entry.write 131584 1001]).entries (txn3 true
      TxnState.prepared [Entry.write 131584 1001]).frame (txn3 true TxnState.prepared [Entry.write 131584 1001]).phase
      (txn3 true TxnState.prepared [Entry.write 131584 1001]).at_ (txn3 true TxnState.prepared [Entry.write 131584
      1001]).beat (txn3 true TxnState.prepared [Entry.write 131584 1001]).begun (txn3 true TxnState.prepared
      [Entry.write 131584 1001]).accepted (txn3 true TxnState.prepared [Entry.write 131584 1001]).gotCommit true (txn3
      true TxnState.prepared [Entry.write 131584 1001]).ended (txn3 true TxnState.prepared [Entry.write 131584
      1001]).reason (txn3 true TxnState.prepared [Entry.write 131584 1001]).pend).state = TxnState.prepared ∧ (Txn.mk
      (txn3 true TxnState.prepared [Entry.write 131584 1001]).uid (txn3 true TxnState.prepared [Entry.write 131584
      1001]).slot (txn3 true TxnState.prepared [Entry.write 131584 1001]).src (txn3 true TxnState.prepared
      [Entry.write 131584 1001]).id (txn3 true TxnState.prepared [Entry.write 131584 1001]).global (txn3 true
      TxnState.prepared [Entry.write 131584 1001]).state (txn3 true TxnState.prepared [Entry.write 131584 1001]).began
      (txn3 true TxnState.prepared [Entry.write 131584 1001]).entries (txn3 true TxnState.prepared [Entry.write 131584
      1001]).frame (txn3 true TxnState.prepared [Entry.write 131584 1001]).phase (txn3 true TxnState.prepared
      [Entry.write 131584 1001]).at_ (txn3 true TxnState.prepared [Entry.write 131584 1001]).beat (txn3 true
      TxnState.prepared [Entry.write 131584 1001]).begun (txn3 true TxnState.prepared [Entry.write 131584
      1001]).accepted (txn3 true TxnState.prepared [Entry.write 131584 1001]).gotCommit true (txn3 true
      TxnState.prepared [Entry.write 131584 1001]).ended (txn3 true TxnState.prepared [Entry.write 131584
      1001]).reason (txn3 true TxnState.prepared [Entry.write 131584 1001]).pend).gotCommit = false ∧ (Txn.mk (txn3
      true TxnState.prepared [Entry.write 131584 1001]).uid (txn3 true TxnState.prepared [Entry.write 131584
      1001]).slot (txn3 true TxnState.prepared [Entry.write 131584 1001]).src (txn3 true TxnState.prepared
      [Entry.write 131584 1001]).id (txn3 true TxnState.prepared [Entry.write 131584 1001]).global (txn3 true
      TxnState.prepared [Entry.write 131584 1001]).state (txn3 true TxnState.prepared [Entry.write 131584 1001]).began
      (txn3 true TxnState.prepared [Entry.write 131584 1001]).entries (txn3 true TxnState.prepared [Entry.write 131584
      1001]).frame (txn3 true TxnState.prepared [Entry.write 131584 1001]).phase (txn3 true TxnState.prepared
      [Entry.write 131584 1001]).at_ (txn3 true TxnState.prepared [Entry.write 131584 1001]).beat (txn3 true
      TxnState.prepared [Entry.write 131584 1001]).begun (txn3 true TxnState.prepared [Entry.write 131584
      1001]).accepted (txn3 true TxnState.prepared [Entry.write 131584 1001]).gotCommit true (txn3 true
      TxnState.prepared [Entry.write 131584 1001]).ended (txn3 true TxnState.prepared [Entry.write 131584
      1001]).reason (txn3 true TxnState.prepared [Entry.write 131584 1001]).pend).gotAbort = true) ∧
    ((late (withTxn true TxnState.prepared [Entry.write 131584 1001] (base 1 2))).txn.txns = [txn3 true
      TxnState.prepared [Entry.write 131584 1001]] ∧ (late (withTxn true TxnState.prepared [Entry.write 131584 1001]
      (base 1 2))).txn.actions = [] ∧ (late (withTxn true TxnState.prepared [Entry.write 131584 1001] (base 1
      2))).nearest (txn3 true TxnState.prepared [Entry.write 131584 1001]).at_ = true ∧ (txn3 true TxnState.prepared
      [Entry.write 131584 1001]).state = TxnState.prepared ∧ (txn3 true TxnState.prepared [Entry.write 131584
      1001]).gotCommit = (txn3 true TxnState.prepared [Entry.write 131584 1001]).gotAbort) ∧
    ((late (actionDue (base 1 2))).txn.txns = [] ∧ (late (actionDue (base 1 2))).txn.actions = [action4 1 0] ∧ (late
      (actionDue (base 1 2))).nearest (action4 1 0).at_ = true) ∧
    ((late (committing (base 1 2))).txn.txns = [Txn.mk (txn3 true TxnState.prepared [Entry.write 524304 1001]).uid
      (txn3 true TxnState.prepared [Entry.write 524304 1001]).slot (txn3 true TxnState.prepared [Entry.write 524304
      1001]).src (txn3 true TxnState.prepared [Entry.write 524304 1001]).id (txn3 true TxnState.prepared [Entry.write
      524304 1001]).global (txn3 true TxnState.prepared [Entry.write 524304 1001]).state (txn3 true TxnState.prepared
      [Entry.write 524304 1001]).began (txn3 true TxnState.prepared [Entry.write 524304 1001]).entries (txn3 true
      TxnState.prepared [Entry.write 524304 1001]).frame (txn3 true TxnState.prepared [Entry.write 524304 1001]).phase
      (txn3 true TxnState.prepared [Entry.write 524304 1001]).at_ (txn3 true TxnState.prepared [Entry.write 524304
      1001]).beat (txn3 true TxnState.prepared [Entry.write 524304 1001]).begun (txn3 true TxnState.prepared
      [Entry.write 524304 1001]).accepted true (txn3 true TxnState.prepared [Entry.write 524304 1001]).gotAbort (txn3
      true TxnState.prepared [Entry.write 524304 1001]).ended (txn3 true TxnState.prepared [Entry.write 524304
      1001]).reason (txn3 true TxnState.prepared [Entry.write 524304 1001]).pend] ∧ (late (committing (base 1
      2))).txn.actions = [] ∧ (late (committing (base 1 2))).nearest (Txn.mk (txn3 true TxnState.prepared [Entry.write
      524304 1001]).uid (txn3 true TxnState.prepared [Entry.write 524304 1001]).slot (txn3 true TxnState.prepared
      [Entry.write 524304 1001]).src (txn3 true TxnState.prepared [Entry.write 524304 1001]).id (txn3 true
      TxnState.prepared [Entry.write 524304 1001]).global (txn3 true TxnState.prepared [Entry.write 524304
      1001]).state (txn3 true TxnState.prepared [Entry.write 524304 1001]).began (txn3 true TxnState.prepared
      [Entry.write 524304 1001]).entries (txn3 true TxnState.prepared [Entry.write 524304 1001]).frame (txn3 true
      TxnState.prepared [Entry.write 524304 1001]).phase (txn3 true TxnState.prepared [Entry.write 524304 1001]).at_
      (txn3 true TxnState.prepared [Entry.write 524304 1001]).beat (txn3 true TxnState.prepared [Entry.write 524304
      1001]).begun (txn3 true TxnState.prepared [Entry.write 524304 1001]).accepted true (txn3 true TxnState.prepared
      [Entry.write 524304 1001]).gotAbort (txn3 true TxnState.prepared [Entry.write 524304 1001]).ended (txn3 true
      TxnState.prepared [Entry.write 524304 1001]).reason (txn3 true TxnState.prepared [Entry.write 524304
      1001]).pend).at_ = true ∧ ((Txn.mk (txn3 true TxnState.prepared [Entry.write 524304 1001]).uid (txn3 true
      TxnState.prepared [Entry.write 524304 1001]).slot (txn3 true TxnState.prepared [Entry.write 524304 1001]).src
      (txn3 true TxnState.prepared [Entry.write 524304 1001]).id (txn3 true TxnState.prepared [Entry.write 524304
      1001]).global (txn3 true TxnState.prepared [Entry.write 524304 1001]).state (txn3 true TxnState.prepared
      [Entry.write 524304 1001]).began (txn3 true TxnState.prepared [Entry.write 524304 1001]).entries (txn3 true
      TxnState.prepared [Entry.write 524304 1001]).frame (txn3 true TxnState.prepared [Entry.write 524304 1001]).phase
      (txn3 true TxnState.prepared [Entry.write 524304 1001]).at_ (txn3 true TxnState.prepared [Entry.write 524304
      1001]).beat (txn3 true TxnState.prepared [Entry.write 524304 1001]).begun (txn3 true TxnState.prepared
      [Entry.write 524304 1001]).accepted true (txn3 true TxnState.prepared [Entry.write 524304 1001]).gotAbort (txn3
      true TxnState.prepared [Entry.write 524304 1001]).ended (txn3 true TxnState.prepared [Entry.write 524304
      1001]).reason (txn3 true TxnState.prepared [Entry.write 524304 1001]).pend).state = TxnState.pending ∨ (Txn.mk
      (txn3 true TxnState.prepared [Entry.write 524304 1001]).uid (txn3 true TxnState.prepared [Entry.write 524304
      1001]).slot (txn3 true TxnState.prepared [Entry.write 524304 1001]).src (txn3 true TxnState.prepared
      [Entry.write 524304 1001]).id (txn3 true TxnState.prepared [Entry.write 524304 1001]).global (txn3 true
      TxnState.prepared [Entry.write 524304 1001]).state (txn3 true TxnState.prepared [Entry.write 524304 1001]).began
      (txn3 true TxnState.prepared [Entry.write 524304 1001]).entries (txn3 true TxnState.prepared [Entry.write 524304
      1001]).frame (txn3 true TxnState.prepared [Entry.write 524304 1001]).phase (txn3 true TxnState.prepared
      [Entry.write 524304 1001]).at_ (txn3 true TxnState.prepared [Entry.write 524304 1001]).beat (txn3 true
      TxnState.prepared [Entry.write 524304 1001]).begun (txn3 true TxnState.prepared [Entry.write 524304
      1001]).accepted true (txn3 true TxnState.prepared [Entry.write 524304 1001]).gotAbort (txn3 true
      TxnState.prepared [Entry.write 524304 1001]).ended (txn3 true TxnState.prepared [Entry.write 524304
      1001]).reason (txn3 true TxnState.prepared [Entry.write 524304 1001]).pend).state = TxnState.prepared ∧ (Txn.mk
      (txn3 true TxnState.prepared [Entry.write 524304 1001]).uid (txn3 true TxnState.prepared [Entry.write 524304
      1001]).slot (txn3 true TxnState.prepared [Entry.write 524304 1001]).src (txn3 true TxnState.prepared
      [Entry.write 524304 1001]).id (txn3 true TxnState.prepared [Entry.write 524304 1001]).global (txn3 true
      TxnState.prepared [Entry.write 524304 1001]).state (txn3 true TxnState.prepared [Entry.write 524304 1001]).began
      (txn3 true TxnState.prepared [Entry.write 524304 1001]).entries (txn3 true TxnState.prepared [Entry.write 524304
      1001]).frame (txn3 true TxnState.prepared [Entry.write 524304 1001]).phase (txn3 true TxnState.prepared
      [Entry.write 524304 1001]).at_ (txn3 true TxnState.prepared [Entry.write 524304 1001]).beat (txn3 true
      TxnState.prepared [Entry.write 524304 1001]).begun (txn3 true TxnState.prepared [Entry.write 524304
      1001]).accepted true (txn3 true TxnState.prepared [Entry.write 524304 1001]).gotAbort (txn3 true
      TxnState.prepared [Entry.write 524304 1001]).ended (txn3 true TxnState.prepared [Entry.write 524304
      1001]).reason (txn3 true TxnState.prepared [Entry.write 524304 1001]).pend).gotCommit = true ∧ (Txn.mk (txn3
      true TxnState.prepared [Entry.write 524304 1001]).uid (txn3 true TxnState.prepared [Entry.write 524304
      1001]).slot (txn3 true TxnState.prepared [Entry.write 524304 1001]).src (txn3 true TxnState.prepared
      [Entry.write 524304 1001]).id (txn3 true TxnState.prepared [Entry.write 524304 1001]).global (txn3 true
      TxnState.prepared [Entry.write 524304 1001]).state (txn3 true TxnState.prepared [Entry.write 524304 1001]).began
      (txn3 true TxnState.prepared [Entry.write 524304 1001]).entries (txn3 true TxnState.prepared [Entry.write 524304
      1001]).frame (txn3 true TxnState.prepared [Entry.write 524304 1001]).phase (txn3 true TxnState.prepared
      [Entry.write 524304 1001]).at_ (txn3 true TxnState.prepared [Entry.write 524304 1001]).beat (txn3 true
      TxnState.prepared [Entry.write 524304 1001]).begun (txn3 true TxnState.prepared [Entry.write 524304
      1001]).accepted true (txn3 true TxnState.prepared [Entry.write 524304 1001]).gotAbort (txn3 true
      TxnState.prepared [Entry.write 524304 1001]).ended (txn3 true TxnState.prepared [Entry.write 524304
      1001]).reason (txn3 true TxnState.prepared [Entry.write 524304 1001]).pend).gotAbort = false)) := by
  and_intros
  all_goals first
    | decide +kernel
    | exact State.nearest_of_le (by decide +kernel)
    | exact State.not_nearest (by decide +kernel)

/-- What O46 supposes, met clause by clause. -/
theorem witness_ModeStepsAndMoltComplete :
    ((changing 1 (base 1 2)).sys.change = some (change0 1) ∧ (change0 1).target ≠ 2 ∧ atBeat (change0 1).origin.toNat
      (change0 1).target.toNat = false) ∧
    ((changing 2 (port 0 6 (port 1 6 (port 2 6 (port 3 6 (base 1 2)))))).sys.change = some (change0 2) ∧ (change0
      2).target = 2 ∧ (changing 2 (port 0 6 (port 1 6 (port 2 6 (port 3 6 (base 1 2)))))).mode = 2 ∧ (atBeat (change0
      2).origin.toNat 2 = true → (change0 2).beat = true) ∧ (∀ q < 4, (changing 2 (port 0 6 (port 1 6 (port 2 6 (port
      3 6 (base 1 2)))))).trainingEnded q = true)) ∧
    ((autoM4 (base 1 1)).sys.auto = some 4 ∧ (autoM4 (base 1 1)).sys.change = none ∧ (autoM4 (base 1 1)).mode = 1 ∧ 4
      ≠ 1 ∧ (autoM4 (base 1 1)).role ≠ 0 ∧ (autoM4 (base 1 1)).instar ≤ 3) ∧
    ((autoM4 (base 1 2)).sys.auto = some 4 ∧ (autoM4 (base 1 2)).sys.change = none ∧ (autoM4 (base 1 2)).mode = 2 ∧ 4
      ≠ 2) ∧
    ((autoM4 (base 1 4)).sys.auto = some 4 ∧ (autoM4 (base 1 4)).sys.change = none ∧ (autoM4 (base 1 4)).mode = 4) ∧
    ((molting 1 (base 1 2)).sec.moltDue = some false ∧ (molting 1 (base 1 2)).moltHeld = false ∧ (molting 1 (base 1
      2)).fld F.SEC_STAT_CHRYS_STATE = 1 ∧ (molting 1 (base 1 2)).mode ≠ 5) ∧
    ((molting 1 (base 1 2)).sec.moltDue = some false ∧ (molting 1 (base 1 2)).moltHeld = false ∧ (molting 1 (base 1
      2)).fld F.SEC_STAT_CHRYS_STATE = 1) ∧
    ((molting 2 (base 1 2)).sec.moltDue = some false ∧ (molting 2 (base 1 2)).moltHeld = false ∧ (molting 2 (base 1
      2)).fld F.SEC_STAT_CHRYS_STATE ≠ 1) := by
  decide +kernel

/-- What O47 supposes, met clause by clause. -/
theorem witness_DeviceResetStartsOver :
    ((resetAsked (withTxn false TxnState.opened [] (base 1 2))).sys.resetReq = some 2 ∧ (resetAsked (withTxn false
      TxnState.opened [] (base 1 2))).sys.pwrOff = false ∧ (resetAsked (withTxn false TxnState.opened [] (base 1
      2))).resetHeld = false) := by
  decide +kernel

/-- What O48 supposes, met clause by clause. -/
theorem witness_StartAndResetCausesComplete :
    ((base 1 0).mayEclose = true) ∧
    ((base 1 1).mayEclose = false) ∧
    ((base 1 1).sys.pwrOff = false ∧ 10000 ≤ 10000) ∧
    ((base 1 1).sys.pwrOff = false ∧ 999 < 1000) ∧
    ((dram (base 1 1)).sys.pwrOff = false) ∧
    ((base 1 1).sys.pwrOff = false ∧ (base 1 1).sys.trstN = true) ∧
    ((blown 1 (base 1 1)).sys.pwrOff = false ∧ (blown 1 (base 1 1)).sys.trstN = true ∧ blownSteps (blown 1 (base 1
      1)).sec.fuses.instar ≠ 0) ∧
    ((base 1 1).sys.pwrOff = false ∧ (base 1 1).sys.trstN = true ∧ blownSteps (base 1 1).sec.fuses.instar = 0) ∧
    ((blown 3 (base 1 1)).sys.pwrOff = false ∧ (blown 3 (base 1 1)).sys.trstN = true ∧ 3 ≤ blownSteps (blown 3 (base 1
      1)).sec.fuses.instar) ∧
    ((dram (base 1 1)).sys.pwrOff = false ∧ (dram (base 1 1)).sys.trstN = true ∧ blownSteps (dram (base 1
      1)).sec.fuses.instar < 3 ∧ (dram (base 1 1)).mayAccess Client.controller (259 / 8 * 8) = true) ∧
    (((tapHeld (base 1 1)).sys.pwrOff = true ∨ (tapHeld (base 1 1)).sys.trstN = false)) ∧
    (State.reset.sys.pwrOff = false ∧ 10000 ≤ 10000) := by
  decide +kernel

/-- What O49 supposes, met clause by clause. -/
theorem witness_ClockEventsComplete :
    (((base 1 2).setFld F.CLK_STAT_REFCLK_OK 1).bit F.CLK_STAT_REFCLK_OK = true) ∧
    ((clocked (base 1 2)).pllLocked 0 = true) ∧
    (((base 1 2).setFld F.CLK_STAT_DPLL_LOCK 3).pllLocked 3 = true) ∧
    (((base 1 2).pllLocked 1 = false ∨ (base 1 2).cdc.holding.getLsbD 1 = true)) ∧
    (((holdingPll (clocked (base 1 2))).pllLocked 0 = false ∨ (holdingPll (clocked (base 1 2))).cdc.holding.getLsbD 0
      = true)) ∧
    (1 ≤ 11 ∧ 11 ≤ 11 ∧ (∃ r ∈ (resetting (base 1 2)).cdc.resets, r.kind = 11 ∧ r.done ≤ (resetting (base 1 2)).tick))
      ∧
    (7 < 14 ∧ 14 ≤ 14 ∧ ((crossing (base 1 2)).cdc.cross.getD (14 - 7) [])[0]? = some cross1 ∧ cross1.busy = true ∧
      cross1.sentOvf = false ∧ cross1.count = [] ∧ (∀ r < 12, (crossing (base 1 2)).domBusy r = true → (domCrossings
      r).contains (14, 0) = false)) ∧
    (((ringCrossing (base 1 2)).cdc.cross.getD 0 [])[0]? = some ringCross ∧ ringCross.busy = true ∧ ringCross.sentOvf
      = false ∧ ((ringCross.sent.all fun (e : List ℕ) => e.isEmpty) = true) ∧ (ringCrossing (base 1 2)).domBusy 10 =
      false ∧ (∀ r < 12, (ringCrossing (base 1 2)).domBusy r = true → (domCrossings r).contains (7, 0) = false)) := by
  decide +kernel

/-- What O50 supposes, met clause by clause. -/
theorem witness_InputEdgesGiveSamples :
    ((timed srcFsync 0 (base 1 2)).source = srcFsync ∧ (timed srcFsync 0 (base 1 2)).fld F.TIME_IO_FSYNC_IN_DIV ≠ 0) ∧
    ((timed srcPps 0 (base 1 2)).source = srcPps) ∧
    (((base 1 2).setFld F.TIME_IO_FSYNC_IN_DIV 0).fld F.TIME_IO_FSYNC_IN_DIV = 0) ∧
    (5 ≤ 5 ∧ 5 ≤ 9) := by
  decide +kernel

/-- What O51 supposes, met clause by clause. -/
theorem witness_TimeEventsComplete :
    ((late (root (base 1 2))).isRoot = true ∧ (late (root (base 1 2))).fld F.TIME_CELL_CFG_PERIOD_US ≠ 0 ∧ (late (root
      (base 1 2))).tm.lastPeriodic + usTicks ((late (root (base 1 2))).fld F.TIME_CELL_CFG_PERIOD_US) ≤ (late (root
      (base 1 2))).tick) ∧
    ((late (base 1 2)).nearest ((late (base 1 2)).tm.nextPps * secU) = true) ∧
    ((late (ppsWide (base 1 2))).nearest ((late (ppsWide (base 1 2))).tm.nextPps * secU) = true) ∧
    ((late (pulsing (evenRate (base 1 2)))).tm.fsyncEnd = some 3 ∧ ((late (pulsing (evenRate (base 1 2)))).nearest
      (((late (pulsing (evenRate (base 1 2)))).nextPulse true).elim 3 fun u => min 3 (u - (late (pulsing (evenRate
      (base 1 2)))).inc)) = true)) ∧
    ((late (pulsing (evenRate (base 1 2)))).tm.ppsEnd = some 3 ∧ ((late (pulsing (evenRate (base 1 2)))).nearest (if
      (late (pulsing (evenRate (base 1 2)))).fld F.TIME_IO_PPS_OUT_W = 0 then 3 else min 3 ((late (pulsing (evenRate
      (base 1 2)))).tm.nextPps * secU - (late (pulsing (evenRate (base 1 2)))).inc)) = true)) ∧
    ((port 0 lkActive (base 1 2)).carries (cellIn 2).port.toNat = true ∧ ((port 0 lkActive (base 1 2)).lane (cellIn
      2).port.toNat).rowHunt = false ∧ (port 0 lkActive (base 1 2)).source ≠ srcFabric) ∧
    ((port 0 lkActive (timed srcFabric 1 (base 1 2))).carries (cellIn 2).port.toNat = true ∧ ((port 0 lkActive (timed
      srcFabric 1 (base 1 2))).lane (cellIn 2).port.toNat).rowHunt = false ∧ (port 0 lkActive (timed srcFabric 1 (base
      1 2))).source = srcFabric ∧ (port 0 lkActive (timed srcFabric 1 (base 1 2))).tm.marked.getD (cellIn
      2).port.toNat false = false) ∧
    (((follower 1 (base 1 2)).setFld F.TIME_STAT_UPSTREAM_NOW 1).carries (cellIn 2).port.toNat = true ∧ (((follower 1
      (base 1 2)).setFld F.TIME_STAT_UPSTREAM_NOW 1).lane (cellIn 2).port.toNat).rowHunt = false ∧ ((follower 1 (base
      1 2)).setFld F.TIME_STAT_UPSTREAM_NOW 1).source = srcFabric ∧ ((follower 1 (base 1 2)).setFld
      F.TIME_STAT_UPSTREAM_NOW 1).tm.marked.getD (cellIn 2).port.toNat false = true ∧ (cellIn 2).port.toNat ≠
      ((follower 1 (base 1 2)).setFld F.TIME_STAT_UPSTREAM_NOW 1).fld F.TIME_STAT_UPSTREAM_NOW ∧ ((follower 1 (base 1
      2)).setFld F.TIME_STAT_UPSTREAM_NOW 1).standbyPort ≠ some (cellIn 2).port.toNat) ∧
    ((follower 1 (base 1 2)).carries (cellIn 64).port.toNat = true ∧ ((follower 1 (base 1 2)).lane (cellIn
      64).port.toNat).rowHunt = false ∧ (follower 1 (base 1 2)).source = srcFabric ∧ (follower 1 (base 1
      2)).tm.marked.getD (cellIn 64).port.toNat false = true ∧ (cellIn 64).port.toNat = (follower 1 (base 1 2)).fld
      F.TIME_STAT_UPSTREAM_NOW ∧ 64 ≤ (cellIn 64).hops.toNat) ∧
    ((follower 1 (base 1 2)).carries (cellIn 63).port.toNat = true ∧ ((follower 1 (base 1 2)).lane (cellIn
      63).port.toNat).rowHunt = false ∧ (follower 1 (base 1 2)).source = srcFabric ∧ (follower 1 (base 1
      2)).tm.marked.getD (cellIn 63).port.toNat false = true ∧ (cellIn 63).port.toNat = (follower 1 (base 1 2)).fld
      F.TIME_STAT_UPSTREAM_NOW ∧ (cellIn 63).hops.toNat < 64 ∧ ((follower 1 (base 1 2)).timeState = stAcquiring ∨
      (follower 1 (base 1 2)).timeState = stLocked) ∧ ((follower 1 (base 1 2)).tm.root = none ∨ (follower 1 (base 1
      2)).tm.root = some (cellIn 63).root) ∧ (cellIn 63).announce = []) ∧
    ((follower 2 (base 1 2)).carries (cellIn 0).port.toNat = true ∧ ((follower 2 (base 1 2)).lane (cellIn
      0).port.toNat).rowHunt = false ∧ (follower 2 (base 1 2)).source = srcFabric ∧ (follower 2 (base 1
      2)).tm.marked.getD (cellIn 0).port.toNat false = true ∧ (cellIn 0).port.toNat = (follower 2 (base 1 2)).fld
      F.TIME_STAT_UPSTREAM_NOW ∧ (cellIn 0).hops.toNat < 64 ∧ ((follower 2 (base 1 2)).timeState = stAcquiring ∨
      (follower 2 (base 1 2)).timeState = stLocked) ∧ ((follower 2 (base 1 2)).tm.root = none ∨ (follower 2 (base 1
      2)).tm.root = some (cellIn 0).root) ∧ (cellIn 0).announce = []) ∧
    ((late (timed srcPps 2 (base 1 2))).sourceLost = true ∧ (late (timed srcPps 2 (base 1 2))).timeState = stLocked ∧
      ((late (timed srcPps 2 (base 1 2))).source = srcPtp → (late (timed srcPps 2 (base 1 2))).bit
      F.TIME_POLICY_MASTER_CHANGE = false)) ∧
    ((base 1 2).sourceLost = false) ∧
    ((late (follower 2 (base 1 2))).source = srcFabric ∧ (late (follower 2 (base 1 2))).timeState = stLocked ∧ (late
      (follower 2 (base 1 2))).tm.lastValid + usTicks ((late (follower 2 (base 1 2))).fld F.TIME_CELL_CFG_LOSS_US) ≤
      (late (follower 2 (base 1 2))).tick ∧ (∀ (q n : ℕ), (late (follower 2 (base 1 2))).altPort = some q → (late
      (follower 2 (base 1 2))).tm.portSeen.getD q none = some n → n + usTicks ((late (follower 2 (base 1 2))).fld
      F.TIME_CELL_CFG_LOSS_US) < (late (follower 2 (base 1 2))).tick)) ∧
    ((alternate (late (follower 2 (base 1 2)))).source = srcFabric ∧ (alternate (late (follower 2 (base 1
      2)))).timeState = stLocked ∧ (alternate (late (follower 2 (base 1 2)))).tm.lastValid + usTicks ((alternate (late
      (follower 2 (base 1 2)))).fld F.TIME_CELL_CFG_LOSS_US) ≤ (alternate (late (follower 2 (base 1 2)))).tick ∧
      (alternate (late (follower 2 (base 1 2)))).altPort = some 1 ∧ (alternate (late (follower 2 (base 1
      2)))).tm.portSeen.getD 1 none = some (10 ^ 12) ∧ (alternate (late (follower 2 (base 1 2)))).tick ≤ 10 ^ 12 +
      usTicks ((alternate (late (follower 2 (base 1 2)))).fld F.TIME_CELL_CFG_LOSS_US)) ∧
    ((heardNow (late (follower 2 (base 1 2)))).source = srcFabric ∧ (heardNow (late (follower 2 (base 1
      2)))).timeState = stLocked ∧ (heardNow (late (follower 2 (base 1 2)))).tick < (heardNow (late (follower 2 (base
      1 2)))).tm.lastValid + usTicks ((heardNow (late (follower 2 (base 1 2)))).fld F.TIME_CELL_CFG_LOSS_US)) := by
  and_intros
  all_goals first
    | decide +kernel
    | exact State.nearest_of_le (by decide +kernel)
    | exact fun q n h _ => by rw [show (late (follower 2 (base 1 2))).altPort = none by decide +kernel] at h; cases h

/-- What O52 supposes, met clause by clause. -/
theorem witness_PtpAndLinkDelayComplete :
    ((ptpSlave (base 1 2)).domBusy 1 = false ∧ (ptpSlave (base 1 2)).hearsPtp announce1.port announce1.domain = true ∧
      -3 ≤ announce1.logInterval ∧ announce1.logInterval ≤ 1) ∧
    (((ptpNew (base 1 2)).setFld F.TIME_STAT_STATE stAcquiring).domBusy 1 = false ∧ ((ptpNew (base 1 2)).setFld
      F.TIME_STAT_STATE stAcquiring).hearsPtp announce1.port announce1.domain = true ∧ -3 ≤ announce1.logInterval ∧
      announce1.logInterval ≤ 1) ∧
    ((ptpSlave (base 1 2)).domBusy 1 = false ∧ (ptpSlave (base 1 2)).hearsPtp sync1.port sync1.domain = true ∧
      (ptpSlave (base 1 2)).tm.ptp.selected = some (sync1.identity, sync1.portNumber) ∧ (ptpSlave (base 1
      2)).tm.ptp.selPort = sync1.port ∧ -7 ≤ sync1.logInterval ∧ sync1.logInterval ≤ 0 ∧ ((ptpSlave (base 1
      2)).timeState = stAcquiring ∨ (ptpSlave (base 1 2)).timeState = stLocked)) ∧
    ((asked (ptpSlave (base 1 2))).domBusy 1 = false ∧ (asked (ptpSlave (base 1 2))).hearsPtp resp1.port resp1.domain
      = true ∧ (asked (ptpSlave (base 1 2))).tm.ptp.selected = some (resp1.identity, resp1.portNumber) ∧ (asked
      (ptpSlave (base 1 2))).tm.ptp.selPort = resp1.port ∧ (asked (ptpSlave (base 1 2))).tm.ptp.t3s = some 5 ∧ (asked
      (ptpSlave (base 1 2))).tm.ptp.lastReq.isSome = true ∧ ((asked (ptpSlave (base 1 2))).timeState = stAcquiring ∨
      (asked (ptpSlave (base 1 2))).timeState = stLocked)) ∧
    ((ptpSlave (base 1 2)).source = srcPtp ∧ (ptpSlave (base 1 2)).tm.ptp.selected.isSome = true ∧ (ptpSlave (base 1
      2)).tm.ptp.lastReq = none ∧ (ptpSlave (base 1 2)).hasMac (ptpSlave (base 1 2)).tm.ptp.selPort.toNat = true ∧
      (ptpSlave (base 1 2)).bit (F.ETH_PORT_STAT_LINK_UP (ptpSlave (base 1 2)).tm.ptp.selPort.toNat) = true ∧
      (ptpSlave (base 1 2)).tm.ptp.ms = some (1, 2)) ∧
    ((bridge (ptpSlave (base 1 2))).domBusy 1 = false ∧ (bridge (ptpSlave (base 1 2))).bit F.ETH_BRIDGE_EN = true ∧
      (bridge (ptpSlave (base 1 2))).bit (F.ETH_PORT_STAT_LINK_UP 0) = true ∧ (bridge (ptpSlave (base 1 2))).bit
      (F.ETH_PORT_STAT_LINK_UP 1) = true ∧ (bridge (ptpSlave (base 1 2))).hasMac (bridged1.port ^^^ 1).toNat = true ∧
      (bridged1.udpPort = 319 ∨ bridged1.udpPort = 320) ∧ bridged1.dstIp = 3758096769 ∧ bridged1.msgType.toNat ≤ 1) ∧
    ((bridge (ptpSlave (base 1 2))).domBusy 1 = false ∧ (bridge (ptpSlave (base 1 2))).bit F.ETH_BRIDGE_EN = true ∧
      (bridge (ptpSlave (base 1 2))).bit (F.ETH_PORT_STAT_LINK_UP 0) = true ∧ (bridge (ptpSlave (base 1 2))).bit
      (F.ETH_PORT_STAT_LINK_UP 1) = true ∧ (bridge (ptpSlave (base 1 2))).hasMac ((bridgedAs 15 320).port ^^^ 1).toNat
      = true ∧ ((bridgedAs 15 320).udpPort = 319 ∨ (bridgedAs 15 320).udpPort = 320) ∧ (bridgedAs 15 320).dstIp =
      3758096769 ∧ ((bridgedAs 15 320).msgType = 8 ∨ (bridgedAs 15 320).msgType = 9 ∨ 11 ≤ (bridgedAs 15
      320).msgType.toNat)) ∧
    ((bridge (ptpSlave (base 1 2))).domBusy 1 = false ∧ (bridge (ptpSlave (base 1 2))).bit F.ETH_BRIDGE_EN = true ∧
      (bridge (ptpSlave (base 1 2))).bit (F.ETH_PORT_STAT_LINK_UP 0) = true ∧ (bridge (ptpSlave (base 1 2))).bit
      (F.ETH_PORT_STAT_LINK_UP 1) = true ∧ (bridge (ptpSlave (base 1 2))).hasMac ((bridgedAs 10 319).port ^^^ 1).toNat
      = true ∧ ((bridgedAs 10 319).udpPort = 319 ∨ (bridgedAs 10 319).udpPort = 320) ∧ (bridgedAs 10 319).dstIp =
      3758096769 ∧ ((bridgedAs 10 319).msgType = 2 ∨ (bridgedAs 10 319).msgType = 3 ∨ (bridgedAs 10 319).msgType =
      10)) ∧
    ((markHeard 3 (port 3 lkActive (base 1 2))).carries 3 = true ∧ (((markHeard 3 (port 3 lkActive (base 1 2))).lane
      3).markHeard = true ∨ ∃ (m : BitVec 8 × ℕ), ((markHeard 3 (port 3 lkActive (base 1 2))).lane 3).markOut = some m
      ∧ 0 < m.2) ∧ 3 < (markHeard 3 (port 3 lkActive (base 1 2))).tm.delays.length ∧ 3 < (markHeard 3 (port 3 lkActive
      (base 1 2))).tm.marked.length ∧ 3 < (markHeard 3 (port 3 lkActive (base 1 2))).lnk.ports.length) ∧
    (((laned (fun (l : LaneSt) => LaneSt.mk l.since l.fresh l.part l.slots l.dataRun l.txNext l.unacked l.ack l.acked
      l.resend l.replayAck l.replayRuns l.stall l.idleRun l.frameAt l.last l.rxNext l.goodAt l.downAt l.nak
      l.typeFails l.partnerIdle l.markNo l.markAt (some (5, 1)) l.markHeard l.markIn l.excluded l.laneOk l.lastLanes
      l.blames l.idleBlocks l.outside l.stepAt l.cal l.calSlot l.eqDone l.partner l.confirmAt l.rx l.rowHunt l.checks
      l.need l.awake l.pat l.injectBit l.injectLane l.injectLcb) (port 0 lkLight (base 1 2))).carries 0 = true) ∧
      (((laned (fun (l : LaneSt) => LaneSt.mk l.since l.fresh l.part l.slots l.dataRun l.txNext l.unacked l.ack
      l.acked l.resend l.replayAck l.replayRuns l.stall l.idleRun l.frameAt l.last l.rxNext l.goodAt l.downAt l.nak
      l.typeFails l.partnerIdle l.markNo l.markAt (some (5, 1)) l.markHeard l.markIn l.excluded l.laneOk l.lastLanes
      l.blames l.idleBlocks l.outside l.stepAt l.cal l.calSlot l.eqDone l.partner l.confirmAt l.rx l.rowHunt l.checks
      l.need l.awake l.pat l.injectBit l.injectLane l.injectLcb) (port 0 lkLight (base 1 2))).lane 0).markHeard = true
      ∨ ∃ (m : BitVec 8 × ℕ), ((laned (fun (l : LaneSt) => LaneSt.mk l.since l.fresh l.part l.slots l.dataRun l.txNext
      l.unacked l.ack l.acked l.resend l.replayAck l.replayRuns l.stall l.idleRun l.frameAt l.last l.rxNext l.goodAt
      l.downAt l.nak l.typeFails l.partnerIdle l.markNo l.markAt (some (5, 1)) l.markHeard l.markIn l.excluded
      l.laneOk l.lastLanes l.blames l.idleBlocks l.outside l.stepAt l.cal l.calSlot l.eqDone l.partner l.confirmAt
      l.rx l.rowHunt l.checks l.need l.awake l.pat l.injectBit l.injectLane l.injectLcb) (port 0 lkLight (base 1
      2))).lane 0).markOut = some m ∧ 0 < m.2) ∧ (0 < (laned (fun (l : LaneSt) => LaneSt.mk l.since l.fresh l.part
      l.slots l.dataRun l.txNext l.unacked l.ack l.acked l.resend l.replayAck l.replayRuns l.stall l.idleRun l.frameAt
      l.last l.rxNext l.goodAt l.downAt l.nak l.typeFails l.partnerIdle l.markNo l.markAt (some (5, 1)) l.markHeard
      l.markIn l.excluded l.laneOk l.lastLanes l.blames l.idleBlocks l.outside l.stepAt l.cal l.calSlot l.eqDone
      l.partner l.confirmAt l.rx l.rowHunt l.checks l.need l.awake l.pat l.injectBit l.injectLane l.injectLcb) (port 0
      lkLight (base 1 2))).tm.delays.length) ∧ (0 < (laned (fun (l : LaneSt) => LaneSt.mk l.since l.fresh l.part
      l.slots l.dataRun l.txNext l.unacked l.ack l.acked l.resend l.replayAck l.replayRuns l.stall l.idleRun l.frameAt
      l.last l.rxNext l.goodAt l.downAt l.nak l.typeFails l.partnerIdle l.markNo l.markAt (some (5, 1)) l.markHeard
      l.markIn l.excluded l.laneOk l.lastLanes l.blames l.idleBlocks l.outside l.stepAt l.cal l.calSlot l.eqDone
      l.partner l.confirmAt l.rx l.rowHunt l.checks l.need l.awake l.pat l.injectBit l.injectLane l.injectLcb) (port 0
      lkLight (base 1 2))).tm.marked.length) ∧ (0 < (laned (fun (l : LaneSt) => LaneSt.mk l.since l.fresh l.part
      l.slots l.dataRun l.txNext l.unacked l.ack l.acked l.resend l.replayAck l.replayRuns l.stall l.idleRun l.frameAt
      l.last l.rxNext l.goodAt l.downAt l.nak l.typeFails l.partnerIdle l.markNo l.markAt (some (5, 1)) l.markHeard
      l.markIn l.excluded l.laneOk l.lastLanes l.blames l.idleBlocks l.outside l.stepAt l.cal l.calSlot l.eqDone
      l.partner l.confirmAt l.rx l.rowHunt l.checks l.need l.awake l.pat l.injectBit l.injectLane l.injectLcb) (port 0
      lkLight (base 1 2))).lnk.ports.length)) ∧
    ((askedEarly (ptpSlave (base 1 2))).domBusy 1 = false ∧ (askedEarly (ptpSlave (base 1 2))).hearsPtp resp1.port
      resp1.domain = true ∧ (askedEarly (ptpSlave (base 1 2))).tm.ptp.selected = some (resp1.identity,
      resp1.portNumber) ∧ (askedEarly (ptpSlave (base 1 2))).tm.ptp.selPort = resp1.port ∧ (askedEarly (ptpSlave (base
      1 2))).tm.ptp.t3s = none ∧ (askedEarly (ptpSlave (base 1 2))).tm.ptp.lastReq.isSome = true) := by
  and_intros
  all_goals decide +kernel

/-- What O53 supposes, met clause by clause. -/
theorem witness_MediaAndStreamEventsComplete :
    ((media (base 1 2)).domBusy 1 = false ∧ (media (base 1 2)).portRuns 0 = true ∧ (media (base 1 2)).hasMac 0 = true
      ∧ (media (base 1 2)).fld (F.ETH_IP_IP 0) ≠ 0) ∧
    ((media (base 1 2)).domBusy 1 = false ∧ (media (base 1 2)).portRuns 0 = true) ∧
    ((joined (media (base 1 2))).domBusy 1 = false ∧ (joined (media (base 1 2))).portRuns 0 = true ∧ (joined (media
      (base 1 2))).hasMac 0 = true ∧ (joined (media (base 1 2))).eth.joined = [group1] ∧ group1.port = 0) ∧
    ((base 1 2).domBusy 1 = false ∧ (base 1 2).portValid 1 = true ∧ 1 ≤ (base 1 2).mode ∧ (base 1 2).bit
      F.SYS_BOOT_RECOVERY = false) ∧
    ((media (base 1 2)).domBusy 1 = false) ∧
    ((ethDue (base 1 2)).eth.waiting = [EthWrite.mk false 2 true 0] ∧ (EthWrite.mk false 2 true 0).answered = true ∧
      (EthWrite.mk false 2 true 0).due ≤ (ethDue (base 1 2)).tick) ∧
    ((fecDue (base 1 2)).eth.waiting = [EthWrite.mk true 2 true 0] ∧ (EthWrite.mk true 2 true 0).answered = true ∧
      (EthWrite.mk true 2 true 0).due ≤ (fecDue (base 1 2)).tick) ∧
    ((ethWaits (base 1 2)).eth.waiting = [EthWrite.mk false 2 true 9] ∧ ((EthWrite.mk false 2 true 9).answered = false
      ∨ (ethWaits (base 1 2)).tick < (EthWrite.mk false 2 true 9).due)) ∧
    ((media (base 1 3)).domBusy 1 = false ∧ (media (base 1 3)).portRuns videoLong.port.toNat = true ∧ videoLong.fcsOk
      = true ∧ (9216 < videoLong.size ∨ videoLong.stackedTags = true ∨ videoLong.ipv4 = false)) ∧
    ((media (base 1 3)).domBusy 1 = false ∧ (media (base 1 3)).portRuns videoOver.port.toNat = true ∧ videoOver.fcsOk
      = true ∧ videoOver.size ≤ 9216 ∧ videoOver.stackedTags = false ∧ videoOver.ipv4 = true ∧ videoOver.vlan = none ∧
      (media (base 1 3)).bit (F.ETH_VLAN_EN videoOver.port.toNat) = false ∧ videoOver.overflow = true) ∧
    ((media (base 1 3)).domBusy 1 = false ∧ (media (base 1 3)).portRuns videoIp.port.toNat = true ∧ videoIp.fcsOk =
      true ∧ videoIp.size ≤ 9216 ∧ videoIp.stackedTags = false ∧ videoIp.ipv4 = true ∧ videoIp.vlan = none ∧ (media
      (base 1 3)).bit (F.ETH_VLAN_EN videoIp.port.toNat) = false ∧ videoIp.overflow = false ∧ videoIp.ipOk = false) ∧
    ((media (base 1 3)).domBusy 1 = false ∧ (media (base 1 3)).portRuns videoUdp.port.toNat = true ∧ videoUdp.fcsOk =
      true ∧ videoUdp.size ≤ 9216 ∧ videoUdp.stackedTags = false ∧ videoUdp.ipv4 = true ∧ videoUdp.vlan = none ∧
      (media (base 1 3)).bit (F.ETH_VLAN_EN videoUdp.port.toNat) = false ∧ videoUdp.overflow = false ∧ videoUdp.ipOk =
      true ∧ videoUdp.udpOk = false) ∧
    ((media (base 1 2)).domBusy 1 = false ∧ (media (base 1 2)).portRuns video.port.toNat = true ∧ video.fcsOk = true ∧
      video.size ≤ 9216 ∧ video.stackedTags = false ∧ video.ipv4 = true ∧ video.vlan = none ∧ (media (base 1 2)).bit
      (F.ETH_VLAN_EN video.port.toNat) = false ∧ video.overflow = false ∧ video.ipOk = true ∧ video.udpOk = true ∧ (∀
      (k : ℕ), (media (base 1 2)).streamOn k = false)) ∧
    ((streaming (base 1 3)).domBusy 1 = false ∧ (streaming (base 1 3)).portRuns video.port.toNat = true ∧ video.fcsOk
      = true ∧ video.size ≤ 9216 ∧ video.stackedTags = false ∧ video.ipv4 = true ∧ video.vlan = none ∧ (streaming
      (base 1 3)).bit (F.ETH_VLAN_EN video.port.toNat) = false ∧ video.overflow = false ∧ video.ipOk = true ∧
      video.udpOk = true ∧ video.version = 2 ∧ (List.find? (fun (f : ℕ) => ((streaming (base 1 3)).bump
      (F.ETH_CNT_COUNT video.port.toNat 0)).streamOn (f / 2) && (decide (f % 2 = 0) || ((streaming (base 1 3)).bump
      (F.ETH_CNT_COUNT video.port.toNat 0)).bit (F.ING_S_CTRL_PAIR (f / 2))) && decide (((streaming (base 1 3)).bump
      (F.ETH_CNT_COUNT video.port.toNat 0)).fld (F.ETH_FLOW_PORT_MEDIA_PORT f) = video.port.toNat) && decide
      (((streaming (base 1 3)).bump (F.ETH_CNT_COUNT video.port.toNat 0)).fld (F.ETH_FLOW_DST_DST_IP f) =
      video.dstIp.toNat) && decide (((streaming (base 1 3)).bump (F.ETH_CNT_COUNT video.port.toNat 0)).fld
      (F.ETH_FLOW_PORT_UDP_PORT f) = video.dstPort.toNat) && (decide (((streaming (base 1 3)).bump (F.ETH_CNT_COUNT
      video.port.toNat 0)).fld (F.ETH_FLOW_SRC_SRC_IP f) = 0) || decide (((streaming (base 1 3)).bump (F.ETH_CNT_COUNT
      video.port.toNat 0)).fld (F.ETH_FLOW_SRC_SRC_IP f) = video.srcIp.toNat))) (List.range 64) = some 6) ∧
      video.pt.toNat = (streaming (base 1 3)).fld (F.ING_S_CTRL_PT (6 / 2)) ∧ (streaming (base 1 3)).bit
      (F.ING_S_CTRL_SSRC_EN (6 / 2)) = false ∧ ((streaming (base 1 3)).stream (6 / 2)).lost = false) ∧
    ((streaming (base 1 3)).domBusy 1 = false ∧ (streaming (base 1 3)).portRuns videoSrd.port.toNat = true ∧
      videoSrd.fcsOk = true ∧ videoSrd.size ≤ 9216 ∧ videoSrd.stackedTags = false ∧ videoSrd.ipv4 = true ∧
      videoSrd.vlan = none ∧ (streaming (base 1 3)).bit (F.ETH_VLAN_EN videoSrd.port.toNat) = false ∧
      videoSrd.overflow = false ∧ videoSrd.ipOk = true ∧ videoSrd.udpOk = true ∧ videoSrd.version = 2 ∧ (List.find?
      (fun (f : ℕ) => ((streaming (base 1 3)).bump (F.ETH_CNT_COUNT videoSrd.port.toNat 0)).streamOn (f / 2) &&
      (decide (f % 2 = 0) || ((streaming (base 1 3)).bump (F.ETH_CNT_COUNT videoSrd.port.toNat 0)).bit
      (F.ING_S_CTRL_PAIR (f / 2))) && decide (((streaming (base 1 3)).bump (F.ETH_CNT_COUNT videoSrd.port.toNat
      0)).fld (F.ETH_FLOW_PORT_MEDIA_PORT f) = videoSrd.port.toNat) && decide (((streaming (base 1 3)).bump
      (F.ETH_CNT_COUNT videoSrd.port.toNat 0)).fld (F.ETH_FLOW_DST_DST_IP f) = videoSrd.dstIp.toNat) && decide
      (((streaming (base 1 3)).bump (F.ETH_CNT_COUNT videoSrd.port.toNat 0)).fld (F.ETH_FLOW_PORT_UDP_PORT f) =
      videoSrd.dstPort.toNat) && (decide (((streaming (base 1 3)).bump (F.ETH_CNT_COUNT videoSrd.port.toNat 0)).fld
      (F.ETH_FLOW_SRC_SRC_IP f) = 0) || decide (((streaming (base 1 3)).bump (F.ETH_CNT_COUNT videoSrd.port.toNat
      0)).fld (F.ETH_FLOW_SRC_SRC_IP f) = videoSrd.srcIp.toNat))) (List.range 64) = some 6) ∧ videoSrd.pt.toNat =
      (streaming (base 1 3)).fld (F.ING_S_CTRL_PT (6 / 2)) ∧ (streaming (base 1 3)).bit (F.ING_S_CTRL_SSRC_EN (6 / 2))
      = false ∧ ((streaming (base 1 3)).stream (6 / 2)).lost = false ∧ 6 / 2 < (streaming (base 1
      3)).ing.streams.length ∧ 0 < ((streaming (base 1 3)).stream (6 / 2)).bufs.length ∧ ((streaming (base 1
      3)).stream (6 / 2)).highest = none ∧ ((streaming (base 1 3)).stream (6 / 2)).overruns = [] ∧ (∀ (i : ℕ),
      ((streaming (base 1 3)).buf 3 i).st = 0) ∧ (streaming (base 1 3)).takeBuf (6 / 2) = some 0 ∧ videoSrd.srds =
      [srd1] ∧ (streaming (base 1 3)).srdOk (6 / 2) srd1 = true) ∧
    (((filling (late (streaming (base 1 3)))).buf 3 1).st = 1 ∧ (filling (late (streaming (base 1 3)))).deadlinePassed
      3 1 = true) ∧
    ((late (streaming (base 1 3))).streamOn 3 = true ∧ ((late (streaming (base 1 3))).stream 3).lost = false ∧ (late
      (streaming (base 1 3))).receiving 3 = false ∧ ((late (streaming (base 1 3))).stream 3).since + ticks100ms ≤
      (late (streaming (base 1 3))).tick ∧ 3 < (late (streaming (base 1 3))).ing.streams.length) ∧
    ((ethAsked (base 1 2)).eth.waiting = [EthWrite.mk false 2 false 0] ∧ ((EthWrite.mk false 2 false 0).answered =
      false ∨ (ethAsked (base 1 2)).tick < (EthWrite.mk false 2 false 0).due)) := by
  and_intros
  all_goals first
    | decide +kernel
    | exact no_stream_on _ (by decide +kernel)
    | exact free_bufs _ 3 (by decide +kernel)

/-- What O54 supposes, met clause by clause. -/
theorem witness_CompositionEventsComplete :
    ((composing (base 1 3)).cmp.running = true ∧ ((composing (base 1 3)).mode = 3 ∨ (composing (base 1 3)).mode = 4) ∧
      (composing (base 1 3)).cmp.frame = (composing (base 1 3)).tm.curFrame ∧ (composing (base 1 3)).cmp.phase <
      ((composing (base 1 3)).withRegs (composing (base 1 3)).cmp.img).phases ∧ (composing (base 1 3)).cmp.start +
      3000 + ((composing (base 1 3)).cmp.phase * ((composing (base 1 3)).withRegs (composing (base 1
      3)).cmp.img).regionH + (composing (base 1 3)).cmp.line) * ((composing (base 1 3)).withRegs (composing (base 1
      3)).cmp.img).lineTicks ≤ (composing (base 1 3)).tick) ∧
    ((late (composingLast (base 1 4))).cmp.running = true ∧ ((late (composingLast (base 1 4))).mode = 3 ∨ (late
      (composingLast (base 1 4))).mode = 4) ∧ (late (composingLast (base 1 4))).cmp.frame = (late (composingLast (base
      1 4))).tm.curFrame ∧ (late (composingLast (base 1 4))).cmp.phase < ((late (composingLast (base 1 4))).withRegs
      (late (composingLast (base 1 4))).cmp.img).phases ∧ (late (composingLast (base 1 4))).cmp.start + 3000 + ((late
      (composingLast (base 1 4))).cmp.phase * ((late (composingLast (base 1 4))).withRegs (late (composingLast (base 1
      4))).cmp.img).regionH + (late (composingLast (base 1 4))).cmp.line) * ((late (composingLast (base 1
      4))).withRegs (late (composingLast (base 1 4))).cmp.img).lineTicks ≤ (late (composingLast (base 1 4))).tick) ∧
    ((composing (base 1 3)).cmp.inFlight = [line1] ∧ line1.left ≤ (composing (base 1 3)).tick ∧ ((composing (base 1
      3)).mode = 3 ∨ (composing (base 1 3)).mode = 4) ∧ (composing (base 1 3)).role = roleSender) ∧
    ((composing (copying (base 1 3))).cmp.inFlight = [line1] ∧ line1.left ≤ (composing (copying (base 1 3))).tick ∧
      ((composing (copying (base 1 3))).mode = 3 ∨ (composing (copying (base 1 3))).mode = 4) ∧ (composing (copying
      (base 1 3))).role = roleSender ∧ (composing (copying (base 1 3))).cmp.captures = []) := by
  decide +kernel

/-- What O55 supposes, met clause by clause. -/
theorem witness_CellsAndArbitrationComplete :
    ((base 1 2).carries 0 = false) ∧
    ((hunting (port 0 lkActive (base 1 2))).carries 0 = true ∧ ((hunting (port 0 lkActive (base 1 2))).lane 0).rowHunt
      = true) ∧
    ((port 0 lkActive (base 1 2)).carries 0 = true ∧ ((port 0 lkActive (base 1 2)).lane 0).rowHunt = false ∧ ((port 0
      lkActive (base 1 2)).bump (F.FAB_CLS_CNT_COUNT 0 badCell.cls.toNat 3)).cellCheck badCell ≠ 0) ∧
    ((port 0 lkActive (base 1 2)).carries 0 = true ∧ ((port 0 lkActive (base 1 2)).lane 0).rowHunt = false ∧ ((port 0
      lkActive (base 1 2)).bump (F.FAB_CLS_CNT_COUNT 0 svc16.cls.toNat 3)).cellCheck svc16 = 0 ∧ svc16.typ =
      CellType.svc) ∧
    ((port 0 lkActive (base 1 2)).carries 0 = true ∧ ((port 0 lkActive (base 1 2)).lane 0).rowHunt = false ∧ ((port 0
      lkActive (base 1 2)).bump (F.FAB_CLS_CNT_COUNT 0 (cellOf 6 2 1 9).cls.toNat 3)).cellCheck (cellOf 6 2 1 9) = 0 ∧
      (cellOf 6 2 1 9).typ = CellType.probe ∧ (cellOf 6 2 1 9).flags.getLsbD 0 = true) ∧
    ((port 0 lkActive (base 1 2)).carries 0 = true ∧ ((port 0 lkActive (base 1 2)).lane 0).rowHunt = false ∧ ((port 0
      lkActive (base 1 2)).bump (F.FAB_CLS_CNT_COUNT 0 probe64.cls.toNat 3)).cellCheck probe64 = 0 ∧ probe64.typ =
      CellType.probe ∧ probe64.flags.getLsbD 0 = true) ∧
    ((addressed (port 0 lkActive (base 1 2))).carries 0 = true ∧ ((addressed (port 0 lkActive (base 1 2))).lane
      0).rowHunt = false ∧ ((addressed (port 0 lkActive (base 1 2))).bump (F.FAB_CLS_CNT_COUNT 0 (cellOf 4 2 0
      9).cls.toNat 3)).cellCheck (cellOf 4 2 0 9) = 0 ∧ (cellOf 4 2 0 9).typ = CellType.cmd ∧ (cellOf 4 2 0 9).dst =
      (addressed (port 0 lkActive (base 1 2))).addr ∧ (addressed (port 0 lkActive (base 1 2))).addr ≠ 0) ∧
    ((addressed (port 0 lkActive (base 1 3))).carries 0 = true ∧ ((addressed (port 0 lkActive (base 1 3))).lane
      0).rowHunt = false ∧ (rasterOf 0).typ = CellType.raster ∧ (rasterOf 0).dst = (addressed (port 0 lkActive (base 1
      3))).addr ∧ (addressed (port 0 lkActive (base 1 3))).addr ≠ 0 ∧ ((addressed (port 0 lkActive (base 1 3))).bump
      (F.FAB_CLS_CNT_COUNT 0 (rasterOf 0).cls.toNat 3)).cellCheck (rasterOf 0) = 0 ∧ (((((addressed (port 0 lkActive
      (base 1 3))).bump (F.FAB_CLS_CNT_COUNT 0 (rasterOf 0).cls.toNat 3)).bump (F.FAB_CNT_COUNT 2)).freeCredits 0
      (rasterOf 0)).role ≠ roleTile ∨ ((((addressed (port 0 lkActive (base 1 3))).bump (F.FAB_CLS_CNT_COUNT 0
      (rasterOf 0).cls.toNat 3)).bump (F.FAB_CNT_COUNT 2)).freeCredits 0 (rasterOf 0)).mode ≠ 5)) ∧
    ((addressed (port 0 lkActive (base 2 5))).carries 0 = true ∧ ((addressed (port 0 lkActive (base 2 5))).lane
      0).rowHunt = false ∧ (rasterOf 0).typ = CellType.raster ∧ (rasterOf 0).dst = (addressed (port 0 lkActive (base 2
      5))).addr ∧ (addressed (port 0 lkActive (base 2 5))).addr ≠ 0 ∧ ((addressed (port 0 lkActive (base 2 5))).bump
      (F.FAB_CLS_CNT_COUNT 0 (rasterOf 0).cls.toNat 3)).cellCheck (rasterOf 0) = 0 ∧ ((((addressed (port 0 lkActive
      (base 2 5))).bump (F.FAB_CLS_CNT_COUNT 0 (rasterOf 0).cls.toNat 3)).bump (F.FAB_CNT_COUNT 2)).freeCredits 0
      (rasterOf 0)).role = roleTile ∧ ((((addressed (port 0 lkActive (base 2 5))).bump (F.FAB_CLS_CNT_COUNT 0
      (rasterOf 0).cls.toNat 3)).bump (F.FAB_CNT_COUNT 2)).freeCredits 0 (rasterOf 0)).mode = 5 ∧ sourceOf
      (((((addressed (port 0 lkActive (base 2 5))).bump (F.FAB_CLS_CNT_COUNT 0 (rasterOf 0).cls.toNat 3)).bump
      (F.FAB_CNT_COUNT 2)).freeCredits 0 (rasterOf 0)).governing (((((addressed (port 0 lkActive (base 2 5))).bump
      (F.FAB_CLS_CNT_COUNT 0 (rasterOf 0).cls.toNat 3)).bump (F.FAB_CNT_COUNT 2)).freeCredits 0 (rasterOf
      0)).nearFrame (parseRaster (List.take (rasterOf 0).len.toNat (rasterOf 0).payload)).frame).toNat (parseRaster
      (List.take (rasterOf 0).len.toNat (rasterOf 0).payload)).p) (rasterOf 0).src = none) ∧
    (rasterTile.carries 0 = true ∧ (rasterTile.lane 0).rowHunt = false ∧ (rasterOf 2).typ = CellType.raster ∧
      (rasterOf 2).dst = rasterTile.addr ∧ rasterTile.addr ≠ 0 ∧ (rasterTile.bump (F.FAB_CLS_CNT_COUNT 0 (rasterOf
      2).cls.toNat 3)).cellCheck (rasterOf 2) = 0 ∧ (((rasterTile.bump (F.FAB_CLS_CNT_COUNT 0 (rasterOf 2).cls.toNat
      3)).bump (F.FAB_CNT_COUNT 2)).freeCredits 0 (rasterOf 2)).role = roleTile ∧ (((rasterTile.bump
      (F.FAB_CLS_CNT_COUNT 0 (rasterOf 2).cls.toNat 3)).bump (F.FAB_CNT_COUNT 2)).freeCredits 0 (rasterOf 2)).mode = 5
      ∧ sourceOf ((((rasterTile.bump (F.FAB_CLS_CNT_COUNT 0 (rasterOf 2).cls.toNat 3)).bump (F.FAB_CNT_COUNT
      2)).freeCredits 0 (rasterOf 2)).governing ((((rasterTile.bump (F.FAB_CLS_CNT_COUNT 0 (rasterOf 2).cls.toNat
      3)).bump (F.FAB_CNT_COUNT 2)).freeCredits 0 (rasterOf 2)).nearFrame (parseRaster (List.take (rasterOf
      2).len.toNat (rasterOf 2).payload)).frame).toNat (parseRaster (List.take (rasterOf 2).len.toNat (rasterOf
      2).payload)).p) (rasterOf 2).src = some 0 ∧ ((((rasterTile.bump (F.FAB_CLS_CNT_COUNT 0 (rasterOf 2).cls.toNat
      3)).bump (F.FAB_CNT_COUNT 2)).freeCredits 0 (rasterOf 2)).nearFrame (parseRaster (List.take (rasterOf
      2).len.toNat (rasterOf 2).payload)).frame < 0 ∨ (((rasterTile.bump (F.FAB_CLS_CNT_COUNT 0 (rasterOf 2).cls.toNat
      3)).bump (F.FAB_CNT_COUNT 2)).freeCredits 0 (rasterOf 2)).tm.curFrame + 1 < ((((rasterTile.bump
      (F.FAB_CLS_CNT_COUNT 0 (rasterOf 2).cls.toNat 3)).bump (F.FAB_CNT_COUNT 2)).freeCredits 0 (rasterOf
      2)).nearFrame (parseRaster (List.take (rasterOf 2).len.toNat (rasterOf 2).payload)).frame).toNat ∨
      (((rasterTile.bump (F.FAB_CLS_CNT_COUNT 0 (rasterOf 2).cls.toNat 3)).bump (F.FAB_CNT_COUNT 2)).freeCredits 0
      (rasterOf 2)).tLatch ((((rasterTile.bump (F.FAB_CLS_CNT_COUNT 0 (rasterOf 2).cls.toNat 3)).bump (F.FAB_CNT_COUNT
      2)).freeCredits 0 (rasterOf 2)).nearFrame (parseRaster (List.take (rasterOf 2).len.toNat (rasterOf
      2).payload)).frame).toNat (parseRaster (List.take (rasterOf 2).len.toNat (rasterOf 2).payload)).p ≤
      ↑((((rasterTile.bump (F.FAB_CLS_CNT_COUNT 0 (rasterOf 2).cls.toNat 3)).bump (F.FAB_CNT_COUNT 2)).freeCredits 0
      (rasterOf 2)).clk + usU (rfld ((((rasterTile.bump (F.FAB_CLS_CNT_COUNT 0 (rasterOf 2).cls.toNat 3)).bump
      (F.FAB_CNT_COUNT 2)).freeCredits 0 (rasterOf 2)).governing ((((rasterTile.bump (F.FAB_CLS_CNT_COUNT 0 (rasterOf
      2).cls.toNat 3)).bump (F.FAB_CNT_COUNT 2)).freeCredits 0 (rasterOf 2)).nearFrame (parseRaster (List.take
      (rasterOf 2).len.toNat (rasterOf 2).payload)).frame).toNat (parseRaster (List.take (rasterOf 2).len.toNat
      (rasterOf 2).payload)).p) F.LCR_CFG_LEAD_US)))) ∧
    (rasterTile.carries 0 = true ∧ (rasterTile.lane 0).rowHunt = false ∧ (rasterOf 1).typ = CellType.raster ∧
      (rasterOf 1).dst = rasterTile.addr ∧ rasterTile.addr ≠ 0 ∧ (rasterTile.bump (F.FAB_CLS_CNT_COUNT 0 (rasterOf
      1).cls.toNat 3)).cellCheck (rasterOf 1) = 0 ∧ (((rasterTile.bump (F.FAB_CLS_CNT_COUNT 0 (rasterOf 1).cls.toNat
      3)).bump (F.FAB_CNT_COUNT 2)).freeCredits 0 (rasterOf 1)).role = roleTile ∧ (((rasterTile.bump
      (F.FAB_CLS_CNT_COUNT 0 (rasterOf 1).cls.toNat 3)).bump (F.FAB_CNT_COUNT 2)).freeCredits 0 (rasterOf 1)).mode = 5
      ∧ sourceOf ((((rasterTile.bump (F.FAB_CLS_CNT_COUNT 0 (rasterOf 1).cls.toNat 3)).bump (F.FAB_CNT_COUNT
      2)).freeCredits 0 (rasterOf 1)).governing ((((rasterTile.bump (F.FAB_CLS_CNT_COUNT 0 (rasterOf 1).cls.toNat
      3)).bump (F.FAB_CNT_COUNT 2)).freeCredits 0 (rasterOf 1)).nearFrame (parseRaster (List.take (rasterOf
      1).len.toNat (rasterOf 1).payload)).frame).toNat (parseRaster (List.take (rasterOf 1).len.toNat (rasterOf
      1).payload)).p) (rasterOf 1).src = some 0 ∧ 0 ≤ (((rasterTile.bump (F.FAB_CLS_CNT_COUNT 0 (rasterOf 1).cls.toNat
      3)).bump (F.FAB_CNT_COUNT 2)).freeCredits 0 (rasterOf 1)).nearFrame (parseRaster (List.take (rasterOf
      1).len.toNat (rasterOf 1).payload)).frame ∧ ((((rasterTile.bump (F.FAB_CLS_CNT_COUNT 0 (rasterOf 1).cls.toNat
      3)).bump (F.FAB_CNT_COUNT 2)).freeCredits 0 (rasterOf 1)).nearFrame (parseRaster (List.take (rasterOf
      1).len.toNat (rasterOf 1).payload)).frame).toNat ≤ (((rasterTile.bump (F.FAB_CLS_CNT_COUNT 0 (rasterOf
      1).cls.toNat 3)).bump (F.FAB_CNT_COUNT 2)).freeCredits 0 (rasterOf 1)).tm.curFrame + 1 ∧ ↑((((rasterTile.bump
      (F.FAB_CLS_CNT_COUNT 0 (rasterOf 1).cls.toNat 3)).bump (F.FAB_CNT_COUNT 2)).freeCredits 0 (rasterOf 1)).clk +
      usU (rfld ((((rasterTile.bump (F.FAB_CLS_CNT_COUNT 0 (rasterOf 1).cls.toNat 3)).bump (F.FAB_CNT_COUNT
      2)).freeCredits 0 (rasterOf 1)).governing ((((rasterTile.bump (F.FAB_CLS_CNT_COUNT 0 (rasterOf 1).cls.toNat
      3)).bump (F.FAB_CNT_COUNT 2)).freeCredits 0 (rasterOf 1)).nearFrame (parseRaster (List.take (rasterOf
      1).len.toNat (rasterOf 1).payload)).frame).toNat (parseRaster (List.take (rasterOf 1).len.toNat (rasterOf
      1).payload)).p) F.LCR_CFG_LEAD_US)) < (((rasterTile.bump (F.FAB_CLS_CNT_COUNT 0 (rasterOf 1).cls.toNat 3)).bump
      (F.FAB_CNT_COUNT 2)).freeCredits 0 (rasterOf 1)).tLatch ((((rasterTile.bump (F.FAB_CLS_CNT_COUNT 0 (rasterOf
      1).cls.toNat 3)).bump (F.FAB_CNT_COUNT 2)).freeCredits 0 (rasterOf 1)).nearFrame (parseRaster (List.take
      (rasterOf 1).len.toNat (rasterOf 1).payload)).frame).toNat (parseRaster (List.take (rasterOf 1).len.toNat
      (rasterOf 1).payload)).p) ∧
    ((sending (base 1 2)).lnkState 0 = lkActive ∧ (sending (base 1 2)).mode ≠ 7 ∧ ((sending (base 1 2)).lane
      0).slots.length ≤ 32 * ((sending (base 1 2)).activeLanes 0).length ∧ (sending (base 1 2)).choose 0 = (some 0,
      queues1) ∧ queues1.queue 0 = [queued1]) ∧
    ((late (port 0 lkActive (base 1 2))).svcDue 0 = true ∧ 0 < (late (port 0 lkActive (base 1 2))).fab.ports.length) ∧
    ((holding (base 1 2)).fab.holdEnd = some 0 ∧ 0 ≤ (holding (base 1 2)).tick) ∧
    ((holdingOn (base 1 2)).fab.holdEnd = some 9 ∧ (holdingOn (base 1 2)).tick < 9) := by
  and_intros
  all_goals decide +kernel

/-- What O56 supposes, met clause by clause. -/
theorem witness_TrainingAndIdleComplete :
    (0 < ((base 1 2).setFld (F.LNK_CTRL_EN 0) 1).lnk.ports.length ∧ ((base 1 2).setFld (F.LNK_CTRL_EN 0) 1).domBusy (2
      + 0) = false ∧ ((base 1 2).setFld (F.LNK_CTRL_EN 0) 1).lnkState 0 = lkDisabled ∧ ((base 1 2).setFld
      (F.LNK_CTRL_EN 0) 1).mayTrain 0 = true) ∧
    (0 < (port 0 lkClock (base 1 2)).lnk.ports.length ∧ (port 0 lkClock (base 1 2)).domBusy (2 + 0) = false ∧ (port 0
      lkClock (base 1 2)).lnkState 0 = lkClock ∧ seen.clockSeen = true) ∧
    (0 < (port 0 lkBlock (base 1 2)).lnk.ports.length ∧ (port 0 lkBlock (base 1 2)).domBusy (2 + 0) = false ∧ (port 0
      lkBlock (base 1 2)).lnkState 0 = lkBlock ∧ lockedLanes hearsBlocks = 15) ∧
    (0 < (port 0 lkEq (base 1 2)).lnk.ports.length ∧ (port 0 lkEq (base 1 2)).domBusy (2 + 0) = false ∧ (port 0 lkEq
      (base 1 2)).lnkState 0 = lkEq ∧ hearsEq.eqDone = true ∧ (port 0 lkEq (base 1 2)).partnerEqDone 0 hearsEq = true)
      ∧
    (0 < (port 0 lkDeskew (base 1 2)).lnk.ports.length ∧ (port 0 lkDeskew (base 1 2)).domBusy (2 + 0) = false ∧ (port
      0 lkDeskew (base 1 2)).lnkState 0 = lkDeskew ∧ seen.aligned = 15) ∧
    (0 < (port 0 lkConfig (base 1 2)).lnk.ports.length ∧ (port 0 lkConfig (base 1 2)).domBusy (2 + 0) = false ∧ (port
      0 lkConfig (base 1 2)).lnkState 0 = lkConfig ∧ (port 0 lkConfig (base 1 2)).partnerSet 0 hearsTs2 = some (heard
      85 true true 0) ∧ ((port 0 lkConfig (base 1 2)).lane 0).confirmAt = none) ∧
    (0 < (late (confirming (port 0 lkConfig (base 1 2)))).lnk.ports.length ∧ (late (confirming (port 0 lkConfig (base
      1 2)))).domBusy (2 + 0) = false ∧ (late (confirming (port 0 lkConfig (base 1 2)))).lnkState 0 = lkConfig ∧ (late
      (confirming (port 0 lkConfig (base 1 2)))).partnerSet 0 hearsTs2 = some (heard 85 true true 0) ∧ ((late
      (confirming (port 0 lkConfig (base 1 2)))).lane 0).confirmAt = some 0 ∧ 0 + 130 ≤ (late (confirming (port 0
      lkConfig (base 1 2)))).tick ∧ (late (confirming (port 0 lkConfig (base 1 2)))).chosen 0 (heard 85 true true
      0).laneOk (heard 85 true true 0).maxWidth = some 15) ∧
    (0 < (port 0 lkDeep (base 1 2)).lnk.ports.length ∧ (port 0 lkDeep (base 1 2)).domBusy (2 + 0) = false ∧ (port 0
      lkDeep (base 1 2)).lnkState 0 = lkDeep ∧ seen.clockSeen = true) ∧
    (0 < (late (port 0 lkClock (base 1 2))).lnk.ports.length ∧ (late (port 0 lkClock (base 1 2))).lnkState 0 = lkClock
      ∧ ((late (port 0 lkClock (base 1 2))).lane 0).since + usTicks 10000 ≤ (late (port 0 lkClock (base 1 2))).tick) ∧
    (0 < (late (port 0 lkConfig (base 1 2))).lnk.ports.length ∧ (late (port 0 lkConfig (base 1 2))).lnkState 0 =
      lkConfig ∧ ((late (port 0 lkConfig (base 1 2))).lane 0).since + usTicks 1000 ≤ (late (port 0 lkConfig (base 1
      2))).tick) ∧
    ((port 0 lkActive (base 1 2)).carries 0 = true ∧ 0 < (port 0 lkActive (base 1 2)).lnk.ports.length) ∧
    (((port 3 lkLight (base 1 2)).setFld (F.LNK_POLICY_RETRAIN_EN 3) 1).carries 3 = true ∧ 3 < ((port 3 lkLight (base
      1 2)).setFld (F.LNK_POLICY_RETRAIN_EN 3) 1).lnk.ports.length) ∧
    (0 < (idling (port 0 lkActive (base 1 2))).lnk.ports.length ∧ (idling (port 0 lkActive (base 1 2))).bit
      (F.LNK_POLICY_LIDLE_EN 0) = true ∧ (idling (port 0 lkActive (base 1 2))).lnkState 0 = lkActive ∧ 1024 ≤ ((idling
      (port 0 lkActive (base 1 2))).lane 0).idleRun ∧ (idling (port 0 lkActive (base 1 2))).txEmpty 0 = true ∧
      ((idling (port 0 lkActive (base 1 2))).lane 0).unacked = []) ∧
    (0 < (port 0 lkLight (sending (base 1 2))).lnk.ports.length ∧ (port 0 lkLight (sending (base 1 2))).lnkState 0 =
      lkLight ∧ (port 0 lkLight (sending (base 1 2))).txEmpty 0 = false) ∧
    (0 < (port 0 lkActive (base 1 2)).lnk.ports.length ∧ (port 0 lkActive (base 1 2)).domBusy (2 + 0) = false ∧ (port
      0 lkActive (base 1 2)).carries 0 = true) ∧
    (0 < (marking (port 0 lkActive (base 1 2))).lnk.ports.length ∧ ((marking (port 0 lkActive (base 1 2))).lane
      0).markOut = some (3, 0)) ∧
    (0 < (stalled (port 0 lkActive (base 1 2))).lnk.ports.length ∧ (stalled (port 0 lkActive (base 1 2))).carries 0 =
      true ∧ ((stalled (port 0 lkActive (base 1 2))).lane 0).unacked ≠ [] ∧ 256 ≤ ((stalled (port 0 lkActive (base 1
      2))).lane 0).stall ∧ (((stalled (port 0 lkActive (base 1 2))).lane 0).replayAck = some ((stalled (port 0
      lkActive (base 1 2))).lane 0).ack → ((stalled (port 0 lkActive (base 1 2))).lane 0).replayRuns < 3)) ∧
    (0 < (stalledTwice (port 0 lkActive (base 1 2))).lnk.ports.length ∧ (stalledTwice (port 0 lkActive (base 1
      2))).carries 0 = true ∧ ((stalledTwice (port 0 lkActive (base 1 2))).lane 0).unacked ≠ [] ∧ 256 ≤ ((stalledTwice
      (port 0 lkActive (base 1 2))).lane 0).stall ∧ (((stalledTwice (port 0 lkActive (base 1 2))).lane 0).replayAck =
      some ((stalledTwice (port 0 lkActive (base 1 2))).lane 0).ack → ((stalledTwice (port 0 lkActive (base 1
      2))).lane 0).replayRuns < 3)) := by
  and_intros
  all_goals decide +kernel

/-- What O57 supposes, met clause by clause. -/
theorem witness_LinkFramesAndAdaptationComplete :
    ((base 1 2).domBusy (2 + 0) = false ∧ (base 1 2).carries 0 = false ∧ (base 1 2).lnkState 0 ≠ lkService) ∧
    ((looping (base 1 7)).domBusy (2 + 0) = false ∧ (looping (base 1 7)).lnkState 0 = lkService ∧ ((looping (base 1
      7)).lane 0).pat = some (PatRun.mk 4 0 1 0) ∧ (PatRun.mk 4 0 1 0).action = 4) ∧
    ((partnerIdle (lanes1 (base 1 2))).domBusy (2 + 0) = false ∧ (partnerIdle (lanes1 (base 1 2))).carries 0 = true ∧
      (((partnerIdle (lanes1 (base 1 2))).lane 0).partnerIdle = true ∨ (List.map judgeLane (List.filterMap (fun (i :
      ℕ) => List.find? (fun (f : LaneFrame) => f.lane.toNat == i) ((partnerIdle (lanes1 (base 1 2))).righted 0
      frame1)) ((partnerIdle (lanes1 (base 1 2))).activeLanes 0))).length ≠ ((partnerIdle (lanes1 (base 1
      2))).activeLanes 0).length) ∧ 0 < (partnerIdle (lanes1 (base 1 2))).lnk.ports.length ∧ (∀ f ∈ (partnerIdle
      (lanes1 (base 1 2))).righted 0 frame1, isTs1 f = false)) ∧
    ((partnerIdle (lanes1 (base 1 2))).domBusy (2 + 0) = false ∧ (partnerIdle (lanes1 (base 1 2))).carries 0 = true ∧
      (((partnerIdle (lanes1 (base 1 2))).lane 0).partnerIdle = true ∨ (List.map judgeLane (List.filterMap (fun (i :
      ℕ) => List.find? (fun (f : LaneFrame) => f.lane.toNat == i) ((partnerIdle (lanes1 (base 1 2))).righted 0
      ts1Frame)) ((partnerIdle (lanes1 (base 1 2))).activeLanes 0))).length ≠ ((partnerIdle (lanes1 (base 1
      2))).activeLanes 0).length) ∧ 0 < (partnerIdle (lanes1 (base 1 2))).lnk.ports.length ∧ (∃ f ∈ (partnerIdle
      (lanes1 (base 1 2))).righted 0 ts1Frame, isTs1 f = true)) ∧
    ((lanes1 (base 1 2)).domBusy (2 + 0) = false ∧ (lanes1 (base 1 2)).carries 0 = true ∧ ((lanes1 (base 1 2)).lane
      0).partnerIdle = false ∧ 0 < (lanes1 (base 1 2)).lnk.ports.length ∧ ((List.map judgeLane (List.filterMap (fun (i
      : ℕ) => List.find? (fun (f : LaneFrame) => f.lane.toNat == i) ((lanes1 (base 1 2)).righted 0 frame1)) ((lanes1
      (base 1 2)).activeLanes 0))).length = ((lanes1 (base 1 2)).activeLanes 0).length) ∧ (List.map judgeLane
      (List.filterMap (fun (i : ℕ) => List.find? (fun (f : LaneFrame) => f.lane.toNat == i) ((lanes1 (base 1
      2)).righted 0 frame1)) ((lanes1 (base 1 2)).activeLanes 0)) ≠ []) ∧ (∀ r ∈ List.map judgeLane (List.filterMap
      (fun (i : ℕ) => List.find? (fun (f : LaneFrame) => f.lane.toNat == i) ((lanes1 (base 1 2)).righted 0 frame1))
      ((lanes1 (base 1 2)).activeLanes 0)), r.headerErrs = 0 ∧ r.typeOk = true ∧ r.chkOk = true ∧ r.crcOk = true ∧
      r.fbseq = ((lanes1 (base 1 2)).lane 0).rxNext ∧ r.flags = 0 ∧ r.ack = ((lanes1 (base 1 2)).lane 0).ack) ∧
      ((lanes1 (base 1 2)).lane 0).rxNext < seqMod ∧ (frameSlots (List.map judgeLane (List.filterMap (fun (i : ℕ) =>
      List.find? (fun (f : LaneFrame) => f.lane.toNat == i) ((lanes1 (base 1 2)).righted 0 frame1)) ((lanes1 (base 1
      2)).activeLanes 0))) ≠ []) ∧ ((frameSlots (List.map judgeLane (List.filterMap (fun (i : ℕ) => List.find? (fun (f
      : LaneFrame) => f.lane.toNat == i) ((lanes1 (base 1 2)).righted 0 frame1)) ((lanes1 (base 1 2)).activeLanes
      0)))).length < 2 ^ 23)) ∧
    (((lanes1 (base 1 2)).setFld (F.LNK_TAPS_HELD 0 0) 1).carries 0 = true ∧ bitOf (((lanes1 (base 1 2)).setFld
      (F.LNK_TAPS_HELD 0 0) 1).fld (F.LNK_STAT_LANES 0)) 0 = true ∧ ((((lanes1 (base 1 2)).setFld (F.LNK_TAPS_HELD 0
      0) 1).lane 0).partnerIdle = true ∨ ((lanes1 (base 1 2)).setFld (F.LNK_TAPS_HELD 0 0) 1).bit (F.LNK_TAPS_HELD 0
      0) = true)) ∧
    ((partnerIdle (lanes1 (base 1 2))).carries 0 = true ∧ bitOf ((partnerIdle (lanes1 (base 1 2))).fld
      (F.LNK_STAT_LANES 0)) 0 = true ∧ (((partnerIdle (lanes1 (base 1 2))).lane 0).partnerIdle = true ∨ (partnerIdle
      (lanes1 (base 1 2))).bit (F.LNK_TAPS_HELD 0 0) = true)) ∧
    (((lanes1 (base 1 2)).setFld F.LNK_ADAPT_CFG_DENS 9).carries 0 = true ∧ bitOf (((lanes1 (base 1 2)).setFld
      F.LNK_ADAPT_CFG_DENS 9).fld (F.LNK_STAT_LANES 0)) 0 = true ∧ (((lanes1 (base 1 2)).setFld F.LNK_ADAPT_CFG_DENS
      9).lane 0).partnerIdle = false ∧ ((lanes1 (base 1 2)).setFld F.LNK_ADAPT_CFG_DENS 9).bit (F.LNK_TAPS_HELD 0 0) =
      false ∧ 8 < ((lanes1 (base 1 2)).setFld F.LNK_ADAPT_CFG_DENS 9).fld F.LNK_ADAPT_CFG_DENS) ∧
    (((lanes1 (base 1 2)).setFld F.LNK_ADAPT_CFG_DENS 9).carries 0 = true ∧ bitOf (((lanes1 (base 1 2)).setFld
      F.LNK_ADAPT_CFG_DENS 9).fld (F.LNK_STAT_LANES 0)) 0 = true ∧ (((lanes1 (base 1 2)).setFld F.LNK_ADAPT_CFG_DENS
      9).lane 0).partnerIdle = false ∧ ((lanes1 (base 1 2)).setFld F.LNK_ADAPT_CFG_DENS 9).bit (F.LNK_TAPS_HELD 0 0) =
      false ∧ ((lanes1 (base 1 2)).setFld F.LNK_ADAPT_CFG_DENS 9).fld F.LNK_ADAPT_CFG_DENS ≤ 9 ∧ calValid (((lanes1
      (base 1 2)).setFld F.LNK_ADAPT_CFG_DENS 9).calRecord 0) = false ∧ (((lanes1 (base 1 2)).setFld
      F.LNK_ADAPT_CFG_DENS 9).lane 0).cal = none) ∧
    ((late (base 1 2)).lnk.tempTick + 1500000000 ≤ (late (base 1 2)).tick) ∧
    ((base 1 2).tick < (base 1 2).lnk.tempTick + 1500000000) ∧
    ((port 0 lkActive (base 1 2)).domBusy (2 + 0) = false ∧ ((port 0 lkActive (base 1 2)).tick < ((port 0 lkActive
      (base 1 2)).lane 0).stepAt.getD 1 0 + msTicks ∨ ((port 0 lkActive (base 1 2)).lane 0).partnerIdle = true)) ∧
    ((late (port 0 lkActive (base 1 2))).domBusy (2 + 0) = false ∧ ((late (port 0 lkActive (base 1 2))).lane
      0).partnerIdle = false ∧ ((late (port 0 lkActive (base 1 2))).lane 0).stepAt.getD 1 0 + msTicks ≤ (late (port 0
      lkActive (base 1 2))).tick ∧ (late (port 0 lkActive (base 1 2))).carries 0 = true ∧ ((late (port 0 lkActive
      (base 1 2))).lane 0).cal = none) ∧
    ((recalibrating (base 1 2)).domBusy (2 + 0) = false ∧ ((recalibrating (base 1 2)).lane 0).partnerIdle = false ∧
      ((recalibrating (base 1 2)).lane 0).stepAt.getD 0 0 + msTicks ≤ (recalibrating (base 1 2)).tick ∧ (recalibrating
      (base 1 2)).carries 0 = true ∧ ((recalibrating (base 1 2)).lane 0).cal = some (List.replicate 4 (CalLane.mk 0 0
      0 0 0 none)) ∧ ((List.replicate 4 (CalLane.mk 0 0 0 0 0 none)).getD 0 (CalLane.mk 0 0 0 0 0 none)).stage = 0 ∧
      ((List.replicate 4 (CalLane.mk 0 0 0 0 0 none)).getD 0 (CalLane.mk 0 0 0 0 0 none)).failed = none ∧ 0 <
      (List.replicate 4 (CalLane.mk 0 0 0 0 0 none)).length ∧ calValid ((recalibrating (base 1 2)).calRecord 0) =
      false ∧ (0 < (eyeAt 3).centre ∧ (recalibrating (base 1 2)).fld (F.LNK_SKEW_FINE 0 0) < 31)) ∧
    ((recalibrating (base 1 2)).domBusy (2 + 0) = false ∧ ((recalibrating (base 1 2)).lane 0).partnerIdle = false ∧
      ((recalibrating (base 1 2)).lane 0).stepAt.getD 0 0 + msTicks ≤ (recalibrating (base 1 2)).tick ∧ (recalibrating
      (base 1 2)).carries 0 = true ∧ ((recalibrating (base 1 2)).lane 0).cal = some (List.replicate 4 (CalLane.mk 0 0
      0 0 0 none)) ∧ ((List.replicate 4 (CalLane.mk 0 0 0 0 0 none)).getD 0 (CalLane.mk 0 0 0 0 0 none)).stage = 0 ∧
      ((List.replicate 4 (CalLane.mk 0 0 0 0 0 none)).getD 0 (CalLane.mk 0 0 0 0 0 none)).failed = none ∧ 0 <
      (List.replicate 4 (CalLane.mk 0 0 0 0 0 none)).length ∧ calValid ((recalibrating (base 1 2)).calRecord 0) =
      false ∧ ((eyeAt (-3)).centre < 0 ∧ 0 < (recalibrating (base 1 2)).fld (F.LNK_SKEW_FINE 0 0))) ∧
    (((port 0 lkActive (base 1 2)).setFld (F.LNK_STAT_LANES 0) 3).domBusy (2 + 0) = false ∧ ((port 0 lkActive (base 1
      2)).setFld (F.LNK_STAT_LANES 0) 3).carries 0 = true ∧ ((((port 0 lkActive (base 1 2)).setFld (F.LNK_STAT_LANES
      0) 3).lane 0).partnerIdle = true ∨ (List.map judgeLane (List.filterMap (fun (i : ℕ) => List.find? (fun (f :
      LaneFrame) => f.lane.toNat == i) (((port 0 lkActive (base 1 2)).setFld (F.LNK_STAT_LANES 0) 3).righted 0
      ts1Frame)) (((port 0 lkActive (base 1 2)).setFld (F.LNK_STAT_LANES 0) 3).activeLanes 0))).length ≠ (((port 0
      lkActive (base 1 2)).setFld (F.LNK_STAT_LANES 0) 3).activeLanes 0).length) ∧ 0 < ((port 0 lkActive (base 1
      2)).setFld (F.LNK_STAT_LANES 0) 3).lnk.ports.length ∧ (∃ f ∈ ((port 0 lkActive (base 1 2)).setFld
      (F.LNK_STAT_LANES 0) 3).righted 0 ts1Frame, isTs1 f = true)) ∧
    (((port 0 lkActive (base 1 2)).setFld (F.LNK_STAT_LANES 0) 3).domBusy (2 + 0) = false ∧ ((port 0 lkActive (base 1
      2)).setFld (F.LNK_STAT_LANES 0) 3).carries 0 = true ∧ ((((port 0 lkActive (base 1 2)).setFld (F.LNK_STAT_LANES
      0) 3).lane 0).partnerIdle = true ∨ (List.map judgeLane (List.filterMap (fun (i : ℕ) => List.find? (fun (f :
      LaneFrame) => f.lane.toNat == i) (((port 0 lkActive (base 1 2)).setFld (F.LNK_STAT_LANES 0) 3).righted 0
      frame1)) (((port 0 lkActive (base 1 2)).setFld (F.LNK_STAT_LANES 0) 3).activeLanes 0))).length ≠ (((port 0
      lkActive (base 1 2)).setFld (F.LNK_STAT_LANES 0) 3).activeLanes 0).length) ∧ 0 < ((port 0 lkActive (base 1
      2)).setFld (F.LNK_STAT_LANES 0) 3).lnk.ports.length ∧ (∀ f ∈ ((port 0 lkActive (base 1 2)).setFld
      (F.LNK_STAT_LANES 0) 3).righted 0 frame1, isTs1 f = false)) ∧
    ((partnerIdle (late (port 0 lkActive (base 1 2)))).domBusy (2 + 0) = false ∧ ((partnerIdle (late (port 0 lkActive
      (base 1 2)))).tick < ((partnerIdle (late (port 0 lkActive (base 1 2)))).lane 0).stepAt.getD 1 0 + msTicks ∨
      ((partnerIdle (late (port 0 lkActive (base 1 2)))).lane 0).partnerIdle = true)) := by
  and_intros
  all_goals decide +kernel

/-- What O58 supposes, met clause by clause. -/
theorem witness_LampImageEventsComplete :
    ((tileAt ((base 2 5).tCorrect 600 0)).role = roleTile ∧ (tileAt ((base 2 5).tCorrect 600 0)).mode = 5 ∧
      (Option.all (fun (l : ℕ × ℕ) => imgLt l.1 l.2 600 0) (tileAt ((base 2 5).tCorrect 600 0)).tile.lastTc = true) ∧
      0 < phasesOf ((tileAt ((base 2 5).tCorrect 600 0)).governing 600 0) ∧ (tileAt ((base 2 5).tCorrect 600
      0)).nearest ((tileAt ((base 2 5).tCorrect 600 0)).tCorrect 600 0).toNat = true ∧ ↑(tileAt ((base 2 5).tCorrect
      600 0)).clk < (tileAt ((base 2 5).tCorrect 600 0)).tLatch 600 0) ∧
    ((late (jobbed (base 2 5))).tile.jobs = [job1] ∧ job1.buf = some 1 ∧ job1.start + (late (jobbed (base 2
      5))).jobTicks job1 ≤ (late (jobbed (base 2 5))).tick ∧ (late (jobbed (base 2 5))).bufDrains ((late (jobbed (base
      2 5))).imgBank 1) = false) ∧
    ((late (jobNow (base 2 5))).tile.jobs = [jobOpen] ∧ jobOpen.buf = some 1 ∧ ((late (jobNow (base 2 5))).tick <
      jobOpen.start + (late (jobNow (base 2 5))).jobTicks jobOpen ∨ (late (jobNow (base 2 5))).bufDrains ((late
      (jobNow (base 2 5))).imgBank 1) = true)) ∧
    ((tileAt ((base 2 5).tLoad 600 0)).lampsOn = true ∧ (tileAt ((base 2 5).tLoad 600 0)).mode = 5 ∧ (Option.all (fun
      (l : ℕ × ℕ) => imgLt l.1 l.2 600 0) (tileAt ((base 2 5).tLoad 600 0)).tile.lastLoad = true) ∧ 0 < phasesOf
      ((tileAt ((base 2 5).tLoad 600 0)).governing 600 0) ∧ (tileAt ((base 2 5).tLoad 600 0)).nearest ((tileAt ((base
      2 5).tLoad 600 0)).tLoad 600 0).toNat = true ∧ ↑(tileAt ((base 2 5).tLoad 600 0)).clk < (tileAt ((base 2
      5).tLoad 600 0)).tLatch 600 0 ∧ (tileAt ((base 2 5).tLoad 600 0)).loadDrains 600 0 = false) ∧
    ((chained chainCfg (base 2 5)).lampsOn = true ∧ ((chained chainCfg (base 2 5)).chain 5).cfgDue = true ∧ (chained
      chainCfg (base 2 5)).driven (chained chainCfg (base 2 5)).tblForce 5 = true ∧ ((chained chainCfg (base 2
      5)).chain 5).loadEnd ≤ (chained chainCfg (base 2 5)).tick ∧ ((chained chainCfg (base 2 5)).chain 5).timedEnd ≤
      ↑(chained chainCfg (base 2 5)).clk ∧ ((chained chainCfg (base 2 5)).chain 5).measuring = false ∧ 5 < (chained
      chainCfg (base 2 5)).tile.chains.length) ∧
    ((lit (even5.tApply 600 0) (plan5 1 false false) even5).lampsOn = true ∧ (lit (even5.tApply 600 0) (plan5 1 false
      false) even5).plan 600 0 = some (plan5 1 false false) ∧ (plan5 1 false false).load = 1 ∧ (plan5 1 false
      false).latched = false ∧ (lit (even5.tApply 600 0) (plan5 1 false false) even5).launchDue (plan5 1 false
      false).lay ldLatch ((lit (even5.tApply 600 0) (plan5 1 false false) even5).tApply 600 0) = true) ∧
    ((lit (even5.tApply 600 0) (plan5 2 false false) even5).lampsOn = true ∧ (lit (even5.tApply 600 0) (plan5 2 false
      false) even5).plan 600 0 = some (plan5 2 false false) ∧ (plan5 2 false false).load = 2 ∧ (plan5 2 false
      false).ended = false ∧ (lit (even5.tApply 600 0) (plan5 2 false false) even5).launchDue (plan5 2 false
      false).lay ldBlank ((lit (even5.tApply 600 0) (plan5 2 false false) even5).tApply 600 0) ((lit (even5.tApply 600
      0) (plan5 2 false false) even5).symbolDelay 600 0 2) = true) ∧
    ((lit (((litOn even5).litEnd 600 0).1 - ↑(2 * nsU)) (plan5 1 true false) (litOn even5)).lampsOn = true ∧ (lit
      (((litOn even5).litEnd 600 0).1 - ↑(2 * nsU)) (plan5 1 true false) (litOn even5)).plan 600 0 = some (plan5 1
      true false) ∧ (plan5 1 true false).load = 1 ∧ (plan5 1 true false).latched = true ∧ (plan5 1 true false).ended =
      false ∧ ↑(8 * nsU) ≤ ((lit (((litOn even5).litEnd 600 0).1 - ↑(2 * nsU)) (plan5 1 true false) (litOn
      even5)).litEnd 600 0).2 ∧ (lit (((litOn even5).litEnd 600 0).1 - ↑(2 * nsU)) (plan5 1 true false) (litOn
      even5)).launchDue (plan5 1 true false).lay ldBlank ((lit (((litOn even5).litEnd 600 0).1 - ↑(2 * nsU)) (plan5 1
      true false) (litOn even5)).litEnd 600 0).1 ((lit (((litOn even5).litEnd 600 0).1 - ↑(2 * nsU)) (plan5 1 true
      false) (litOn even5)).symbolDelay 600 0 1) = true) ∧
    ((lit (((diagOn even5).litEnd 600 0).1 + ↑(98 * nsU)) (plan5 1 true true) (diagOn even5)).lampsOn = true ∧ (lit
      (((diagOn even5).litEnd 600 0).1 + ↑(98 * nsU)) (plan5 1 true true) (diagOn even5)).plan 600 0 = some (plan5 1
      true true) ∧ (lit (((diagOn even5).litEnd 600 0).1 + ↑(98 * nsU)) (plan5 1 true true) (diagOn
      even5)).diagFollows 600 0 = true ∧ (plan5 1 true true).load = 1 ∧ (plan5 1 true true).ended = true ∧ (plan5 1
      true true).pulsed = false ∧ (lit (((diagOn even5).litEnd 600 0).1 + ↑(98 * nsU)) (plan5 1 true true) (diagOn
      even5)).launchDue (plan5 1 true true).lay ldDiag (((lit (((diagOn even5).litEnd 600 0).1 + ↑(98 * nsU)) (plan5 1
      true true) (diagOn even5)).litEnd 600 0).1 + ↑(rfld ((lit (((diagOn even5).litEnd 600 0).1 + ↑(98 * nsU)) (plan5
      1 true true) (diagOn even5)).governing 600 0) F.LDR_DIAG_OFFSET_OFFSET_NS * nsU)) ((lit (((diagOn even5).litEnd
      600 0).1 + ↑(98 * nsU)) (plan5 1 true true) (diagOn even5)).symbolDelay 600 0 3) = true) ∧
    ((late (chained chainReport (base 2 5))).lampsOn = true ∧ ((late (chained chainReport (base 2 5))).chain
      5).reportDue = some (7, 599) ∧ (late (chained chainReport (base 2 5))).driven (late (chained chainReport (base 2
      5))).tblForce 5 = true ∧ 7 ≤ ↑(late (chained chainReport (base 2 5))).clk ∧ ((late (chained chainReport (base 2
      5))).chain 5).loadEnd ≤ (late (chained chainReport (base 2 5))).tick ∧ ((late (chained chainReport (base 2
      5))).chain 5).lineEnd ≤ (late (chained chainReport (base 2 5))).tick ∧ 5 < (late (chained chainReport (base 2
      5))).tile.chains.length ∧ (∀ (w : ℕ × ℕ), (late (chained chainReport (base 2 5))).tile.lastWindow = some w →
      (late (chained chainReport (base 2 5))).lineFrom (late (chained chainReport (base 2 5))).tblForce w.1 w.2 5
      (late (chained chainReport (base 2 5))).tick (burstTicks 1) = (late (chained chainReport (base 2 5))).tick) ∧
      ((late (chained chainReport (base 2 5))).chain 5).returnTick + 1500 ≤ (late (chained chainReport (base 2
      5))).tick ∧ ((late (chained chainReport (base 2 5))).chain 5).measuring = false) ∧
    ((late (chained chainBusy (base 2 5))).lampsOn = true ∧ ((late (chained chainBusy (base 2 5))).chain 5).reportDue
      = some (7, 599) ∧ (late (chained chainBusy (base 2 5))).driven (late (chained chainBusy (base 2 5))).tblForce 5
      = true ∧ 7 ≤ ↑(late (chained chainBusy (base 2 5))).clk ∧ ((late (chained chainBusy (base 2 5))).chain
      5).loadEnd ≤ (late (chained chainBusy (base 2 5))).tick ∧ ((late (chained chainBusy (base 2 5))).chain
      5).lineEnd ≤ (late (chained chainBusy (base 2 5))).tick ∧ 5 < (late (chained chainBusy (base 2
      5))).tile.chains.length ∧ (∀ (w : ℕ × ℕ), (late (chained chainBusy (base 2 5))).tile.lastWindow = some w → (late
      (chained chainBusy (base 2 5))).lineFrom (late (chained chainBusy (base 2 5))).tblForce w.1 w.2 5 (late (chained
      chainBusy (base 2 5))).tick (burstTicks 1) = (late (chained chainBusy (base 2 5))).tick) ∧ (late (chained
      chainBusy (base 2 5))).tick < ((late (chained chainBusy (base 2 5))).chain 5).returnTick + 1500) ∧
    ((base 2 5).lampsOn = true ∧ 127 < (base 2 5).tile.chains.length ∧ ((base 2 5).chain 127).rxBits = [] ∧ ((base 2
      5).chain 127).rxWords = none ∧ classify 0 1 = none) ∧
    ((chained reporting (base 2 5)).lampsOn = true ∧ 5 < (chained reporting (base 2 5)).tile.chains.length ∧ ((chained
      reporting (base 2 5)).chain 5).rxBits = [] ∧ ((chained reporting (base 2 5)).chain 5).rxWords = none ∧
      endWord.toNat / 4096 = ldEnd ∧ parityOf 16 endWord.toNat = true ∧ ((chained reporting (base 2 5)).chain
      5).report = some (ReportRun.mk 0 599 none false []) ∧ (∀ d < (chained reporting (base 2 5)).fld
      (F.LDR_CHAIN_STAT_DETECTED 5), d ∈ (ReportRun.mk 0 599 none false []).got)) ∧
    ((base 2 5).lampsOn = true ∧ 5 < (base 2 5).tile.chains.length ∧ ((base 2 5).chain 5).rxBits = [] ∧ ((base 2
      5).chain 5).rxWords = none ∧ latchWord.toNat / 4096 ≠ ldEnd ∧ latchWord.toNat / 4096 ≠ ldEcho ∧ latchWord.toNat
      / 4096 ≠ ldRecord ∧ ((base 2 5).chain 5).report = none) ∧
    (((late (chained chainMeas (base 2 5))).chain echo2.chain.toNat).measuring = true ∧ echo2.chain.toNat < (late
      (chained chainMeas (base 2 5))).tile.chains.length ∧ (late (chained chainMeas (base 2 5))).lampsOn = true ∧
      ((late (chained chainMeas (base 2 5))).chain echo2.chain.toNat).loadEnd ≤ (late (chained chainMeas (base 2
      5))).tick ∧ (late (chained chainMeas (base 2 5))).returnIdle echo2.chain.toNat = true) ∧
    (((late (chained chainMeas (base 2 5))).chain echo0.chain.toNat).measuring = true ∧ echo0.chain.toNat < (late
      (chained chainMeas (base 2 5))).tile.chains.length ∧ (late (chained chainMeas (base 2 5))).lampsOn = true ∧
      ((late (chained chainMeas (base 2 5))).chain echo0.chain.toNat).loadEnd ≤ (late (chained chainMeas (base 2
      5))).tick ∧ (late (chained chainMeas (base 2 5))).returnIdle echo0.chain.toNat = true) ∧
    (((late (chained measLoad (base 2 7))).chain echo2.chain.toNat).measuring = true ∧ echo2.chain.toNat < (late
      (chained measLoad (base 2 7))).tile.chains.length ∧ ((late (chained measLoad (base 2 7))).tick < ((late (chained
      measLoad (base 2 7))).chain echo2.chain.toNat).loadEnd ∨ (late (chained measLoad (base 2 7))).lampsOn = false))
      ∧
    (((late (chained chainMeas (base 2 1))).chain echo2.chain.toNat).measuring = true ∧ echo2.chain.toNat < (late
      (chained chainMeas (base 2 1))).tile.chains.length ∧ ((late (chained chainMeas (base 2 1))).tick < ((late
      (chained chainMeas (base 2 1))).chain echo2.chain.toNat).loadEnd ∨ (late (chained chainMeas (base 2 1))).lampsOn
      = false)) := by
  and_intros
  all_goals first
    | decide +kernel
    | exact State.nearest_of_le (by decide +kernel)

/-- What O59 supposes, met clause by clause. -/
theorem witness_PairAndMemoryEventsComplete :
    ((arrived (base 2 5)).role = roleTile ∧ (arrived (base 2 5)).mode = 5 ∧ (arrived (base 2 5)).sourcePort = some 2 ∧
      (arrived (base 2 5)).red.lossSeen = false ∧ (arrived (base 2 5)).carries 2 = false) ∧
    ((lossNoted (arrived (base 2 5))).role = roleTile ∧ (lossNoted (arrived (base 2 5))).mode = 5 ∧ (lossNoted
      (arrived (base 2 5))).sourcePort = some 2 ∧ (lossNoted (arrived (base 2 5))).red.lossSeen = true) ∧
    ((switchNow (base 2 5)).red.switchDue = some (1, 0)) ∧
    ((late ((base 1 4).setFld F.RED_POLICY_PROMOTE_EN 1)).role = roleSender ∧ (late ((base 1 4).setFld
      F.RED_POLICY_PROMOTE_EN 1)).mode = 4 ∧ (late ((base 1 4).setFld F.RED_POLICY_PROMOTE_EN 1)).pairState = 0 ∧
      (late ((base 1 4).setFld F.RED_POLICY_PROMOTE_EN 1)).bit F.RED_POLICY_PROMOTE_EN = true ∧ (late ((base 1
      4).setFld F.RED_POLICY_PROMOTE_EN 1)).carries ((late ((base 1 4).setFld F.RED_POLICY_PROMOTE_EN 1)).fld
      F.RED_CFG_PAIR_PORT) = false ∧ ((late ((base 1 4).setFld F.RED_POLICY_PROMOTE_EN 1)).lane ((late ((base 1
      4).setFld F.RED_POLICY_PROMOTE_EN 1)).fld F.RED_CFG_PAIR_PORT)).downAt + usTicks (1000 * (late ((base 1
      4).setFld F.RED_POLICY_PROMOTE_EN 1)).fld F.RED_POLICY_PROMOTE_MS) ≤ (late ((base 1 4).setFld
      F.RED_POLICY_PROMOTE_EN 1)).tick ∧ (late ((base 1 4).setFld F.RED_POLICY_PROMOTE_EN 1)).sys.change = none) ∧
    ((serving (base 1 3)).mode = 3 ∧ (serving (base 1 3)).bit F.RED_CFG_SERVE_EN = true ∧ (serving (base 1 3)).fld
      F.RED_CFG_PARTNER = 6 ∧ (serving (base 1 3)).fld F.RED_CFG_PAIR_PORT = 0) ∧
    ((serving (base 1 4)).mode ≠ 3) ∧
    ((dram (joinsCopy (base 1 4))).red.join = some joinCopy ∧ joinCopy.held = none ∧ joinCopy.work = [] ∧ 4096 % 8 = 0
      ∧ 4096 < 137438953472 ∧ joinCopy.expects 4096 8 = true ∧ (dram (joinsCopy (base 1 4))).memWaits 4096 8 true =
      false ∧ (dram (joinsCopy (base 1 4))).mayAccess Client.bulk 4096 = true) ∧
    ((captureNow (joining (serving (base 1 3)))).red.serve = some serve5 ∧ (captureNow (joining (serving (base 1
      3)))).sessionOf serve5.pairSrc = some 0 ∧ (captureNow (joining (serving (base 1 3)))).serves serve5.port
      serve5.joiner = true ∧ (captureNow (joining (serving (base 1 3)))).beat (captureNow (joining (serving (base 1
      3)))).tm.curFrame ≤ (captureNow (joining (serving (base 1 3)))).clk + (captureNow (joining (serving (base 1
      3)))).inc ∧ (captureNow (joining (serving (base 1 3)))).clk ≤ (captureNow (joining (serving (base 1 3)))).beat
      (captureNow (joining (serving (base 1 3)))).tm.curFrame + (captureNow (joining (serving (base 1 3)))).inc ∧
      BitVec.toNat (((captureNow (joining (serving (base 1 3)))).sess 0).expected - 10) < 2 ^ 31 ∧ (captureNow
      (joining (serving (base 1 3)))).opsRunning ((captureNow (joining (serving (base 1 3)))).sess 0).uid = false ∧
      serve5.captured ≠ some (captureNow (joining (serving (base 1 3)))).tm.curFrame ∧ serve5.todo = []) ∧
    ((joining (base 1 4)).red.join = some join5 ∧ (joining (base 1 4)).sessionOf join5.pairSrc = some 0 ∧ join5.held ≠
      none ∧ join5.attempts < 8 ∧ join5.work = [] ∧ (snapOk 700).crc = (snapOk 700).check ∧ (joining (base 1 4)).clk +
      usU 1000 < (joining (base 1 4)).beat ((snapOk 700).frame + 1)) ∧
    ((late (joining (base 1 4))).red.join = some join5 ∧ (late (joining (base 1 4))).sessionOf join5.pairSrc = some 0
      ∧ join5.held ≠ none ∧ join5.attempts < 8 ∧ (late (joining (base 1 4))).beat ((snapOk 700).frame + 1) ≤ (late
      (joining (base 1 4))).clk + usU 1000) ∧
    ((noSessions (joining (base 1 4))).red.join = some join5 ∧ (noSessions (joining (base 1 4))).carries ((noSessions
      (joining (base 1 4))).fld F.RED_CFG_PAIR_PORT) = false ∧ (noSessions (joining (base 1 4))).sessionOf
      join5.pairSrc = none) ∧
    ((port 0 lkActive (joining (base 1 4))).red.join = some join5 ∧ (port 0 lkActive (joining (base 1 4))).carries
      ((port 0 lkActive (joining (base 1 4))).fld F.RED_CFG_PAIR_PORT) = true) ∧
    ((training (base 1 1)).memc.training.getLsbD 3 = true ∧ (TrainResult.mk 0 1024 256).cause = 0 ∧ 0 < 6 ∧
      (TrainResult.mk 0 1024 256).dataMiB = 1024 * 2 ^ 0 ∧ (TrainResult.mk 0 1024 256).dataMiB ≤ 4 * (TrainResult.mk 0
      1024 256).sideMiB) ∧
    ((training (base 1 1)).memc.training.getLsbD 3 = true ∧ (TrainResult.mk 0 32768 8192).cause = 0 ∧ 5 < 6 ∧
      (TrainResult.mk 0 32768 8192).dataMiB = 1024 * 2 ^ 5 ∧ (TrainResult.mk 0 32768 8192).dataMiB ≤ 4 *
      (TrainResult.mk 0 32768 8192).sideMiB) ∧
    ((training (base 1 1)).memc.training.getLsbD 3 = true ∧ trainFailure (TrainResult.mk 4 1024 256) ≠ 0) ∧
    ((training (base 1 1)).memc.training.getLsbD 3 = true ∧ trainFailure (TrainResult.mk 0 1024 255) ≠ 0) ∧
    ((wiping (base 1 1)).sys.inService.getLsbD 2047 = true ∧ (wiping (base 1 1)).sys.wiped.getLsbD 2047 = false ∧
      (wiping (base 1 1)).bit (F.MEM_CH_STAT_WIPING (2047 / 512)) = true) ∧
    ((dram (base 1 2)).memc.flaws = [] ∧ (dram (base 1 2)).memc.poison = []) ∧
    ((late (scrubbing (dram (base 1 2)))).memc.flaws = [] ∧ (late (scrubbing (dram (base 1 2)))).memc.poison = [] ∧
      (late (scrubbing (dram (base 1 2)))).place 0 = Place.dram 0 ∧ (late (scrubbing (dram (base 1 2)))).bit
      F.MEM_POLICY_SCRUB_EN = true ∧ 0 % 34359738368 = (late (scrubbing (dram (base 1 2)))).memc.scrubNext.getD 0 0 ∧
      (late (scrubbing (dram (base 1 2)))).memc.scrubTick.getD 0 0 + (late (scrubbing (dram (base 1 2)))).scrubPace
      ((late (scrubbing (dram (base 1 2)))).largest / 64) ≤ (late (scrubbing (dram (base 1 2)))).tick ∧ (late
      (scrubbing (dram (base 1 2)))).sys.wiped.getLsbD (regionOf 0) = true) ∧
    ((late (scrubbing (dram (base 1 2)))).memc.flaws = [] ∧ (late (scrubbing (dram (base 1 2)))).memc.poison = [] ∧
      (late (scrubbing (dram (base 1 2)))).place 1090921693184 = Place.bank 0 ∧ (late (scrubbing (dram (base 1
      2)))).bit F.MEM_POLICY_SP_SCRUB_EN = true ∧ 1090921693184 - 1090921693184 = (late (scrubbing (dram (base 1
      2)))).memc.spNext ∧ (late (scrubbing (dram (base 1 2)))).memc.spTick + (late (scrubbing (dram (base 1
      2)))).scrubPace (48 * 65536) ≤ (late (scrubbing (dram (base 1 2)))).tick ∧ (late (scrubbing (dram (base 1
      2)))).memc.spWrites = []) ∧
    ((base 1 2).tick < (base 1 2).memc.refreshTick + 24000000) ∧
    ((late (base 1 2)).memc.refreshTick + 24000000 ≤ (late (base 1 2)).tick ∧ (∀ c < 4, (late (base 1 2)).fld
      (F.MEM_CH_STAT_REFRESH c) = (([] : List (BitVec 3)).getD c 0).toNat)) ∧
    ((late (trained (base 1 2))).memc.refreshTick + 24000000 ≤ (late (trained (base 1 2))).tick ∧ 3 < 4 ∧ (late
      (trained (base 1 2))).bit (F.MEM_CH_STAT_TRAINED 3) = true) ∧
    ((late ((base 1 2).setFld (F.MEM_BANK_STAT_CHANGING 47) 1)).bit (F.MEM_BANK_STAT_CHANGING 47) = true ∧ (late
      ((base 1 2).setFld (F.MEM_BANK_STAT_CHANGING 47) 1)).memc.bankDone.getD 47 0 ≤ (late ((base 1 2).setFld
      (F.MEM_BANK_STAT_CHANGING 47) 1)).tick) := by
  and_intros
  all_goals first
    | decide +kernel
    | rfl

/-- What O60 supposes, met clause by clause. -/
theorem witness_EventsStayInTheirBlocks :
    ((Instr.fts 0 = Instr.delayMarkTimeout 0 ∨ (∃ (l : List LaneFrame), Instr.fts 0 = Instr.linkFrame 0 l) ∨ Instr.fts
      0 = Instr.replayTimeout 0 ∨ (∃ (o : TrainObs), Instr.fts 0 = Instr.trainingAdvance 0 o) ∨ (∃ (o : TrainObs),
      Instr.fts 0 = Instr.trainingTimeout 0 o) ∨ Instr.fts 0 = Instr.forwardedClockLoss 0 ∨ Instr.fts 0 =
      Instr.lightIdleEntry 0 ∨ Instr.fts 0 = Instr.lightIdleExit 0 ∨ Instr.fts 0 = Instr.deepIdleEios 0 ∨ Instr.fts 0
      = Instr.lightIdleEios 0 ∨ Instr.fts 0 = Instr.fts 0 ∨ (∃ (l : BitVec 2) (n : BitVec 13) (x : ℤ) (d : List ℤ),
      Instr.fts 0 = Instr.adaptWindow 0 l n x d) ∨ (∃ (x : BitVec 16), Instr.fts 0 = Instr.tempCheck x) ∨ ∃ (l :
      BitVec 2) (e : EyeObs), Instr.fts 0 = Instr.recalStep 0 l e) ∧ (∃ t, exec (Instr.fts 0) (port 0 lkActive (base 1
      2)) = .next t)) ∧
    ((Instr.ethModeApply = Instr.ethModeApply ∨ (∃ (x : BitVec 32) (y : BitVec 32) (z : BitVec 48), Instr.ethModeApply
      = Instr.arpRequest 0 x y z) ∨ (∃ (v : BitVec 2) (g : BitVec 32), Instr.ethModeApply = Instr.igmpQuery 0 v g) ∨
      Instr.ethModeApply = Instr.igmpReportRepeat 0 ∨ ∃ (u : Bool) (f : FecReport), Instr.ethModeApply = Instr.linkUp
      0 u f) ∧ (∃ t, exec Instr.ethModeApply (ethDue (base 1 2)) = .next t)) ∧
    ((Instr.chainMeasure echo0 = Instr.correctionDeadline 0 0 ∨ Instr.chainMeasure echo0 = Instr.chainLoad 0 0 ∨
      Instr.chainMeasure echo0 = Instr.latchLaunch 0 0 ∨ (∃ (d : Bool), Instr.chainMeasure echo0 = Instr.blankLaunch 0
      0 d) ∨ Instr.chainMeasure echo0 = Instr.diagLaunch 0 0 ∨ Instr.chainMeasure echo0 = Instr.reportSend 5 ∨
      Instr.chainMeasure echo0 = Instr.configLoad 5 ∨ ∃ (e : ChainEcho), Instr.chainMeasure echo0 = Instr.chainMeasure
      e) ∧ (∃ t, exec (Instr.chainMeasure echo0) (base 2 5) = .next t)) := by
  and_intros
  all_goals first
    | decide +kernel
    | exact ⟨_, rfl⟩
    | simp

end Sys2Proof.Tests
end

section
/-! Reads and writes of registers (R8, R94, R104, R105): what a register's own address and the one 0x8000 above it show,
and which writes are violations. -/

namespace Sys2Proof.Machine

open Sys2Proof

theorem isShadowed_of_regFind {a : Nat} {d : RegDecl} {ix : List Nat} (h : regFind a = some (d, ix)) :
    isShadowed a = d.shadowed := by
  simp [isShadowed, h]

theorem State.readable_alias (s : State) {a : Nat} (h : a % 0x10000 < 0x8000) :
    s.readable (a + 0x8000) = s.readable a := by
  have hb : (a + 0x8000) / 0x10000 = a / 0x10000 := by omega
  simp [State.readable, hb]

/-- A write into the upper half of a block's space is a violation (R8, R94). -/
theorem State.landWord_upper (s : State) (k : Nat) {a : Nat} (v trig : Word) (h : 0x8000 ≤ a % 0x10000) :
    s.landWord k a v trig = s := by
  unfold State.landWord
  split
  · rfl
  · rw [if_pos h]

/-- Where no register lies, a write is a violation (R94). -/
theorem State.landWord_none (s : State) (k : Nat) {a : Nat} (v trig : Word) (h : regFind a = none) :
    s.landWord k a v trig = s := by
  simp [State.landWord, h]

/-- A read of a shadowed register: its live copy, or the pending one (R104, R105). -/
theorem State.readReg_shadowed (s : State) (live : Bool) {a : Nat} {d : RegDecl} {ix : List Nat}
    (hlow : a % 0x10000 < 0x8000) (hf : regFind a = some (d, ix)) (hd : d.shadowed = true) (hr : s.readable a = true) :
    s.readReg live a = (if live then s.word a else s.shadowWord a, s) := by
  simp [State.readReg, hf, hd, hr, Nat.not_le.mpr hlow]

/-- A read above a shadowed register shows its live copy (R8). -/
theorem State.readReg_alias (s : State) (live : Bool) {a : Nat} {d : RegDecl} {ix : List Nat}
    (hlow : a % 0x10000 < 0x8000) (hf : regFind a = some (d, ix)) (hd : d.shadowed = true) (hr : s.readable a = true) :
    s.readReg live (a + 0x8000) = (s.word a, s) := by
  have hup : 0x8000 ≤ (a + 0x8000) % 0x10000 := by omega
  simp [State.readReg, s.readable_alias hlow, hr, hup, isShadowed_of_regFind hf, hd]

/-- With no transaction pending and no copy brought by a join, the shadow copy is the live one (R105, R351). -/
theorem State.shadowWord_idle (s : State) (a : Nat) (hp : s.pendingTxns = []) (hs : s.txn.shadows = []) :
    s.shadowWord a = s.word a := by
  simp [State.shadowWord, hp, hs, State.word, sparseGet]

/-- Settles O8: the live copy's address is read through `readReg`'s upper half, and refused by `landWord`'s. -/
theorem liveAliasReadsTheLiveCopy : Obligations.LiveAliasReadsTheLiveCopy := by
  intro s a d ix hlow hf hd hr
  refine ⟨s.readReg_shadowed true hlow hf hd hr, fun live => s.readReg_alias live hlow hf hd hr, fun k v => ?_,
    s.readReg_shadowed false hlow hf hd hr, s.shadowWord_idle a⟩
  exact s.landWord_upper k v v (by omega)

end Sys2Proof.Machine
end

section
/-! What the media ports leave as it was (R136, R137). -/

namespace Sys2Proof.Machine

open Sys2Proof

/-- What stays when only the media ports act (R136, R137): every part of the state that is not theirs, and every register
outside the addresses `A`. -/
structure MediaKeeps (A : Nat → Prop) (s t : State) : Prop where
  mem : t.mem = s.mem
  cmd : t.cmd = s.cmd
  txn : t.txn = s.txn
  ing : t.ing = s.ing
  cmp : t.cmp = s.cmp
  lnk : t.lnk = s.lnk
  fab : t.fab = s.fab
  tile : t.tile = s.tile
  red : t.red = s.red
  err : t.err = s.err
  word : ∀ a, ¬ A a → t.word a = s.word a

namespace MediaKeeps
variable {A : Nat → Prop} {s t u : State} {α : Type}

theorem refl : MediaKeeps A s s := by constructor <;> intros <;> rfl

theorem ite {c : Prop} [Decidable c] (ht : MediaKeeps A s t) (hu : MediaKeeps A s u) :
    MediaKeeps A s (if c then t else u) := by
  split <;> assumption

theorem foldl {f : State → α → State} {l : List α} (hf : ∀ t x, MediaKeeps A s t → MediaKeeps A s (f t x))
    (h : MediaKeeps A s t) : MediaKeeps A s (l.foldl f t) := by
  induction l generalizing t with
  | nil => exact h
  | cons x l ih => exact ih (hf t x h)

theorem updEth {f} (h : MediaKeeps A s t) : MediaKeeps A s (t.updEth f) := { h with }

theorem emit {o} (h : MediaKeeps A s t) : MediaKeeps A s (t.emit o) := { h with }

theorem setFld {f v} (hf : A f.addr) (h : MediaKeeps A s t) : MediaKeeps A s (t.setFld f v) :=
  { h with word := fun a ha => (State.word_setFld_other t f v fun e => ha (by rwa [e])).trans (h.word a ha) }

theorem bump {f n} (hf : A f.addr) (h : MediaKeeps A s t) : MediaKeeps A s (t.bump f n) := h.setFld hf

/-- A membership report is counted at its port and sent. -/
theorem igmpSend {j b} (hA : ∀ m < 8, A (F.ETH_CNT_COUNT m 10).addr) (h : MediaKeeps A s t) :
    MediaKeeps A s (t.igmpSend j b) := .ite (.emit (.bump (hA _ j.port.isLt) h)) h

/-- Membership follows the wanted groups, by reports alone (R137). -/
theorem rejoin (hA : ∀ m < 8, A (F.ETH_CNT_COUNT m 10).addr) (h : MediaKeeps A s t) : MediaKeeps A s t.rejoin :=
  have report (b : Bool) (u : State) (j : Join) (hu : MediaKeeps A s u) := igmpSend (j := j) (b := b) hA hu
  .ite h (.updEth (.foldl (fun u j hu => .updEth (report true u j hu))
    (.foldl (fun u j hu => .updEth (report false u j hu)) h)))

end MediaKeeps
end Sys2Proof.Machine
end

section
/-! A write into a register of plain fields: the fields of a row of the map lie apart (R7, R94, R460). -/

namespace Sys2Proof.Machine

open Sys2Proof

/-- A row's fields lie in ascending order, apart, within a word (R7). -/
def RegDecl.tidy (d : RegDecl) : Bool :=
  decide (d.fields.Pairwise fun f g => f.lo + f.w ≤ g.lo) && d.fields.all fun f => decide (f.lo + f.w ≤ 32)

theorem regBlock_tidy : ∀ b < 18, (regBlock b).all RegDecl.tidy = true := by decide

theorem regBlock_past {b : Nat} (h : 18 ≤ b) : regBlock b = [] := by
  obtain ⟨c, rfl⟩ := Nat.exists_eq_add_of_le' h
  rfl

theorem regFind_mem {a : Nat} {d : RegDecl} {ix : List Nat} (h : regFind a = some (d, ix)) :
    d ∈ regBlock (a / 0x10000) := by
  obtain ⟨e, he, hat⟩ := List.exists_of_findSome?_eq_some h
  obtain ⟨jx, -, hj⟩ := Option.map_eq_some_iff.mp hat
  cases hj
  exact he

theorem regFind_tidy {a : Nat} {d : RegDecl} {ix : List Nat} (h : regFind a = some (d, ix)) :
    (d.fields.Pairwise fun f g => f.lo + f.w ≤ g.lo) ∧ ∀ f ∈ d.fields, f.lo + f.w ≤ 32 := by
  have hd := regFind_mem h
  have hb : a / 0x10000 < 18 := by
    by_contra hn
    rw [regBlock_past (by omega)] at hd
    cases hd
  simpa [RegDecl.tidy] using List.all_eq_true.mp (regBlock_tidy _ hb) d hd

/-- The place of a field in a register's word. -/
def FieldDecl.at (f : FieldDecl) (base : Nat) : Fld := ⟨base, f.lo, f.w⟩

/-- Writing some fields leaves those that lie apart from them. -/
theorem get_foldl_put_other (base : Nat) (w : Word) (g : Fld) (fs : List FieldDecl) (v : Word)
    (hw : ∀ f ∈ fs, f.lo + f.w ≤ 32) (ha : ∀ f ∈ fs, g.lo + g.w ≤ f.lo) :
    g.get (fs.foldl (fun w f => (f.at base).put w ((f.at base).get v)) w) = g.get w := by
  induction fs generalizing w with
  | nil => rfl
  | cons f fs ih =>
    simp only [List.mem_cons, forall_eq_or_imp] at hw ha
    exact (ih _ hw.2 ha.2).trans (Fld.get_put_other (f.at base) g hw.1 _ _ (.inl ha.1))

/-- Fields apart, each written with its bits of `v`, all hold them. -/
theorem get_foldl_put (base : Nat) (w v : Word) (fs : List FieldDecl) (hw : ∀ f ∈ fs, f.lo + f.w ≤ 32)
    (hp : fs.Pairwise fun f g => f.lo + f.w ≤ g.lo) :
    ∀ f ∈ fs, (f.at base).get (fs.foldl (fun w f => (f.at base).put w ((f.at base).get v)) w) = (f.at base).get v := by
  induction fs generalizing w with
  | nil => nofun
  | cons g fs ih =>
    simp only [List.mem_cons, forall_eq_or_imp, List.pairwise_cons] at hw hp ⊢
    refine ⟨?_, ih _ hw.2 hp.2⟩
    rw [List.foldl_cons, get_foldl_put_other base _ (g.at base) fs v hw.2 hp.1, Fld.get_put_same _ hw.1]
    exact Nat.mod_eq_of_lt (Nat.mod_lt _ (by positivity))

/-- Into a register of plain fields each field's bits are written. -/
theorem State.mergeWord_plain (s : State) (k : Nat) (ix : List Nat) {d : RegDecl} (old v trig : Word)
    (hrw : ∀ f ∈ d.fields, f.acc = .rw) :
    s.mergeWord k ix d old v trig = d.fields.foldl (fun w f => (f.at d.base).put w ((f.at d.base).get v)) old := by
  refine List.foldl_ext _ _ _ fun w f hf => ?_
  simp [hrw f hf, State.writable, FieldDecl.at]

/-- The counter that membership reports move is no plain register. -/
theorem reportCount_not_plain : ∀ m < 8,
    (regFind (F.ETH_CNT_COUNT m 10).addr).any (fun p => p.1.fields.all fun f => decide (f.acc = .rw)) = false := by
  decide

theorem State.landWord_plain (s : State) (k : Nat) {a : Nat} (v trig : Word) {d : RegDecl} {ix : List Nat}
    (hlow : a % 0x10000 < 0x8000) (hf : regFind a = some (d, ix))
    (hsp : s.writeSpecial k ix d.base a (s.mergeWord k ix d (s.word a) v trig) v trig = none) :
    s.landWord k a v trig = (s.setWord a (s.mergeWord k ix d (s.word a) v trig)).rejoin := by
  simp [State.landWord, hf, Nat.not_le.mpr hlow, hsp]

/-- Settles O11: the merged word is set, and what follows it is membership reports, counted in other registers. -/
theorem registerWriteFrame : Obligations.RegisterWriteFrame := by
  refine ⟨fun s k a v d ix hlow hf hrw hsp => ?_, fun s k a v h => ?_⟩
  · obtain ⟨hp, hw⟩ := regFind_tidy hf
    have hA (b : Nat) (hb : b = a ∨ b / 0x10000 ≠ 4) : ¬ ∃ m < 8, b = (F.ETH_CNT_COUNT m 10).addr := by
      rintro ⟨m, hm, rfl⟩
      rcases hb with rfl | hb
      · have ho := reportCount_not_plain m hm
        simp only [hf, Option.any_some] at ho
        exact absurd (List.all_eq_true.mpr fun f hfd => decide_eq_true (hrw f hfd)) (by simp [ho])
      · simp only [F.ETH_CNT_COUNT] at hb
        omega
    intro t
    let m := s.mergeWord k ix d (s.word a) v v
    have ht : t = (s.setWord a m).rejoin := s.landWord_plain k v v hlow hf (hsp s m)
    have kept : MediaKeeps (fun b => ∃ m < 8, b = (F.ETH_CNT_COUNT m 10).addr) (s.setWord a m) t :=
      ht ▸ .rejoin (fun m hm => ⟨m, hm, rfl⟩) .refl
    refine ⟨fun f hfd => ?_, fun b hba hb => ?_, kept.mem, kept.cmd, kept.txn⟩
    · have hm := get_foldl_put d.base (s.word a) v d.fields hw hp f hfd
      rw [← s.mergeWord_plain k ix _ v v hrw] at hm
      have ha : t.word a = m := (kept.word a (hA a (.inl rfl))).trans (s.word_setWord_same a m)
      exact (congrArg (f.at a).get ha).trans hm
    · exact (kept.word b (hA b (.inr hb))).trans (s.word_setWord_other m hba)
  · rcases h with h | h
    · exact s.landWord_none k v v h
    · exact s.landWord_upper k v v h

end Sys2Proof.Machine
end

section
/-! The canonical forms of memory and of the register file through every step (R7, R27, R94, R364, R460). Both forms are
kept by the few operations that write a byte of memory or a register; every other function of the model is made of these
and of updates of other fields, so each has one lemma, which follows its body. -/

namespace Sys2Proof.Machine

open Sys2Proof

/-- Memory and the register file have their canonical forms. -/
def Canon (s : State) : Prop := Memory.wf s.mem = true ∧ regsWf s.regs = true

/-- The state that an answer leaves has the canonical forms. -/
def CanonRes : Res → Prop
  | .done _ _ s => Canon s
  | .wait => True
  | .later s => Canon s

/-- A refusal, where there is one, leaves the canonical forms. -/
def CanonOpt (o : Option Res) : Prop := ∀ r, o = some r → CanonRes r

/-- A check that fails leaves the canonical forms. -/
def CanonErr {α : Type} (e : Except Res α) : Prop := ∀ r, e = .error r → CanonRes r

/-- The state that a write with an effect of its own leaves, where there is one. -/
def CanonSome (o : Option State) : Prop := ∀ t, o = some t → Canon t

variable {s t : State} {α β : Type}

namespace Canon

/-- What neither writes memory nor a register keeps their forms. -/
theorem same {clk tick sys sec tm cmd txn err fab cdc ring memc eth ing cmp lnk tile red rnd out pending}
    (h : Canon s) : Canon ⟨s.regs, s.mem, clk, tick, sys, sec, tm, cmd, txn, err, fab, cdc, ring, memc, eth, ing, cmp,
      lnk, tile, red, rnd, out, pending⟩ := h

theorem ite {c : Prop} [Decidable c] {a b : State} (ha : Canon a) (hb : Canon b) : Canon (if c then a else b) := by
  split <;> assumption

/-- A further step under a condition. -/
theorem iteOn {c : Prop} [Decidable c] {a b : State} (ha : Canon b → Canon a) (hb : Canon b) :
    Canon (if c then a else b) := .ite (ha hb) hb

theorem iteSnd {c : Prop} [Decidable c] {a b : α × State} (ha : Canon a.2) (hb : Canon b.2) :
    Canon (if c then a else b).2 := by
  split <;> assumption

theorem iteFst {c : Prop} [Decidable c] {a b : State × α} (ha : Canon a.1) (hb : Canon b.1) :
    Canon (if c then a else b).1 := by
  split <;> assumption

theorem foldl {f : State → α → State} {l : List α} (hf : ∀ t x, Canon t → Canon (f t x)) (h : Canon s) :
    Canon (l.foldl f s) := by
  induction l generalizing s with
  | nil => exact h
  | cons a l ih => exact ih (hf s a h)

theorem foldlFst {f : State × β → α → State × β} {l : List α} {p : State × β}
    (hf : ∀ t x, Canon t.1 → Canon (f t x).1) (h : Canon p.1) : Canon (l.foldl f p).1 := by
  induction l generalizing p with
  | nil => exact h
  | cons a l ih => exact ih (hf p a h)

theorem foldlSnd {f : β × State → α → β × State} {l : List α} {p : β × State}
    (hf : ∀ t x, Canon t.2 → Canon (f t x).2) (h : Canon p.2) : Canon (l.foldl f p).2 := by
  induction l generalizing p with
  | nil => exact h
  | cons a l ih => exact ih (hf p a h)

theorem ofDone {r : Res} {st : BitVec 8} {ws : List Word} (e : r = .done st ws s) (h : CanonRes r) : Canon s := by
  subst e; exact h

theorem ofLater {r : Res} (e : r = .later s) (h : CanonRes r) : Canon s := by
  subst e; exact h

theorem ofPair {p : β × State} {x : β} (e : p = (x, s)) (h : Canon p.2) : Canon s := by
  subst e; exact h

theorem setWord {a v} (h : Canon s) : Canon (s.setWord a v) := ⟨h.1, s.regsWf_setWord a v h.2⟩
theorem setByte {a v} (h : Canon s) : Canon (s.setByte a v) := ⟨State.setByte_wf a v h.1, h.2⟩
theorem eraseRange {a n} (h : Canon s) : Canon (s.eraseRange a n) := ⟨State.eraseRange_wf a n h.1, h.2⟩
theorem emit {o} (h : Canon s) : Canon (s.emit o) := h
theorem alertEdge {before} (h : Canon s) : Canon (State.alertEdge before s) := .ite h (.emit h)
theorem crossIn {k} {f : State → State} (hf : ∀ t, Canon t → Canon (f t)) (h : Canon s) :
    Canon (s.crossIn k f) := by
  rcases s.crossIn_cases k f with e | e | e | e | e <;> rw [e]
  exacts [h, hf _ h, h, hf _ h, hf _ (hf _ h)]
end Canon

namespace CanonRes
theorem done {a b} (h : Canon s) : CanonRes (.done a b s) := h
theorem later (h : Canon s) : CanonRes (.later s) := h
theorem wait : CanonRes .wait := trivial
theorem ite {c : Prop} [Decidable c] {a b : Res} (ha : CanonRes a) (hb : CanonRes b) :
    CanonRes (if c then a else b) := by
  split <;> assumption
theorem refuse {st c d more} (h : Canon s) : CanonRes (refuse s st c d more) := h
theorem okRes {p} (h : Canon s) : CanonRes (okRes s p) := h
theorem ofOpt {o : Option Res} {r : Res} (e : o = some r) (h : CanonOpt o) : CanonRes r := h r e
theorem ofErr {o : Except Res α} {r : Res} (e : o = .error r) (h : CanonErr o) : CanonRes r := h r e
end CanonRes

namespace CanonOpt
theorem none : CanonOpt none := by intro _ e; cases e
theorem some {r : Res} (h : CanonRes r) : CanonOpt (some r) := by rintro _ ⟨⟩; exact h
theorem ite {c : Prop} [Decidable c] {a b : Option Res} (ha : CanonOpt a) (hb : CanonOpt b) :
    CanonOpt (if c then a else b) := by
  split <;> assumption
theorem findSome {f : α → Option Res} {l : List α} (hf : ∀ x, CanonOpt (f x)) : CanonOpt (l.findSome? f) := by
  intro r hr
  obtain ⟨x, -, hx⟩ := List.exists_of_findSome?_eq_some hr
  exact hf x r hx
theorem map {f : α → Res} {o : Option α} (h : ∀ x, CanonRes (f x)) : CanonOpt (o.map f) := by
  cases o with
  | none => exact .none
  | some x => exact .some (h x)
end CanonOpt

namespace CanonSome
theorem none : CanonSome none := by intro _ e; cases e
theorem some (h : Canon s) : CanonSome (some s) := by rintro _ ⟨⟩; exact h
theorem ite {c : Prop} [Decidable c] {a b : Option State} (ha : CanonSome a) (hb : CanonSome b) :
    CanonSome (if c then a else b) := by
  split <;> assumption
end CanonSome

namespace CanonErr
theorem ok {x : α} : CanonErr (.ok x) := by intro _ e; cases e
theorem error {r : Res} (h : CanonRes r) : CanonErr (.error r : Except Res α) := by rintro _ ⟨⟩; exact h
theorem ite {c : Prop} [Decidable c] {a b : Except Res α} (ha : CanonErr a) (hb : CanonErr b) :
    CanonErr (if c then a else b) := by
  split <;> assumption
end CanonErr

/-! ### `Machine/Ops` -/

theorem Canon.setFld {f v} (h : Canon s) : Canon (s.setFld f v) := .setWord h
theorem Canon.setBit {f b} (h : Canon s) : Canon (s.setBit f b) := .setFld h
theorem Canon.bump {f n} (h : Canon s) : Canon (s.bump f n) := .setFld h
theorem Canon.draw (h : Canon s) : Canon s.draw.2 := h

/-! ### `Machine/FabOps` -/

theorem Canon.setPortQ {q p} (h : Canon s) : Canon (s.setPortQ q p) := h
theorem Canon.enqueue {q c own frees} (h : Canon s) : Canon (s.enqueue q c own frees) := .setPortQ h

theorem Canon.sendOn {ps c own} (h : Canon s) : Canon (s.sendOn ps c own) :=
  .foldl (fun _ _ h => .enqueue h) h

theorem Canon.holdCell {c arrival} (h : Canon s) : Canon (s.holdCell c arrival) := .bump h
theorem Canon.holdOwn {c} (h : Canon s) : Canon (s.holdOwn c) := .ite (.holdCell h) h
theorem Canon.sendOwn {c} (h : Canon s) : Canon (s.sendOwn c) := .ite (.ite h (.bump h)) (.sendOn h)

theorem Canon.originate {c} (h : Canon s) : Canon (s.originate c) :=
  .ite (.bump h) (.ite (.holdOwn (.bump h)) (.sendOwn (.bump h)))

/-! ### `Machine/Records` -/

theorem Canon.pushRec {r} (h : Canon s) : Canon (s.pushRec r) := .ite (.bump h) h
theorem Canon.updCross {k j f} (h : Canon s) : Canon (s.updCross k j f) := h
theorem Canon.crossEvent {k j addrs} (h : Canon s) : Canon (s.crossEvent k j addrs) := .updCross h

theorem Canon.alarmCell {r} (h : Canon s) : Canon (s.alarmCell r) :=
  .ite h (.ite (.bump h) (.same (.originate (.bump h))))

theorem Canon.log {n detail phase} (h : Canon s) : Canon (s.log n detail phase) :=
  .alertEdge (.iteOn (fun h => .alarmCell (.crossEvent h)) (.bump (.pushRec h)))

theorem Canon.limit {key max} (h : Canon s) : Canon (s.limit key max).2 := .iteSnd h h
theorem Canon.clearLimits (h : Canon s) : Canon s.clearLimits := h
theorem Canon.logMs {key n detail} (h : Canon s) : Canon (s.logMs key n detail) := .ite h (.log h)

/-! ### `Machine/Clock` -/

theorem Canon.updTm {f} (h : Canon s) : Canon (s.updTm f) := h

theorem Canon.selectMaster {m} (h : Canon s) : Canon (s.selectMaster m) :=
  .setFld (.setFld (.setFld (.updTm h)))

theorem Canon.enterState {st} (h : Canon s) : Canon (s.enterState st) := by
  fun_cases State.enterState
  case case1 => exact .selectMaster (.updTm (.updTm (.updTm (.setFld h))))
  case case2 => exact .updTm (.updTm (.updTm (.setFld h)))
  case case3 => exact .updTm (.updTm (.setFld h))
  case case4 => exact .updTm (.setFld h)

theorem Canon.enterHoldover {cause} (h : Canon s) : Canon (s.enterHoldover cause) :=
  .log (.ite (.updTm (.enterState h)) (.setFld (.updTm (.enterState h))))

theorem Canon.regrid (h : Canon s) : Canon s.regrid := .updTm h
theorem Canon.replan (h : Canon s) : Canon s.replan := h

theorem Canon.stepTo {t kind} (h : Canon s) : Canon (s.stepTo t kind) :=
  .log (.bump (.clearLimits (.replan (.regrid h))))

theorem Canon.timeSet (h : Canon s) : Canon s.timeSet := by
  fun_cases State.timeSet
  case case1 => exact .stepTo h
  case case2 => exact .setFld h

theorem Canon.timeAdj (h : Canon s) : Canon s.timeAdj := by
  fun_cases State.timeAdj
  case case1 => exact .stepTo h
  case case2 => exact .setFld h

theorem Canon.reacquire (h : Canon s) : Canon s.reacquire := by
  fun_cases State.reacquire
  case case1 => exact .enterState h
  case case2 => exact h
  case case3 => exact .setFld h

theorem Canon.timeSnap (h : Canon s) : Canon s.timeSnap := .foldl (fun _ _ h => .setFld h) h
theorem Canon.timeCntClr (h : Canon s) : Canon s.timeCntClr := .foldl (fun _ _ h => .setFld h) h
theorem Canon.servo {x t} (h : Canon s) : Canon (s.servo x t) := .ite h (.updTm (.setFld (.ite (.draw h) h)))

theorem Canon.sample {src x} (h : Canon s) : Canon (s.sample src x) := by
  have h3 (v w g) : Canon (((s.setFld F.TIME_OFFSET_X v).setFld F.TIME_OFFSET_SEQ_COUNT w).updTm g) :=
    .updTm (.setFld (.setFld h))
  have served (t : State) (o : Option Rat) (ht : Canon t) :
      Canon (match o with | some p => t.servo x (src - p) | none => t) := by
    split
    · exact .servo ht
    · exact ht
  fun_cases State.sample
  case case1 => exact .enterState (.updTm (served _ _ (.iteOn (fun h => .stepTo (.updTm h)) (h3 _ _ _))))
  case case2 => exact .updTm (served _ _ (.iteOn (fun h => .stepTo (.updTm h)) (h3 _ _ _)))
  case case3 => exact .enterHoldover (.updTm (.bump (h3 _ _ _)))
  case case4 => exact .updTm (.bump (h3 _ _ _))
  case case5 => exact served _ _ (.updTm (h3 _ _ _))
  case case6 => exact .enterState (.updTm (h3 _ _ _))
  case case7 | case9 => exact .updTm (h3 _ _ _)
  case case8 => exact .reacquire (.updTm (h3 _ _ _))
  case case10 => exact h3 _ _ _

theorem Canon.writeTimeSrc {v} (h : Canon s) : Canon (s.writeTimeSrc v) := by
  unfold State.writeTimeSrc
  extract_lets old want want' src s1 s2 s3 s4 s5 up s6 s7 s8
  have h5 : Canon s5 := .setFld (.setFld (.setFld (.setFld (.setFld h))))
  have h6 : Canon s6 := .ite (.updTm (.setFld h5)) h5
  have h8 : Canon s8 := .setFld (.updTm h6)
  exact .ite h6 (.ite (.enterState h8) (.ite (.enterState h8) (.enterState h8)))

theorem Canon.emitTime {frame ann egress} (h : Canon s) : Canon (s.emitTime frame ann egress) :=
  .updTm (.ite h (.foldl (fun _ _ h => .enqueue (.bump h)) h))

theorem Canon.periodicCell {tOut} (h : Canon s) : Canon (s.periodicCell tOut) := .ite (.updTm (.emitTime h)) h
theorem Canon.wingbeatCell {n} (h : Canon s) : Canon (s.wingbeatCell n) := .ite (.emitTime (.draw h)) h

theorem Canon.hearAnnounce {a} (h : Canon s) : Canon (s.hearAnnounce a) :=
  .ite (.foldl (fun _ _ h => .log h) (.same (.bump h))) (.ite (.bump h) (.bump h))

theorem Canon.checkTag {origin tag root} (h : Canon s) : Canon (s.checkTag origin tag root) :=
  .ite h (.ite (.updTm h) (.updTm (.ite (.bump h) (.log (.bump h)))))

theorem Canon.timeCell {c} (h : Canon s) : Canon (s.timeCell c) := by
  unfold State.timeCell
  extract_lets u now s1 s2 origin s3 s4 d mask annBytes fwd s5 gap s6 s7 s8 s9 o
  have h4 : Canon s4 := .foldl (fun _ _ h => .ite (.hearAnnounce h) h) (.checkTag (.bump (.updTm h)))
  have h5 : Canon s5 := .foldl (fun _ _ h => .enqueue (.bump h)) h4
  have h9 : Canon s9 := .setFld (.setFld (.updTm (.bump h5)))
  exact .ite (.bump h) (.ite h (.ite (.bump h) (.ite (.bump h) (.ite (.bump h) (.ite (.sample h9) h5)))))

theorem Canon.upstreamLoss (h : Canon s) : Canon s.upstreamLoss := by
  fun_cases State.upstreamLoss
  case case1 => exact .log (.updTm (.setFld h))
  case case2 => exact .enterHoldover h
  case case3 | case4 => exact h

theorem Canon.sourceLoss (h : Canon s) : Canon s.sourceLoss := by
  fun_cases State.sourceLoss
  case case1 => exact .selectMaster (.ite (.enterHoldover h) h)
  case case2 | case3 => exact .ite (.enterHoldover h) h
  case case4 => exact h

theorem Canon.ptpAnnounce {m} (h : Canon s) : Canon (s.ptpAnnounce m) := by
  unfold State.ptpAnnounce
  extract_lets e same s1 s2
  have h1 : Canon s1 := .updTm h
  have h2 : Canon s2 := by
    unfold s2
    split
    · split
      · split
        · exact .selectMaster h1
        · exact h1
      · exact h1
    · split
      · split
        · exact .ite h1 (.selectMaster h1)
        · exact h1
      · exact h1
  exact .ite (.ite (.setBit (.setFld h2)) h2) h

theorem Canon.ptpSample (h : Canon s) : Canon s.ptpSample := by
  fun_cases State.ptpSample
  case case1 => exact h
  case case2 => exact .sample h
  case case3 => exact h

theorem Canon.ptpSync {m} (h : Canon s) : Canon (s.ptpSync m) := .ite (.ptpSample (.updTm h)) h

theorem Canon.ptpDelayResp {m} (h : Canon s) : Canon (s.ptpDelayResp m) := by
  fun_cases State.ptpDelayResp
  case case1 => exact .ptpSample (.updTm (.updTm h))
  case case2 => exact .updTm h
  case case3 => exact h

theorem Canon.delayReq {t3s launch} (h : Canon s) : Canon (s.delayReq t3s launch) := .ite (.emit (.updTm h)) h
theorem Canon.ptpBridge {m} (h : Canon s) : Canon (s.ptpBridge m) := .ite (.emit (.bump (.draw h))) h
theorem Canon.fsyncIn (h : Canon s) : Canon s.fsyncIn := .ite (.sample (.updTm h)) h
theorem Canon.ppsIn (h : Canon s) : Canon s.ppsIn := .ite (.sample (.updTm h)) h
theorem Canon.pulseLow {fsync} (h : Canon s) : Canon (s.pulseLow fsync) := .ite (.emit h) h

theorem Canon.ppsOut (h : Canon s) : Canon s.ppsOut :=
  .ite (.ite (.updTm h) (.emit (.updTm (.pulseLow (.updTm h))))) h

theorem Canon.fsyncOut {n t} (h : Canon s) : Canon (s.fsyncOut n t) := .ite (.emit (.updTm (.pulseLow h))) h

theorem Canon.pulseEnd {fsync} (h : Canon s) : Canon (s.pulseEnd fsync) := by
  fun_cases State.pulseEnd
  case case1 => exact .emit (.updTm h)
  case case2 | case3 => exact h

/-! ### `Machine/Mem` -/

theorem Canon.accountWord {cl w} (h : Canon s) : Canon (s.accountWord cl w) := by
  have counted (pl : Place) (f : Nat → Fld) (g : Fld) :
      Canon (match pl with | .dram c => s.bump (f c) | _ => s.bump g) := by
    split <;> exact .bump h
  fun_cases State.accountWord
  case case1 | case4 => exact h
  case case2 => exact .log (.ofPair ‹_› (.limit (counted _ _ _)))
  case case3 => exact .ofPair ‹_› (.limit (counted _ _ _))
  case case5 => exact .log (.same (.ofPair ‹_› (.limit (counted _ _ _))))
  case case6 => exact .same (.ofPair ‹_› (.limit (counted _ _ _)))

theorem Canon.serve {cl a n} (h : Canon s) : Canon (s.serve cl a n) :=
  .foldl (fun _ _ h => .ite (.bump h) h) h

theorem Canon.accountWords {cl a n} (h : Canon s) : Canon (s.accountWords cl a n) :=
  .bump (.foldl (fun _ _ h => .accountWord h) h)

theorem Canon.accountRead {cl a n} (h : Canon s) : Canon (s.accountRead cl a n) := .serve (.accountWords h)

theorem Canon.tblInvalidate {t} (h : Canon s) : Canon (s.tblInvalidate t) :=
  .setFld (.setFld (.setFld (.setFld h)))

theorem Canon.noteWrite {a n} (h : Canon s) : Canon (s.noteWrite a n) := by
  fun_cases State.noteWrite
  case case1 => exact .same (.foldl (fun _ _ h => .ite (.tblInvalidate h) h) h)
  case case2 | case3 => exact .foldl (fun _ _ h => .ite (.tblInvalidate h) h) h

theorem Canon.storeWord {w d poison} (h : Canon s) : Canon (s.storeWord w d poison) := by
  fun_cases State.storeWord
  case case1 | case2 => exact .bump (.same (.foldl (fun _ _ h => .setByte h) (.noteWrite h)))
  case case3 | case4 => exact .same (.foldl (fun _ _ h => .setByte h) (.noteWrite h))

theorem Canon.dropScrub {cl w} (h : Canon s) : Canon (s.dropScrub cl w) := by
  fun_cases State.dropScrub
  case case1 => exact h
  case case2 => exact .bump h
  case case3 => exact .bump (.bump h)

theorem Canon.putWord {cl w d poison} (h : Canon s) : Canon (s.putWord cl w d poison) := by
  fun_cases State.putWord
  case case1 => exact .iteOn .bump (.dropScrub h)
  case case2 => exact .same (.storeWord (.iteOn .bump (.dropScrub h)))
  case case3 => exact .storeWord (.dropScrub h)

theorem Canon.writeWord {cl w bs} (h : Canon s) : Canon (s.writeWord cl w bs) :=
  .ite h (.ite (.putWord h) (.putWord (.accountWord h)))

theorem Canon.putBytes {cl a bs} (h : Canon s) : Canon (s.putBytes cl a bs) :=
  .ite h (.foldl (fun _ _ h => .writeWord h) h)

theorem Canon.serveBytes {cl as} (h : Canon s) : Canon (s.serveBytes cl as) :=
  .foldl (fun _ _ h => .serve h) h

theorem Canon.writeBytes {cl a bs} (h : Canon s) : Canon (s.writeBytes cl a bs) := .serve (.putBytes h)

theorem Canon.copyWord {rd wr src dst} (h : Canon s) : Canon (s.copyWord rd wr src dst).2 :=
  .iteSnd (.accountWord h) (.putWord (.accountWord h))

theorem Canon.trainingDone {c r} (h : Canon s) : Canon (s.trainingDone c r) := by
  unfold State.trainingDone
  extract_lets _ s1 cause s2 s3 s4 s5 s6 s7 ks _ s8 s9 v s10
  have h1 : Canon s1 := h
  have h10 : Canon s10 := .setFld (.setFld (.setFld h1))
  exact .ite (.ite (.same (.setFld (.setFld (.setFld (.setFld (.setFld (.setFld h1))))))) (.log h10)) h

theorem Canon.regionWiped {k} (h : Canon s) : Canon (s.regionWiped k) :=
  .ite (.iteOn .setFld (.same (.eraseRange (.noteWrite h)))) h

theorem Canon.endPass (h : Canon s) : Canon s.endPass := .ite (.bump h) h

theorem Canon.setInService {c on} (h : Canon s) : Canon (s.setInService c on) :=
  .ite h (.ite (.ite h h) (.ite (.endPass (.eraseRange (.noteWrite (.same (.setFld (.setFld h)))))) h))

theorem Canon.refreshCheck {rates} (h : Canon s) : Canon (s.refreshCheck rates) :=
  .ite h (.foldl (fun _ _ h => .ite (.log (.crossEvent (.setFld h))) h) h)

theorem Canon.scrubWord {w} (h : Canon s) : Canon (s.scrubWord w) := by
  fun_cases State.scrubWord
  case case1 => exact .bump h
  case case2 => exact .bump (.accountWord (.bump h))
  case case3 => exact .same (.accountWord (.bump h))

theorem Canon.scrubFlush (h : Canon s) : Canon s.scrubFlush := by
  refine .ite h (.foldl (fun _ _ h => .serve h) (.foldl (fun t e ht => .ite (.storeWord ?_) ht) (.same h)))
  split <;> exact .bump ht

theorem Canon.scrubStep {a} (h : Canon s) : Canon (s.scrubStep a) := by
  unfold State.scrubStep
  extract_lets off big off'
  split
  · extract_lets s1 _ s2 s3
    have h2 : Canon s2 := .same (.ite (.serve (.bump (.foldl (fun _ _ h => .scrubWord h) h))) h)
    exact .ite (.endPass (.ite (.setFld h2) h2)) h
  · extract_lets idle s4 _
    exact .ite (.same (.ite (.scrubWord h) h)) h
  · exact h

theorem Canon.giveBank {b o} (h : Canon s) : Canon (s.giveBank b o) := .ite h (.setFld (.setFld h))
theorem Canon.putBankOwner {b o} (h : Canon s) : Canon (s.putBankOwner b o) := .giveBank (.setFld (.setFld h))
theorem Canon.setBankOwner {b o} (h : Canon s) : Canon (s.setBankOwner b o) := .ite h (.putBankOwner h)
theorem Canon.bankDrained {b} (h : Canon s) : Canon (s.bankDrained b) := .setFld h

theorem Canon.scrambleBank {b} (h : Canon s) : Canon (s.scrambleBank b) :=
  .foldl (fun _ _ h => .same (.foldl (fun _ _ h => .setByte h) h)) (.draw h)

theorem Canon.setBankPwr {b p} (h : Canon s) : Canon (s.setBankPwr b p) := by
  unfold State.setBankPwr
  extract_lets a old s1 wipe s2 _ s3 s4
  have h1 : Canon s1 := .setFld h
  have h4 : Canon s4 := .setFld (.setFld h1)
  exact .ite h (.ite (.same (.setFld h1)) (.ite (.eraseRange h4) (.ite (.scrambleBank h4) h4)))

theorem Canon.bankPowered {b} (h : Canon s) : Canon (s.bankPowered b) := .ite (.setFld (.setFld h)) h

theorem Canon.banksApplied {addrs} (h : Canon s) : Canon (s.banksApplied addrs) :=
  .foldl (fun _ _ h => .ite (.giveBank (.setFld h)) h) h

/-! ### `Machine/Ingest` -/

theorem Canon.frameIn {m n} (h : Canon s) : Canon (s.frameIn m n) := .ite (.bump h) h
theorem Canon.ptpFrames {port n} (h : Canon s) : Canon (s.ptpFrames port n) := .ite h (.frameIn h)
theorem Canon.emitUdp {o} (h : Canon s) : Canon (s.emitUdp o) := .ite (.emit h) h
theorem Canon.updEth {f} (h : Canon s) : Canon (s.updEth f) := h

theorem Canon.linkUp {m up fec} (h : Canon s) : Canon (s.linkUp m up fec) :=
  .setBit (.setBit (.ite (.bump h) h))

theorem Canon.codewords {f n} (h : Canon s) : Canon (s.codewords f n) := .ite h (.crossEvent (.bump h))

theorem Canon.fecCount {m fixed bad} (h : Canon s) : Canon (s.fecCount m fixed bad) :=
  .ite (.codewords (.codewords h)) h

theorem Canon.restartPorts {ms} (h : Canon s) : Canon (s.restartPorts ms) :=
  .foldl (fun _ _ h => .setBit (.linkUp h)) h

theorem Canon.writeEthMode {fec v} (h : Canon s) : Canon (s.writeEthMode fec v) :=
  .updEth (.ite (.setWord h) (.setFld (.setFld (.setFld h))))

theorem Canon.igmpSend {j isJoin} (h : Canon s) : Canon (s.igmpSend j isJoin) := .ite (.emit (.bump h)) h

theorem Canon.rejoin (h : Canon s) : Canon s.rejoin :=
  .ite h (.updEth (.foldl (fun _ _ h => .updEth (.igmpSend h)) (.foldl (fun _ _ h => .updEth (.igmpSend h)) h)))

theorem Canon.reportAfresh {m} (h : Canon s) : Canon (s.reportAfresh m) :=
  .ite (.updEth (.foldl (fun _ _ h => .igmpSend h) h)) h

theorem Canon.igmpRepeat {m} (h : Canon s) : Canon (s.igmpRepeat m) :=
  .updEth (.foldl (fun _ _ h => .igmpSend h) h)

theorem Canon.igmpQuery {m version group} (h : Canon s) : Canon (s.igmpQuery m version group) :=
  .ite h (.ite (.foldl (fun _ _ h => .igmpSend h) h) (.ite (.bump h) h))

theorem Canon.arp {m target sender mac} (h : Canon s) : Canon (s.arp m target sender mac) := .ite (.emit h) h

theorem Canon.ethForce {x} (h : Canon s) : Canon (s.ethForce x) :=
  .ite (.restartPorts (.updEth h)) (.restartPorts (.updEth h))

theorem Canon.ethApply (h : Canon s) : Canon s.ethApply :=
  .ite h (.rejoin (.foldl (fun _ _ h => .ethForce h) (.updEth h)))

theorem Canon.updStream {k f} (h : Canon s) : Canon (s.updStream k f) := h
theorem Canon.updBuf {k b f} (h : Canon s) : Canon (s.updBuf k b f) := .updStream h
theorem Canon.ingCount {k i n} (h : Canon s) : Canon (s.ingCount k i n) := .updStream h
theorem Canon.putDescriptor {k b} (h : Canon s) : Canon (s.putDescriptor k b) := .writeBytes h

theorem Canon.closeBuf {k b} (h : Canon s) : Canon (s.closeBuf k b) :=
  .putDescriptor (.iteOn .ingCount (.iteOn .setFld (.ingCount (.updBuf h))))

theorem Canon.bufDeadline {k b} (h : Canon s) : Canon (s.bufDeadline k b) := .ite (.closeBuf h) h
theorem Canon.noteOverrun {k ts} (h : Canon s) : Canon (s.noteOverrun k ts) := .updStream h

theorem Canon.openBuf {k ts} (h : Canon s) : Canon (s.openBuf k ts).2 := by
  unfold State.openBuf
  extract_lets opened s1
  have h1 : Canon s1 := by
    unfold s1
    split
    · split
      · exact .closeBuf (.ingCount h)
      · exact h
    · exact h
  split
  · extract_lets s2
    exact .putDescriptor (.updBuf h1)
  · exact .noteOverrun (.ingCount h1)

theorem Canon.putSrd {k b d} (h : Canon s) : Canon (s.putSrd k b d) := .updBuf (.writeBytes h)

theorem Canon.storePacket {k p} (h : Canon s) : Canon (s.storePacket k p) := by
  fun_cases State.storePacket
  case case1 => exact .ingCount h
  case case2 => exact .iteOn .closeBuf (.updBuf (.foldl (fun _ _ h => .putSrd h) h))
  case case3 => exact .ingCount h
  case case4 => exact h
  case case5 => exact .iteOn .closeBuf (.updBuf (.foldl (fun _ _ h => .putSrd h) (.ofPair ‹_› (.openBuf h))))
  case case6 => exact .ofPair ‹_› (.openBuf h)
  case case7 => exact .ingCount h

theorem Canon.mergeSeq {k e} (h : Canon s) : Canon (s.mergeSeq k e).2 := by
  fun_cases State.mergeSeq
  case case1 => exact .updStream h
  case case2 => exact .updStream (.ingCount h)
  case case3 | case4 => exact .ingCount h
  case case5 => exact .updStream h

theorem Canon.pathSeq {k pathB e} (h : Canon s) : Canon (s.pathSeq k pathB e) :=
  .ite (.updStream (.ingCount (.ingCount h))) (.setFld (.updStream (.ingCount (.ingCount h))))

theorem Canon.rtpPacket {p} (h : Canon s) : Canon (s.rtpPacket p) := by
  fun_cases State.rtpPacket
  case case1 => exact h
  case case2 => exact .crossEvent (.bump h)
  case case3 | case4 | case5 | case6 | case7 => exact .bump (.bump h)
  case case8 => exact .ingCount (.bump h)
  case case9 => exact .storePacket (.ofPair ‹_› (.mergeSeq (.pathSeq (.ite (.log (.updStream (.bump h))) (.bump
      h)))))
  case case10 => exact .ofPair ‹_› (.mergeSeq (.pathSeq (.ite (.log (.updStream (.bump h))) (.bump h))))

theorem Canon.streamLost {k} (h : Canon s) : Canon (s.streamLost k) := .ite (.log (.updStream h)) h
theorem Canon.restartStream {k} (h : Canon s) : Canon (s.restartStream k) := .updStream h

theorem Canon.streamsAfter {before} (h : Canon s) : Canon (State.streamsAfter before s) :=
  .foldl (fun _ _ h => .restartStream h) h

theorem Canon.repeatCase {k n cur put} (hput : ∀ x0 x1, Canon x0 → Canon (put x0 x1)) (h : Canon s) : Canon
    (State.selectFor.repeatCase k n s cur put).2 :=
  hput _ _ (.ite (.setFld h) h)

theorem Canon.selectFor {v k n} (h : Canon s) : Canon (s.selectFor v k n).2 := by
  fun_cases State.selectFor
  case case1 => exact .repeatCase (fun _ _ h => h) h
  case case2 => exact h
  case case3 => exact .repeatCase (fun _ _ h => h) h

/-! ### `Machine/OpSlot` -/

theorem Canon.updCmd {f} (h : Canon s) : Canon (s.updCmd f) := h
theorem Canon.updSess {k f} (h : Canon s) : Canon (s.updSess k f) := .updCmd h
theorem Canon.setOp {k o} (h : Canon s) : Canon (s.setOp k o) := .updCmd h
theorem CanonRes.opFull (h : Canon s) : CanonRes s.opFull := .refuse h
theorem Canon.startOp {w k opcode kind} (h : Canon s) : Canon (s.startOp w k opcode kind) := .setOp h

theorem CanonRes.runOp {w opcode kind after} (hafter : ∀ x0 x1, Canon x1 → Canon (after x0 x1)) (h : Canon s) :
    CanonRes (s.runOp w opcode kind after) := by
  fun_cases State.runOp
  case case1 => exact .opFull h
  case case2 => exact .done (hafter _ _ (.startOp h))

theorem Canon.freeOp {k} (h : Canon s) : Canon (s.freeOp k) := .setOp h

theorem Canon.finishOp {k final result} (h : Canon s) : Canon (s.finishOp k final result) :=
  .ite (.freeOp h) (.setOp h)

theorem Canon.failOp {k final code detail more} (h : Canon s) : Canon (s.failOp k final code detail more) :=
  .finishOp h

theorem CanonRes.opStatus {mask} (h : Canon s) : CanonRes (s.opStatus mask) := .okRes h

theorem CanonRes.opResult {w k gen offset count} (h : Canon s) : CanonRes (s.opResult w k gen offset count) :=
  .ite (.done h) (.ite (.refuse h) (.ite (.refuse h) (.ite (.refuse h) (.done h))))

theorem CanonRes.opRelease {w k gen} (h : Canon s) : CanonRes (s.opRelease w k gen) :=
  .ite (.done h) (.ite (.refuse h) (.ite (.refuse h) (.okRes (.freeOp h))))

theorem Canon.endOps {uid} (h : Canon s) : Canon (s.endOps uid) := .updCmd h

/-! ### `Machine/Err` -/

theorem CanonRes.errRead {first count} (h : Canon s) : CanonRes (s.errRead first count) :=
  .ite (.refuse h) (.okRes h)

theorem CanonRes.errClear {upto} (h : Canon s) : CanonRes (s.errClear upto) := .okRes (.alertEdge h)

theorem CanonRes.diagCounters {block clear} (h : Canon s) : CanonRes (s.diagCounters block clear) := by
  fun_cases State.diagCounters
  case case1 => exact .okRes (.ite h h)
  case case2 => exact .refuse h
  case case3 => exact .okRes (.foldl (fun _ _ h => .ite (.setWord h) h) h)

theorem Canon.updSave {f} (h : Canon s) : Canon (s.updSave f) := h
theorem Canon.restoreLog (h : Canon s) : Canon s.restoreLog := .ite (.alertEdge (.bump h)) (.alertEdge h)
theorem Canon.consumeLog (h : Canon s) : Canon s.consumeLog := .updSave h

/-! ### `Machine/Lane` -/

theorem Canon.updLane {q f} (h : Canon s) : Canon (s.updLane q f) := h
theorem Canon.updPortQ {q f} (h : Canon s) : Canon (s.updPortQ q f) := .setPortQ h
theorem Canon.setLnk {q st} (h : Canon s) : Canon (s.setLnk q st) := .updLane (.setFld h)
theorem Canon.freeCredits {q c} (h : Canon s) : Canon (s.freeCredits q c) := .ite h (.updPortQ h)

theorem Canon.dropRaster {q} (h : Canon s) : Canon (s.dropRaster q) := by
  unfold State.dropRaster
  extract_lets p gone
  refine .updPortQ (.foldl (fun _ _ ht => ?_) h)
  split
  · exact .freeCredits ht
  · exact ht

theorem Canon.portDown {q st} (h : Canon s) : Canon (s.portDown q st) := by
  unfold State.portDown
  extract_lets gone s1 s2 _ s3 s4 s5 _
  have h1 : Canon s1 := by
    unfold s1
    refine .foldl (fun _ _ ht => ?_) h
    split
    · exact .freeCredits ht
    · exact ht
  have h4 : Canon s4 := .setFld (.setFld (.setPortQ (.bump h1)))
  exact .setLnk (.updLane (.ite (.setFld h4) h4))

theorem Canon.storeCal {q bs} (h : Canon s) : Canon (s.storeCal q bs) := .setFld h

theorem Canon.loadTaps {q} (h : Canon s) : Canon (s.loadTaps q) :=
  .foldl (fun _ _ h => .ite (.setWord (.setWord h)) (.setWord h)) (.setBit h)

theorem Canon.calIdle (h : Canon s) : Canon s.calIdle := .setFld h

theorem Canon.abortCal {q} (h : Canon s) : Canon (s.abortCal q) :=
  .ite (.ite (.ite (.same (.updLane h)) (.setFld (.calIdle (.same (.updLane h))))) (.updLane h)) h

theorem Canon.leaveActive {q cause} (h : Canon s) : Canon (s.leaveActive q cause) := by
  unfold State.leaveActive
  extract_lets s1 width s2 s3 s4 s5 s6 s7
  have h2 : Canon s2 := .setFld (.ite (.loadTaps (.abortCal h)) h)
  exact .ite (.log (.setLnk (.updLane (.updTm (.updPortQ (.bump (.bump h2))))))) (.portDown (.updTm h2))

theorem Canon.startReplay {q k} (h : Canon s) : Canon (s.startReplay q k) :=
  .ite h (.iteOn .leaveActive (.updLane (.bump h)))

theorem Canon.replayTimeout {q} (h : Canon s) : Canon (s.replayTimeout q) := .ite (.startReplay h) h
theorem Canon.takeAck {q a} (h : Canon s) : Canon (s.takeAck q a) := .ite h (.updLane h)
theorem Canon.refreshLcb {q} (h : Canon s) : Canon (s.refreshLcb q) := .updLane h

theorem Canon.sendFrame {q} (h : Canon s) : Canon (s.sendFrame q) :=
  .ite (.ite (.startReplay h) h) (.bump (.updLane (.ite (.startReplay h) h)))

theorem Canon.sendDue (h : Canon s) : Canon s.sendDue :=
  .foldl (fun _ _ h => .ite (.updLane (.sendFrame h)) h) h

theorem Canon.markTimeout {q} (h : Canon s) : Canon (s.markTimeout q) := by
  fun_cases State.markTimeout
  case case1 => exact .updLane h
  case case2 => exact h

theorem Canon.linkMeasure {q roundTrip turn} (h : Canon s) : Canon (s.linkMeasure q roundTrip turn) :=
  .ite (.iteOn .log (.setFld (.updTm (.updLane h)))) h

theorem Canon.endChecks {q} (h : Canon s) : Canon (s.endChecks q) := .foldl (fun _ _ h => .setFld h) h
theorem Canon.countIdle {q r} (h : Canon s) : Canon (s.countIdle q r) := .setBit (.updLane h)
theorem Canon.blame {q lane} (h : Canon s) : Canon (s.blame q lane).2 := .updLane (.crossEvent h)

theorem Canon.cellFail {q c k} (h : Canon s) : Canon (s.cellFail q c k) := by
  fun_cases State.cellFail
  case case1 => exact .logMs (.bump h)
  case case2 => exact .log (.bump h)
  case case3 => exact .logMs (.bump h)
  case case4 | case5 => exact .bump h

theorem Canon.takeSlots {q slots} (h : Canon s) : Canon (s.takeSlots q slots) := by
  unfold State.takeSlots
  extract_lets r s1
  refine .foldl (fun _ _ ht => ?_) (.updLane h)
  split
  · exact .emit ht
  · exact .cellFail ht

theorem Canon.serviceFrame {q lanes} (h : Canon s) : Canon (s.serviceFrame q lanes) := by
  fun_cases State.serviceFrame
  case case1 => exact h
  case case2 => exact .emit h
  case case3 => exact .foldl (fun _ _ h => .ite (.setFld (.setBit (.updLane h))) h) h
  case case4 => exact h

theorem Canon.judgeFrame {q lanes} (h : Canon s) : Canon (s.judgeFrame q lanes) := by
  unfold State.judgeFrame
  extract_lets act rx fb good s1 s2 blamed all
  have h1 : Canon s1 := .foldl (fun _ _ h => .ite (.foldl (fun _ _ h => .crossEvent h) h) (.bump (.foldl
      (fun _ _ h => .crossEvent h) h))) h
  split
  · exact .ite (.serviceFrame h) h
  · split
    · exact .ite (.leaveActive h) h
    · split
      · exact .ite (.leaveActive h) h
      · split
        · rename_i e3
          extract_lets fails s4 next ahead s5 dup data s6 s7 s8 s9 s10
          have h4 : Canon s4 := .updLane (.ofPair e3 (.foldlSnd (fun _ _ h => .blame h) (.bump h1)))
          have h5 : Canon s5 := .foldl (fun _ _ h => .countIdle h) h4
          have h7 : Canon s7 := .updLane (.bump h5)
          have h8 : Canon s8 := .ite (.ite (.updLane (.bump h5)) (.takeSlots (.ite h7 (.emit h7)))) h4
          have h9 : Canon s9 := by
            unfold s9
            split
            · extract_lets s12 s13 s14
              have h12 : Canon s12 := .takeAck h8
              have h13 : Canon s13 := .ite (.startReplay h12) h12
              have h14 : Canon s14 := .ite (.updLane h13) h13
              exact .ite (.ite (.updLane h14) h14) h8
            · exact h8
          have h10 : Canon s10 := .refreshLcb h9
          exact .ite h10 <| .ite (.leaveActive (.updLane h10)) <| .ite (.leaveActive h10) <| .ite (.leaveActive h10)
              <| .ite (.leaveActive h10) h10

theorem Canon.linkFrame {q lanes} (h : Canon s) : Canon (s.linkFrame q lanes) := .judgeFrame h

theorem Canon.wander {q l quantity} (h : Canon s) : Canon (s.wander q l quantity) :=
  .ite (.setFld h) (.log (.bump (.updLane (.setFld h))))

theorem Canon.putTaps {q l ctle dfe} (h : Canon s) : Canon (s.putTaps q l ctle dfe) := by
  fun_cases State.putTaps
  case case1 => exact .wander (.foldl (fun _ _ h => .setFld h) (.setFld h))
  case case2 => exact .updLane (.setFld (.foldl (fun _ _ h => .setFld h) (.setFld h)))

theorem Canon.dropLanes {q keep cause} (h : Canon s) : Canon (s.dropLanes q keep cause) :=
  .ite h (.updLane (.setFld h))

theorem Canon.resumeAt {q a} (h : Canon s) : Canon (s.resumeAt q a) := .ite (.takeAck h) (.updLane h)

theorem Canon.enterActive {q lanes partnerNext} (h : Canon s) : Canon (s.enterActive q lanes partnerNext) := by
  unfold State.enterActive
  extract_lets l n s1 s2 s3 s4 s5 s6
  have h2 : Canon s2 := .setFld (.setFld (.ite (.updPortQ h) (.updPortQ h)))
  exact .setLnk (.updTm (.updLane (.updLane (.resumeAt (.ite (.log (.bump h2)) h2)))))

theorem Canon.configEnd {q} (h : Canon s) : Canon (s.configEnd q) := by
  fun_cases State.configEnd
  case case1 => exact .updLane (.enterActive h)
  case case2 | case3 => exact .portDown (.setFld h)

theorem Canon.config {q o} (h : Canon s) : Canon (s.config q o) := by
  fun_cases State.config
  case case1 => exact .configEnd (.updLane h)
  case case2 => exact .updLane h
  case case3 => exact h

theorem Canon.noteObs {q o} (h : Canon s) : Canon (s.noteObs q o) :=
  .foldl (fun _ _ h => .setFld (.setFld (.setFld (.setFld h)))) h

theorem Canon.equalize {q o} (h : Canon s) : Canon (s.equalize q o) := by
  unfold State.equalize
  refine .foldl (fun _ _ ht => ?_) (.noteObs h)
  split
  · exact .putTaps ht
  · exact ht

theorem Canon.trainingAdvance {q o} (h : Canon s) : Canon (s.trainingAdvance q o) := by
  fun_cases State.trainingAdvance
  case case1 => exact .setLnk (.updLane h)
  case case2 => exact h
  case case3 => exact .setLnk (.setFld (.updLane (.setFld (.setFld h))))
  case case4 => exact h
  case case5 => exact .setLnk (.ite (.setFld h) (.loadTaps (.setFld h)))
  case case6 => exact .setFld h
  case case7 => exact .setLnk (.updLane (.equalize h))
  case case8 => exact .updLane (.equalize h)
  case case9 => exact .setLnk (.noteObs h)
  case case10 => exact h
  case case11 => exact .config h
  case case12 => exact .setLnk (.updPortQ (.setFld h))
  case case13 | case14 => exact h

theorem Canon.trainingTimeout {q o} (h : Canon s) : Canon (s.trainingTimeout q o) := by
  fun_cases State.trainingTimeout
  case case1 => exact .setFld h
  case case2 => exact h
  case case3 => exact .setLnk (.dropLanes h)
  case case4 => exact h
  case case5 => exact .setLnk (.dropLanes (.equalize h))
  case case6 => exact h
  case case7 => exact .setLnk (.dropLanes h)
  case case8 => exact h
  case case9 => exact .portDown (.setFld h)
  case case10 | case11 => exact h

theorem Canon.hostRetrain {q} (h : Canon s) : Canon (s.hostRetrain q) :=
  .ite (.leaveActive (.updLane h)) (.ite (.setLnk (.updLane (.updLane h))) (.updLane h))

theorem Canon.lightEntry {q} (h : Canon s) : Canon (s.lightEntry q) := .ite (.emit (.bump (.setLnk h))) h
theorem Canon.lightExit {q} (h : Canon s) : Canon (s.lightExit q) := .ite (.emit (.updLane (.setLnk h))) h
theorem Canon.lightEios {q} (h : Canon s) : Canon (s.lightEios q) := .ite (.updLane h) h
theorem Canon.fts {q} (h : Canon s) : Canon (s.fts q) := .ite (.updLane h) h
theorem Canon.eiosOut {q} (h : Canon s) : Canon (s.eiosOut q) := .ite h (.emit h)

theorem Canon.enterDeep {q} (h : Canon s) : Canon (s.enterDeep q) :=
  .ite (.emit (.setLnk (.setFld (.setFld (.updTm (.ite (.loadTaps (.abortCal h)) h)))))) h

theorem Canon.writeDeep {q on} (h : Canon s) : Canon (s.writeDeep q on) :=
  .ite (.enterDeep (.setBit h)) (.ite (.updLane (.setBit h)) (.setBit h))

theorem Canon.adaptWindow {q l transitions ctle dfe} (h : Canon s) :
    Canon (s.adaptWindow q l transitions ctle dfe) :=
  .ite h (.ite h (.ite (.bump h) (.putTaps h)))

theorem Canon.startCal {q} (h : Canon s) : Canon (s.startCal q) := .updLane h

theorem Canon.tempCheck {temp} (h : Canon s) : Canon (s.tempCheck temp) :=
  .ite h (.ite (.setFld (.same (.foldl (fun _ _ h => .startCal h) (.setFld h)))) (.setFld h))

theorem Canon.moveCtle {q l want} (h : Canon s) : Canon (s.moveCtle q l want) :=
  .ite (.wander (.setFld h)) (.setFld h)

theorem Canon.calStep {q l c eye} (h : Canon s) : Canon (s.calStep q l c eye).2 := by
  unfold State.calStep
  split
  · exact .iteSnd (.moveCtle h) (.iteSnd (.moveCtle (.ite (.wander h) h)) (.setFld (.ite (.wander h) h)))
  · exact .moveCtle h
  · exact .moveCtle h
  · exact .moveCtle h
  · exact .iteSnd h (.moveCtle h)
  · exact h

theorem Canon.restoreStep {q l c} (h : Canon s) : Canon (s.restoreStep q l c).2 :=
  .iteSnd (.setFld h) (.iteSnd (.setFld h) h)

theorem Canon.calRunEnd (h : Canon s) : Canon s.calRunEnd := by
  unfold State.calRunEnd
  extract_lets ports fail abort _ s1 _ s2 s3 _ s4 s5
  have h1 : Canon s1 := .calIdle h
  have h4 : Canon s4 := .same (.setFld (.setFld h1))
  have h5 : Canon s5 := .ite (.foldl (fun _ _ h => .storeCal h) h4) h4
  exact .ite (.setFld h1) (.ite (.setFld (.same h1)) (.log h5))

/-- One step of a lane's calibration, or of giving up on it. -/
theorem Canon.recalStep {q l eye} (h : Canon s) : Canon (s.recalStep q l eye) := by
  unfold State.recalStep
  split
  · exact h
  extract_lets s1 s2
  have h1 : Canon s1 := .updLane h
  have h2 : Canon s2 := .ite (.setFld (.setFld h1)) h1
  split
  · exact h2
  extract_lets c
  split
  have h3 := Canon.ofPair ‹_› (.iteSnd (.setFld (.restoreStep h2)) (by
    split
    have h4 := Canon.ofPair ‹_› (.calStep h2)
    split
    · exact .log (.same h4)
    · exact h4))
  extract_lets ls s4
  exact .ite (.ite (.updLane h3) (.calRunEnd (.updLane h3))) (.updLane h3)

/-! ### `Machine/LinkOps` -/

theorem CanonOpt.calRefusal {ports} (h : Canon s) : CanonOpt (s.calRefusal ports) :=
  .findSome fun _ => .ite (.some (.refuse h)) (.ite (.some (.refuse h)) .none)

theorem Canon.holdCal {ports k} (h : Canon s) : Canon (s.holdCal ports k) :=
  .foldl (fun _ _ h => .updLane h) h

theorem Canon.beginCal {q full} (h : Canon s) : Canon (s.beginCal q full) :=
  .iteOn .updLane (.updLane (.startCal h))

theorem CanonRes.calRun {w ports full} (h : Canon s) : CanonRes (s.calRun w ports full) := by
  fun_cases State.calRun
  case case1 => exact .refuse h
  case case2 => exact .ofOpt ‹_› (.calRefusal h)
  case case3 => exact .runOp (fun _ _ h => .setFld (.foldl (fun _ _ h => .beginCal h) (.holdCal h))) h

theorem Canon.sweepEnd {r} (h : Canon s) : Canon (s.sweepEnd r) := by
  unfold State.sweepEnd
  extract_lets q
  split
  · exact h
  · refine .foldl (fun _ _ ht => ?_) h
    extract_lets _
    split
    · split
      · exact .log (.updLane ht)
      · exact .setWord (.setWord ht)
    · exact ht

theorem Canon.calRunDone {k found} (h : Canon s) : Canon (s.calRunDone k found) := by
  unfold State.calRunDone
  split
  · extract_lets qs s1 outs failed last s2 s3 now _ s4 s5 s6 words
    have h1 : Canon s1 := .ite (.foldl (fun _ _ h => .sweepEnd h) h) h
    have h3 : Canon s3 := .setFld (.calIdle (.foldl (fun _ _ h => .updLane h) (.holdCal h1)))
    have h4 : Canon s4 := .setFld (.same h3)
    have h5 : Canon s5 := .ite (.foldl (fun _ _ h => .storeCal h) h4) h4
    have h6 : Canon s6 := .ite (.same h3) (.ite (.log h5) h3)
    split
    · clear_value failed
      split
      · exact .failOp h6
      · exact .finishOp h6
    · exact h
  · exact h

theorem CanonRes.calStore {w ports} (h : Canon s) : CanonRes (s.calStore w ports) := by
  fun_cases State.calStore
  case case1 => exact .ofOpt ‹_› (.calRefusal h)
  case case2 => exact .runOp (fun _ _ h => .holdCal h) h

theorem Canon.calStoreDone {k ok} (h : Canon s) : Canon (s.calStoreDone k ok) := by
  fun_cases State.calStoreDone
  case case1 => exact .failOp (.holdCal (.foldl (fun _ _ h => .storeCal h) h))
  case case2 => exact .finishOp (.holdCal (.foldl (fun _ _ h => .storeCal h) h))
  case case3 => exact h

theorem CanonOpt.patRefused {pattern} (h : Canon s) : CanonOpt (patRefused s pattern) :=
  .ite (.some (.refuse h)) .none

theorem CanonRes.patternRun {q lanes pattern action arg} (h : Canon s) : CanonRes (s.patternRun q lanes pattern
    action arg) := by
  unfold State.patternRun
  extract_lets s1 s2 s3
  have h1 : Canon s1 := .endChecks (.abortCal h)
  split
  · exact .refuse h
  · split
    · exact .ofOpt ‹_› (.patRefused h)
    · exact .okRes (.setLnk (.updLane (.updTm (.ite (.foldl (fun _ _ h => .setWord h) h1) h1))))

theorem CanonRes.patternStop {q pattern} (h : Canon s) : CanonRes (s.patternStop q pattern) := by
  fun_cases State.patternStop
  case case1 => exact .refuse h
  case case2 => exact .ofOpt ‹_› (.patRefused h)
  case case3 => exact .okRes h
  case case4 => exact .okRes (.setLnk (.updLane (.endChecks h)))

theorem CanonRes.patternInject {q lanes pattern lcb arg} (h : Canon s) : CanonRes (s.patternInject q lanes pattern
    lcb arg) := by
  fun_cases State.patternInject
  case case1 => exact .refuse h
  case case2 => exact .ofOpt ‹_› (.patRefused h)
  case case3 => exact .okRes (.updLane h)

/-! ### `Machine/Scale` -/

theorem Canon.updScaler {k f} (h : Canon s) : Canon (s.updScaler k f) := h

theorem Canon.lbWrite {k off bs} (h : Canon s) : Canon (s.lbWrite k off bs) :=
  .foldlFst (fun _ _ h => .writeBytes h) h

theorem Canon.fetchInput {img k f l lo hi} (h : Canon s) : Canon (s.fetchInput img k f l lo hi) :=
  .accountRead (.bump h)

theorem Canon.loadWindow {img k key} (h : Canon s) : Canon (s.loadWindow img k key) :=
  .updScaler (.foldl (fun _ _ h => .fetchInput h) h)

theorem Canon.loadSlot {img k j l} (h : Canon s) : Canon (s.loadSlot img k j l) := by
  unfold State.loadSlot
  refine .updScaler ?_
  split
  · exact h
  · exact .lbWrite (.fetchInput h)

theorem Canon.fillSlots {img k} (h : Canon s) : Canon (s.fillSlots img k) := by
  refine .ite h (.foldl (fun _ _ h => ?_) h)
  split
  · exact .updScaler (.loadSlot h)
  · exact h

theorem Canon.beginSlots {img k} (h : Canon s) : Canon (s.beginSlots img k) := .fillSlots (.updScaler h)
theorem Canon.freeSlots {img k j} (h : Canon s) : Canon (s.freeSlots img k j) := .fillSlots (.updScaler h)

theorem Canon.accountTaps {img k j} (h : Canon s) : Canon (s.accountTaps img k j) := by
  unfold State.accountTaps
  extract_lets held
  split
  · exact h
  · refine .foldl (fun _ _ h => ?_) h
    split
    · exact .foldl (fun _ _ h => .accountRead h) h
    · exact h

/-! ### `Machine/Compose` -/

theorem Canon.updCmp {f} (h : Canon s) : Canon (s.updCmp f) := h
theorem Canon.setFence {k f} (h : Canon s) : Canon (s.setFence k f) := .updCmp h

theorem Canon.setFlip {g f} (h : Canon s) : Canon (s.setFlip g f) :=
  .setFld (.setFld (.setFld (.setFld (.setFld (.setBit (.updCmp h))))))

theorem Canon.timedLate {opcode n frame effect} (h : Canon s) : Canon (s.timedLate opcode n frame effect) :=
  .log (.bump h)

theorem CanonRes.fenceSignal {k v frame} (h : Canon s) : CanonRes (s.fenceSignal k v frame) := by
  unfold State.fenceSignal
  extract_lets f s1
  have h1 : Canon s1 := .bump h
  exact .ite (.refuse h) <| .ite (.refuse h) <| .ite (.refuse h) <| .ite (.okRes (.setFence h1)) <| .ite (.okRes
      (.timedLate (.setFence h1))) <| .okRes (.setFence h1)

theorem CanonRes.fenceReset {k v frame} (h : Canon s) : CanonRes (s.fenceReset k v frame) :=
  .ite (.refuse h) (.ite (.refuse h) (.okRes (.setFence (.bump h))))

theorem CanonRes.fenceQuery {m0 m1} (h : Canon s) : CanonRes (s.fenceQuery m0 m1) := .okRes h

theorem CanonRes.layerFlip {g f} (h : Canon s) : CanonRes (s.layerFlip g f) :=
  .ite (.refuse h) (.ite (.okRes (.timedLate (.setFlip (.ite (.bump h) h)))) (.okRes (.setFlip (.ite (.bump h) h))))

theorem Canon.showTimed {n} (h : Canon s) : Canon (s.showTimed n) := .updCmp h

theorem Canon.gateFlip {n g} (h : Canon s) : Canon (s.gateFlip n g) := by
  fun_cases State.gateFlip
  case case1 | case2 => exact .setFld h
  case case3 => exact .bump (.setFld (.setFlip (.setFld h)))
  case case4 => exact .bump (.setFld (.setFld h))

theorem Canon.selectFrames {n} (h : Canon s) : Canon (s.selectFrames n) := by
  unfold State.selectFrames
  extract_lets selects s1 now _
  have h1 : Canon s1 := by
    refine .foldl (fun t v ht => .ite ?_ ht) h
    split
    rename_i e
    have hs := Canon.ofPair e (.selectFor ht)
    exact .ite (.bump (.setFld (.setFld hs))) (.ite hs (.setFld hs))
  exact .same h1

theorem Canon.gateBeat {n before} (h : Canon s) : Canon (s.gateBeat n before) :=
  .foldl (fun _ _ h => .setFld h) (.foldl (fun _ _ h => .gateFlip h) (.showTimed (.updCmp h)))

theorem Canon.ungate {g} (h : Canon s) : Canon (s.ungate g) :=
  .foldl (fun _ _ h => .setFld h) (.foldl (fun _ _ h => .setFlip h) (.updTm (.updCmp h)))

theorem CanonRes.beforeBeat {body} (hb : ∀ u, Canon u → CanonRes (body u)) (h : Canon s) :
    CanonRes (s.beforeBeat body) := by
  fun_cases State.beforeBeat
  case case1 => exact .done (.updTm (.gateBeat (.ofDone ‹_› (hb _ (.ungate h)))))
  case case2 => exact hb _ (.ungate h)
  case case3 | case4 => exact hb _ h

theorem Canon.beginScaler {img p k} (h : Canon s) : Canon (s.beginScaler img p k) :=
  .iteOn .beginSlots (.iteOn .loadWindow (.ite (.iteOn .same (.selectFor h)) h))

theorem Canon.beginImage {p} (h : Canon s) : Canon (s.beginImage p) :=
  .foldl (fun _ _ h => .beginScaler h) (.updCmp h)

theorem Canon.composeBeat {n} (h : Canon s) : Canon (s.composeBeat n) := by
  unfold State.composeBeat
  extract_lets old err s1 s2 s3 s4 run s5
  have h1 : Canon s1 := .setFld h
  have h3 : Canon s3 := .foldl (fun _ _ h => .ite h (.log (.setFld h))) (.ite (.log h1) h1)
  have h5 : Canon s5 := .updCmp (.selectFrames (.gateBeat h3))
  exact .ite (.ite (.beginImage h5) h5) h

theorem Canon.requestGl {img n l} (h : Canon s) : Canon (s.requestGl img n l) :=
  .ite (.updCmp (.accountRead (.bump h))) h

theorem Canon.requestAhead {img p l n} (h : Canon s) : Canon (s.requestAhead img p l n) :=
  .ite (.requestGl (.ite (.foldl (fun _ _ h => .requestGl h) h) h)) h

theorem Canon.underflow {n p l} (h : Canon s) : Canon (s.underflow n p l) := by
  unfold State.underflow
  extract_lets frame s1 s2 s3 s4
  have h1 : Canon s1 := .setFld (.bump h)
  have h4 : Canon s4 := .setFld (.setFld (.setFld (.setFld (.ite (.bump h1) h1))))
  exact .ite h4 (.log (.updCmp h4))

theorem Canon.lineFiltered {img n y under} (h : Canon s) : Canon (s.lineFiltered img n y under) :=
  .freeSlots (.iteOn .bump (.ite h (.bump (.accountTaps h))))

theorem Canon.composeLine {notOnDie} (h : Canon s) : Canon (s.composeLine notOnDie) := by
  unfold State.composeLine
  extract_lets p l s1 due s2 y fetching late dark px s3 lastLine lastPhase s4 s5 bad s6
  have h2 : Canon s2 := .foldl (fun _ _ h => .requestAhead h) h
  have h3 : Canon s3 := .foldl (fun _ _ h => .iteOn .underflow (.ite (.lineFiltered h) h)) h2
  have h4 : Canon s4 := .ite (.bump h3) h3
  have h6 : Canon s6 := .updCmp (.ite (.bump h4) h4)
  exact .ite (.ite (.beginImage h6) h6) h

theorem Canon.snapImages {t} (h : Canon s) : Canon (s.snapImages t) := .updCmp h

/-! ### `Machine/Sources` -/

theorem Canon.updRed {f} (h : Canon s) : Canon (s.updRed f) := h
theorem Canon.redBits (h : Canon s) : Canon s.redBits := .setBit (.setBit h)
theorem Canon.takeSource {k} (h : Canon s) : Canon (s.takeSource k) := .redBits (.updRed (.setFld h))

theorem Canon.commandSource {sel} (h : Canon s) : Canon (s.commandSource sel) :=
  .ite h (.ite (.bump (.takeSource h)) (.log (.bump (.takeSource h))))

theorem Canon.newSources {w} (h : Canon s) : Canon (s.newSources w) := .redBits (.updRed (.setFld h))

theorem Canon.sourceChange {c} (h : Canon s) : Canon (s.sourceChange c) := by
  fun_cases State.sourceChange
  case case1 => exact .commandSource h
  case case2 => exact .newSources h

theorem Canon.settleSources (h : Canon s) : Canon s.settleSources :=
  .foldl (fun _ _ h => .sourceChange h) (.updRed h)

theorem Canon.noteArrival {src q} (h : Canon s) : Canon (s.noteArrival src q) := .updRed h

/-! ### `Machine/Lcr` -/

theorem Canon.updTile {f} (h : Canon s) : Canon (s.updTile f) := h
theorem Canon.beginSlice {n p} (h : Canon s) : Canon (s.beginSlice n p) := .ite h (.updTile h)
theorem Canon.keepHist {n p} (h : Canon s) : Canon (s.keepHist n p) := .updTile h
theorem Canon.setSlice {g} (h : Canon s) : Canon (s.setSlice g) := .updTile h

theorem Canon.takeSlot {src} (h : Canon s) : Canon (s.takeSlot src).2 := by
  fun_cases State.takeSlot
  case case1 => exact h
  case case2 => exact .updTile h
  case case3 => exact h

theorem Canon.judgeSlice {g n} (h : Canon s) : Canon (s.judgeSlice g n) := by
  fun_cases State.judgeSlice
  case case1 => exact .setSlice h
  case case2 => exact .bump (.setSlice h)
  case case3 => exact .log (.bump (.setSlice h))
  case case4 => exact .setSlice h

theorem Canon.rasterIn {q c} (h : Canon s) : Canon (s.rasterIn q c) := by
  unfold State.rasterIn
  extract_lets r n' n regs s1 s2 t h' s3
  have h1 : Canon s1 := .noteArrival h
  have h2 : Canon s2 := .beginSlice (.bump h1)
  have h3 : Canon s3 := .bump h2
  split
  · exact h
  · split
    · exact .bump h
    · extract_lets g row
      split
      · exact .bump h1
      · split
        · exact .ite (.setSlice h3) (.log (.setSlice h3))
        · split
          · rename_i e4
            have h5 := Canon.ofPair e4 (.iteSnd h2 (.takeSlot h2))
            split
            · exact .bump (.setSlice h5)
            · extract_lets g base at_ s6 s7
              have h7 : Canon s7 := .serveBytes (.foldl (fun _ _ h => .putBytes h) h5)
              exact .ite (.bump (.setSlice h5)) (.ite (.judgeSlice h5) (.judgeSlice h7))

theorem Canon.zeroBuf {k} (h : Canon s) : Canon (s.zeroBuf k) :=
  .foldl (fun _ _ h => .ite (.eraseRange (.bump h)) h) h

theorem Canon.corrPoison {kind pixel comp sw pos} (h : Canon s) : Canon (s.corrPoison kind pixel comp sw pos) :=
  .ite h (.log (.setFld (.setFld (.setFld (.setFld (.setFld (.setFld (.setBit (.setFld (.updTile h))))))))))

theorem Canon.correctImage {j k} (h : Canon s) : Canon (s.correctImage j k) := by
  unfold State.correctImage
  extract_lets regs t h' n slot tbl lostOf lost b outs s1 s2 s3 s4
  have h3 : Canon s3 := .zeroBuf (.bump (.accountRead (.accountRead h)))
  have h4 : Canon s4 := .foldl (fun _ _ h => .foldl (fun _ _ h => .corrPoison h) (.foldl (fun _ _ h => .writeBytes
      h) h)) h3
  exact .ite (.bump h4) h4

theorem Canon.startJob (h : Canon s) : Canon s.startJob := by
  fun_cases State.startJob
  case case1 | case2 => exact h
  case case3 => exact .setFld (.updTile h)
  case case4 => exact h

theorem Canon.correctionDone (h : Canon s) : Canon s.correctionDone := by
  fun_cases State.correctionDone
  case case1 => exact h
  case case2 => exact .startJob (.setFld (.updTile (.setFld (.setFld (.setFld (.bump (.setFld (.correctImage
      h))))))))
  case case3 | case4 => exact h

theorem Canon.stopJobs (h : Canon s) : Canon s.stopJobs := .setFld (.updTile h)

theorem Canon.lcrBeat (h : Canon s) : Canon s.lcrBeat :=
  .ite (.ite (.ite h (.stopJobs h)) (.log (.setFld (.ite h (.stopJobs h))))) h

theorem Canon.tableLoaded {t size} (h : Canon s) : Canon (s.tableLoaded t size).2 :=
  .iteSnd (.setFld (.setFld (.setFld (.setFld (.updTile (.accountRead h)))))) (.accountRead h)

/-! ### `Machine/Ldr` -/

theorem Canon.updChain {c f} (h : Canon s) : Canon (s.updChain c f) := .updTile h
theorem Canon.allChains {f} (h : Canon s) : Canon (s.allChains f) := .updTile h

theorem Canon.sendLoad {c phase arg shares first} (h : Canon s) : Canon (s.sendLoad c phase arg shares first) :=
  .updChain (.emit h)

theorem Canon.launch {hd typ phase arg t e} (h : Canon s) : Canon (s.launch hd typ phase arg t e) :=
  .foldl (fun _ _ h => .updChain (.emit h)) h

theorem Canon.quietChains (h : Canon s) : Canon s.quietChains := .allChains h

theorem Canon.startMeasure {which} (h : Canon s) : Canon (s.startMeasure which) :=
  .foldl (fun _ _ h => .ite (.updChain h) h) h

theorem Canon.refreshShort (h : Canon s) : Canon s.refreshShort :=
  .foldl (fun _ _ h => .ite h (.ite (.log (.setBit h)) (.setBit h))) h

theorem Canon.chainMeasure {c rt} (h : Canon s) : Canon (s.chainMeasure c rt) := by
  unfold State.chainMeasure
  extract_lets rt as a0 trims far s1 s2 s3 fail s4 s5
  have h3 : Canon s3 := .setFld (.setFld (.updChain (.emit h)))
  have h5 : Canon s5 := by
    unfold s5
    split
    · exact .log (.setFld h3)
    · clear_value far
      split
      · exact .log (.setFld h3)
      · exact .updChain (.setFld h3)
  exact .ite h (.refreshShort h5)

theorem Canon.configLoad {c} (h : Canon s) : Canon (s.configLoad c) := .ite h (.updChain (.sendLoad h))

theorem Canon.reportErr {c d cause} (h : Canon s) : Canon (s.reportErr c d cause) :=
  .iteOn .log (.limit (.setFld h))

theorem Canon.dropRecord {c d cause stop} (h : Canon s) : Canon (s.dropRecord c d cause stop) :=
  .iteOn .updChain (.reportErr (.bump h))

theorem Canon.endReport {c} (h : Canon s) : Canon (s.endReport c) := by
  fun_cases State.endReport
  case case1 => exact .reportErr (.updChain h)
  case case2 => exact .updChain h
  case case3 => exact h

theorem Canon.reportSend {c} (h : Canon s) : Canon (s.reportSend c) := by
  fun_cases State.reportSend
  case case1 => exact h
  case case2 => exact .bump (.updChain h)
  case case3 => exact .updChain (.emit (.endReport (.updChain h)))
  case case4 => exact h

theorem Canon.verdict {c d k v frame} (h : Canon s) : Canon (s.verdict c d k v frame) :=
  .iteOn (fun h => .iteOn .log (.limit (.bump h))) (.writeBytes (.accountRead h))

theorem Canon.groupTemps (h : Canon s) : Canon s.groupTemps := by
  unfold State.groupTemps
  refine .foldl (fun _ _ ht => ?_) h
  extract_lets put
  split
  · exact .setFld ht
  · extract_lets s1 warn was
    have h1 : Canon s1 := .setFld (.setFld ht)
    exact .ite (.ite h1 (.log (.updTile h1))) (.ite (.updTile h1) h1)

theorem Canon.recordFlags {c d f} (h : Canon s) : Canon (s.recordFlags c d f) := by
  unfold State.recordFlags
  extract_lets s1 s2 s3
  have h1 : Canon s1 := .ite (.bump (.setFld h)) h
  have h2 : Canon s2 := .ite (.bump (.setFld h1)) h1
  have h3 : Canon s3 := .ite (.bump (.setFld h2)) h2
  exact .ite h3 (.ite (.log (.limit h3)) (.limit h3))

theorem Canon.takeRecord {c r ws} (h : Canon s) : Canon (s.takeRecord c r ws) := by
  fun_cases State.takeRecord
  case case1 => exact .setFld (.bump h)
  case case2 | case3 | case4 => exact .dropRecord h
  case case5 => exact .updChain (.groupTemps (.foldl (fun _ _ h => .verdict h) (.recordFlags (.updChain (.bump
      h)))))
  case case6 => exact .groupTemps (.foldl (fun _ _ h => .verdict h) (.recordFlags (.updChain (.bump h))))
  case case7 => exact .updChain (.groupTemps (.foldl (fun _ _ h => .verdict h) (.recordFlags (.updChain (.bump
      h)))))

theorem Canon.returnItem {c i} (h : Canon s) : Canon (s.returnItem c i) := by
  fun_cases State.returnItem
  case case1 => exact .setFld (.bump h)
  case case2 => exact .reportErr (.updChain (.bump h))
  case case3 => exact .bump h
  case case4 => exact .endReport h
  case case5 => exact .takeRecord h
  case case6 => exact .bump h

theorem Canon.takeWords {c ws} (h : Canon s) : Canon (s.takeWords c ws) :=
  .ite (.returnItem (.updChain h)) (.ite (.updChain h) (.returnItem (.updChain h)))

theorem Canon.lineError {c} (h : Canon s) : Canon (s.lineError c) := .returnItem (.updChain h)

theorem Canon.returnSymbol {c x ends} (h : Canon s) : Canon (s.returnSymbol c x ends) := by
  unfold State.returnSymbol
  extract_lets h' s1 bits w s2
  have h1 : Canon s1 := by
    unfold s1
    split
    · exact .takeWords h
    · exact h
  have h2 : Canon s2 := by
    unfold s2
    split
    · exact .ite (.lineError h) (.updChain h1)
    · split
      · exact .updChain h
      · split
        · exact .ite (.takeWords h) (.updChain h)
        · exact .updChain h
  exact .ite (.lineError h2) h2

theorem Canon.returnBurst {c edges} (h : Canon s) : Canon (s.returnBurst c edges) := by
  unfold State.returnBurst
  split
  · exact h
  · refine .foldl (fun _ _ ht => ?_) (.updChain h)
    split
    · exact .returnSymbol ht
    · exact .lineError ht

theorem Canon.fadeBeat {n} (h : Canon s) : Canon (s.fadeBeat n) := by
  unfold State.fadeBeat
  refine .foldl (fun _ _ ht => ?_) h
  split
  · extract_lets start
    exact .ite ht (.updTile (.setFld (.setFld ht)))
  · exact ht

theorem Canon.driveBeat {n} (h : Canon s) : Canon (s.driveBeat n) :=
  .updTile (.foldl (fun _ _ h => .setFld h) (.groupTemps (.fadeBeat h)))

theorem Canon.fadeCommit {n p addrs} (h : Canon s) : Canon (s.fadeCommit n p addrs) :=
  .foldl (fun _ _ h => .ite (.updTile h) h) h

theorem Canon.darkPlans (h : Canon s) : Canon s.darkPlans := .ite h (.startJob (.updTile h))

theorem Canon.ldrBeat {n} (h : Canon s) : Canon (s.ldrBeat n) :=
  .ite (.darkPlans (.refreshShort (.driveBeat (.ite h (.log (.setFld h)))))) h

theorem Canon.setPlan {x} (h : Canon s) : Canon (s.setPlan x) := .updTile h

theorem Canon.loadBuffer {hd k n p} (h : Canon s) : Canon (s.loadBuffer hd k n p) :=
  .foldl (fun _ _ h => .sendLoad (.accountRead h)) (.bump h)

theorem Canon.accountMap {cl} (h : Canon s) : Canon (s.accountMap cl) := .accountRead h
theorem Canon.noteMissing {n p} (h : Canon s) : Canon (s.noteMissing n p) := .ite h (.log (.bump h))

theorem Canon.lateJob {n p} (h : Canon s) : Canon (s.lateJob n p) := by
  fun_cases State.lateJob
  case case1 => exact .noteMissing (.log (.bump h))
  case case2 => exact h
  case case3 => exact .noteMissing (.log (.bump (.updTile h)))

theorem Canon.setBuf {k b} (h : Canon s) : Canon (s.setBuf k b) := .updTile h

theorem Canon.chainLoad {n p} (h : Canon s) : Canon (s.chainLoad n p) := by
  have freed (t : State) (ht : Canon t) : Canon (match t.readyBuf n p with
      | some k => (t.setBuf k .free).startJob
      | none => t) := by
    split
    · exact .startJob (.setBuf ht)
    · exact ht
  fun_cases State.chainLoad
  case case1 => exact h
  case case2 => exact .setPlan (.updTile h)
  case case3 => exact .setPlan (.foldl (fun _ _ h => .sendLoad h) (.bump (.accountMap (.updTile h))))
  case case4 => exact .updTile h
  case case5 => exact .setPlan (freed _ (.lateJob (.updTile h)))
  case case6 => exact .setPlan (.loadBuffer (.updTile h))
  case case7 => exact .setPlan (.iteOn .log (.setFld (.bump (.noteMissing (.lateJob (.updTile h))))))
  case case8 => exact .setPlan (.loadBuffer (.bump (.noteMissing (.lateJob (.updTile h)))))
  case case9 => exact .setPlan (.noteMissing (.lateJob (.updTile h)))

theorem Canon.windowEnded {n p t} (h : Canon s) : Canon (s.windowEnded n p t) := .allChains h

theorem Canon.latchLaunch {n p} (h : Canon s) : Canon (s.latchLaunch n p) := by
  unfold State.latchLaunch
  extract_lets t
  split
  · extract_lets s1 before s2 s3 s4 s5 s6 _ s7
    have h1 : Canon s1 := .bump (.launch h)
    have h2 : Canon s2 := by
      unfold s2
      clear_value before
      split
      · exact .ite h1 (.windowEnded h1)
      · exact h1
    have h3 : Canon s3 := .updTile h2
    have h5 : Canon s5 := .setPlan (.ite (.allChains h3) h3)
    exact .ite h (.startJob (.ite (.same (.setFld (.setFld h5))) h5))
  · exact h

theorem Canon.blankLaunch {n p dark} (h : Canon s) : Canon (s.blankLaunch n p dark) := by
  fun_cases State.blankLaunch
  case case1 => exact .same (.emit (.launch h))
  case case2 | case3 => exact h
  case case4 => exact .setPlan (.launch h)
  case case5 => exact h
  case case6 => exact .windowEnded (.setPlan (.launch h))
  case case7 | case8 => exact h

theorem Canon.diagLaunch {n p} (h : Canon s) : Canon (s.diagLaunch n p) := by
  fun_cases State.diagLaunch
  case case1 => exact .setPlan (.launch h)
  case case2 => exact .bump (.windowEnded (.setPlan (.launch h)))
  case case3 | case4 => exact h

theorem Canon.lampScan {mask faults stale all ageMin addr limit} (h : Canon s) : Canon (s.lampScan mask faults stale
    all ageMin addr limit).2 :=
  .writeBytes (.serveBytes (.foldl (fun _ _ h => .accountWords h) (.accountMap h)))

theorem CanonRes.lampReport {c d first count} (h : Canon s) : CanonRes (s.lampReport c d first count) :=
  .ite (.refuse h) (.okRes (.accountRead (.accountMap h)))

theorem CanonRes.lampPatternStart {pattern arg} (h : Canon s) : CanonRes (s.lampPatternStart pattern arg) :=
  .ite (.refuse h) (.ite (.refuse h) (.ite (.refuse h) (.okRes (.startMeasure (.updTile h)))))

theorem CanonRes.lampPatternStop {pattern} (h : Canon s) : CanonRes (s.lampPatternStop pattern) :=
  .ite (.refuse h) (.ite (.refuse h) (.ite (.refuse h) (.okRes (.updTile (.quietChains (.emit (.launch h)))))))

/-! ### `Machine/Modes` -/

theorem Canon.updSys {f} (h : Canon s) : Canon (s.updSys f) := h
theorem Canon.requestReset {cause waits} (h : Canon s) : Canon (s.requestReset cause waits) := .updSys h

theorem Canon.disablePort {q} (h : Canon s) : Canon (s.disablePort q) :=
  .ite h (.portDown (.eiosOut (.endChecks (.abortCal h))))

theorem Canon.leaveTile (h : Canon s) : Canon s.leaveTile :=
  .updTile (.quietChains (.updSys (.stopJobs (.settleSources h))))

theorem Canon.leaveService (h : Canon s) : Canon s.leaveService :=
  .foldl (fun _ _ h => .updLane (.ite (.endChecks h) h)) (.ite (.emit (.updTile (.quietChains h))) h)

theorem Canon.enterMode {m} (h : Canon s) : Canon (s.enterMode m) := by
  unfold State.enterMode
  extract_lets old was s1 s2 s3 s4 s5 s6 s7 s8
  have h1 : Canon s1 := .setFld h
  have h2 : Canon s2 := .ite (.foldl (fun _ _ h => .disablePort h) h1) h1
  have h3 : Canon s3 := .ite (.foldl (fun _ _ h => .dropRaster h) h2) h2
  have h4 : Canon s4 := .ite (.leaveTile h3) h3
  have h5 : Canon s5 := .ite (.leaveService h4) h4
  have h6 : Canon s6 := .ite (.startMeasure (.updSys h5)) h5
  have h7 : Canon s7 := .ite (.foldl (fun _ _ h => .restartStream h) h6) h6
  exact .rejoin (.ite (.setFld (.updCmp h7)) h7)

theorem Canon.modeDone (h : Canon s) : Canon s.modeDone := .setFld (.updSys h)

theorem Canon.requestMode {target pair} (h : Canon s) : Canon (s.requestMode target pair) :=
  .ite (.setFld (.setFld h)) (.iteOn .enterMode (.setFld (.updSys (.setFld (.setFld h)))))

theorem Canon.writeModeReq {target} (h : Canon s) : Canon (s.writeModeReq target) :=
  .requestMode (.setFld (.updSys h))

theorem Canon.modeBeat {t} (h : Canon s) : Canon (s.modeBeat t) := by
  fun_cases State.modeBeat
  case case1 => exact .updSys h
  case case2 => exact .modeDone (.enterMode h)
  case case3 | case4 => exact h

theorem Canon.modeComplete (h : Canon s) : Canon s.modeComplete := by
  fun_cases State.modeComplete
  case case1 => exact .modeDone h
  case case2 | case3 => exact h
  case case4 => exact .modeDone (.enterMode h)
  case case5 => exact h

theorem Canon.autoStep (h : Canon s) : Canon s.autoStep := by
  fun_cases State.autoStep
  case case1 => exact h
  case case2 => exact .updSys h
  case case3 | case4 => exact .requestMode h
  case case5 | case6 => exact h

theorem Canon.setRole {role} (h : Canon s) : Canon (s.setRole role) :=
  .ite h (.ite (.setFld h) (.setFld (.setFld (.setFld h))))

/-! ### `Machine/Fabric` -/

theorem Canon.updFab {f} (h : Canon s) : Canon (s.updFab f) := h

theorem Canon.forwardOn {c arrival ps} (h : Canon s) : Canon (s.forwardOn c arrival ps) := by
  fun_cases State.forwardOn
  case case1 => exact .bump h
  case case2 => exact .enqueue (.foldl (fun _ _ h => .enqueue h) (.bump h))

theorem Canon.routeCell {c arrival buffered} (h : Canon s) : Canon (s.routeCell c arrival buffered) := by
  fun_cases State.routeCell
  case case1 => exact .sendOwn h
  case case2 => exact .ite (.freeCredits h) h
  case case3 | case4 => exact .bump (.ite (.freeCredits h) h)
  case case5 => exact .forwardOn h

theorem Canon.forwardCell {q c buffered} (h : Canon s) : Canon (s.forwardCell q c buffered) :=
  .ite (.ite (.ite (.freeCredits (.holdCell h)) (.holdCell h)) (.updPortQ h)) (.routeCell h)

theorem Canon.holdExpiry (h : Canon s) : Canon s.holdExpiry := by
  unfold State.holdExpiry
  extract_lets held own s1 s2 s3
  have h3 : Canon s3 := .foldl (fun _ _ h => .sendOwn h) (.foldl (fun _ _ h => .routeCell h) (.updFab h))
  split
  · exact .ite (.foldl (fun _ _ h => .foldl (fun _ _ h => .routeCell h) (.updPortQ h)) h3) h
  · exact h

theorem Canon.setRoutes {first setDef defPorts es} (h : Canon s) : Canon (s.setRoutes first setDef defPorts es) :=
  .ite h (.updFab h)

theorem Canon.sendProbe {q dst payload} (h : Canon s) : Canon (s.sendProbe q dst payload) :=
  .enqueue (.updFab (.bump h))

theorem Canon.assignSelf {serial newAddr} (h : Canon s) : Canon (s.assignSelf serial newAddr).2 :=
  .iteSnd h (.iteSnd (.setFld (.setFld h)) h)

theorem Canon.takeAnswer {p} (h : Canon s) : Canon (s.takeAnswer p) := .ite (.updFab h) (.bump h)

theorem Canon.probeHop {q c} (h : Canon s) : Canon (s.probeHop q c) := by
  unfold State.probeHop
  extract_lets k len s1 s2 p out d kind id fwd out'
  have h1 : Canon s1 := .freeCredits h
  have h2 : Canon s2 := .bump h1
  exact .ite h2 <| .ite (.ite (.enqueue (.bump h)) h2) <| .ite (.ite (.sendProbe (.iteSnd h1 (.iteSnd (.assignSelf
      h1) h1))) (.bump (.iteSnd h1 (.iteSnd (.assignSelf h1) h1)))) <| .ite (.takeAnswer h1) h2

theorem Canon.pathAnswer {p} (h : Canon s) : Canon (s.pathAnswer p) := .ite (.updFab h) (.bump h)

theorem Canon.pathProbe {c} (h : Canon s) : Canon (s.pathProbe c) :=
  .ite (.iteOn (fun h => .pathAnswer (.bump h)) (.originate (.updFab h))) (.ite (.pathAnswer h) (.bump h))

theorem Canon.pathTestSend {slot target plen count} (h : Canon s) : Canon (s.pathTestSend slot target plen count) :=
    by
  fun_cases State.pathTestSend
  case case1 => exact .updFab h
  case case2 => exact .pathProbe (.bump (.originate (.updFab (.updFab h))))
  case case3 => exact .originate (.updFab (.updFab h))
  case case4 | case5 => exact h

theorem Canon.svcCell {q c} (h : Canon s) : Canon (s.svcCell q c) := .ite (.updPortQ h) h

theorem Canon.creditReturn {q} (h : Canon s) : Canon (s.creditReturn q) :=
  .ite (.enqueue (.bump (.updPortQ h))) h

theorem Canon.settleTokens (h : Canon s) : Canon s.settleTokens := .foldl (fun _ _ h => .updPortQ h) h

theorem Canon.arbitrate {q} (h : Canon s) : Canon (s.arbitrate q) := by
  unfold State.arbitrate
  split
  · exact h
  · split
    · exact h
    · split
      · exact h
      · extract_lets rest p p' s1 s2 s3 s4 s5
        have h2 : Canon s2 := .bump (.bump (.setPortQ h))
        have h3 : Canon s3 := .ite (.bump h2) h2
        have h4 : Canon s4 := .ite (.updPortQ h3) h3
        have h5 : Canon s5 := by
          unfold s5
          split
          · exact .freeCredits h4
          · exact h4
        exact .emit (.updLane h5)

theorem Canon.resync {q k} (h : Canon s) : Canon (s.resync q k) := .ite (.updLane h) h

theorem Canon.recvCell {q c} (h : Canon s) : Canon (s.recvCell q c).2 := by
  unfold State.recvCell
  extract_lets s1 mine lost here s2 s3
  have h1 : Canon s1 := .bump h
  have h2 : Canon s2 := .ite (.bump h1) h1
  have h3 : Canon s3 := .ite (.freeCredits h2) (.forwardCell h2)
  split
  · exact h
  · split
    · exact .freeCredits h
    · split
      · exact .iteSnd (.svcCell h1) (.iteSnd h1 (.iteSnd (.probeHop h1) (.iteSnd (.pathProbe h3) h3)))
      · exact .resync (.cellFail (.freeCredits h1))

theorem CanonRes.routeSet {first setDef defPorts es} (h : Canon s) :
    CanonRes (s.routeSet first setDef defPorts es) :=
  .ite (.refuse (.bump h)) (.okRes (.setRoutes h))

theorem Canon.startProbe {who kind routeLen fwd body} (h : Canon s) : Canon (s.startProbe who kind routeLen fwd
    body) :=
  .ite (.updFab h) (.sendProbe (.updFab h))

theorem CanonOpt.probeRefused {least routeLen fwd} (h : Canon s) : CanonOpt (s.probeRefused least routeLen fwd) :=
  .ite (.some (.refuse h)) (.ite (.some (.refuse h)) .none)

/-! ### `Machine/Raster` -/

theorem Canon.mapBeat (h : Canon s) : Canon s.mapBeat := by
  unfold State.mapBeat
  extract_lets rows bad words old first s1 s2 s3 s4 s5
  have h5 : Canon s5 := .setBit (.setFld (.setFld (.setFld (.foldl (fun _ _ h => .setFld h) h))))
  exact .ite (.ite h5 (.log h5)) h

theorem Canon.queueRaster {entry n p c sig} (h : Canon s) : Canon (s.queueRaster entry n p c sig) := by
  unfold State.queueRaster
  extract_lets ps s1
  have h1 : Canon s1 := .updFab (.bump h)
  exact .ite h <| .ite (.bump (.bump h)) <| .iteOn .bump <| .foldlSnd (fun _ _ h => .iteSnd (.bump h) (.iteSnd
      (.iteOn .log (.updCmp (.bump (.bump h)))) (.ite (.setFld (.enqueue h)) (.enqueue h)))) h1

theorem Canon.sendRun {k e o x0 y0 phases ready} (h : Canon s) : Canon (s.sendRun k e o x0 y0 phases ready) :=
  .iteOn .queueRaster (.updCmp (.foldlSnd (fun _ _ h => .ite (.queueRaster h) h) h))

theorem Canon.sendLine {o ready} (h : Canon s) : Canon (s.sendLine o ready) :=
  .foldl (fun _ _ h => .sendRun h) (.ite (.updCmp h) h)

theorem Canon.wbChoose {n} (h : Canon s) : Canon (s.wbChoose n) := by
  fun_cases State.wbChoose
  case case1 => exact .setFld (.updCmp (.updCmp h))
  case case2 => exact .bump (.updCmp h)

theorem Canon.wbHeld (h : Canon s) : Canon s.wbHeld := by
  fun_cases State.wbHeld
  case case1 => exact .wbChoose (.setBit (.setWord (.updCmp h)))
  case case2 | case3 => exact h

theorem Canon.wbBeat {n} (h : Canon s) : Canon (s.wbBeat n) :=
  .ite (.iteOn .wbChoose (.setBit (.updCmp (.setFld h)))) h

theorem Canon.wbLine {o room} (h : Canon s) : Canon (s.wbLine o room) := by
  unfold State.wbLine
  extract_lets others s1 k j px bytes
  split
  · exact h
  · extract_lets base s2 c s3 a s4 s5
    have h2 : Canon s2 := .ite h (.writeBytes h)
    have h3 : Canon s3 := .writeBytes h2
    have h4 : Canon s4 := .bump h2
    have h5 : Canon s5 := .ite (.log h4) h4
    exact .ite h <| .ite (.setBit (.updCmp (.setFld (.bump (.writeBytes (.writeBytes (.writeBytes (.iteSnd h2
        (.iteSnd (.writeBytes h3) h5))))))))) <| .updCmp (.iteSnd h2 (.iteSnd (.writeBytes h3) h5))

theorem Canon.lineLeaves {room} (h : Canon s) : Canon (s.lineLeaves room) := by
  fun_cases State.lineLeaves
  case case1 => exact .wbLine (.sendLine (.updCmp h))
  case case2 => exact .updCmp h
  case case3 | case4 => exact h

/-! ### `Machine/Red` -/

theorem Canon.takeChanges {n p} (h : Canon s) : Canon (s.takeChanges n p) := by
  unfold State.takeChanges
  extract_lets due s1 s2
  refine .foldl (fun _ _ ht => ?_) (.foldl (fun _ _ h => .sourceChange h) (.updRed h))
  split
  · exact ht
  · exact .updRed (.foldl (fun _ _ h => .sourceChange h) ht)

theorem Canon.redCommit {x before} (h : Canon s) : Canon (s.redCommit x before) :=
  .ite (.updRed h) (.ite (.updRed h) (.foldl (fun _ _ h => .sourceChange h) h))

theorem Canon.sourceLossSeen {cause} (h : Canon s) : Canon (s.sourceLossSeen cause) := .ite (.updRed h) h

theorem Canon.compareCopies {n p sig0 sig1} (h : Canon s) : Canon (s.compareCopies n p sig0 sig1) := by
  unfold State.compareCopies
  extract_lets s1 first s2 s3 s4 s5 s6
  have h1 : Canon s1 := .updRed (.bump h)
  have h6 : Canon s6 := .setFld (.setFld (.setFld (.setFld (.updRed (.bump h1)))))
  exact .ite (.updRed (.bump h1)) (.ite (.log h6) h6)

theorem Canon.judgeRun (h : Canon s) : Canon s.judgeRun :=
  .redBits (.updRed (.ite h (.ite (.ite (.log (.updRed h)) (.updRed h)) (.ite h (.updRed h)))))

theorem Canon.pruneSlices {n} (h : Canon s) : Canon (s.pruneSlices n) := .updTile h
theorem Canon.queueJob {g} (h : Canon s) : Canon (s.queueJob g) := .startJob (.updTile h)

theorem Canon.correctionDeadline {n p} (h : Canon s) : Canon (s.correctionDeadline n p) := by
  unfold State.correctionDeadline
  extract_lets fresh regs s1 two copy u c0 c1 mine other s2 s3 s4 off s5 s6 s7
  have h1 : Canon s1 := .takeChanges (.beginSlice (.updTile h))
  have h2 : Canon s2 := by
    unfold s2
    clear_value c0 c1
    split
    · exact .compareCopies h1
    · exact h1
  have h3 : Canon s3 := .updRed h2
  have h4 : Canon s4 := .ite (.bump h3) h3
  have h5 : Canon s5 := .noteMissing (.bump (.bump h4))
  have h6 : Canon s6 := by
    unfold s6
    clear_value mine
    split
    · exact .ite h4 (.queueJob h4)
    · exact .ite (.sourceLossSeen h5) h5
  exact .ite h (.pruneSlices (.ite (.judgeRun h6) h6))

theorem Canon.linkLost (h : Canon s) : Canon s.linkLost := by
  fun_cases State.linkLost
  case case1 => exact h
  case case2 => exact .sourceLossSeen (.setFld (.bump (.updRed h)))
  case case3 | case4 => exact h

theorem Canon.autoSwitch {cause} (h : Canon s) : Canon (s.autoSwitch cause) := by
  fun_cases State.autoSwitch
  case case1 => exact h
  case case2 => exact .log (.bump (.setFld (.takeSource h)))
  case case3 => exact h

theorem Canon.exchangeNow (h : Canon s) : Canon s.exchangeNow := .iteOn .enterMode (.setFld (.setFld h))

theorem CanonRes.redSwitch {sel} (h : Canon s) : CanonRes (s.redSwitch sel) :=
  .ite (.okRes (.requestMode h)) (.okRes (.commandSource h))

theorem Canon.promote (h : Canon s) : Canon s.promote := .ite (.requestMode h) h
theorem CanonRes.redState (h : Canon s) : CanonRes s.redState := .ite (.okRes h) (.okRes h)
theorem Canon.redDigest {n} (h : Canon s) : Canon (s.redDigest n) := .ite (.setFld (.setFld (.setWord h))) h

theorem CanonRes.gatedBody {body} (hb : ∀ u, Canon u → CanonRes (body u)) (h : Canon s) :
    CanonRes (s.gatedBody body) := by
  have hr := CanonRes.beforeBeat hb h
  unfold State.gatedBody
  split
  · have ht := Canon.ofDone ‹_› hr
    split
    · exact .done (.ite (.redDigest ht) ht)
    · exact .done ht
  · exact hr

theorem Canon.redBeat {n} (h : Canon s) : Canon (s.redBeat n) :=
  .iteOn .updRed (.iteOn (fun h => .updRed (.setFld h)) (.iteOn .bump (.redDigest h)))

theorem CanonOpt.joinRefusal {w pairSrc ranges} (h : Canon s) : CanonOpt (s.joinRefusal w pairSrc ranges) := by
  fun_cases State.joinRefusal
  case case1 | case2 | case3 | case4 | case5 | case6 | case7 => exact .some (.refuse h)
  case case8 => exact .none

theorem Canon.dropOwnRaster (h : Canon s) : Canon s.dropOwnRaster := .foldl (fun _ _ h => .updPortQ h) h

theorem Canon.joinHold (h : Canon s) : Canon s.joinHold := by
  fun_cases State.joinHold
  case case1 => exact h
  case case2 => exact .emit (.updRed h)
  case case3 => exact h

theorem CanonRes.redJoin {w pairSrc ranges} (h : Canon s) : CanonRes (s.redJoin w pairSrc ranges) := by
  fun_cases State.redJoin
  case case1 => exact .ofOpt ‹_› (.joinRefusal h)
  case case2 => exact .runOp (fun _ _ h => .joinHold (.emit (.updRed (.dropOwnRaster (.setFld h))))) h

theorem Canon.joinRequest {q src pairSrc ranges} (h : Canon s) : Canon (s.joinRequest q src pairSrc ranges) :=
  .ite (.updRed h) (.emit h)

theorem Canon.servePump (h : Canon s) : Canon s.servePump := by
  fun_cases State.servePump
  case case1 => exact h
  case case2 => exact .updRed h
  case case3 => exact .emit (.updRed h)
  case case4 => exact .updRed h
  case case5 => exact h
  case case6 => exact .updRed (.foldl (fun _ _ h => .enqueue (.bump h)) (.emit (.accountRead h)))
  case case7 => exact .updRed (.emit h)
  case case8 => exact h

theorem Canon.joinWrite {a data} (h : Canon s) : Canon (s.joinWrite a data) := by
  fun_cases State.joinWrite
  case case1 => exact .setOp (.updRed (.serve (.foldl (fun _ _ h => .ite (.putWord h) h) h)))
  case case2 => exact .serve (.foldl (fun _ _ h => .ite (.putWord h) h) h)

theorem Canon.joinWork (h : Canon s) : Canon s.joinWork := by
  unfold State.joinWork
  split
  · exact .joinHold (.foldlFst (fun _ _ h => .iteFst h (.joinWrite h)) h)
  · exact h

theorem Canon.joinCell {addr data} (h : Canon s) : Canon (s.joinCell addr data) := by
  fun_cases State.joinCell
  case case1 => exact .joinWork (.updRed h)
  case case2 => exact h

theorem Canon.snapshotCapture {e} (h : Canon s) : Canon (s.snapshotCapture e) := by
  fun_cases State.snapshotCapture
  case case1 => exact .updRed h
  case case2 | case3 | case4 => exact h

theorem Canon.installState {k sn} (h : Canon s) : Canon (s.installState k sn) :=
  .rejoin (.snapImages (.streamsAfter h))

theorem Canon.installSnapshot {sn} (h : Canon s) : Canon (s.installSnapshot sn).2 := by
  fun_cases State.installSnapshot
  case case1 => exact h
  case case2 => exact .updRed h
  case case3 => exact h
  case case4 => exact .updRed (.finishOp (.bump (.installState h)))
  case case5 | case6 => exact h

theorem Canon.joinFailed {cause} (h : Canon s) : Canon (s.joinFailed cause).2 := by
  fun_cases State.joinFailed
  case case1 => exact h
  case case2 => exact .setFld (.updRed (.finishOp h))
  case case3 => exact .log (.bump (.setFld (.updRed (.finishOp h))))
  case case4 => exact h

/-! ### `Machine/Ring` -/

theorem Canon.updRing {f} (h : Canon s) : Canon (s.updRing f) := h

theorem Canon.ringSend (h : Canon s) : Canon s.ringSend := by
  fun_cases State.ringSend
  case case1 => exact h
  case case2 => exact .emit (.updRing h)
  case case3 => exact h
  case case4 => exact .emit (.updRing h)
  case case5 => exact h

theorem Canon.ringPush {f} (h : Canon s) : Canon (s.ringPush f) := .ite h (.ringSend (.bump (.updRing h)))

theorem Canon.ringForward {f} (h : Canon s) : Canon (s.ringForward f) :=
  .ite (.bump h) (.ringSend (.bump (.updRing h)))

theorem Canon.ringEnumerate (h : Canon s) : Canon s.ringEnumerate := .ringPush h

theorem Canon.ringIn {f} (h : Canon s) : Canon (s.ringIn f).2 := by
  unfold State.ringIn
  extract_lets bad consume
  have taken (t) (ht : Canon t) : Canon (consume t).2 := by
    refine .iteSnd (.bump ht) ?_
    split
    · exact .bump ht
    · exact .ringEnumerate (.bump ht)
    · exact .bump ht
  refine .iteSnd h (.iteSnd (.crossEvent h) (.iteSnd (.iteSnd (taken _ h) (.ringForward h)) ?_))
  exact .iteSnd (.bump h) (.iteSnd (.ringForward h) (taken _ (.ringForward h)))

theorem Canon.ringReset (h : Canon s) : Canon s.ringReset := .updRing (.draw h)
theorem Canon.ringAlarm {n ovf} (h : Canon s) : Canon (s.ringAlarm n ovf) := .ringPush h

/-! ### `Machine/Clk` -/

theorem Canon.setPll {p b} (h : Canon s) : Canon (s.setPll p b) := by
  fun_cases State.setPll
  case case1 | case2 => exact .setBit h
  case case3 => exact .setFld h

theorem Canon.setHolding {f} (h : Canon s) : Canon (s.setHolding f) := h

theorem Canon.refclkLost (h : Canon s) : Canon s.refclkLost :=
  .ite (.log (.setHolding (.setFld (.setFld h)))) h

theorem Canon.pllUnlock {p} (h : Canon s) : Canon (s.pllUnlock p) := by
  unfold State.pllUnlock
  extract_lets s1 s2
  have h2 : Canon s2 := by
    unfold s2
    split <;> exact .setFld (.setHolding (.setPll h))
  exact .ite (.log h2) h

theorem Canon.pllRelock {p} (h : Canon s) : Canon (s.pllRelock p) :=
  .ite h (.log (.setFld (.setHolding (.setPll h))))

theorem Canon.statusLost {kind} (h : Canon s) : Canon (s.statusLost kind) :=
  .ite (.restartPorts h) (.ite (.foldl (fun _ _ h => .setWord (.setWord h)) (.setFld h)) (.ite (.setWord h) h))

theorem Canon.crossingsLost {kind} (h : Canon s) : Canon (s.crossingsLost kind) :=
  .foldl (fun _ _ h => .updCross h) (.statusLost h)

theorem Canon.domainHold {kind} (h : Canon s) : Canon (s.domainHold kind) :=
  .bump (.setFld (.setFld (.same (.iteOn .ringReset (.crossingsLost h)))))

theorem Canon.clockLoss {q} (h : Canon s) : Canon (s.clockLoss q) :=
  .ite (.iteOn .setLnk (.crossingsLost (.leaveActive (.setFld h)))) (.setFld h)

theorem CanonRes.domainReset {kind noReply} (h : Canon s) : CanonRes (s.domainReset kind noReply) :=
  .ite (.refuse h) (.ite (.refuse h) (.ite (.okRes (.domainHold h)) (.okRes h)))

theorem Canon.domainDue (h : Canon s) : Canon s.domainDue := .ite h (.foldl (fun _ _ h => .domainHold h) h)
theorem Canon.mediaRestart (h : Canon s) : Canon s.mediaRestart := .updEth (.restartPorts h)

theorem Canon.domainRestart {kind} (h : Canon s) : Canon (s.domainRestart kind) :=
  .ite (.log (.ite (.mediaRestart (.setFld h)) (.ite (.hostRetrain (.setFld h)) (.setFld h)))) h

theorem Canon.eventCrossing {k j} (h : Canon s) : Canon (s.eventCrossing k j) := by
  unfold State.eventCrossing
  extract_lets c held s1 s2 s3
  have h2 : Canon s2 := .foldl (fun _ _ h => .foldl (fun _ _ h => .bump h) h) (.updCross h)
  have h3 : Canon s3 := .ite (.ringAlarm h2) h2
  exact .ite h (.ite (.log (.bump h3)) h3)

/-! ### `Machine/Sec` -/

theorem Canon.updSec {f} (h : Canon s) : Canon (s.updSec f) := h

theorem Canon.enrol {k ok} (h : Canon s) : Canon (s.enrol k ok) :=
  .ite h (.ite (.setFld (.setFld (.updSec h))) (.setFld h))

theorem Canon.setEpoch {k v} (h : Canon s) : Canon (s.setEpoch k v) := .ite (.updSec h) h
theorem Canon.newChallenge (h : Canon s) : Canon s.newChallenge := .updSec (.draw h)

theorem Canon.proof {k word3} (h : Canon s) : Canon (s.proof k word3) :=
  .ite (.bump (.updSess (.newChallenge (.updSec h)))) (.log (.bump (.newChallenge (.updSec h))))

theorem Canon.flashPut {a bs} (h : Canon s) : Canon (s.flashPut a bs) := .updSec h
theorem Canon.flashErase {a n} (h : Canon s) : Canon (s.flashErase a n) := .updSec h

theorem Canon.writeDirectory {d ok} (h : Canon s) : Canon (s.writeDirectory d ok) :=
  .iteOn .flashPut (.flashErase h)

theorem Canon.setChrys {st info} (h : Canon s) : Canon (s.setChrys st info) := .setFld (.updSec h)

theorem CanonRes.fwStage {w area fromDram offset size addr data} (h : Canon s) : CanonRes (s.fwStage w area fromDram
    offset size addr data) := by
  unfold State.fwStage
  extract_lets o n
  exact .ite (.done h) <| .ite (.refuse h) <| .ite (.refuse h) <| .ite (.refuse h) <| .ite (.refuse h) <| .ite
      (.refuse h) <| .ite (.refuse h) <| .ite (.done h) <| .ite (.refuse h) <| .ite (.refuse h) <| .ite .wait <|
      .runOp (fun _ _ h => .iteOn .finishOp (.ite (.setChrys h) h)) h

theorem Canon.fwStageDone {k fail} (h : Canon s) : Canon (s.fwStageDone k fail) := by
  fun_cases State.fwStageDone
  case case1 => exact .finishOp (.flashPut (.flashErase (.ite (.accountRead h) h)))
  case case2 => exact .failOp (.flashPut (.flashPut (.ofPair ‹_› (.draw (.flashErase (.ite (.accountRead h) h))))))
  case case3 => exact h

theorem CanonRes.fwVerify {w} (h : Canon s) : CanonRes (s.fwVerify w) :=
  .ite .wait (.runOp (fun _ _ h => h) h)

theorem Canon.fwVerifyDone {k} (h : Canon s) : Canon (s.fwVerifyDone k) := by
  fun_cases State.fwVerifyDone
  case case1 => exact .finishOp (.setChrys h)
  case case2 => exact .failOp (.iteOn .bump (.bump (.setChrys h)))
  case case3 => exact h

theorem CanonOpt.moltRefusal {w} (h : Canon s) : CanonOpt (s.moltRefusal w) :=
  .ite (.some (.refuse h)) (.ite (.some (.refuse h)) (.ite (.some (.refuse h)) .none))

theorem CanonRes.fwMolt {w advance noReply} (h : Canon s) : CanonRes (s.fwMolt w advance noReply) := by
  fun_cases State.fwMolt
  case case1 => exact .ofOpt ‹_› (.moltRefusal h)
  case case2 => exact .okRes (.updSec h)

theorem Canon.molt {ok} (h : Canon s) : Canon (s.molt ok) := by
  fun_cases State.molt
  case case1 | case2 => exact h
  case case3 => exact .log (.bump (.updSec h))
  case case4 => exact .updSys (.leaveTile (.bump (.writeDirectory (.updSec h))))
  case case5 => exact .requestReset (.bump (.writeDirectory (.updSec h)))
  case case6 => exact .log (.bump (.setChrys (.writeDirectory (.updSec h))))

theorem CanonRes.attest {w nonce pubkey} (h : Canon s) : CanonRes (s.attest w nonce pubkey) :=
  .ite (.refuse h) (.ite .wait (.runOp (fun _ _ h => h) h))

theorem Canon.reserve {ok} (h : Canon s) : Canon (s.reserve ok).2 := .iteSnd (.bump (.updSec h)) (.updSec h)

theorem Canon.attestDone {k nvmOk} (h : Canon s) : Canon (s.attestDone k nvmOk) := by
  fun_cases State.attestDone
  case case1 => exact h
  case case2 => exact .finishOp (.bump (.updSec (.ofPair ‹_› (.iteSnd h (.reserve h)))))
  case case3 => exact .failOp (.ofPair ‹_› (.iteSnd h (.reserve h)))
  case case4 => exact h

theorem CanonOpt.instarRefusal {w target confirm} (h : Canon s) : CanonOpt (s.instarRefusal w target confirm) := by
  unfold State.instarRefusal
  extract_lets busy
  exact .ite (.some (.done h)) <| .ite (.some (.refuse h)) <| .ite (.some (.refuse h)) <| .ite (.some (.refuse h))
      <| .ite (.some (.refuse h)) <| .ite (.some (.refuse h)) <| .ite (.some (.refuse h)) <| .ite (.some (.refuse
      h)) .none

theorem CanonRes.instarAdvance {w target confirm a b} (h : Canon s) : CanonRes (s.instarAdvance w target confirm a
    b) := by
  fun_cases State.instarAdvance
  case case1 => exact .ofOpt ‹_› (.instarRefusal h)
  case case2 => exact .okRes (.requestReset (.updSec (.ite (.updSec h) h)))
  case case3 => exact .refuse (.log (.updSec (.ite (.updSec h) h)))

/-! ### `Machine/RegAccess` -/

theorem Canon.readReg {live a} (h : Canon s) : Canon (s.readReg live a).2 := by
  fun_cases State.readReg
  case case1 | case2 | case3 => exact h
  case case4 => exact .ite (.setWord h) h
  case case5 => exact h

theorem Canon.readRegs {live a n} (h : Canon s) : Canon (s.readRegs live a n).2 := by
  induction n generalizing s a with
  | zero => exact h
  | succ n ih => exact ih (.readReg h)

theorem Canon.servoResumes {before} (h : Canon s) : Canon (s.servoResumes before) := .ite (.setFld h) h

theorem Canon.timeActions {trig} (h : Canon s) : Canon (s.timeActions trig) :=
  .iteOn .timeCntClr (.iteOn .timeAdj (.iteOn .timeSet (.iteOn .reacquire (.ite (.timeSnap h) h))))

theorem Canon.ingCntClr {k} (h : Canon s) : Canon (s.ingCntClr k) := .updStream (.setFld h)
theorem Canon.ldrMeasure (h : Canon s) : Canon s.ldrMeasure := .ite (.startMeasure h) h
theorem Canon.ldrCntClr (h : Canon s) : Canon s.ldrCntClr := .foldl (fun _ _ h => .setWord h) h

theorem Canon.writeLnkCtrl {q v trig} (h : Canon s) : Canon (s.writeLnkCtrl q v trig) :=
  .iteOn .hostRetrain (.writeDeep (.setFld (.setFld h)))

theorem Canon.writeBankSet {b v} (h : Canon s) : Canon (s.writeBankSet b v) :=
  .ite (.setBankPwr h) (.putBankOwner (.setBankPwr h))

theorem Canon.writeOwnerCtrl {k v trig} (h : Canon s) : Canon (s.writeOwnerCtrl k v trig) :=
  .setEpoch (.ite (.enrol (.draw h)) h)

theorem Canon.writeProof {k i v} (h : Canon s) : Canon (s.writeProof k i v) := .ite (.proof h) (.updSec h)
theorem Canon.writeOwnerKey {k i v} (h : Canon s) : Canon (s.writeOwnerKey k i v) := .ite (.updSec h) h

theorem CanonSome.writeSpecial {k ix base a m v trig} (h : Canon s) : CanonSome (s.writeSpecial k ix base a m v
    trig) := by
  unfold State.writeSpecial
  extract_lets i
  split
  · exact .ite (.some (.setRole h)) (.ite (.some (.writeModeReq h)) .none)
  · exact .ite (.some (.writeTimeSrc h)) (.ite (.some (.timeActions (.servoResumes (.setWord h)))) .none)
  · exact .ite (.some (.writeEthMode h)) (.ite (.some (.writeEthMode h)) (.ite (.some (.setWord h)) .none))
  · exact .ite (.some (.ite (.ingCntClr (.setWord h)) (.setWord h))) .none
  · exact .ite (.some (.wbHeld (.setWord h))) .none
  · exact .ite (.some (.writeLnkCtrl h)) (.ite (.some (.setWord h)) .none)
  · exact .ite (.some (.ite (.ldrCntClr (.ite (.ldrMeasure h) h)) (.ite (.ldrMeasure h) h))) .none
  · exact .ite (.some (.ite (.setInService h) h)) <| .ite (.some (.ite h (.setWord h))) <| .ite (.some
        (.writeBankSet h)) .none
  · exact .ite (.some (.writeOwnerCtrl h)) (.ite (.some (.writeOwnerKey h)) (.ite (.some (.writeProof h)) .none))
  · exact .ite (.some (.alertEdge (.setWord h))) .none
  · exact .none

theorem Canon.landWord {k a v trig} (h : Canon s) : Canon (s.landWord k a v trig) := by
  unfold State.landWord
  split
  · exact h
  split
  · exact h
  extract_lets m
  split
  · exact .rejoin (CanonSome.writeSpecial h _ ‹_›)
  · exact .rejoin (.setWord h)

theorem Canon.writeReg {k a v} (h : Canon s) : Canon (s.writeReg k a v) := .landWord h

theorem Canon.writeRegs {k a vs} (h : Canon s) : Canon (s.writeRegs k a vs) := by
  induction vs generalizing s a with
  | nil => exact h
  | cons v vs ih => exact ih (.writeReg h)

theorem Canon.modifyReg {k a mask value} (h : Canon s) : Canon (s.modifyReg k a mask value).2 :=
  .landWord (.readReg h)

theorem CanonRes.regRead {live addr count} (h : Canon s) : CanonRes (s.regRead live addr count) := by
  fun_cases State.regRead
  case case1 => exact .refuse h
  case case2 => exact .okRes (.readRegs h)

/-! ### `Machine/Txn` -/

theorem Canon.updTxn {f} (h : Canon s) : Canon (s.updTxn f) := h
theorem Canon.putTxn {x} (h : Canon s) : Canon (s.putTxn x) := .updTxn h
theorem Canon.endTxn {x st reason} (h : Canon s) : Canon (s.endTxn x st reason) := .updTxn (.putTxn h)
theorem Canon.abortTxn {x code} (h : Canon s) : Canon (s.abortTxn x code) := .bump (.endTxn h)
theorem CanonRes.uncertainRes {x} (h : Canon s) : CanonRes (s.uncertainRes x) := .done h

theorem CanonErr.findTxn {uid id orUncertain} (h : Canon s) : CanonErr (s.findTxn uid id orUncertain) := by
  fun_cases State.findTxn
  case case1 => exact .error (.refuse h)
  case case2 => exact .ok
  case case3 | case4 => exact .error (.refuse h)
  case case5 => exact .ok
  case case6 => exact .error (.refuse h)
  case case7 => exact .error (.ite (.done h) (.refuse h))
  case case8 => exact .error (.refuse h)

theorem CanonRes.txnBegin {w id global} (h : Canon s) : CanonRes (s.txnBegin w id global) :=
  .ite (.refuse h) (.ite (.refuse h) (.okRes (.updSess (.updTxn h))))

theorem CanonRes.addEntries {x es reply} (h : Canon s) : CanonRes (s.addEntries x es reply) :=
  .ite (.refuse h) (.ite (.done (.abortTxn h)) (.okRes (.putTxn h)))

theorem CanonRes.regWrite {k x addr vals} (h : Canon s) : CanonRes (s.regWrite k x addr vals) := by
  fun_cases State.regWrite
  case case1 | case2 => exact .refuse h
  case case3 => exact .okRes (.writeRegs h)
  case case4 => exact .refuse h
  case case5 => exact .addEntries h

theorem CanonRes.regModify {k x addr mask value} (h : Canon s) : CanonRes (s.regModify k x addr mask value) := by
  unfold State.regModify
  extract_lets a r
  split
  · exact .refuse h
  · split
    · exact .refuse h
    · exact .okRes (.modifyReg h)
    · exact .refuse h
    · exact .addEntries h
    · exact .addEntries h

theorem Canon.tally {count k} (h : Canon s) : Canon (s.tally count k) := .ite (.bump h) h

/-- The function is replaced whole: unfolded in place, the kernel evaluates the target's beat. -/
theorem CanonErr.checkCommit {x t st count} (h : Canon s) : CanonErr (s.checkCommit x t st count) := by
  suffices key : ∀ f, f = @State.checkCommit → CanonErr (f s x t st count) from key _ rfl
  intro f hf
  delta State.checkCommit at hf
  subst hf
  beta_reduce
  cases s.aim x.entries t with
  | none => exact .error (.refuse h)
  | some a =>
    refine .ite (.error (.refuse (.tally h))) (.ite (.error (.refuse h)) (.ite (.error (.refuse h)) ?_))
    extract_lets y
    split
    · exact .error (.refuse (.tally h))
    · exact .ok

theorem CanonErr.commitLocal {w id t count} (h : Canon s) : CanonErr (s.commitLocal w id t count) := by
  fun_cases State.commitLocal
  case case1 => exact .error (.ofErr ‹_› (.findTxn h))
  case case2 => exact .error (.refuse h)
  case case3 => exact .error .wait
  case case4 => exact .checkCommit h

theorem CanonRes.txnCommit {w id t} (h : Canon s) : CanonRes (s.txnCommit w id t) := by
  fun_cases State.txnCommit
  case case1 => exact .ofErr ‹_› (.commitLocal h)
  case case2 => exact .okRes (.updTxn (.putTxn h))

theorem CanonErr.checkDecision {src id t commit count} (h : Canon s) : CanonErr (s.checkDecision src id t commit
    count) := by
  fun_cases State.checkDecision
  case case1 | case2 | case3 => exact .error (.refuse h)
  case case4 | case5 => exact .error (.refuse (.tally h))
  case case6 => exact .ok

theorem CanonRes.recordDecision {src id t commit} (h : Canon s) : CanonRes (s.recordDecision src id t commit) := by
  fun_cases State.recordDecision
  case case1 => exact .ofErr ‹_› (.checkDecision h)
  case case2 => exact .okRes (.updTxn h)

theorem CanonRes.txnValidate {w id global t} (h : Canon s) : CanonRes (s.txnValidate w id global t) := by
  fun_cases State.txnValidate
  case case1 => exact .ofErr ‹_› (.checkDecision h)
  case case2 => exact .okRes h
  case case3 => exact .ofErr ‹_› (.commitLocal h)
  case case4 => exact .okRes h

theorem CanonRes.txnAbort {w id} (h : Canon s) : CanonRes (s.txnAbort w id) := by
  fun_cases State.txnAbort
  case case1 => exact .ofErr ‹_› (.findTxn h)
  case case2 => exact .okRes (.abortTxn h)

theorem CanonRes.txnQuery {w id} (h : Canon s) : CanonRes (s.txnQuery w id) := by
  fun_cases State.txnQuery
  case case1 => exact .okRes h
  case case2 => exact .uncertainRes h
  case case3 => exact .okRes h

theorem CanonRes.txnQueryGlobal {src id} (h : Canon s) : CanonRes (s.txnQueryGlobal src id) := by
  fun_cases State.txnQueryGlobal
  case case1 => exact .refuse h
  case case2 | case3 => exact .okRes h

theorem CanonRes.txnPrepare {w id t} (h : Canon s) : CanonRes (s.txnPrepare w id t) := by
  fun_cases State.txnPrepare
  case case1 => exact .uncertainRes h
  case case2 => exact .ofErr ‹_› (.findTxn h)
  case case3 => exact .refuse h
  case case4 => exact .wait
  case case5 => exact .ofErr ‹_› (.checkCommit h)
  case case6 => exact .okRes (.updTxn (.putTxn h))
  case case7 => exact .refuse h

theorem Canon.endTxns {uid} (h : Canon s) : Canon (s.endTxns uid) :=
  .updTxn (.foldl (fun _ _ h => .abortTxn h) h)

theorem Canon.gridApplied {before x} (h : Canon s) : Canon (s.gridApplied before x) :=
  .ite h (.ite (.updTm h) (.updTm h))

theorem Canon.gridBegins {n t} (h : Canon s) : Canon (s.gridBegins n t) :=
  .ite (.updTxn h) (.updTm (.updTxn h))

theorem Canon.gridLeaves {before} (h : Canon s) : Canon (s.gridLeaves before) := .ite h (.updTm h)

theorem regsWf_onRegs {e : Entry} {r : List (Nat × Word)} (h : regsWf r = true) : regsWf (e.onRegs r) = true := by
  cases e
  case write | modify => exact sparseWf_put _ _ h
  all_goals exact h

theorem regsWf_entriesOnRegs {es : List Entry} {r : List (Nat × Word)} (h : regsWf r = true) :
    regsWf (entriesOnRegs es r) = true := by
  induction es generalizing r with
  | nil => exact h
  | cons e es ih => exact ih (regsWf_onRegs h)

theorem Canon.runEntries {x} (h : Canon s) : Canon (s.runEntries x) := by
  unfold State.runEntries
  extract_lets before addrs s1 s2 s3 s4 s5 s6 s7 diag s8 s9 s10 s11 s12 s13
  have h1 : Canon s1 := .settleTokens (.keepHist h)
  have h2 : Canon s2 := ⟨h1.1, regsWf_entriesOnRegs h1.2⟩
  have h4 : Canon s4 := by
    refine .foldl (fun t e ht => ?_) (.updTxn h2)
    split
    · exact .setRoutes ht
    · exact ht
  have h7 : Canon s7 := .fadeCommit (.snapImages (.updTm h4))
  have h9 : Canon s9 := .iteOn .updTile (.iteOn .allChains h7)
  have h10 : Canon s10 := by
    refine .ite (.redCommit h9) (.ite (.foldl (fun t e ht => ?_) h9) h9)
    split
    · exact .exchangeNow ht
    · exact ht
  have h13 : Canon s13 := by
    refine .foldl (fun t e ht => ?_) (.streamsAfter (.banksApplied h10))
    split
    · exact .updSec ht
    · exact ht
  exact .rejoin h13

theorem Canon.applyTxn {x} (h : Canon s) : Canon (s.applyTxn x) :=
  .iteOn .updSess (.gridApplied (.bump (.endTxn (.runEntries h))))

theorem Canon.resolveTxn {x} (h : Canon s) : Canon (s.resolveTxn x) :=
  .ite (.applyTxn h) (.ite (.gridLeaves (.abortTxn h)) (.gridLeaves (.log (.bump (.putTxn h)))))

/-! ### `Machine/MemCmd` -/

theorem CanonOpt.writeLocked {a n} (h : Canon s) : CanonOpt (s.writeLocked a n) :=
  .ite (.map fun _ => .refuse h) (.ite (.map fun _ => .refuse h) .none)

theorem CanonRes.memRead {a count} (h : Canon s) : CanonRes (s.memRead a count) :=
  .ite (.refuse h) (.ite (.refuse h) (.ite (.refuse h) (.ite .wait (.okRes (.accountRead h)))))

theorem CanonRes.memWrite {a vals} (h : Canon s) : CanonRes (s.memWrite a vals) := by
  fun_cases State.memWrite
  case case1 | case2 => exact .refuse h
  case case3 => exact .ofOpt ‹_› (.writeLocked h)
  case case4 => exact .wait
  case case5 => exact .okRes (.writeBytes h)

theorem CanonRes.startMover {w opcode kind size} (h : Canon s) : CanonRes (s.startMover w opcode kind size) :=
  .runOp (fun _ _ h => .ite (.finishOp h) h) h

theorem CanonRes.memFill {w a size pattern} (h : Canon s) : CanonRes (s.memFill w a size pattern) := by
  fun_cases State.memFill
  case case1 | case2 | case3 => exact .refuse h
  case case4 => exact .ofOpt ‹_› (.writeLocked h)
  case case5 => exact .startMover h

theorem CanonRes.memCopy {w src dst size} (h : Canon s) : CanonRes (s.memCopy w src dst size) := by
  fun_cases State.memCopy
  case case1 | case2 | case3 | case4 | case5 | case6 => exact .refuse h
  case case7 => exact .ofOpt ‹_› (.writeLocked h)
  case case8 => exact .startMover h

theorem Canon.memFillDone {k} (h : Canon s) : Canon (s.memFillDone k) := by
  fun_cases State.memFillDone
  case case1 => exact h
  case case2 => exact .finishOp (.serve (.foldl (fun _ _ h => .ite (.putWord h) h) h))
  case case3 => exact h

theorem Canon.memCopyDone {k} (h : Canon s) : Canon (s.memCopyDone k) := by
  fun_cases State.memCopyDone
  case case1 => exact h
  case case2 => exact .finishOp (.serve (.serve (.foldlFst (fun _ _ h => .copyWord h) h)))
  case case3 => exact h

theorem CanonRes.fabProbe {w routeLen fwd} (h : Canon s) : CanonRes (s.fabProbe w routeLen fwd) := by
  fun_cases State.fabProbe
  case case1 => exact .ofOpt ‹_› (.probeRefused h)
  case case2 => exact .runOp (fun _ _ h => .startProbe h) h

theorem Canon.endProbe {who} (h : Canon s) : Canon (s.endProbe who) := .updFab h

theorem Canon.fabProbeDone {k} (h : Canon s) : Canon (s.fabProbeDone k) := by
  fun_cases State.fabProbeDone
  case case1 => exact .finishOp (.endProbe h)
  case case2 | case3 => exact h

theorem CanonRes.assignAnswer {addr result} (h : Canon s) : CanonRes (s.assignAnswer addr result) :=
  .ite (.okRes h) (.refuse h)

theorem CanonRes.fabAssign {w routeLen newAddr fwd serial} (h : Canon s) : CanonRes (s.fabAssign w routeLen newAddr
    fwd serial) := by
  fun_cases State.fabAssign
  case case1 => exact .ofOpt ‹_› (.probeRefused h)
  case case2 => exact .refuse h
  case case3 => exact .assignAnswer (.assignSelf h)
  case case4 => exact .later (.startProbe h)

theorem CanonOpt.fabAssignEnd {uid} (h : Canon s) : CanonOpt (s.fabAssignEnd uid) := by
  fun_cases State.fabAssignEnd
  case case1 => exact .some (.assignAnswer (.endProbe h))
  case case2 => exact .some (.refuse (.endProbe h))
  case case3 | case4 => exact .none

theorem CanonRes.fabRouteSet {x first setDef defPorts es} (h : Canon s) : CanonRes (s.fabRouteSet x first setDef
    defPorts es) := by
  fun_cases State.fabRouteSet
  case case1 => exact .addEntries h
  case case2 => exact .routeSet h

theorem CanonRes.fabPathTest {w target plen count} (h : Canon s) : CanonRes (s.fabPathTest w target plen count) :=
  .ite (.refuse h) (.runOp (fun _ _ h => .ite (.finishOp h) (.updFab h)) h)

theorem Canon.pathResult {t} (h : Canon s) : Canon (s.pathResult t).2 := .iteSnd (.draw h) h

theorem Canon.fabPathTestDone {k} (h : Canon s) : Canon (s.fabPathTestDone k) := by
  fun_cases State.fabPathTestDone
  case case1 => exact .finishOp (.updFab (.pathResult h))
  case case2 | case3 => exact h

theorem CanonRes.tableLoad {w t fromFlash a size} (h : Canon s) : CanonRes (s.tableLoad w t fromFlash a size) := by
  fun_cases State.tableLoad
  case case1 | case2 | case3 | case4 | case5 | case6 | case7 => exact .refuse h
  case case8 => exact .wait
  case case9 => exact .runOp (fun _ _ h => .tblInvalidate h) h

theorem Canon.copyTable {dst fromFlash a size} (h : Canon s) : Canon (s.copyTable dst fromFlash a size) :=
  .ite (.writeBytes h) (.ite h (.writeBytes (.accountRead h)))

theorem Canon.tableLoadDone {k} (h : Canon s) : Canon (s.tableLoadDone k) := by
  fun_cases State.tableLoadDone
  case case1 => exact .finishOp (.tableLoaded (.tblInvalidate (.copyTable h)))
  case case2 => exact h

theorem CanonRes.tableVerify {w t} (h : Canon s) : CanonRes (s.tableVerify w t) := by
  fun_cases State.tableVerify
  case case1 => exact .refuse h
  case case2 => exact .runOp (fun _ _ h => h) h

theorem Canon.tableVerifyDone {k} (h : Canon s) : Canon (s.tableVerifyDone k) := by
  fun_cases State.tableVerifyDone
  case case1 => exact .finishOp (.accountRead h)
  case case2 => exact h

theorem CanonRes.lampScanStart {w mask faults stale all ageMin a limit} (h : Canon s) : CanonRes (s.lampScanStart w
    mask faults stale all ageMin a limit) := by
  fun_cases State.lampScanStart
  case case1 | case2 | case3 | case4 | case5 | case6 => exact .refuse h
  case case7 => exact .runOp (fun _ _ h => h) h

theorem Canon.lampScanDone {k} (h : Canon s) : Canon (s.lampScanDone k) := by
  fun_cases State.lampScanDone
  case case1 => exact .finishOp (.lampScan h)
  case case2 => exact h

/-! ### `Machine/Host` -/

theorem Canon.spell {it} (h : Canon s) : Canon (s.spell it).2 := by
  fun_cases State.spell
  case case1 => exact h
  case case2 => exact .draw h
  case case3 => exact h

theorem Canon.udpSegment {via host seg} (h : Canon s) : Canon (s.udpSegment via host seg) := by
  fun_cases State.udpSegment
  case case1 => exact .emitUdp h
  case case2 | case3 => exact h

theorem Canon.sendReply {via r} (h : Canon s) : Canon (s.sendReply via r) := by
  fun_cases State.sendReply
  case case1 => exact .emitUdp (.foldl (fun _ _ h => .udpSegment h) h)
  case case2 => exact .foldl (fun _ _ h => .ringPush h) (.emit h)
  case case3 => exact h
  case case4 => exact .foldl (fun _ _ h => .originate h) (.emit h)

theorem Canon.replyUnless {quiet via r} (h : Canon s) : Canon (s.replyUnless quiet via r) :=
  .ite h (.sendReply h)

theorem Canon.answer {via it status payload} (h : Canon s) : Canon (s.answer via it status payload) :=
  .replyUnless h

theorem Canon.answerKept {k via it status payload} (h : Canon s) : Canon (s.answerKept k via it status payload) :=
  .replyUnless (.ite (.updSess h) h)

theorem CanonOpt.checkTxn {uid it} (h : Canon s) : CanonOpt (s.checkTxn uid it) := by
  unfold State.checkTxn
  extract_lets op global fault
  have hf {e} (he : CanonErr e) : CanonOpt (fault e) := by
    cases e with
    | ok => exact .none
    | error r => exact .some (he r rfl)
  refine .ite (hf (.findTxn h)) (.ite ?_ .none)
  split
  · exact .ite (.some (.uncertainRes h)) (hf (.findTxn h))
  · exact hf (.findTxn h)

theorem CanonErr.checkPacket {uid it} (h : Canon s) : CanonErr (s.checkPacket uid it) := by
  fun_cases State.checkPacket
  case case1 | case2 | case3 => exact .error (.done h)
  case case4 | case5 | case6 => exact .error (.refuse h)
  case case7 => exact .error (.done h)
  case case8 => exact .error (.ofOpt ‹_› (.checkTxn h))
  case case9 | case10 => exact .ok
  case case11 => exact .error (.refuse h)
  case case12 => exact .ok
  case case13 => exact .error (.ofErr ‹_› (.findTxn h))

theorem CanonRes.onTile {r} (hr : CanonRes r) (h : Canon s) : CanonRes (s.onTile r) := .ite hr (.refuse h)

theorem CanonRes.reservedRes {it} (h : Canon s) : CanonRes (s.reservedRes it) :=
  .ite (.onTile (.ite (.refuse h) (.ite (.refuse h) (.refuse h))) h) (.refuse h)

theorem CanonRes.plainBody {k c} (h : Canon s) : CanonRes (s.plainBody k c) := by
  fun_cases State.plainBody
  case case1 => exact .regWrite h
  case case2 => exact .regModify h
  case case3 => exact .errClear h
  case case4 => exact .patternStop h
  case case5 | case6 | case7 | case8 => exact .patternRun h
  case case9 | case10 => exact .patternInject h
  case case11 => exact .onTile (.lampPatternStart h) h
  case case12 => exact .onTile (.lampPatternStop h) h
  case case13 => exact .okRes (.requestReset h)
  case case14 | case15 | case16 | case17 | case18 => exact .domainReset h
  case case19 => exact .okRes h

theorem CanonRes.redSwitchCmd {x sel} (h : Canon s) : CanonRes (s.redSwitchCmd x sel) := by
  fun_cases State.redSwitchCmd
  case case1 => exact .refuse h
  case case2 => exact .addEntries h
  case case3 => exact .redSwitch h

theorem CanonRes.fwMoltCmd {w x advance noReply} (h : Canon s) : CanonRes (s.fwMoltCmd w x advance noReply) := by
  fun_cases State.fwMoltCmd
  case case1 => exact .fwMolt h
  case case2 => exact .refuse h
  case case3 => exact .ofOpt ‹_› (.moltRefusal h)
  case case4 => exact .addEntries h

theorem CanonRes.actionRes {k hd op ws} (h : Canon s) : CanonRes (s.actionRes k hd op ws) := by
  fun_cases State.actionRes
  case case1 => exact .plainBody h
  case case2 => exact .reservedRes h

theorem CanonRes.schedAction {w hd t op ws} (h : Canon s) : CanonRes (s.schedAction w hd t op ws) := by
  fun_cases State.schedAction
  case case1 => exact .refuse h
  case case2 | case3 => exact .okRes h
  case case4 => exact .done h
  case case5 => exact .refuse h
  case case6 => exact .refuse (.tally h)
  case case7 => exact .refuse h
  case case8 => exact .refuse (.tally h)
  case case9 => exact .okRes (.updTxn h)

theorem CanonRes.schedCancel {w id} (h : Canon s) : CanonRes (s.schedCancel w id) := by
  fun_cases State.schedCancel
  case case1 => exact .done h
  case case2 => exact .refuse h
  case case3 => exact .done h
  case case4 => exact .okRes (.updTxn h)

theorem Canon.runAction {a} (h : Canon s) : Canon (s.runAction a) := by
  unfold State.runAction
  extract_lets u k k'
  have hu : Canon u := .updTxn h
  split
  next st payload v e =>
    have hv : Canon v := by
      split at e <;> obtain ⟨rfl, rfl, rfl⟩ := e
      exacts [.ofDone ‹_› (.actionRes hu), hu, .ofLater ‹_› (.actionRes hu)]
    extract_lets w x
    have hx : Canon x := .setFld (.setFld (.bump hv))
    exact .ite hx (.log hx)

theorem CanonRes.hostBody {w x c} (h : Canon s) : CanonRes (s.hostBody w x c) := by
  fun_cases State.hostBody
  case case1 => exact .okRes h
  case case2 | case3 => exact .regRead h
  case case4 => exact .regWrite h
  case case5 => exact .regModify h
  case case6 => exact .memRead h
  case case7 => exact .memWrite h
  case case8 => exact .memFill h
  case case9 => exact .memCopy h
  case case10 => exact .txnBegin h
  case case11 => exact .txnCommit h
  case case12 => exact .txnValidate h
  case case13 => exact .recordDecision h
  case case14 => exact .txnAbort h
  case case15 => exact .recordDecision h
  case case16 => exact .txnQuery h
  case case17 => exact .txnQueryGlobal h
  case case18 => exact .txnPrepare h
  case case19 => exact .gatedBody (fun _ h => .fenceSignal h) h
  case case20 => exact .gatedBody (fun _ h => .fenceReset h) h
  case case21 => exact .fenceQuery h
  case case22 => exact .gatedBody (fun _ h => .layerFlip h) h
  case case23 => exact .schedAction h
  case case24 => exact .schedCancel h
  case case25 => exact .opStatus h
  case case26 => exact .opResult h
  case case27 => exact .opRelease h
  case case28 => exact .fabProbe h
  case case29 => exact .fabAssign h
  case case30 => exact .fabRouteSet h
  case case31 => exact .fabPathTest h
  case case32 => exact .tableLoad h
  case case33 => exact .tableVerify h
  case case34 => exact .lampScanStart h
  case case35 => exact .lampReport h
  case case36 => exact .calRun h
  case case37 => exact .calStore h
  case case38 => exact .redJoin h
  case case39 => exact .redState h
  case case40 => exact .redSwitchCmd h
  case case41 => exact .fwStage h
  case case42 => exact .fwVerify h
  case case43 => exact .fwMoltCmd h
  case case44 => exact .attest h
  case case45 => exact .instarAdvance h
  case case46 => exact .errRead h
  case case47 => exact .diagCounters h
  case case48 => exact .plainBody h

/-! ### `Machine/Session` -/

theorem Canon.endSession {k} (h : Canon s) : Canon (s.endSession k) := .updSess (.endOps (.endTxns h))

theorem Canon.replaceSession {k} (h : Canon s) : Canon (s.replaceSession k) := by
  fun_cases State.replaceSession
  case case1 => exact .updCmd (.endSession h)
  case case2 => exact .endSession h

theorem Canon.holdFront {k it} (h : Canon s) : Canon (s.holdFront k it) := .updSess h

theorem Canon.finishItem {k via it status payload} (h : Canon s) : Canon (s.finishItem k via it status payload) :=
  .iteOn .endSession (.answerKept h)

theorem Canon.execItem {k it x} (h : Canon s) : Canon (s.execItem k it x) := by
  unfold State.execItem
  extract_lets e w c res
  have hres : CanonRes res := by
    unfold res
    split
    · exact .hostBody (.spell h)
    · exact .reservedRes (.spell h)
  clear_value res
  split
  · exact .holdFront h
  · exact .updSess hres
  · exact .finishItem hres

theorem Canon.runItem {k it checked} (h : Canon s) : Canon (s.runItem k it checked) := by
  unfold State.runItem
  extract_lets e u check
  have hu : Canon u := .ite h (.bump h)
  have hcheck : CanonErr check := by
    refine .ite (.ite ?_ .ok) (.checkPacket hu)
    split
    · exact .ok
    · exact .error (.ofErr ‹_› (.findTxn hu))
  clear_value check
  split
  · exact .finishItem (hcheck _ rfl)
  · exact hu
  · exact .ite (.holdFront hu) (.execItem hu)

theorem Canon.dispatch {k it} (h : Canon s) : Canon (s.dispatch k it) :=
  .ite (.updSess (.updSess h)) (.runItem (.updSess h))

theorem Canon.pump {k uid n} (h : Canon s) : Canon (s.pump k uid n) := by
  induction n generalizing s with
  | zero => exact h
  | succ n ih =>
    unfold State.pump
    extract_lets e
    split
    · exact h
    · split
      · exact h
      · extract_lets t
        have ht : Canon t := .runItem h
        exact .ite ht (ih ht)

theorem Canon.pumpAll {k} (h : Canon s) : Canon (s.pumpAll k) := .pump h

theorem Canon.release {k uid n} (h : Canon s) : Canon (s.release k uid n) := by
  induction n generalizing s with
  | zero => exact h
  | succ n ih =>
    unfold State.release
    extract_lets e
    split
    · exact h
    · split
      · exact h
      · exact .ite (ih (.dispatch (.updSess h))) h

theorem Canon.releaseAll {k} (h : Canon s) : Canon (s.releaseAll k) := .release h

theorem Canon.holdItem {k it} (h : Canon s) : Canon (s.holdItem k it) :=
  .ite (.answer h) (.ite (.answer (.bump h)) (.updSess h))

theorem Canon.duplicate {k it} (h : Canon s) : Canon (s.duplicate k it) := by
  fun_cases State.duplicate
  case case1 => exact .replyUnless (.bump h)
  case case2 | case3 => exact .answer (.bump h)

theorem Canon.sequence {k it} (h : Canon s) : Canon (s.sequence k it) :=
  .ite (.duplicate h) (.ite (.answer (.bump h)) (.ite (.releaseAll (.dispatch h)) (.holdItem h)))

theorem Canon.holdTimeout {k} (h : Canon s) : Canon (s.holdTimeout k) :=
  .ite h (.foldl (fun _ _ h => .answer (.bump h)) (.updSess h))

theorem Canon.afterJoin {k} (h : Canon s) : Canon (s.afterJoin k) := .releaseAll (.updSess h)

theorem Canon.openAt {it openId} (h : Canon s) : Canon (s.openAt it openId) := by
  fun_cases State.openAt
  case case1 => exact .answer h
  case case2 => exact .answer (.updCmd (.updSess h))

theorem Canon.openSession {it openId} (h : Canon s) : Canon (s.openSession it openId) := by
  fun_cases State.openSession
  case case1 => exact .answer h
  case case2 => exact .openAt (.replaceSession h)
  case case3 => exact .openAt h

theorem Canon.unsequenced {it} (h : Canon s) : Canon (s.unsequenced it) := by
  unfold State.unsequenced
  extract_lets u
  have hu : Canon u := .bump h
  split
  · exact .answer (.ofDone rfl (.ofErr ‹_› (.checkPacket hu)))
  · exact hu
  · refine .ite (.openSession hu) ?_
    split
    · exact .answer (.ofDone ‹_› (.hostBody hu))
    · exact hu

theorem Canon.relayNote {src via} (h : Canon s) : Canon (s.relayNote src via) := .updCmd h

theorem Canon.relayPacket {it raw} (h : Canon s) : Canon (s.relayPacket it raw) := by
  fun_cases State.relayPacket
  case case1 => exact .bump (.relayNote h)
  case case2 => exact .answer (.bump (.relayNote h))
  case case3 => exact .foldl (fun _ _ h => .originate h) (.relayNote h)

theorem Canon.routePacket {q src it raw} (h : Canon s) : Canon (s.routePacket q src it raw) :=
  .foldl (fun _ _ h => .forwardCell h) h

theorem Canon.stray {it raw} (h : Canon s) : Canon (s.stray it raw) := by
  fun_cases State.stray
  case case1 => exact .relayPacket h
  case case2 => exact .bump h
  case case3 => exact .routePacket h
  case case4 => exact .bump h

theorem Canon.receive {it raw} (h : Canon s) : Canon (s.receive it raw) := by
  fun_cases State.receive
  case case1 => exact h
  case case2 => exact .stray h
  case case3 | case4 => exact .unsequenced h
  case case5 | case6 => exact .answer h
  case case7 => exact .sequence (.updSess h)

theorem Canon.barrierRelease {k} (h : Canon s) : Canon (s.barrierRelease k) := by
  fun_cases State.barrierRelease
  case case1 => exact .pumpAll h
  case case2 | case3 => exact h

theorem Canon.deferredDispatch {k} (h : Canon s) : Canon (s.deferredDispatch k) := by
  fun_cases State.deferredDispatch
  case case1 => exact h
  case case2 => exact .pumpAll h
  case case3 => exact h

theorem Canon.fabAssignDone {k} (h : Canon s) : Canon (s.fabAssignDone k) := by
  unfold State.fabAssignDone
  split
  · split
    · exact .replyUnless (.updCmd (.ofDone rfl (.ofOpt ‹_› (.fabAssignEnd h))))
    · exact h
  · split
    · split
      · exact .pumpAll (.finishItem (.updSess (.ofDone rfl (.ofOpt ‹_› (.fabAssignEnd h)))))
      · exact h
    · exact h

/-! ### `Machine/Transport` -/

theorem Canon.dropCount (h : Canon s) : Canon (dropCount s) := .bump h

theorem Canon.authFail {ip port g keySrc keyId} (h : Canon s) : Canon (s.authFail ip port g keySrc keyId) :=
  .ite (.bump h) (.emitUdp (.updCmd (.bump h)))

theorem Canon.packetDone {via keySrcs last bs} (h : Canon s) : Canon (s.packetDone via keySrcs last bs) := by
  fun_cases State.packetDone
  case case1 => exact .dropCount h
  case case2 | case3 => exact .bump h
  case case4 => exact .authFail h
  case case5 => exact .receive h

theorem Canon.dropPartial {via id} (h : Canon s) : Canon (s.dropPartial via id) := .updCmd h

theorem Canon.startPartial {via keySrcs g} (h : Canon s) : Canon (s.startPartial via keySrcs g) :=
  .ite (.packetDone h) (.ite (.dropCount h) (.updCmd h))

theorem Canon.takeSegment {via keySrcs g} (h : Canon s) : Canon (s.takeSegment via keySrcs g) := by
  fun_cases State.takeSegment
  case case1 => exact h
  case case2 => exact .dropCount h
  case case3 => exact .startPartial h
  case case4 => exact .startPartial (.dropCount (.dropPartial h))
  case case5 => exact h
  case case6 => exact .packetDone (.dropPartial h)
  case case7 => exact .updCmd h

theorem Canon.reassemblyTimeout {via id} (h : Canon s) : Canon (s.reassemblyTimeout via id) := by
  fun_cases State.reassemblyTimeout
  case case1 => exact .dropCount (.dropPartial h)
  case case2 | case3 => exact h

theorem Canon.takeCarried {via bs} (h : Canon s) : Canon (s.takeCarried via bs) := by
  fun_cases State.takeCarried
  case case1 => exact .takeSegment h
  case case2 => exact .dropCount h
  case case3 => exact h

theorem Canon.unmatched {m} (h : Canon s) : Canon (s.unmatched m) := .ite (.bump (.frameIn h)) h

theorem Canon.udpDatagram {d} (h : Canon s) : Canon (s.udpDatagram d) := by
  have hf : Canon (s.frameIn d.mediaPort.toNat) := .frameIn h
  have hr (c via) [Decidable c] : Canon (if c then (s.frameIn d.mediaPort.toNat).relayNote d.keySrc via else
      s.frameIn d.mediaPort.toNat) := .ite (.relayNote hf) hf
  unfold State.udpDatagram
  refine .ite (.unmatched h) ?_
  split
  · exact .authFail hf
  · refine .ite (.takeSegment ?_) (.authFail hf)
    split
    · split
      · exact .updSess (hr _ _)
      · exact hr _ _
    · exact hr _ _

theorem Canon.ringFrame {f} (h : Canon s) : Canon (s.ringFrame f) := by
  fun_cases State.ringFrame
  case case1 => exact h
  case case2 => exact .takeCarried (.ofPair ‹_› (.ringIn h))
  case case3 => exact .ofPair ‹_› (.ringIn h)

theorem Canon.relayReply {c} (h : Canon s) : Canon (s.relayReply c) := by
  fun_cases State.relayReply
  case case1 => exact .emitUdp (.udpSegment (.relayNote h))
  case case2 => exact .bump h

theorem Canon.deliver {q c} (h : Canon s) : Canon (s.deliver q c) :=
  .ite (.rasterIn h) (.ite (.takeCarried h) (.ite (.ite (.relayReply h) h) h))

theorem Canon.fabricCell {q c} (h : Canon s) : Canon (s.fabricCell q c) := by
  fun_cases State.fabricCell
  case case1 => exact .deliver (.ofPair ‹_› (.recvCell h))
  case case2 => exact .ofPair ‹_› (.recvCell h)

/-! ### `Machine/Frame` -/

theorem Canon.applyAt {t} (h : Canon s) : Canon (s.applyAt t) := by
  unfold State.applyAt
  extract_lets s1 l
  have h1 : Canon s1 := by
    unfold s1
    refine .foldl (fun _ _ ht => ?_) h
    split
    · exact .resolveTxn ht
    · exact ht
  exact .foldl (fun _ _ h => .ite (.runAction h) h) h1

theorem Canon.applyDue (h : Canon s) : Canon s.applyDue := .foldl (fun _ _ h => .applyAt h) h

theorem Canon.frameStart {n t} (h : Canon s) : Canon (s.frameStart n t) := by
  unfold State.frameStart
  extract_lets s1 s2
  have h2 : Canon s2 := .wbBeat (.mapBeat (.composeBeat (.fsyncOut (.wingbeatCell (.modeBeat h)))))
  exact .ite h (.redBeat (.ldrBeat (.lcrBeat h2)))

theorem Canon.frameTurn {n t} (h : Canon s) : Canon (s.frameTurn n t) := .updTm h

theorem Canon.wingbeat (h : Canon s) : Canon s.wingbeat :=
  .ite (.frameTurn (.frameStart (.gridBegins (.applyDue h)))) h

/-! ### `Machine/Reset` -/

theorem Canon.coin {place} (h : Canon s) : Canon (s.coin place).2 := .draw h
theorem Canon.discard {cause} : Canon (s.discard cause) := .regrid (.alertEdge ⟨rfl, rfl⟩)

theorem Canon.startRole {cause} (h : Canon s) : Canon (s.startRole cause) :=
  .setFld (.ite (.setFld h) (.setFld (.setFld (.setFld h))))

theorem Canon.startClocks (h : Canon s) : Canon s.startClocks :=
  .setBit (.setBit (.setFld (.setFld (.setFld (.setFld (.setFld (.setFld (.setFld (.draw h)))))))))

theorem Canon.startFuses (h : Canon s) : Canon s.startFuses :=
  .setFld (.setBit (.setBit (.setFld (.setFld (.setBit (.setBit (.setBit (.setFld (.ite (.updSec h) h)))))))))

theorem Canon.startSram (h : Canon s) : Canon s.startSram := .restoreLog (.updSys h)
theorem Canon.startCalStat (h : Canon s) : Canon s.startCalStat := .setFld h
theorem Canon.startDram (h : Canon s) : Canon s.startDram := h

theorem Canon.blowSvn {n} (h : Canon s) : Canon (s.blowSvn n).2 := by
  induction n generalizing s with
  | zero => exact h
  | succ n ih =>
    unfold State.blowSvn
    extract_lets have_ step
    refine .iteSnd h ?_
    split
    split
    have hb := Canon.ofPair ‹_› (.coin (.ofPair ‹_› (.coin h)))
    extract_lets t
    exact .iteSnd (ih (.updSec hb)) (.log (.updSec hb))

theorem Canon.advanceSvn (h : Canon s) : Canon s.advanceSvn := by
  fun_cases State.advanceSvn
  case case1 => exact .writeDirectory (.ofPair ‹_› (.coin (.setFld (.ofPair ‹_› (.blowSvn h)))))
  case case2 => exact .setFld (.ofPair ‹_› (.blowSvn h))
  case case3 | case4 => exact h

theorem Canon.startImage (h : Canon s) : Canon s.startImage :=
  .setBit (.ite (.advanceSvn (.setFld (.updSec (.setFld h)))) (.updEth (.setFld (.setFld h))))

theorem Canon.startIndex (h : Canon s) : Canon s.startIndex := .updSec h

theorem Canon.deviceReset (h : Canon s) : Canon s.deviceReset := by
  unfold State.deviceReset
  split
  · exact h
  · extract_lets s1 s2
    have h2 : Canon s2 := .startClocks (.startRole (.discard))
    exact .ite h <| .newChallenge (.startIndex (.startImage (.startDram (.startCalStat (.startSram (.startFuses
        h2))))))

theorem Canon.applyProv (h : Canon s) : Canon s.applyProv :=
  .foldl (fun _ _ h => .ite (.writeReg h) (.log h)) h

theorem Canon.eclosion (h : Canon s) : Canon s.eclosion := by
  unfold State.eclosion
  extract_lets mismatch s1 valid role target s2 s3 s4 s5 s6 s7
  have h2 : Canon s2 := .updSec (.setBit (.ite (.log h) h))
  have h4 : Canon s4 := .enterMode (.ite (.setFld (.setFld h2)) h2)
  have h6 : Canon s6 := .setFld (.setFld (.ite (.applyProv h4) h4))
  exact .ite (.restartPorts (.consumeLog (.ite (.updSys h6) h6))) h

theorem Canon.pinReset (h : Canon s) : Canon s.pinReset := .ite (.emit h) (.requestReset (.emit (.discard )))

theorem Canon.resetPin {lowNs} (h : Canon s) : Canon (s.resetPin lowNs) := by
  fun_cases State.resetPin
  case case1 => exact h
  case case2 => exact .pinReset h
  case case3 => exact .pinReset (.ofPair ‹_› (.coin h))
  case case4 => exact .ofPair ‹_› (.coin h)

theorem Canon.supplyDrop (h : Canon s) : Canon s.supplyDrop := .ite h (.updSys (.same (.discard )))
theorem Canon.powerOn (h : Canon s) : Canon s.powerOn := .requestReset (.updSys h)

theorem Canon.jtagMem {a v} (h : Canon s) : Canon (s.jtagMem a v) := by
  fun_cases State.jtagMem
  case case1 => exact .writeBytes h
  case case2 => exact .emit (.accountRead h)
  case case3 => exact .emit h
  case case4 => exact h

theorem Canon.jtag {op} (h : Canon s) : Canon (s.jtag op) := by
  fun_cases State.jtag
  case case1 | case2 | case3 | case4 | case5 => exact h
  case case6 => exact .emit h
  case case7 => exact .updSec h
  case case8 => exact h
  case case9 => exact .jtagMem h
  case case10 => exact h
  case case11 => exact .jtagMem h
  case case12 => exact h

/-! ### `Machine/LaneEvents` -/

theorem Canon.frxIn {q f} (hf : ∀ x0, Canon x0 → Canon (f x0)) (h : Canon s) : Canon (s.frxIn q f) :=
  .crossIn (fun _ h => hf _ h) h

/-! ### `Machine/TimeEvents` -/

theorem Canon.mediaIn {f} (hf : ∀ x0, Canon x0 → Canon (f x0)) (h : Canon s) : Canon (s.mediaIn f) :=
  .crossIn (fun _ h => hf _ h) h

/-! ### `Machine/MemEvents` -/

theorem Canon.drainDone {b} (h : Canon s) : Canon (s.drainDone b) :=
  .startJob (.iteOn (fun h => .foldl (fun _ _ h => .fillSlots h) h) (.bankDrained h))

/-! ### `Machine/RedEvents` -/

theorem Canon.joinEnded {r} (h : Canon r.2) : Canon (joinEnded r) := by
  unfold Machine.joinEnded
  split
  · exact .afterJoin h
  · exact h

/-! ### `Machine/RegCmds` -/

theorem Canon.landed {f} (hf : ∀ x0, Canon x0 → Canon (f x0)) (h : Canon s) : Canon (s.landed f) :=
  .ite (hf _ h) h

/-! ### `Machine/Tick` -/

theorem Canon.moverTick (h : Canon s) : Canon s.moverTick := .updCmd h
theorem Canon.ethWait (h : Canon s) : Canon s.ethWait := .ite h (.updEth h)

theorem Canon.advance (h : Canon s) : Canon s.advance :=
  .joinWork (.servePump (.moverTick (.ringSend (.domainDue (.sendDue (.same (.ethWait (.scrubFlush h))))))))

/-! ### Commands and steps -/

/-- Where a command leads, the canonical forms hold. -/
def CanonOut (o : Host.Outcome State Fault Refusal) : Prop := ∀ t, o = .next t → Canon t

namespace CanonOut
theorem next (h : Canon s) : CanonOut (.next s) := by rintro _ ⟨⟩; exact h
theorem ite {c : Prop} [Decidable c] {a b : Host.Outcome State Fault Refusal} (ha : CanonOut a) (hb : CanonOut b) :
    CanonOut (if c then a else b) := by
  split <;> assumption

theorem exec (h : Canon s) : ∀ c, CanonOut (Machine.exec c s)
  | .nop .. | .sessionOpen .. | .sessionClose .. | .regRead .. | .regReadLive .. | .regWrite .. | .regModify ..
    | .memRead .. | .memWrite .. | .memFill .. | .memCopy .. | .txnBegin .. | .txnCommit .. | .txnCommitValidate ..
    | .txnCommitGlobal .. | .txnAbort .. | .txnAbortGlobal .. | .txnQuery .. | .txnQueryGlobal .. | .txnPrepare ..
    | .fenceSignal .. | .fenceSignalReset .. | .fenceQuery .. | .layerFlip .. | .schedAction .. | .schedCancel ..
    | .opStatus .. | .opResult .. | .opRelease .. | .fabProbe .. | .fabAssign .. | .fabRouteSet ..
    | .fabPathTest .. | .tableLoad .. | .tableVerify .. | .lampScan .. | .lampReport .. | .calRun .. | .calStore ..
    | .redJoin .. | .redState .. | .redSwitch .. | .fwStage .. | .fwVerify .. | .fwMolt .. | .attest ..
    | .instarAdvance .. | .errRead .. | .errClear .. | .diagPatternStop .. | .diagPatternGenerate ..
    | .diagPatternCheck .. | .diagPatternGenerateCheck .. | .diagPatternLoopback .. | .diagPatternInjectBit ..
    | .diagPatternInjectLcb .. | .diagPatternLampStart .. | .diagPatternLampStop .. | .diagCounters .. | .reset ..
    | .resetMedia .. | .resetFrx .. | .resetDram .. | .resetService .. | .resetFlash .. => .next (.receive h)
  | .sysModeReq .. => .next (.landed (fun _ h => .writeModeReq h) h)
  | .roleSet .. => .next (.landed (fun _ h => .setRole h) h)
  | .timeSrcWrite .. => .next (.landed (fun _ h => .writeReg h) h)
  | .snap .. => .next (.landed (fun _ h => .timeSnap h) h)
  | .reacquire .. => .next (.landed (fun _ h => .reacquire h) h)
  | .set .. => .next (.landed (fun _ h => .timeSet h) h)
  | .adj .. => .next (.landed (fun _ h => .timeAdj h) h)
  | .timeCntClr .. => .next (.landed (fun _ h => .timeCntClr h) h)
  | .ethModeWrite .. => .next (.landed (fun _ h => .writeEthMode h) h)
  | .ingCntClr .. => .next (.landed (fun _ h => .ingCntClr h) h)
  | .lnkRetrain .. => .next (.landed (fun _ h => .hostRetrain h) h)
  | .lnkDeep .. => .next (.landed (fun _ h => .writeDeep h) h)
  | .ldrMeasure .. => .next (.landed (fun _ h => .ldrMeasure h) h)
  | .ldrCntClr .. => .next (.landed (fun _ h => .ldrCntClr h) h)
  | .enrol .. => .next (.landed (fun _ h => .enrol h) h)
  | .epoch .. => .next (.landed (fun _ h => .setEpoch h) h)
  | .secProof .. => .next (.landed (fun _ h => .proof h) h)
  | .inService .. => .next (.landed (fun _ h => .setInService h) h)
  | .bankSetOwner .. => .next (.landed (fun _ h => .setBankOwner h) h)
  | .bankSetPwr .. => .next (.landed (fun _ h => .setBankPwr h) h)
  | .udpDatagram .. => .next (.udpDatagram h)
  | .commandSegment .. => .next (.takeSegment h)
  | .reassemblyTimeout .. => .next (.reassemblyTimeout h)
  | .holdTimeout .. => .next (.holdTimeout h)
  | .barrierRelease .. => .next (.barrierRelease h)
  | .deferredDispatch .. => .next (.deferredDispatch h)
  | .relayReply .. => .next (.relayReply h)
  | .ringFrame .. => .next (.ringFrame h)
  | .memFillDone .. => .next (.memFillDone h)
  | .memCopyDone .. => .next (.memCopyDone h)
  | .fabProbeDone .. => .next (.fabProbeDone h)
  | .fabAssignDone .. => .next (.fabAssignDone h)
  | .fabPathTestDone .. => .next (.fabPathTestDone h)
  | .tableLoadDone .. => .next (.tableLoadDone h)
  | .tableVerifyDone .. => .next (.tableVerifyDone h)
  | .lampScanDone .. => .next (.lampScanDone h)
  | .calRunDone .. => .next (.calRunDone h)
  | .calStoreDone .. => .next (.calStoreDone h)
  | .fwStageDone .. => .next (.fwStageDone h)
  | .fwVerifyDone .. => .next (.fwVerifyDone h)
  | .attestDone .. => .next (.attestDone h)
  | .wingbeat .. => .next (.wingbeat h)
  | .applyInstant .. => .next (.applyDue h)
  | .molt .. => .next (.molt h)
  | .modeChangeComplete .. => .next (.modeComplete h)
  | .autoTargetStep .. => .next (.autoStep h)
  | .periodicTimeCell .. => .next (.periodicCell h)
  | .timeCell .. => .next (.ite (.timeCell h) h)
  | .upstreamLoss .. => .next (.upstreamLoss h)
  | .sourceLoss .. => .next (.sourceLoss h)
  | .ptpAnnounce .. => .next (.mediaIn (fun _ h => .ptpFrames (.ptpAnnounce h)) h)
  | .ptpSync .. => .next (.mediaIn (fun _ h => .ptpFrames (.draw (.ptpSync h))) h)
  | .ptpDelayResp .. => .next (.mediaIn (fun _ h => .ptpFrames (.ptpDelayResp h)) h)
  | .delayReq .. => .next (.delayReq h)
  | .fsyncIn .. => .next (.fsyncIn h)
  | .ppsIn .. => .next (.ppsIn h)
  | .ppsOut .. => .next (.ppsOut h)
  | .linkDelayMeasure .. => .next (.linkMeasure h)
  | .delayMarkTimeout .. => .next (.markTimeout h)
  | .ethModeApply .. => .next (.ethApply h)
  | .arpRequest .. => .next (.mediaIn (fun _ h => .arp (.frameIn h)) h)
  | .igmpQuery .. => .next (.mediaIn (fun _ h => .igmpQuery (.frameIn h)) h)
  | .igmpReportRepeat .. => .next (.igmpRepeat h)
  | .rtpPacket .. => .next (.mediaIn (fun _ h => .rtpPacket h) h)
  | .bufferDeadline .. => .next (.bufDeadline h)
  | .streamLost .. => .next (.streamLost h)
  | .composeLine .. => .next (.composeLine h)
  | .lineLeavesBlender .. => .next (.lineLeaves h)
  | .cellArbitration .. => .next (.arbitrate h)
  | .fabricCell .. => .next (.fabricCell h)
  | .probeCell .. | .svcCell .. | .rasterCell .. => .next (.ite (.fabricCell h) h)
  | .creditReturn .. => .next (.creditReturn h)
  | .routeHoldExpiry .. => .next (.holdExpiry h)
  | .linkFrame .. => .next (.frxIn (fun _ h => .linkFrame h) h)
  | .replayTimeout .. => .next (.replayTimeout h)
  | .trainingAdvance .. => .next (.ite h (.trainingAdvance h))
  | .trainingTimeout .. => .next (.trainingTimeout h)
  | .forwardedClockLoss .. => .next (.clockLoss h)
  | .lightIdleEntry .. => .next (.lightEntry h)
  | .lightIdleExit .. => .next (.lightExit h)
  | .deepIdleEios .. => .next (.frxIn (fun _ h => .enterDeep h) h)
  | .adaptWindow .. => .next (.adaptWindow h)
  | .tempCheck .. => .ite (.next h) (.next (.tempCheck (.setFld h)))
  | .recalStep .. => .next (.frxIn (fun _ h => .recalStep h) h)
  | .correctionDeadline .. => .next (.correctionDeadline h)
  | .correctionDone .. => .next (.correctionDone h)
  | .chainLoad .. => .next (.chainLoad h)
  | .latchLaunch .. => .next (.latchLaunch h)
  | .blankLaunch .. => .next (.blankLaunch h)
  | .diagLaunch .. => .next (.diagLaunch h)
  | .reportSend .. => .next (.reportSend h)
  | .returnRecord .. => .next (.returnBurst h)
  | .configLoad .. => .next (.configLoad h)
  | .chainMeasure .. => .next (.chainMeasure h)
  | .linkLoss .. => .next (.linkLost h)
  | .redSwitched .. => .next (.autoSwitch h)
  | .promote .. => .next (.promote h)
  | .joinRequest .. => .next (.joinRequest h)
  | .joinCopyCell .. => .next (.joinCell h)
  | .snapshotCapture .. => .next (.snapshotCapture h)
  | .snapshotInstall .. => .next (.joinEnded (.installSnapshot h))
  | .joinFail .. => .next (.joinEnded (.joinFailed h))
  | .scrubStep .. => .next (.scrubStep h)
  | .refreshCheck .. => .next (.refreshCheck h)
  | .channelTrainingDone .. => .next (.trainingDone h)
  | .regionWiped .. => .next (.regionWiped h)
  | .bankDrainDone .. => .next (.drainDone h)
  | .bankPowerDone .. => .next (.bankPowered h)
  | .refclkLost .. => .next (.refclkLost h)
  | .pllUnlock .. => .next (.pllUnlock h)
  | .pllRelock .. => .next (.pllRelock h)
  | .domainResetRelease .. => .next (.domainRestart h)
  | .eventCrossing .. => .next (.eventCrossing h)
  | .resetN .. => .next (.resetPin h)
  | .supplyDrop .. => .next (.supplyDrop h)
  | .deviceReset .. => .next (.deviceReset h)
  | .eclosion .. => .next (.eclosion h)
  | .powerOn .. => .next (.powerOn h)
  | .linkUp .. => .next (.ite h (.reportAfresh (.linkUp (.fecCount h))))
  | .lightIdleEios .. => .next (.frxIn (fun _ h => .lightEios h) h)
  | .fts .. => .next (.frxIn (fun _ h => .fts h) h)
  | .bridgedPtpMessage .. => .next (.mediaIn (fun _ h => .ptpBridge (.frameIn h)) h)
  | .pulseEnd .. => .next (.pulseEnd h)
  | .jtagAccess .. => .next (.jtag h)
  | .pathTestSend .. => by
    show CanonOut (execPathTestSend _ s)
    unfold execPathTestSend
    split
    · exact .next (.pathTestSend h)
    · exact .next h
end CanonOut

/-- Settles O18: every command keeps the canonical forms, and so does a tick with none. -/
theorem everyStepKeepsCanonicalForms : Obligations.EveryStepKeepsCanonicalForms := by
  intro s t hm hr e
  have h : Canon s := ⟨hm, hr⟩
  unfold step at e
  split at e
  · cases e
    exact Canon.advance h
  · exact CanonOut.exec (Canon.same h) _ t e

end Sys2Proof.Machine
end

section
/-! What the events of link ports, media ports and lamp chains leave as it was (R7, R136, R137, R236, R240, R249, R317,
R320). Each function such an event reaches has one lemma, which follows its body; the registers it writes are placed in
their blocks where they are written. -/

namespace Sys2Proof.Machine

open Sys2Proof

theorem lt_of_mem_bitsOf {n v l : Nat} (h : l ∈ bitsOf n v) : l < n := List.mem_range.mp (List.mem_filter.mp h).1

/-- Whose events are followed: a link port's or a lamp chain's. -/
inductive Actor
  | link
  | lamp

/-- The blocks whose registers its events write: its own, and those of the counters of the fabric (9) and of the log
(0xF); for a link port also the device's temperature (0) and the clocks (0x11), for a lamp chain also correction (0xB),
memory reads (0xD) and the choice of the source (0x10). -/
def Actor.blocks : Actor → List Nat
  | link => [0, 9, 0xA, 0xF, 0x11]
  | lamp => [9, 0xB, 0xC, 0xD, 0xF, 0x10]

/-- What an event leaves as it was: of the parts that only one of the two sides uses, those of the other side. -/
structure Apart (x : Actor) (s t : State) : Prop where
  mem : t.mem = s.mem
  cmd : t.cmd = s.cmd
  txn : t.txn = s.txn
  ing : t.ing = s.ing
  cmp : t.cmp = s.cmp
  tile : x = .link → t.tile = s.tile
  red : x = .link → t.red = s.red
  lnk : x = .lamp → t.lnk = s.lnk
  eth : x = .lamp → t.eth = s.eth
  word : ∀ a, a / 0x10000 ∉ x.blocks → t.word a = s.word a

namespace Apart
variable {x : Actor} {s t u : State} {α β : Type}

theorem refl : Apart x s s := by constructor <;> intros <;> rfl

theorem ite {c : Prop} [Decidable c] {a b : State} (ha : Apart x s a) (hb : Apart x s b) :
    Apart x s (if c then a else b) := by
  split <;> assumption

/-- A further step under a condition. -/
theorem iteOn {c : Prop} [Decidable c] {a b : State} (ha : Apart x s b → Apart x s a) (hb : Apart x s b) :
    Apart x s (if c then a else b) := .ite (ha hb) hb

theorem iteSnd {c : Prop} [Decidable c] {a b : α × State} (ha : Apart x s a.2) (hb : Apart x s b.2) :
    Apart x s (if c then a else b).2 := by
  split <;> assumption

theorem foldlMem {f : State → α → State} {l : List α} (hf : ∀ t, ∀ i ∈ l, Apart x s t → Apart x s (f t i))
    (h : Apart x s t) : Apart x s (l.foldl f t) := by
  induction l generalizing t with
  | nil => exact h
  | cons i l ih =>
    exact ih (fun t j hj => hf t j (List.mem_cons_of_mem _ hj)) (hf t i List.mem_cons_self h)

theorem foldl {f : State → α → State} {l : List α} (hf : ∀ t i, Apart x s t → Apart x s (f t i))
    (h : Apart x s t) : Apart x s (l.foldl f t) := .foldlMem (fun t i _ => hf t i) h

theorem foldlRange {f : State → Nat → State} {n : Nat} (hf : ∀ t, ∀ i < n, Apart x s t → Apart x s (f t i))
    (h : Apart x s t) : Apart x s ((List.range n).foldl f t) :=
  .foldlMem (fun t i hi => hf t i (List.mem_range.mp hi)) h

theorem foldlSnd {f : β × State → α → β × State} {l : List α} {p : β × State}
    (hf : ∀ t i, Apart x s t.2 → Apart x s (f t i).2) (h : Apart x s p.2) : Apart x s (l.foldl f p).2 := by
  induction l generalizing p with
  | nil => exact h
  | cons i l ih => exact ih (hf p i h)

theorem ofPair {p : β × State} {y : β} (e : p = (y, t)) (h : Apart x s p.2) : Apart x s t := by
  subst e; exact h

theorem ofNext (e : (.next u : Host.Outcome State Fault Refusal) = .next t) (h : Apart x s u) : Apart x s t := by
  cases e; exact h

theorem setWord {a v} (ha : a / 0x10000 ∈ x.blocks) (h : Apart x s t) : Apart x s (t.setWord a v) :=
  { h with word := fun b hb => (State.word_setWord_other t v fun e => hb (by rwa [e])).trans (h.word b hb) }

theorem setFld {f v} (ha : f.addr / 0x10000 ∈ x.blocks) (h : Apart x s t) : Apart x s (t.setFld f v) := .setWord ha h

theorem emit {o} (h : Apart x s t) : Apart x s (t.emit o) := { h with }

theorem updCross {k j f} (h : Apart x s t) : Apart x s (t.updCross k j f) := { h with }

theorem crossEvent {k j addrs} (h : Apart x s t) : Apart x s (t.crossEvent k j addrs) := .updCross h

/-- What writes none of the parts followed, nor a register, leaves them. -/
theorem same {clk tick sys sec tm err fab cdc ring memc rnd out pending} (h : Apart x s t) :
    Apart x s ⟨t.regs, t.mem, clk, tick, sys, sec, tm, t.cmd, t.txn, err, fab, cdc, ring, memc, t.eth, t.ing, t.cmp,
      t.lnk, t.tile, t.red, rnd, out, pending⟩ := { h with }

theorem setPortQ {q p} (h : Apart x s t) : Apart x s (t.setPortQ q p) := { h with }

theorem updPortQ {q f} (h : Apart x s t) : Apart x s (t.updPortQ q f) := .setPortQ h

theorem sendOn {ps c own} (h : Apart x s t) : Apart x s (t.sendOn ps c own) := .foldl (fun _ _ h => .setPortQ h) h

/-- The counters of the fabric and of the log are either side's to move. -/
theorem setShared {f v} (ha : f.addr / 0x10000 = 9 ∨ f.addr / 0x10000 = 0xF) (h : Apart x s t) :
    Apart x s (t.setFld f v) :=
  .setFld (by rcases ha with ha | ha <;> rw [ha] <;> cases x <;> decide) h

theorem holdOwn {c} (h : Apart x s t) : Apart x s (t.holdOwn c) := .ite (.setShared (by decide) (.same h)) (.same h)

theorem sendOwn {c} (h : Apart x s t) : Apart x s (t.sendOwn c) :=
  .ite (.ite h (.setShared (by decide) h)) (.sendOn h)

theorem originate {c} (h : Apart x s t) : Apart x s (t.originate c) :=
  have counted := setShared (f := F.FAB_CNT_COUNT 0) (by decide) h
  .ite counted (.ite (.holdOwn counted) (.sendOwn counted))

theorem pushRec {r} (h : Apart x s t) : Apart x s (t.pushRec r) := .ite (.setShared (by decide) (.same h)) (.same h)

theorem alarmCell {r} (h : Apart x s t) : Apart x s (t.alarmCell r) :=
  .ite h (.ite (.setShared (by decide) (.same h)) (.same (.originate (.setShared (by decide) (.same h)))))

theorem log {n detail phase} (hn : n.sev < 4) (h : Apart x s t) : Apart x s (t.log n detail phase) :=
  have hc : (F.ERR_CNT_COUNT n.sev).addr / 0x10000 = 0xF := by simp only [F.ERR_CNT_COUNT]; omega
  have logged := iteOn (fun h => .alarmCell (.crossEvent h)) (.setShared (.inr hc) (.pushRec (.same h)))
  .ite logged (.emit logged)

theorem crossIn {k} {f : State → State} (hf : ∀ t, Apart x s t → Apart x s (f t)) (h : Apart x s t) :
    Apart x s (t.crossIn k f) := by
  have hd : Apart x s t.draw.2 := .same h
  rcases t.crossIn_cases k f with e | e | e | e | e <;> rw [e]
  exacts [h, hf _ h, hd, hf _ hd, hf _ (hf _ hd)]

end Apart
end Sys2Proof.Machine
end

section
/-! What the events of link ports leave as it was (R236, R240, R249). -/

namespace Sys2Proof.Machine

open Sys2Proof

namespace Apart
variable {s t u : State}

/-- A register of a port. -/
theorem setPort {b q lo w v} (hq : q < 4) (hb : b / 0x1000 = 0xA0) (h : Apart .link s t) :
    Apart .link s (t.setFld ⟨b + 4096 * q, lo, w⟩ v) :=
  .setFld (by simp only [Actor.blocks, List.mem_cons]; omega) h

/-- A counter of a port. -/
theorem setCount {b q k lo w v} (hq : q < 4) (hb : b / 0x1000 = 0xA0) (hk : k < 12) (h : Apart .link s t) :
    Apart .link s (t.setFld ⟨b + 4096 * q + 4 * k, lo, w⟩ v) :=
  .setFld (by simp only [Actor.blocks, List.mem_cons]; omega) h

/-- A register of a lane. -/
theorem setLane {b q l lo w v} (hq : q < 4) (hl : l < 4) (hb : b / 0x1000 = 0xA0) (h : Apart .link s t) :
    Apart .link s (t.setFld ⟨b + 4096 * q + 32 * l, lo, w⟩ v) :=
  .setFld (by simp only [Actor.blocks, List.mem_cons]; omega) h

/-- A counter of a lane. -/
theorem setLaneCount {b q l k lo w v} (hq : q < 4) (hl : l < 4) (hb : b / 0x1000 = 0xA0) (hk : k < 4)
    (h : Apart .link s t) : Apart .link s (t.setFld ⟨b + 4096 * q + 32 * l + 4 * k, lo, w⟩ v) :=
  .setFld (by simp only [Actor.blocks, List.mem_cons]; omega) h

/-- A register of a lane, written whole. -/
theorem setLaneWord {b q l v} (hq : q < 4) (hl : l < 4) (hb : b / 0x1000 = 0xA0) (h : Apart .link s t) :
    Apart .link s (t.setWord (b + 4096 * q + 32 * l) v) :=
  .setWord (by simp only [Actor.blocks, List.mem_cons]; omega) h

theorem logMs {key n detail} (hn : n.sev < 4) (h : Apart .link s t) : Apart .link s (t.logMs key n detail) :=
  .ite h (.log hn (.same h))

theorem updTm {f} (h : Apart .link s t) : Apart .link s (t.updTm f) := .same h

theorem updLane {q f} (h : Apart .link s t) : Apart .link s (t.updLane q f) := { h with lnk := nofun }

theorem updLnk {lnk} (h : Apart .link s t) : Apart .link s { t with lnk } := { h with lnk := nofun }

theorem setLnk {q st} (hq : q < 4) (h : Apart .link s t) : Apart .link s (t.setLnk q st) := .updLane (.setPort hq rfl h)

theorem freeCredits {q c} (h : Apart .link s t) : Apart .link s (t.freeCredits q c) := .ite h (.updPortQ h)

theorem portDown {q st} (hq : q < 4) (h : Apart .link s t) : Apart .link s (t.portDown q st) := by
  unfold State.portDown
  extract_lets gone t1 t2 _ t3 t4 t5 _
  have h1 : Apart .link s t1 := by
    unfold t1
    refine .foldl (fun _ _ ht => ?_) h
    split
    · exact .freeCredits ht
    · exact ht
  have h4 : Apart .link s t4 := .setPort hq rfl (.setPort hq rfl (.setPortQ (.setFld (by decide) h1)))
  exact .setLnk hq (.updLane (.ite (.setPort hq rfl h4) h4))

theorem storeCal {q bs} (h : Apart .link s t) : Apart .link s (t.storeCal q bs) := .setFld (by decide) (.same h)

theorem loadTaps {q} (hq : q < 4) (h : Apart .link s t) : Apart .link s (t.loadTaps q) :=
  .foldlRange (fun _ _ hl h => .ite (.setLaneWord hq hl rfl (.setLaneWord hq hl rfl h)) (.setLaneWord hq hl rfl h))
    (.setPort hq rfl h)

theorem calIdle (h : Apart .link s t) : Apart .link s t.calIdle := .setFld (by decide) h

theorem abortCal {q} (h : Apart .link s t) : Apart .link s (t.abortCal q) :=
  .ite (.ite (.ite (.updLnk (.updLane h)) (.setFld (by decide) (.calIdle (.updLnk (.updLane h))))) (.updLane h)) h

theorem leaveActive {q cause} (hq : q < 4) (h : Apart .link s t) : Apart .link s (t.leaveActive q cause) := by
  unfold State.leaveActive
  extract_lets t1 width t2 t3 t4 t5 t6 t7
  have h2 : Apart .link s t2 := .setPort hq rfl (.ite (.loadTaps hq (.abortCal h)) h)
  have h4 : Apart .link s t4 := .setPort hq rfl (.setCount hq rfl (by decide) h2)
  exact .ite (.log (by decide) (.setLnk hq (.updLane (.updTm (.updPortQ h4))))) (.portDown hq (.updTm h2))

theorem startReplay {q k} (hq : q < 4) (hk : k < 12) (h : Apart .link s t) : Apart .link s (t.startReplay q k) :=
  .ite h (.iteOn (.leaveActive hq) (.updLane (.setCount hq rfl hk h)))

theorem replayTimeout {q} (hq : q < 4) (h : Apart .link s t) :
    Apart .link s (t.replayTimeout q) :=
  .ite (.startReplay hq (by decide) h) h

theorem takeAck {q a} (h : Apart .link s t) : Apart .link s (t.takeAck q a) := .ite h (.updLane h)

theorem refreshLcb {q} (h : Apart .link s t) : Apart .link s (t.refreshLcb q) := .updLane h

theorem markTimeout {q} (h : Apart .link s t) : Apart .link s (t.markTimeout q) := by
  fun_cases State.markTimeout
  case case1 => exact .updLane h
  case case2 => exact h

theorem countIdle {q r} (hq : q < 4) (hr : r.lane < 4) (h : Apart .link s t) :
    Apart .link s (t.countIdle q r) :=
  .setLane hq hr rfl (.updLane h)

theorem blame {q lane} (h : Apart .link s t) : Apart .link s (t.blame q lane).2 := .updLane (.crossEvent h)

theorem cellFail {q c k} (h : Apart .link s t) : Apart .link s (t.cellFail q c k) := by
  fun_cases State.cellFail
  case case1 => exact .logMs (by decide) (.setFld (by decide) h)
  case case2 => exact .log (by decide) (.setFld (by decide) h)
  case case3 => exact .logMs (by decide) (.setFld (by decide) h)
  case case4 | case5 => exact .setFld (by decide) h

theorem takeSlots {q slots} (h : Apart .link s t) : Apart .link s (t.takeSlots q slots) := by
  unfold State.takeSlots
  extract_lets r t1
  refine .foldl (fun _ _ ht => ?_) (.updLane h)
  split
  · exact .emit ht
  · exact .cellFail ht

theorem serviceFrame {q lanes} (hq : q < 4) (h : Apart .link s t) : Apart .link s (t.serviceFrame q lanes) := by
  fun_cases State.serviceFrame
  case case1 => exact h
  case case2 => exact .emit h
  case case3 => exact .foldl (fun _ f h =>
      have hl := Nat.lt_trans f.lane.isLt (by decide)
      .ite (.setCount hq rfl hl (.setCount hq rfl hl (.updLane h))) h) h
  case case4 => exact h

theorem judgeFrame {q lanes} (hq : q < 4) (h : Apart .link s t) : Apart .link s (t.judgeFrame q lanes) := by
  unfold State.judgeFrame
  extract_lets act rx fb good t1 t2 blamed all
  have hk : (if good then 1 else 2) < 12 := by split <;> decide
  have hrx (r : LaneRx) (hr : r ∈ rx) : r.lane < 4 := by
    obtain ⟨f, -, rfl⟩ := List.mem_map.mp hr
    exact f.lane.isLt
  have h1 : Apart .link s t1 := .foldl (fun _ _ h =>
    have errs := foldl (fun _ _ h => .crossEvent h) h
    .ite errs (.setCount hq rfl (by decide) errs)) h
  split
  · exact .ite (.serviceFrame hq h) h
  · split
    · exact .ite (.leaveActive hq h) h
    · split
      · exact .ite (.leaveActive hq h) h
      · split
        · rename_i e3
          extract_lets fails t4 next ahead t5 dup data t6 t7 t8 t9 t10
          have h4 : Apart .link s t4 :=
            .updLane (.ofPair e3 (.foldlSnd (fun _ _ h => .blame h) (.setCount hq rfl hk h1)))
          have h5 : Apart .link s t5 := .foldlMem (fun _ r hr h => .countIdle hq (hrx r hr) h) h4
          have h7 : Apart .link s t7 := .updLane (.setCount hq rfl (by decide) h5)
          have h8 : Apart .link s t8 :=
            .ite (.ite (.updLane (.setCount hq rfl (by decide) h5)) (.takeSlots (.ite h7 (.emit h7)))) h4
          have h9 : Apart .link s t9 := by
            unfold t9
            split
            · extract_lets t12 t13 t14
              have h12 : Apart .link s t12 := .takeAck h8
              have h13 : Apart .link s t13 := .ite (.startReplay hq (by decide) h12) h12
              have h14 : Apart .link s t14 := .ite (.updLane h13) h13
              exact .ite (.ite (.updLane h14) h14) h8
            · exact h8
          have h10 : Apart .link s t10 := .refreshLcb h9
          have left := leaveActive (cause := 7) hq h10
          exact .ite h10 (.ite (.leaveActive hq (.updLane h10))
            (.ite left (.ite (.leaveActive hq h10) (.ite left h10))))

theorem linkFrame {q lanes} (hq : q < 4) (h : Apart .link s t) : Apart .link s (t.linkFrame q lanes) := .judgeFrame hq h

theorem dfeField_block {q l i : Nat} (hq : q < 4) (hl : l < 4) :
    (dfeField q l i).addr / 0x10000 ∈ Actor.link.blocks := by
  unfold dfeField
  split <;> simp only [Actor.blocks, List.mem_cons, F.LNK_TAPS_DFE1, F.LNK_TAPS_DFE2, F.LNK_TAPS_DFE3, F.LNK_TAPS_DFE4]
    <;> omega

theorem wander {q l quantity} (hq : q < 4) (hl : l < 4) (h : Apart .link s t) : Apart .link s (t.wander q l quantity) :=
  .ite (.setLane hq hl rfl h) (.log (by decide) (.setLaneCount hq hl rfl (by decide) (.updLane (.setLane hq hl rfl h))))

theorem putTaps {q l ctle dfe} (hq : q < 4) (hl : l < 4) (h : Apart .link s t) :
    Apart .link s (t.putTaps q l ctle dfe) := by
  unfold State.putTaps
  extract_lets stored c ds t1 t2 stops
  have h2 : Apart .link s t2 := .foldl (fun _ _ h => .setFld (dfeField_block hq hl) h) (.setLane hq hl rfl h)
  clear_value stops
  split
  · exact .wander hq hl h2
  · exact .updLane (.setLane hq hl rfl h2)

theorem dropLanes {q keep cause} (hq : q < 4) (h : Apart .link s t) : Apart .link s (t.dropLanes q keep cause) :=
  .ite h (.updLane (.setPort hq rfl h))

theorem resumeAt {q a} (h : Apart .link s t) : Apart .link s (t.resumeAt q a) := .ite (.takeAck h) (.updLane h)

theorem enterActive {q lanes partnerNext} (hq : q < 4) (h : Apart .link s t) :
    Apart .link s (t.enterActive q lanes partnerNext) := by
  unfold State.enterActive
  extract_lets l n t1 t2 t3 t4 t5 t6
  have h2 : Apart .link s t2 := .setPort hq rfl (.setPort hq rfl (.ite (.updPortQ h) (.updPortQ h)))
  have h3 : Apart .link s t3 := .ite (.log (by decide) (.setCount hq rfl (by decide) h2)) h2
  exact .setLnk hq (.updTm (.updLane (.updLane (.resumeAt h3))))

theorem configEnd {q} (hq : q < 4) (h : Apart .link s t) : Apart .link s (t.configEnd q) := by
  fun_cases State.configEnd
  case case1 => exact .updLane (.enterActive hq h)
  case case2 | case3 => exact .portDown hq (.setPort hq rfl h)

theorem config {q o} (hq : q < 4) (h : Apart .link s t) : Apart .link s (t.config q o) := by
  fun_cases State.config
  case case1 => exact .configEnd hq (.updLane h)
  case case2 => exact .updLane h
  case case3 => exact h

theorem noteObs {q o} (hq : q < 4) (h : Apart .link s t) : Apart .link s (t.noteObs q o) :=
  .foldlRange (fun _ _ hl h => .setLane hq hl rfl (.setLane hq hl rfl (.setLane hq hl rfl (.setLane hq hl rfl h)))) h

theorem equalize {q o} (hq : q < 4) (h : Apart .link s t) : Apart .link s (t.equalize q o) := by
  unfold State.equalize
  refine .foldlMem (fun _ l hl ht => ?_) (.noteObs hq h)
  split
  · exact .putTaps hq (lt_of_mem_bitsOf hl) ht
  · exact ht

theorem trainingAdvance {q o} (hq : q < 4) (h : Apart .link s t) : Apart .link s (t.trainingAdvance q o) := by
  fun_cases State.trainingAdvance
  case case1 => exact .setLnk hq (.updLane h)
  case case2 => exact h
  case case3 => exact .setLnk hq (.setPort hq rfl (.updLane (.setPort hq rfl (.setFld (by decide) h))))
  case case4 => exact h
  case case5 => exact .setLnk hq (.ite (.setPort hq rfl h) (.loadTaps hq (.setPort hq rfl h)))
  case case6 => exact .setPort hq rfl h
  case case7 => exact .setLnk hq (.updLane (.equalize hq h))
  case case8 => exact .updLane (.equalize hq h)
  case case9 => exact .setLnk hq (.noteObs hq h)
  case case10 => exact h
  case case11 => exact .config hq h
  case case12 => exact .setLnk hq (.updPortQ (.setFld (by decide) h))
  case case13 | case14 => exact h

theorem trainingTimeout {q o} (hq : q < 4) (h : Apart .link s t) : Apart .link s (t.trainingTimeout q o) := by
  fun_cases State.trainingTimeout
  case case1 => exact .setPort hq rfl h
  case case2 => exact h
  case case3 => exact .setLnk hq (.dropLanes hq h)
  case case4 => exact h
  case case5 => exact .setLnk hq (.dropLanes hq (.equalize hq h))
  case case6 => exact h
  case case7 => exact .setLnk hq (.dropLanes hq h)
  case case8 => exact h
  case case9 => exact .portDown hq (.setPort hq rfl h)
  case case10 | case11 => exact h

theorem lightEntry {q} (hq : q < 4) (h : Apart .link s t) : Apart .link s (t.lightEntry q) :=
  .ite (.emit (.setCount hq rfl (by decide) (.setLnk hq h))) h

theorem lightExit {q} (hq : q < 4) (h : Apart .link s t) : Apart .link s (t.lightExit q) :=
  .ite (.emit (.updLane (.setLnk hq h))) h

theorem lightEios {q} (h : Apart .link s t) : Apart .link s (t.lightEios q) := .ite (.updLane h) h

theorem fts {q} (h : Apart .link s t) : Apart .link s (t.fts q) := .ite (.updLane h) h

theorem enterDeep {q} (hq : q < 4) (h : Apart .link s t) : Apart .link s (t.enterDeep q) :=
  .ite (.emit (.setLnk hq (.setPort hq rfl (.setPort hq rfl (.updTm (.ite (.loadTaps hq (.abortCal h)) h)))))) h

theorem adaptWindow {q l transitions ctle dfe} (hq : q < 4) (hl : l < 4) (h : Apart .link s t) :
    Apart .link s (t.adaptWindow q l transitions ctle dfe) :=
  .ite h (.ite h (.ite (.setLaneCount hq hl rfl (by decide) h) (.putTaps hq hl h)))

theorem startCal {q} (h : Apart .link s t) : Apart .link s (t.startCal q) := .updLane h

theorem tempCheck {temp} (h : Apart .link s t) : Apart .link s (t.tempCheck temp) :=
  have noted := setFld (by decide) (.updLnk h)
  .ite h (.ite (.setFld (by decide) (.updLnk (.foldl (fun _ _ h => .startCal h) noted))) noted)

theorem moveCtle {q l want} (hq : q < 4) (hl : l < 4) (h : Apart .link s t) : Apart .link s (t.moveCtle q l want) :=
  .ite (.wander hq hl (.setLane hq hl rfl h)) (.setLane hq hl rfl h)

theorem calStep {q l c eye} (hq : q < 4) (hl : l < 4) (h : Apart .link s t) :
    Apart .link s (t.calStep q l c eye).2 := by
  unfold State.calStep
  split
  · have stopped {c : Prop} [Decidable c] := ite (c := c) (wander (quantity := 0) hq hl h) h
    exact .iteSnd (.moveCtle hq hl h) (.iteSnd (.moveCtle hq hl stopped) (.setLane hq hl rfl stopped))
  · exact .moveCtle hq hl h
  · exact .moveCtle hq hl h
  · exact .moveCtle hq hl h
  · exact .iteSnd h (.moveCtle hq hl h)
  · exact h

theorem restoreStep {q l c} (hq : q < 4) (hl : l < 4) (h : Apart .link s t) : Apart .link s (t.restoreStep q l c).2 :=
  .iteSnd (.setLane hq hl rfl h) (.iteSnd (.setLane hq hl rfl h) h)

theorem calRunEnd (h : Apart .link s t) : Apart .link s t.calRunEnd := by
  unfold State.calRunEnd
  extract_lets ports fail abort _ t1 _ t2 t3 _ t4 t5
  have h1 : Apart .link s t1 := .calIdle (.updLnk h)
  have h4 : Apart .link s t4 := .updLnk (.setFld (by decide) (.setFld (by decide) h1))
  have h5 : Apart .link s t5 := .ite (.foldl (fun _ _ h => .storeCal h) h4) h4
  exact .ite (.setFld (by decide) h1) (.ite (.setFld (by decide) (.updLnk h1)) (.log (by decide) h5))

/-- One step of a lane's calibration, or of giving up on it. -/
theorem recalStep {q l eye} (hq : q < 4) (hl : l < 4) (h : Apart .link s t) : Apart .link s (t.recalStep q l eye) := by
  unfold State.recalStep
  split
  · exact h
  extract_lets t1 t2
  have h1 : Apart .link s t1 := .updLane h
  have h2 : Apart .link s t2 := .ite (.setLane hq hl rfl (.setLane hq hl rfl h1)) h1
  split
  · exact h2
  extract_lets c
  split
  next t3 e3 =>
  have h3 : Apart .link s t3 := .ofPair e3 (.iteSnd (.setFld (by decide) (.restoreStep hq hl h2)) (by
    split
    next t4 e4 =>
    have h4 : Apart .link s t4 := .ofPair e4 (.calStep hq hl h2)
    split
    · exact .log (by decide) (.updLnk h4)
    · exact h4))
  extract_lets ls t4
  exact .ite (.ite (.updLane h3) (.calRunEnd (.updLane h3))) (.updLane h3)

/-- The registers of a port's lanes are lost with its forwarded clock (R387). -/
theorem statusLost {q} (hq : q < 4) (h : Apart .link s t) : Apart .link s (t.statusLost (2 + q)) := by
  unfold State.statusLost
  rw [if_neg (by omega), if_pos (by omega), Nat.add_sub_cancel_left]
  exact .foldlRange (fun _ _ hl h => .setLaneWord hq hl rfl (.setLaneWord hq hl rfl h)) (.setPort hq rfl h)

theorem crossingsLost {q} (hq : q < 4) (h : Apart .link s t) : Apart .link s (t.crossingsLost (2 + q)) :=
  .foldl (fun _ _ h => .updCross h) (.statusLost hq h)

theorem clockLoss {q} (hq : q < 4) (h : Apart .link s t) : Apart .link s (t.clockLoss q) :=
  have lost := setFld (f := F.CLK_STAT_FRX_CLK) (by decide) h
  .ite (.iteOn (.setLnk hq) (.crossingsLost hq (.leaveActive hq lost))) lost

theorem tempReading {temp} (h : Apart .link s t) (e : execTempCheck temp t = .next u) : Apart .link s u := by
  unfold execTempCheck at e
  split at e
  · exact ofNext e h
  · exact ofNext e (.tempCheck (.setFld (by decide) h))

/-- A link port's event. -/
theorem linkEvent {c : Instr} {q : BitVec 2}
    (hc : c = .delayMarkTimeout q ∨ (∃ l, c = .linkFrame q l) ∨ c = .replayTimeout q ∨ (∃ o, c = .trainingAdvance q o) ∨
      (∃ o, c = .trainingTimeout q o) ∨ c = .forwardedClockLoss q ∨ c = .lightIdleEntry q ∨ c = .lightIdleExit q ∨
      c = .deepIdleEios q ∨ c = .lightIdleEios q ∨ c = .fts q ∨ (∃ l n x d, c = .adaptWindow q l n x d) ∨
      (∃ x, c = .tempCheck x) ∨ (∃ l e, c = .recalStep q l e)) (e : exec c s = .next t) : Apart .link s t := by
  have hq := q.isLt
  have h := refl (x := .link) (s := s)
  rcases hc with rfl | ⟨l, rfl⟩ | rfl | ⟨o, rfl⟩ | ⟨o, rfl⟩ | rfl | rfl | rfl | rfl | rfl | rfl | ⟨l, n, y, d, rfl⟩ |
    ⟨y, rfl⟩ | ⟨l, y, rfl⟩
  · exact ofNext e (.markTimeout h)
  · exact ofNext e (.crossIn (fun _ h => .linkFrame hq h) h)
  · exact ofNext e (.replayTimeout hq h)
  · exact ofNext e (.ite h (.trainingAdvance hq h))
  · exact ofNext e (.trainingTimeout hq h)
  · exact ofNext e (.clockLoss hq h)
  · exact ofNext e (.lightEntry hq h)
  · exact ofNext e (.lightExit hq h)
  · exact ofNext e (.crossIn (fun _ h => .enterDeep hq h) h)
  · exact ofNext e (.crossIn (fun _ h => .lightEios h) h)
  · exact ofNext e (.crossIn (fun _ h => .fts h) h)
  · exact ofNext e (.adaptWindow hq l.isLt h)
  · exact tempReading h e
  · exact ofNext e (.crossIn (fun _ h => .recalStep hq l.isLt h) h)

end Apart
end Sys2Proof.Machine
end

section
/-! What the events of lamp chains leave as it was (R317, R320). -/

namespace Sys2Proof.Machine

open Sys2Proof

theorem decodeWord_corrected_le (w : BitVec 80) : (decodeWord w).corrected ≤ 2 := by
  fun_cases decodeWord w <;> exact Nat.le_of_ble_eq_true rfl

theorem State.readWord_corrected_le {s : State} {cl : Client} {w : Nat} {d : Decoded}
    (h : (s.readWord cl w).dec = some d) : d.corrected ≤ 2 := by
  have read (v : BitVec 80) (e : (decoded v).dec = some d) : d.corrected ≤ 2 := by
    have hd : (decoded v).dec = some (decodeWord v) := by unfold decoded; dsimp only; split <;> rfl
    rw [hd] at e
    cases e
    exact decodeWord_corrected_le v
  unfold State.readWord at h
  split at h
  · cases h
  · split at h
    · exact read _ h
    · dsimp only at h
      split at h
      · cases h
      · split at h
        · cases h
        · exact read _ h

theorem State.place_dram_lt {s : State} {a c : Nat} (h : s.place a = .dram c) : c < 4 := by
  unfold State.place at h
  split at h
  next ha =>
    dsimp only at h
    split at h
    · cases h
      omega
    · cases h
  next =>
    split at h
    · cases h
    · split at h <;> cases h

namespace Apart
variable {s t : State}

theorem channelCount_block {c k : Nat} (hc : c < 4) (hk : k < 4) :
    (F.MEM_CH_CNT_COUNT c k).addr / 0x10000 ∈ Actor.lamp.blocks := by
  simp only [Actor.blocks, List.mem_cons, F.MEM_CH_CNT_COUNT]
  omega

theorem classCount_block {c : Nat} {cl : Client} (hc : c < 4) :
    (F.MEM_CLS_CNT_COUNT c (cl.rank - 1) 0).addr / 0x10000 ∈ Actor.lamp.blocks := by
  have hr : cl.rank ≤ 5 := by cases cl <;> simp [Client.rank]
  simp only [Actor.blocks, List.mem_cons, F.MEM_CLS_CNT_COUNT]
  omega

/-- A register of a chain. -/
theorem setChain {c lo w v} (hc : c < 128) (h : Apart .lamp s t) :
    Apart .lamp s (t.setFld ⟨787456 + 4 * c, lo, w⟩ v) :=
  .setFld (by simp only [Actor.blocks, List.mem_cons]; omega) h

theorem limit {key max} (h : Apart .lamp s t) : Apart .lamp s (t.limit key max).2 := .iteSnd (.same h) (.same h)

theorem accountWord {cl w} (h : Apart .lamp s t) : Apart .lamp s (t.accountWord cl w) := by
  have counted (k : Nat) (hk : k < 4) (g : Fld) (hg : g.addr / 0x10000 ∈ Actor.lamp.blocks) :
      Apart .lamp s (match t.place w with | .dram c => t.bump (F.MEM_CH_CNT_COUNT c k) | _ => t.bump g) := by
    split
    next c e => exact .setFld (channelCount_block (State.place_dram_lt e) hk) h
    next => exact .setFld hg h
  have hd {d : Decoded} (e : (t.readWord cl w).dec = some d) : d.corrected - 1 < 4 := by
    have := State.readWord_corrected_le e
    omega
  fun_cases State.accountWord
  case case1 | case4 => exact h
  case case2 => exact .log (by split <;> decide) (.ofPair ‹_› (.limit (counted _ (by split <;> decide) _ (by decide))))
  case case3 => exact .ofPair ‹_› (.limit (counted _ (by split <;> decide) _ (by decide)))
  case case5 =>
    exact .log (by decide) (.same (.ofPair ‹_› (.limit (counted _ (hd ‹_›) _ (by decide)))))
  case case6 => exact .same (.ofPair ‹_› (.limit (counted _ (hd ‹_›) _ (by decide))))

theorem serve {cl a n} (h : Apart .lamp s t) : Apart .lamp s (t.serve cl a n) :=
  .foldlRange (fun _ _ hc h => .ite (.setFld (classCount_block hc) h) h) h

theorem accountWords {cl a n} (h : Apart .lamp s t) : Apart .lamp s (t.accountWords cl a n) :=
  .setFld (by decide) (.foldl (fun _ _ h => .accountWord h) h)

theorem accountRead {cl a n} (h : Apart .lamp s t) : Apart .lamp s (t.accountRead cl a n) := .serve (.accountWords h)

theorem updRed {f} (h : Apart .lamp s t) : Apart .lamp s (t.updRed f) := { h with red := nofun }

theorem setRed {red} (h : Apart .lamp s t) : Apart .lamp s { t with red } := { h with red := nofun }

theorem redBits (h : Apart .lamp s t) : Apart .lamp s t.redBits := .setFld (by decide) (.setFld (by decide) h)

theorem takeSource {k} (h : Apart .lamp s t) : Apart .lamp s (t.takeSource k) :=
  .redBits (.updRed (.setFld (by decide) h))

theorem commandSource {sel} (h : Apart .lamp s t) : Apart .lamp s (t.commandSource sel) :=
  .ite h (.ite (.setFld (by decide) (.takeSource h)) (.log (by decide) (.setFld (by decide) (.takeSource h))))

theorem newSources {w} (h : Apart .lamp s t) : Apart .lamp s (t.newSources w) :=
  .redBits (.updRed (.setFld (by decide) h))

theorem sourceChange {c} (h : Apart .lamp s t) : Apart .lamp s (t.sourceChange c) := by
  fun_cases State.sourceChange
  case case1 => exact .commandSource h
  case case2 => exact .newSources h

theorem updTile {f} (h : Apart .lamp s t) : Apart .lamp s (t.updTile f) := { h with tile := nofun }

theorem beginSlice {n p} (h : Apart .lamp s t) : Apart .lamp s (t.beginSlice n p) := .ite h (.updTile h)

theorem startJob (h : Apart .lamp s t) : Apart .lamp s t.startJob := by
  fun_cases State.startJob
  case case1 | case2 => exact h
  case case3 => exact .setFld (by decide) (.updTile h)
  case case4 => exact h

theorem updChain {c f} (h : Apart .lamp s t) : Apart .lamp s (t.updChain c f) := .updTile h

theorem allChains {f} (h : Apart .lamp s t) : Apart .lamp s (t.allChains f) := .updTile h

theorem sendLoad {c phase arg shares first} (h : Apart .lamp s t) :
    Apart .lamp s (t.sendLoad c phase arg shares first) :=
  .updChain (.emit h)

theorem launch {hd typ phase arg at_ e} (h : Apart .lamp s t) : Apart .lamp s (t.launch hd typ phase arg at_ e) :=
  .foldl (fun _ _ h => .updChain (.emit h)) h

theorem refreshShort (h : Apart .lamp s t) : Apart .lamp s t.refreshShort :=
  .foldlRange (fun _ _ hc h => .ite h (.ite (.log (by decide) (.setChain hc h)) (.setChain hc h))) h

theorem chainMeasure {c rt} (hc : c < 128) (h : Apart .lamp s t) : Apart .lamp s (t.chainMeasure c rt) := by
  unfold State.chainMeasure
  extract_lets rt as a0 trims far t1 t2 t3 fail t4 t5
  have h3 : Apart .lamp s t3 := .setChain hc (.setChain hc (.updChain (.emit h)))
  have h5 : Apart .lamp s t5 := by
    unfold t5
    split
    · exact .log (by decide) (.setChain hc h3)
    · clear_value far
      split
      · exact .log (by decide) (.setChain hc h3)
      · exact .updChain (.setChain hc h3)
  exact .ite h (.refreshShort h5)

theorem configLoad {c} (h : Apart .lamp s t) : Apart .lamp s (t.configLoad c) := .ite h (.updChain (.sendLoad h))

theorem reportErr {c d cause} (hc : c < 128) (h : Apart .lamp s t) : Apart .lamp s (t.reportErr c d cause) :=
  .iteOn (.log (by decide)) (.limit (.setChain hc h))

theorem endReport {c} (hc : c < 128) (h : Apart .lamp s t) : Apart .lamp s (t.endReport c) := by
  fun_cases State.endReport
  case case1 => exact .reportErr hc (.updChain h)
  case case2 => exact .updChain h
  case case3 => exact h

theorem reportSend {c} (hc : c < 128) (h : Apart .lamp s t) : Apart .lamp s (t.reportSend c) := by
  fun_cases State.reportSend
  case case1 => exact h
  case case2 => exact .setFld (by decide) (.updChain h)
  case case3 => exact .updChain (.emit (.endReport hc (.updChain h)))
  case case4 => exact h

theorem setPlan {x} (h : Apart .lamp s t) : Apart .lamp s (t.setPlan x) := .updTile h

theorem loadBuffer {hd k n p} (h : Apart .lamp s t) : Apart .lamp s (t.loadBuffer hd k n p) :=
  .foldl (fun _ _ h => .sendLoad (.accountRead h)) (.setFld (by decide) h)

theorem accountMap {cl} (h : Apart .lamp s t) : Apart .lamp s (t.accountMap cl) := .accountRead h

theorem noteMissing {n p} (h : Apart .lamp s t) : Apart .lamp s (t.noteMissing n p) :=
  .ite h (.log (by decide) (.setFld (by decide) (.setRed h)))

theorem lateJob {n p} (h : Apart .lamp s t) : Apart .lamp s (t.lateJob n p) := by
  fun_cases State.lateJob
  case case1 => exact .noteMissing (.log (by decide) (.setFld (by decide) h))
  case case2 => exact h
  case case3 => exact .noteMissing (.log (by decide) (.setFld (by decide) (.updTile h)))

theorem setBuf {k b} (h : Apart .lamp s t) : Apart .lamp s (t.setBuf k b) := .updTile h

theorem chainLoad {n p} (h : Apart .lamp s t) : Apart .lamp s (t.chainLoad n p) := by
  have freed (u : State) (hu : Apart .lamp s u) : Apart .lamp s (match u.readyBuf n p with
      | some k => (u.setBuf k .free).startJob
      | none => u) := by
    split
    · exact .startJob (.setBuf hu)
    · exact hu
  fun_cases State.chainLoad
  case case1 => exact h
  case case2 => exact .setPlan (.updTile h)
  case case3 => exact .setPlan (.foldl (fun _ _ h => .sendLoad h) (.setFld (by decide) (.accountMap (.updTile h))))
  case case4 => exact .updTile h
  case case5 => exact .setPlan (freed _ (.lateJob (.updTile h)))
  case case6 => exact .setPlan (.loadBuffer (.updTile h))
  case case7 =>
    exact .setPlan (.iteOn (.log (by decide))
      (.setFld (by decide) (.setFld (by decide) (.noteMissing (.lateJob (.updTile h))))))
  case case8 => exact .setPlan (.loadBuffer (.setFld (by decide) (.noteMissing (.lateJob (.updTile h)))))
  case case9 => exact .setPlan (.noteMissing (.lateJob (.updTile h)))

theorem windowEnded {n p at_} (h : Apart .lamp s t) : Apart .lamp s (t.windowEnded n p at_) := .allChains h

theorem latchLaunch {n p} (h : Apart .lamp s t) : Apart .lamp s (t.latchLaunch n p) := by
  unfold State.latchLaunch
  extract_lets apply
  split
  · extract_lets t1 before t2 t3 t4 t5 t6 _ t7
    have h1 : Apart .lamp s t1 := .setFld (by decide) (.launch h)
    have h2 : Apart .lamp s t2 := by
      unfold t2
      clear_value before
      split
      · exact .ite h1 (.windowEnded h1)
      · exact h1
    have h3 : Apart .lamp s t3 := .updTile h2
    have h5 : Apart .lamp s t5 := .setPlan (.ite (.allChains h3) h3)
    exact .ite h (.startJob (.ite (.setRed (.setFld (by decide) (.setFld (by decide) h5))) h5))
  · exact h

theorem blankLaunch {n p dark} (h : Apart .lamp s t) : Apart .lamp s (t.blankLaunch n p dark) := by
  fun_cases State.blankLaunch
  case case1 => exact .same (.emit (.launch h))
  case case2 | case3 => exact h
  case case4 => exact .setPlan (.launch h)
  case case5 => exact h
  case case6 => exact .windowEnded (.setPlan (.launch h))
  case case7 | case8 => exact h

theorem diagLaunch {n p} (h : Apart .lamp s t) : Apart .lamp s (t.diagLaunch n p) := by
  fun_cases State.diagLaunch
  case case1 => exact .setPlan (.launch h)
  case case2 => exact .setFld (by decide) (.windowEnded (.setPlan (.launch h)))
  case case3 | case4 => exact h

theorem takeChanges {n p} (h : Apart .lamp s t) : Apart .lamp s (t.takeChanges n p) := by
  unfold State.takeChanges
  extract_lets due t1 t2
  refine .foldl (fun _ _ ht => ?_) (.foldl (fun _ _ h => .sourceChange h) (.updRed h))
  split
  · exact ht
  · exact .updRed (.foldl (fun _ _ h => .sourceChange h) ht)

theorem sourceLossSeen {cause} (h : Apart .lamp s t) : Apart .lamp s (t.sourceLossSeen cause) := .ite (.updRed h) h

theorem compareCopies {n p sig0 sig1} (h : Apart .lamp s t) : Apart .lamp s (t.compareCopies n p sig0 sig1) := by
  unfold State.compareCopies
  extract_lets t1 first t2 t3 t4 t5 t6
  have h1 : Apart .lamp s t1 := .updRed (.setFld (by decide) h)
  have h2 : Apart .lamp s t2 := .updRed (.setFld (by decide) h1)
  have h4 : Apart .lamp s t4 := .setFld (by decide) (.setFld (by decide) h2)
  have h6 : Apart .lamp s t6 := .setFld (by decide) (.setFld (by decide) h4)
  exact .ite (.updRed (.setFld (by decide) h1)) (.ite (.log (by decide) h6) h6)

theorem judgeRun (h : Apart .lamp s t) : Apart .lamp s t.judgeRun :=
  .redBits (.updRed (.ite h (.ite (.ite (.log (by decide) (.updRed h)) (.updRed h)) (.ite h (.updRed h)))))

theorem pruneSlices {n} (h : Apart .lamp s t) : Apart .lamp s (t.pruneSlices n) := .updTile h

theorem queueJob {g} (h : Apart .lamp s t) : Apart .lamp s (t.queueJob g) := .startJob (.updTile h)

theorem correctionDeadline {n p} (h : Apart .lamp s t) : Apart .lamp s (t.correctionDeadline n p) := by
  unfold State.correctionDeadline
  extract_lets fresh regs t1 two copy u c0 c1 mine other t2 t3 t4 off t5 t6 t7
  have h1 : Apart .lamp s t1 := .takeChanges (.beginSlice (.updTile h))
  have h2 : Apart .lamp s t2 := by
    unfold t2
    clear_value c0 c1
    split
    · exact .compareCopies h1
    · exact h1
  have h3 : Apart .lamp s t3 := .updRed h2
  have h4 : Apart .lamp s t4 := .ite (.setFld (by decide) h3) h3
  have h5 : Apart .lamp s t5 := .noteMissing (.setFld (by decide) (.setFld (by decide) h4))
  have h6 : Apart .lamp s t6 := by
    unfold t6
    clear_value mine
    split
    · exact .ite h4 (.queueJob h4)
    · exact .ite (.sourceLossSeen h5) h5
  exact .ite h (.pruneSlices (.ite (.judgeRun h6) h6))

/-- A lamp chain's event. -/
theorem lampEvent {c : Instr} {q : BitVec 7} {n : BitVec 64} {p : BitVec 2}
    (hc : c = .correctionDeadline n p ∨ c = .chainLoad n p ∨ c = .latchLaunch n p ∨ (∃ d, c = .blankLaunch n p d) ∨
      c = .diagLaunch n p ∨ c = .reportSend q ∨ c = .configLoad q ∨ (∃ e, c = .chainMeasure e))
    (e : exec c s = .next t) : Apart .lamp s t := by
  have h := refl (x := .lamp) (s := s)
  rcases hc with rfl | rfl | rfl | ⟨d, rfl⟩ | rfl | rfl | rfl | ⟨y, rfl⟩
  · exact ofNext e (.correctionDeadline h)
  · exact ofNext e (.chainLoad h)
  · exact ofNext e (.latchLaunch h)
  · exact ofNext e (.blankLaunch h)
  · exact ofNext e (.diagLaunch h)
  · exact ofNext e (.reportSend q.isLt h)
  · exact ofNext e (.configLoad h)
  · exact ofNext e (.chainMeasure y.chain.isLt h)

end Apart
end Sys2Proof.Machine
end

section
/-! What the events of media ports leave as it was (R135 to R137). -/

namespace Sys2Proof.Machine

open Sys2Proof

/-- The registers of the media ports. -/
def EthAddr (a : Nat) : Prop := a / 0x10000 = 4

namespace MediaKeeps
variable {A : Nat → Prop} {s t u : State} {α : Type}

theorem updCross {k j f} (h : MediaKeeps A s t) : MediaKeeps A s (t.updCross k j f) := { h with }

theorem draw (h : MediaKeeps A s t) : MediaKeeps A s t.draw.2 := { h with }

theorem crossIn {k} {f : State → State} (hf : ∀ t, MediaKeeps A s t → MediaKeeps A s (f t)) (h : MediaKeeps A s t) :
    MediaKeeps A s (t.crossIn k f) := by
  rcases t.crossIn_cases k f with e | e | e | e | e <;> rw [e]
  exacts [h, hf _ h, h.draw, hf _ h.draw, hf _ (hf _ h.draw)]

theorem foldlMem {f : State → α → State} {l : List α}
    (hf : ∀ t, ∀ x ∈ l, MediaKeeps A s t → MediaKeeps A s (f t x)) (h : MediaKeeps A s t) :
    MediaKeeps A s (l.foldl f t) := by
  induction l generalizing t with
  | nil => exact h
  | cons x l ih => exact ih (fun t y hy => hf t y (List.mem_cons_of_mem _ hy)) (hf t x List.mem_cons_self h)

theorem ethCount {m k : Nat} (hm : m < 8) (hk : k < 16) : EthAddr (F.ETH_CNT_COUNT m k).addr := by
  simp only [EthAddr, F.ETH_CNT_COUNT]
  omega

/-- A port's status. -/
theorem setStat {m lo w v} (hm : m < 8) (h : MediaKeeps EthAddr s t) :
    MediaKeeps EthAddr s (t.setFld ⟨262160 + 4 * m, lo, w⟩ v) :=
  .setFld (by simp only [EthAddr]; omega) h

theorem report {j b} (h : MediaKeeps EthAddr s t) : MediaKeeps EthAddr s (t.igmpSend j b) :=
  .igmpSend (fun _ hm => ethCount hm (by decide)) h

theorem frameIn {m n} (hm : m < 8) (h : MediaKeeps EthAddr s t) : MediaKeeps EthAddr s (t.frameIn m n) :=
  .ite (.bump (ethCount hm (by decide)) h) h

theorem linkUp {m up fec} (hm : m < 8) (h : MediaKeeps EthAddr s t) : MediaKeeps EthAddr s (t.linkUp m up fec) :=
  .setStat hm (.setStat hm (.ite (.setStat hm h) h))

theorem codewords {f n} (hf : EthAddr f.addr) (h : MediaKeeps EthAddr s t) : MediaKeeps EthAddr s (t.codewords f n) :=
  .ite h (.updCross (.bump hf h))

theorem fecCount {m fixed bad} (hm : m < 8) (h : MediaKeeps EthAddr s t) :
    MediaKeeps EthAddr s (t.fecCount m fixed bad) :=
  .ite (.codewords (ethCount hm (by decide)) (.codewords (ethCount hm (by decide)) h)) h

theorem restartPorts {ms} (hms : ∀ m ∈ ms, m < 8) (h : MediaKeeps EthAddr s t) :
    MediaKeeps EthAddr s (t.restartPorts ms) :=
  .foldlMem (fun _ m hm h => .setStat (hms m hm) (.linkUp (hms m hm) h)) h

theorem reportAfresh {m} (h : MediaKeeps EthAddr s t) : MediaKeeps EthAddr s (t.reportAfresh m) :=
  .ite (.updEth (.foldl (fun _ _ h => .report h) h)) h

theorem igmpRepeat {m} (h : MediaKeeps EthAddr s t) : MediaKeeps EthAddr s (t.igmpRepeat m) := by
  unfold State.igmpRepeat
  exact .updEth (.foldl (fun _ _ h => .report h) h)

theorem igmpQuery {m version group} (h : MediaKeeps EthAddr s t) :
    MediaKeeps EthAddr s (t.igmpQuery m version group) :=
  .ite h (.ite (.foldl (fun _ _ h => .report h) h) (.ite (.bump (ethCount m.isLt (by decide)) h) h))

theorem arp {m target sender mac} (h : MediaKeeps EthAddr s t) : MediaKeeps EthAddr s (t.arp m target sender mac) :=
  .ite (.emit h) h

theorem ethForce {x} (h : MediaKeeps EthAddr s t) : MediaKeeps EthAddr s (t.ethForce x) :=
  have hit {p : Nat → Bool} (m : Nat) (hm : m ∈ (List.range 8).filter p) := List.mem_range.mp (List.mem_filter.mp hm).1
  .ite (.restartPorts hit (.updEth h)) (.restartPorts hit (.updEth h))

theorem ethApply (h : MediaKeeps EthAddr s t) : MediaKeeps EthAddr s t.ethApply :=
  .ite h (.rejoin (fun _ hm => ethCount hm (by decide)) (.foldl (fun _ _ h => .ethForce h) (.updEth h)))

theorem ofNext (e : (.next u : Host.Outcome State Fault Refusal) = .next t) (h : MediaKeeps A s u) :
    MediaKeeps A s t := by
  cases e; exact h

/-- A media port's event. -/
theorem mediaEvent {c : Instr} {m : BitVec 3}
    (hc : c = .ethModeApply ∨ (∃ x y z, c = .arpRequest m x y z) ∨ (∃ v g, c = .igmpQuery m v g) ∨
      c = .igmpReportRepeat m ∨ (∃ u f, c = .linkUp m u f)) (e : exec c s = .next t) : MediaKeeps EthAddr s t := by
  have h := refl (A := EthAddr) (s := s)
  rcases hc with rfl | ⟨x, y, z, rfl⟩ | ⟨v, g, rfl⟩ | rfl | ⟨b, f, rfl⟩
  · exact ofNext e (.ethApply h)
  · exact ofNext e (.crossIn (fun _ h => .arp (.frameIn m.isLt h)) h)
  · exact ofNext e (.crossIn (fun _ h => .igmpQuery (.frameIn m.isLt h)) h)
  · exact ofNext e (.igmpRepeat h)
  · exact ofNext e (.ite h (.reportAfresh (.linkUp m.isLt (.fecCount m.isLt h))))

end MediaKeeps

/-- Settles O60: each event keeps its family's relation, from every state. -/
theorem eventsStayInTheirBlocks : Obligations.EventsStayInTheirBlocks := by
  refine ⟨fun s t c q hc e => ?_, fun s t c m hc e => ?_, fun s t c q n p hc e => ?_⟩
  · have h := Apart.linkEvent hc e
    refine ⟨h.mem, h.cmd, h.txn, h.ing, h.cmp, h.tile rfl, h.red rfl, fun a h0 h9 hA hF h11 => h.word a ?_⟩
    simp [Actor.blocks, *]
  · have h := MediaKeeps.mediaEvent hc e
    exact ⟨h.mem, h.cmd, h.txn, h.ing, h.cmp, h.lnk, h.fab, h.tile, h.red, h.err, h.word⟩
  · have h := Apart.lampEvent hc e
    refine ⟨h.mem, h.cmd, h.txn, h.ing, h.cmp, h.lnk rfl, h.eth rfl, fun a h9 hB hC hD hF h10 => h.word a ?_⟩
    simp [Actor.blocks, *]

end Sys2Proof.Machine
end

section
/-! The state at reset, and the canonical form of memory under the operations that change it (R22, R27, R364). -/

namespace Sys2Proof.Machine

open Sys2Proof

/-- A list of defaults shows the default at every place. -/
theorem getD_replicate_default {α : Type} (n k : Nat) (d : α) : (List.replicate n d).getD k d = d := by
  rw [List.getD_eq_getElem?_getD, List.getElem?_getD_replicate_default_eq]

/-- Settles O19: every list of the reset state is empty or a constant one, and the mode is read from an empty file. -/
theorem resetIsEmpty : Obligations.ResetIsEmpty := by
  have hs (k : Nat) : State.reset.sess k = {} := getD_replicate_default 64 k ({} : Sess)
  have ho (k : Nat) : State.reset.op k = {} := getD_replicate_default 16 k ({} : OpSlot)
  refine ⟨rfl, rfl, by decide, rfl, fun k => ?_, fun k => ?_, rfl, rfl, rfl, rfl⟩
  · rw [hs]
  · rw [ho]

/-- Memory alone in its canonical form: said of a state whatever its registers hold. -/
def MemCanon (s : State) : Prop := Memory.wf s.mem = true

namespace MemCanon
variable {s t : State} {α β : Type}

theorem of_mem_eq (e : t.mem = s.mem) (h : MemCanon s) : MemCanon t := by unfold MemCanon; rwa [e]

theorem foldl {f : State → α → State} {l : List α} (hf : ∀ t x, MemCanon t → MemCanon (f t x)) (h : MemCanon s) :
    MemCanon (l.foldl f s) := by
  induction l generalizing s with
  | nil => exact h
  | cons x l ih => exact ih (hf s x h)

theorem foldlFst {f : State × β → α → State × β} {l : List α} {p : State × β}
    (hf : ∀ q x, MemCanon q.1 → MemCanon (f q x).1) (h : MemCanon p.1) : MemCanon (l.foldl f p).1 := by
  induction l generalizing p with
  | nil => exact h
  | cons x l ih => exact ih (hf p x h)

theorem serve {cl a n} (h : MemCanon s) : MemCanon (s.serve cl a n) := of_mem_eq (s.serve_mem cl a n) h

theorem finishOp {k st r} (h : MemCanon s) : MemCanon (s.finishOp k st r) := of_mem_eq (s.finishOp_mem k st r) h

/-- The words of a fill are stored one by one. -/
theorem memFillDone {k} (h : MemCanon s) : MemCanon (s.memFillDone k) := by
  fun_cases State.memFillDone
  case case1 | case3 => exact h
  case case2 =>
    refine finishOp (serve (foldl (fun t i ht => ?_) h))
    split
    · exact State.putWord_wf _ _ _ _ ht
    · exact ht

/-- The words of a copy are stored one by one. -/
theorem memCopyDone {k} (h : MemCanon s) : MemCanon (s.memCopyDone k) := by
  fun_cases State.memCopyDone
  case case1 | case3 => exact h
  case case2 => exact finishOp (serve (serve (foldlFst (fun _ _ hq => State.copyWord_wf _ _ _ _ hq) h)))

/-- A wipe takes entries out of memory. -/
theorem regionWiped {k} (h : MemCanon s) : MemCanon (s.regionWiped k) := by
  have hw {n : Nat} : MemCanon ((s.noteWrite (k * 0x4000000) n).eraseRange (k * 0x4000000) n) :=
    State.eraseRange_wf _ _ (by rwa [State.noteWrite_mem])
  unfold State.regionWiped
  extract_lets c t u
  split
  · split
    · exact of_mem_eq (State.setFld_mem _ _ _) hw
    · exact hw
  · exact h

theorem of_next {u : State} (e : (.next u : Host.Outcome State Fault Refusal) = .next t) (h : MemCanon u) :
    MemCanon t := by
  cases e; exact h

end MemCanon

/-- Settles O17: each operation stores bytes one at a time, or takes entries out. -/
theorem memoryStaysCanonical : Obligations.MemoryStaysCanonical := fun _ h =>
  ⟨fun a b => State.setByte_wf a b h, fun w d p => State.storeWord_wf w d p h, fun a n => State.eraseRange_wf a n h,
    fun cl a bs => State.writeBytes_wf cl a bs h, fun _ _ e => MemCanon.of_next e (.memFillDone h),
    fun _ _ e => MemCanon.of_next e (.memCopyDone h), fun _ _ e => MemCanon.of_next e (.regionWiped h)⟩

end Sys2Proof.Machine
end

section
/-! What a client's write does to memory (R27, R94, R360): one law for a word, and its iteration over the words of a range.
Beside the word written, a write moves counters, records and the status of correction tables, but none of the registers
that say who may access what (R28, R371). -/

namespace Sys2Proof.Machine

open Sys2Proof

/-- The registers that say what lies where and who owns it: the control and status of the four channels, and the status of
the banks, as many as a bank number names. -/
def AccessReg (a : Nat) : Prop :=
  (∃ c < 4, a = 0x000D0000 + 64 * c ∨ a = 0x000D0004 + 64 * c) ∨ ∃ b < 64, a = 0x000D1200 + 4 * b

theorem AccessReg.block {a : Nat} (h : AccessReg a) : a / 0x10000 = 0xD := by
  rcases h with ⟨c, hc, h | h⟩ | ⟨b, hb, h⟩ <;> omega

/-- What a write of memory keeps: commands, transactions, time, the wipe, a join, and who may access what. -/
structure WriteKeeps (s t : State) : Prop where
  cmd : t.cmd = s.cmd
  txn : t.txn = s.txn
  clk : t.clk = s.clk
  tick : t.tick = s.tick
  sys : t.sys = s.sys
  join : t.red.join = s.red.join
  word : ∀ a, AccessReg a → t.word a = s.word a

/-- A record changes no register outside the blocks of the fabric and of the log. -/
theorem State.log_word_block (s : State) {n : RecName} (d : List Byte) (p : Nat) (hn : n.sev < 4) {a : Nat}
    (h9 : a / 0x10000 ≠ 9) (hF : a / 0x10000 ≠ 0xF) : (s.log n d p).word a = s.word a := by
  by_cases h : a / 0x10000 ∈ Actor.link.blocks
  · refine (Apart.log (x := .lamp) hn .refl).word a fun h' => ?_
    simp only [Actor.blocks, List.mem_cons, List.not_mem_nil, or_false] at h h'
    omega
  · exact (Apart.log (x := .link) hn .refl).word a h

theorem State.fld_congr {s t : State} {f : Fld} (h : t.word f.addr = s.word f.addr) : t.fld f = s.fld f :=
  congrArg f.get h

theorem State.bit_congr {s t : State} {f : Fld} (h : t.word f.addr = s.word f.addr) : t.bit f = s.bit f := by
  unfold State.bit
  rw [State.fld_congr h]

theorem State.place_bank_lt {s : State} {a b : Nat} (h : s.place a = .bank b) : b < 48 := by
  unfold State.place at h
  split at h
  · dsimp only at h
    split at h <;> cases h
  · split at h
    · cases h
      omega
    · split at h <;> cases h

/-- What lies at an address follows from the registers of the channels. -/
theorem State.place_congr {s t : State} (hw : ∀ a, AccessReg a → t.word a = s.word a) (a : Nat) :
    t.place a = s.place a := by
  unfold State.place
  split
  next h =>
    have hc : a / 0x800000000 < 4 := by omega
    have h0 : t.channelIn (a / 0x800000000) = s.channelIn (a / 0x800000000) :=
      State.bit_congr (hw _ (.inl ⟨_, hc, .inl rfl⟩))
    have h1 : t.capacity (a / 0x800000000) = s.capacity (a / 0x800000000) :=
      congrArg (2 ^ 30 * 2 ^ ·) (State.fld_congr (hw _ (.inl ⟨_, hc, .inr rfl⟩)))
    simp only [h0, h1]
  next => rfl

/-- Who may access what follows from the wipe and the registers of channels and banks (R28, R371). -/
theorem State.mayAccess_congr {s t : State} (hs : t.sys = s.sys) (hw : ∀ a, AccessReg a → t.word a = s.word a)
    (cl : Client) (a : Nat) : t.mayAccess cl a = s.mayAccess cl a := by
  unfold State.mayAccess
  rw [State.place_congr hw, hs]
  congr 1
  split
  next => rfl
  next b h =>
    have h0 := hw _ (.inr ⟨b, Nat.lt_trans (State.place_bank_lt h) (by decide), rfl⟩)
    unfold State.bankOn
    rw [State.fld_congr (f := F.MEM_BANK_STAT_PWR b) h0, State.bit_congr (f := F.MEM_BANK_STAT_CHANGING b) h0,
      State.fld_congr (f := F.MEM_BANK_STAT_OWNER b) h0]
  next => rfl
  next => rfl

/-! ### What moves beside the bytes -/

namespace WriteKeeps
variable {s t u : State} {α : Type}

theorem refl : WriteKeeps s s := by constructor <;> intros <;> rfl

theorem trans (h : WriteKeeps s t) (h' : WriteKeeps t u) : WriteKeeps s u where
  cmd := h'.cmd.trans h.cmd
  txn := h'.txn.trans h.txn
  clk := h'.clk.trans h.clk
  tick := h'.tick.trans h.tick
  sys := h'.sys.trans h.sys
  join := h'.join.trans h.join
  word := fun a ha => (h'.word a ha).trans (h.word a ha)

theorem place (h : WriteKeeps s t) (a : Nat) : t.place a = s.place a := State.place_congr h.word a

theorem mayAccess (h : WriteKeeps s t) (cl : Client) (a : Nat) : t.mayAccess cl a = s.mayAccess cl a :=
  State.mayAccess_congr h.sys h.word cl a

/-- A register that says nothing of access. -/
theorem setFld {f v} (hf : ¬ AccessReg f.addr) (h : WriteKeeps s t) : WriteKeeps s (t.setFld f v) :=
  { h with word := fun a ha => (State.word_setFld_other t f v fun e => hf (e ▸ ha)).trans (h.word a ha) }

theorem log {n d p} (hn : n.sev < 4) (h : WriteKeeps s t) : WriteKeeps s (t.log n d p) where
  cmd := (t.log_cmd n d p).trans h.cmd
  txn := (t.log_txn n d p).trans h.txn
  clk := (t.log_clk n d p).trans h.clk
  tick := (t.log_tick n d p).trans h.tick
  sys := (t.log_sys n d p).trans h.sys
  join := (congrArg _ (t.log_red n d p)).trans h.join
  word := fun a ha => (t.log_word_block d p hn (by rw [ha.block]; decide) (by rw [ha.block]; decide)).trans (h.word a ha)

/-- What moves neither these parts nor a register. -/
theorem same {mem sec tm err fab cdc ring memc eth ing cmp lnk tile rnd out pending} (h : WriteKeeps s t) :
    WriteKeeps s ⟨t.regs, mem, t.clk, t.tick, t.sys, sec, tm, t.cmd, t.txn, err, fab, cdc, ring, memc, eth, ing, cmp, lnk,
      tile, t.red, rnd, out, pending⟩ := { h with }

theorem foldl {f : State → α → State} {l : List α} (hf : ∀ t, ∀ i ∈ l, WriteKeeps s t → WriteKeeps s (f t i))
    (h : WriteKeeps s t) : WriteKeeps s (l.foldl f t) := by
  induction l generalizing t with
  | nil => exact h
  | cons i l ih => exact ih (fun t j hj => hf t j (List.mem_cons_of_mem _ hj)) (hf t i List.mem_cons_self h)

end WriteKeeps

/-- Memory, its errors and its poison are as they were too. -/
structure Untouched (s t : State) : Prop extends WriteKeeps s t where
  mem : t.mem = s.mem
  flaws : t.memc.flaws = s.memc.flaws
  poison : t.memc.poison = s.memc.poison

theorem not_accessReg_of_block {a : Nat} (h : a / 0x10000 ≠ 0xD) : ¬ AccessReg a := fun ha => h ha.block

theorem channelCount_not_access {c k : Nat} (hc : c < 4) (hk : k < 12) : ¬ AccessReg (F.MEM_CH_CNT_COUNT c k).addr := by
  simp only [F.MEM_CH_CNT_COUNT]
  rintro (⟨i, hi, h | h⟩ | ⟨b, hb, h⟩) <;> omega

theorem scratchCount_not_access {k : Nat} (hk : k < 8) : ¬ AccessReg (F.MEM_SP_CNT_COUNT k).addr := by
  simp only [F.MEM_SP_CNT_COUNT]
  rintro (⟨i, hi, h | h⟩ | ⟨b, hb, h⟩) <;> omega

theorem classCount_not_access {c : Nat} (hc : c < 4) (cl : Client) :
    ¬ AccessReg (F.MEM_CLS_CNT_COUNT c (cl.rank - 1) 0).addr := by
  have hr : cl.rank ≤ 5 := by cases cl <;> simp [Client.rank]
  simp only [F.MEM_CLS_CNT_COUNT]
  rintro (⟨i, hi, h | h⟩ | ⟨b, hb, h⟩) <;> omega

namespace Untouched
variable {s t u : State} {α : Type}

theorem refl : Untouched s s := ⟨.refl, rfl, rfl, rfl⟩

theorem trans (h : Untouched s t) (h' : Untouched t u) : Untouched s u :=
  ⟨h.toWriteKeeps.trans h'.toWriteKeeps, h'.mem.trans h.mem, h'.flaws.trans h.flaws, h'.poison.trans h.poison⟩

theorem byte (h : Untouched s t) (x : Nat) : t.byte x = s.byte x := congrArg (fun m => sparseGet _ m x) h.mem

theorem ite {c : Prop} [Decidable c] {a b : State} (ha : Untouched s a) (hb : Untouched s b) :
    Untouched s (if c then a else b) := by
  split <;> assumption

theorem setFld {f v} (hf : ¬ AccessReg f.addr) (h : Untouched s t) : Untouched s (t.setFld f v) :=
  ⟨h.toWriteKeeps.setFld hf, h.mem, h.flaws, h.poison⟩

/-- A count of a channel or of the scratchpad, by where a word lies. -/
theorem countAt {w kd ks nd ns : Nat} (hd : kd < 12) (hs : ks < 8) (h : Untouched s t) :
    Untouched s (match t.place w with
      | .dram c => t.bump (F.MEM_CH_CNT_COUNT c kd) nd
      | _ => t.bump (F.MEM_SP_CNT_COUNT ks) ns) := by
  split
  next c e => exact h.setFld (channelCount_not_access (State.place_dram_lt e) hd)
  next => exact h.setFld (scratchCount_not_access hs)

theorem log {n d p} (hn : n.sev < 4) (h : Untouched s t) : Untouched s (t.log n d p) :=
  ⟨h.toWriteKeeps.log hn, (t.log_mem n d p).trans h.mem, (congrArg _ (t.log_memc n d p)).trans h.flaws,
    (congrArg _ (t.log_memc n d p)).trans h.poison⟩

theorem iteSnd {c : Prop} [Decidable c] {a b : α × State} (ha : Untouched s a.2) (hb : Untouched s b.2) :
    Untouched s (if c then a else b).2 := by
  split <;> assumption

theorem foldl {f : State → α → State} {l : List α} (hf : ∀ t, ∀ i ∈ l, Untouched s t → Untouched s (f t i))
    (h : Untouched s t) : Untouched s (l.foldl f t) := by
  induction l generalizing t with
  | nil => exact h
  | cons i l ih => exact ih (fun t j hj => hf t j (List.mem_cons_of_mem _ hj)) (hf t i List.mem_cons_self h)

theorem ofPair {β : Type} {p : β × State} {y : β} (e : p = (y, t)) (h : Untouched s p.2) : Untouched s t := by
  subst e
  exact h

/-- Notes kept beside the stored words. -/
theorem note {sec tm err fab cdc ring eth ing cmp lnk tile rnd out pending}
    {training refreshTick scrubNext scrubTick spNext spTick scrubBack spWrites corrected bankDone} (h : Untouched s t) :
    Untouched s ⟨t.regs, t.mem, t.clk, t.tick, t.sys, sec, tm, t.cmd, t.txn, err, fab, cdc, ring,
      { t.memc with training := training, refreshTick := refreshTick, scrubNext := scrubNext, scrubTick := scrubTick,
                    spNext := spNext, spTick := spTick, scrubBack := scrubBack, spWrites := spWrites,
                    corrected := corrected, bankDone := bankDone },
      eth, ing, cmp, lnk, tile, t.red, rnd, out, pending⟩ := { h with }

theorem limit {key max} (h : Untouched s t) : Untouched s (t.limit key max).2 := .iteSnd (.note h) h

theorem accountWord {cl w} (h : Untouched s t) : Untouched s (t.accountWord cl w) := by
  have hd {d : Decoded} (e : (t.readWord cl w).dec = some d) : d.corrected - 1 < 12 := by
    have := State.readWord_corrected_le e
    omega
  fun_cases State.accountWord
  case case1 | case4 => exact h
  case case2 => exact .log (by split <;> decide) (.ofPair ‹_› (.limit (h.countAt (by split <;> decide) (by decide))))
  case case3 => exact .ofPair ‹_› (.limit (h.countAt (by split <;> decide) (by decide)))
  case case5 => exact .log (by decide) (.note (.ofPair ‹_› (.limit (h.countAt (hd ‹_›) (by decide)))))
  case case6 => exact .note (.ofPair ‹_› (.limit (h.countAt (hd ‹_›) (by decide))))

theorem serve {cl a n} (h : Untouched s t) : Untouched s (t.serve cl a n) :=
  .foldl (fun _ _ hc h => .ite (h.setFld (classCount_not_access (List.mem_range.mp hc) cl)) h) h

theorem tblInvalidate {k} (hk : k < 2) (h : Untouched s t) : Untouched s (t.tblInvalidate k) := by
  have hb (b : Nat) (hb : b < 0x1000) : ¬ AccessReg (0x000B0000 + b + 4 * k) := not_accessReg_of_block (by omega)
  exact .setFld (hb 0x30 (by decide)) (.setFld (hb 0x28 (by decide)) (.setFld (hb 0x28 (by decide))
    (.setFld (not_accessReg_of_block (by decide)) h)))

theorem noteWrite {a n} (h : Untouched s t) : Untouched s (t.noteWrite a n) := by
  unfold State.noteWrite
  extract_lets meets t1
  have h1 : Untouched s t1 :=
    .foldl (fun _ k hk h => .ite (.tblInvalidate (by simp at hk; omega) h) h) h
  split
  · exact .ite { h1 with } h1
  · exact h1

theorem dropScrub {cl w} (h : Untouched s t) : Untouched s (t.dropScrub cl w) := by
  unfold State.dropScrub
  extract_lets hit gone _ t1
  have h1 : Untouched s t1 := .note h
  refine .ite h ?_
  split
  next c e => exact h1.setFld (channelCount_not_access (State.place_dram_lt e) (by decide))
  next => exact .setFld (scratchCount_not_access (by decide)) (h1.setFld (scratchCount_not_access (by decide)))

end Untouched

end Sys2Proof.Machine
end

section
/-! The words a client stores (R357, R360), and `MEM_WRITE`'s effect on memory (R96). -/

namespace Sys2Proof.Machine

open Sys2Proof

/-! ### Bytes of a number -/

/-- Byte `i` of the number that bytes give is the byte at place `i`. -/
theorem ofNat_natLE_div (l : List Byte) : ∀ i < l.length, BitVec.ofNat 8 (natLE l / 256 ^ i) = l.getD i 0 := by
  induction l with
  | nil => nofun
  | cons b l ih =>
    intro i hi
    have e : natLE (b :: l) = natLE l * 256 + b.toNat := rfl
    have hb : b.toNat < 256 := b.isLt
    cases i with
    | zero =>
      apply BitVec.eq_of_toNat_eq
      rw [e, BitVec.toNat_ofNat]
      simp only [pow_zero, Nat.div_one, List.getD_cons_zero]
      omega
    | succ i =>
      rw [e, pow_succ', ← Nat.div_div_eq_div_mul, show (natLE l * 256 + b.toNat) / 256 = natLE l by omega]
      exact ih i (by simpa using hi)

/-- The number that eight bytes give fits a word. -/
theorem natLE_lt (l : List Byte) : natLE l < 256 ^ l.length := by
  induction l with
  | nil => exact Nat.one_pos
  | cons b l ih =>
    have e : natLE (b :: l) = natLE l * 256 + b.toNat := rfl
    have hb : b.toNat < 256 := b.isLt
    rw [e, List.length_cons, pow_succ]
    omega

/-- Byte `i` of the word that eight bytes give. -/
theorem byte_of_word (l : List Byte) (hl : l.length = 8) (i : Nat) (hi : i < 8) :
    BitVec.ofNat 8 ((BitVec.ofNat 64 (natLE l)).toNat / 256 ^ i) = l.getD i 0 := by
  have h := natLE_lt l
  rw [hl] at h
  rw [BitVec.toNat_ofNat, Nat.mod_eq_of_lt (by simpa using h)]
  exact ofNat_natLE_div l i (by omega)

/-- Byte `i` of a stored word's data (R357). -/
theorem State.byte_data64 (s : State) (w i : Nat) (hi : i < 8) :
    BitVec.ofNat 8 ((s.data64 w).toNat / 256 ^ i) = s.byte (w + i) := by
  rw [State.data64, byte_of_word _ (by simp) i hi]
  simp [List.getD_eq_getElem?_getD, hi]

/-! ### One word -/

/-- What is stored of the word at `w` is as it was: its bytes, its error, its poison. -/
structure WordKept (w : Nat) (s t : State) : Prop where
  byte : ∀ x, w ≤ x → x < w + 8 → t.byte x = s.byte x
  flaw : sparseGet (fun _ => (0 : BitVec 80)) t.memc.flaws w = sparseGet (fun _ => 0) s.memc.flaws w
  poison : sparseGet (fun _ => false) t.memc.poison w = sparseGet (fun _ => false) s.memc.poison w

theorem WordKept.refl {w : Nat} {s : State} : WordKept w s s := ⟨fun _ _ _ => rfl, rfl, rfl⟩

theorem WordKept.trans {w : Nat} {s t u : State} (h : WordKept w s t) (h' : WordKept w t u) : WordKept w s u :=
  ⟨fun x h1 h2 => (h'.byte x h1 h2).trans (h.byte x h1 h2), h'.flaw.trans h.flaw, h'.poison.trans h.poison⟩

/-- The word at `w` is stored whole with its poison; every other byte, error and poison bit is as it was. -/
structure Stored (w : Nat) (d : BitVec 64) (p : Bool) (s t : State) : Prop extends WriteKeeps s t where
  byte : ∀ x, t.byte x = if w ≤ x ∧ x < w + 8 then BitVec.ofNat 8 (d.toNat / 256 ^ (x - w)) else s.byte x
  flaw : ∀ x, sparseGet (fun _ => (0 : BitVec 80)) t.memc.flaws x =
    if x = w then 0 else sparseGet (fun _ => 0) s.memc.flaws x
  poison : ∀ x, sparseGet (fun _ => false) t.memc.poison x = if x = w then p else sparseGet (fun _ => false) s.memc.poison x

namespace Stored
variable {w : Nat} {d : BitVec 64} {p : Bool} {s t u : State}

/-- Whatever moves beside the bytes may come before. -/
theorem after (h : Untouched s t) (h' : Stored w d p t u) : Stored w d p s u where
  toWriteKeeps := h.toWriteKeeps.trans h'.toWriteKeeps
  byte := fun x => by rw [h'.byte, h.byte]
  flaw := fun x => by rw [h'.flaw, h.flaws]
  poison := fun x => by rw [h'.poison, h.poison]

/-- And after. -/
theorem before (h : Stored w d p s t) (h' : Untouched t u) : Stored w d p s u where
  toWriteKeeps := h.toWriteKeeps.trans h'.toWriteKeeps
  byte := fun x => by rw [h'.byte, h.byte]
  flaw := fun x => by rw [h'.flaws, h.flaw]
  poison := fun x => by rw [h'.poison, h.poison]

/-- Another word is kept. -/
theorem kept (h : Stored w d p s t) {v : Nat} (hv : v + 8 ≤ w ∨ w + 8 ≤ v) : WordKept v s t where
  byte := fun x h1 h2 => by rw [h.byte, if_neg (by omega)]
  flaw := by rw [h.flaw, if_neg (by omega)]
  poison := by rw [h.poison, if_neg (by omega)]

end Stored

theorem Untouched.wordKept {w : Nat} {s t : State} (h : Untouched s t) : WordKept w s t :=
  ⟨fun x _ _ => h.byte x, by rw [h.flaws], by rw [h.poison]⟩

theorem State.storeWord_stored (s : State) (w : Nat) (d : BitVec 64) (p : Bool) : Stored w d p s (s.storeWord w d p) := by
  have hn : Untouched s (s.noteWrite w 8) := Untouched.noteWrite .refl
  let put (l : List Nat) : State := l.foldl (fun u i => u.setByte (w + i) (BitVec.ofNat 8 (d.toNat / 256 ^ i))) (s.noteWrite w 8)
  have hput (l : List Nat) : WriteKeeps s (put l) ∧ (put l).memc = (s.noteWrite w 8).memc := by
    suffices ∀ u : State, WriteKeeps s u → WriteKeeps s (l.foldl (fun u i =>
        u.setByte (w + i) (BitVec.ofNat 8 (d.toNat / 256 ^ i))) u) ∧ (l.foldl (fun u i =>
        u.setByte (w + i) (BitVec.ofNat 8 (d.toNat / 256 ^ i))) u).memc = u.memc from this _ hn.toWriteKeeps
    induction l with
    | nil => exact fun u hu => ⟨hu, rfl⟩
    | cons i l ih => exact fun u hu => ih (u.setByte _ _) hu.same
  obtain ⟨hk, hm⟩ := hput (List.range 8)
  let t : State := { put (List.range 8) with memc := { (put (List.range 8)).memc with
    flaws := sparsePut (fun _ => 0) (put (List.range 8)).memc.flaws w 0
    poison := sparsePut (fun _ => false) (put (List.range 8)).memc.poison w p } }
  have ht : WriteKeeps s t := hk.same
  have hu : Untouched t (s.storeWord w d p) := by
    have e : s.storeWord w d p = if p then (match s.place w with
        | .dram c => t.bump (F.MEM_CH_CNT_COUNT c 4)
        | .bank _ => t.bump (F.MEM_SP_CNT_COUNT 3)
        | _ => t) else t := rfl
    rw [e]
    refine .ite ?_ .refl
    split
    next c e => exact Untouched.refl.setFld (channelCount_not_access (State.place_dram_lt e) (by decide))
    next => exact Untouched.refl.setFld (scratchCount_not_access (by decide))
    next => exact .refl
  refine ⟨ht.trans hu.toWriteKeeps, s.byte_storeWord w d p, fun x => ?_, fun x => ?_⟩
  · rw [hu.flaws, show t.memc.flaws = sparsePut (fun _ => 0) s.memc.flaws w 0 by rw [← hn.flaws, ← hm]]
    split
    next e => rw [e, sparseGet_put_same]
    next e => rw [sparseGet_put_other _ _ e]
  · rw [hu.poison, show t.memc.poison = sparsePut (fun _ => false) s.memc.poison w p by rw [← hn.poison, ← hm]]
    split
    next e => rw [e, sparseGet_put_same]
    next e => rw [sparseGet_put_other _ _ e]

/-- No write of word `w` by the client meets one of its other port in the same tick (R376): those of the host never do, and
out of the scratchpad there is no other port. -/
def State.alone (s : State) (cl : Client) (w : Nat) : Prop := cl = .host ∨ ∀ b, s.place w ≠ .bank b

theorem State.alone_congr {s t : State} {cl : Client} {w : Nat} (h : WriteKeeps s t) (ho : s.alone cl w) : t.alone cl w :=
  ho.imp id fun hp b => h.place w ▸ hp b

/-- A client that meets no other write stores a word whole. -/
theorem State.putWord_stored (s : State) (cl : Client) (w : Nat) (d : BitVec 64) (p : Bool) (ho : s.alone cl w) :
    Stored w d p s (s.putWord cl w d p) := by
  have hd : Untouched s (s.dropScrub cl w) := Untouched.dropScrub .refl
  have hs : Stored w d p s ((s.dropScrub cl w).storeWord w d p) := .after hd (State.storeWord_stored _ w d p)
  unfold State.putWord
  dsimp only
  split
  next b e =>
    have h0 : s.otherWrite cl w = none := by
      rcases ho with rfl | ho
      · rfl
      · exact absurd e (ho b)
    simp only [h0, Option.isSome_none, Bool.false_and, Bool.false_eq_true, if_false]
    exact hs.before (.note .refl)
  next => exact hs

/-! ### The bytes of a word -/

/-- The bytes a client sends of a word, where it may write it: each byte sent is stored, each other one is what the client
reads of the word; a word sent whole is stored without poison (R360). -/
theorem State.writeWord_stored (s : State) (cl : Client) (w : Nat) (bs : List (Option Byte)) (hl : bs.length = 8)
    (ha : s.mayAccess cl w = true) (ho : s.alone cl w) :
    ∃ d p, Stored w d p s (s.writeWord cl w bs) ∧ (bs.all Option.isSome = true → p = false) ∧
      ∀ i < 8, BitVec.ofNat 8 (d.toNat / 256 ^ i) =
        (bs.getD i none).getD (BitVec.ofNat 8 ((s.readWord cl w).data.toNat / 256 ^ i)) := by
  unfold State.writeWord
  simp only [ha, not_true_eq_false, if_false]
  split
  next hall =>
    refine ⟨_, _, s.putWord_stored cl w _ false ho, fun _ => rfl, fun i hi => ?_⟩
    rw [byte_of_word _ (by simp [hl]) i hi]
    have hi' : i < bs.length := by omega
    obtain ⟨b, hb⟩ := Option.isSome_iff_exists.mp (List.all_eq_true.mp hall bs[i] (List.getElem_mem hi'))
    simp [List.getD_eq_getElem?_getD, hi', hb]
  next hall =>
    have hk : Untouched s (s.accountWord cl w) := Untouched.accountWord .refl
    refine ⟨_, _, .after hk (State.putWord_stored _ cl w _ _ (State.alone_congr hk.toWriteKeeps ho)),
      fun h => absurd h hall, fun i hi => ?_⟩
    rw [byte_of_word _ (by simp) i hi]
    simp [List.getD_eq_getElem?_getD, hi]

/-- A write of a word, whatever it may do to the word, keeps every other one. -/
theorem State.writeWord_kept (s : State) (cl : Client) (w : Nat) (bs : List (Option Byte)) (hl : bs.length = 8)
    (ho : s.alone cl w) :
    WriteKeeps s (s.writeWord cl w bs) ∧ ∀ v, v + 8 ≤ w ∨ w + 8 ≤ v → WordKept v s (s.writeWord cl w bs) := by
  cases ha : s.mayAccess cl w with
  | true =>
    obtain ⟨d, p, h, -⟩ := s.writeWord_stored cl w bs hl ha ho
    exact ⟨h.toWriteKeeps, fun v hv => h.kept hv⟩
  | false =>
    have e : s.writeWord cl w bs = s := by simp [State.writeWord, ha]
    rw [e]
    exact ⟨.refl, fun v _ => .refl⟩

/-- A word the client may not access stays (R94). -/
theorem State.writeWord_violation {s : State} {cl : Client} {w : Nat} (ha : s.mayAccess cl w = false)
    (bs : List (Option Byte)) : s.writeWord cl w bs = s := by
  simp [State.writeWord, ha]

/-- A word without an error and not poisoned reads as it is stored, for the host. -/
theorem State.readWord_clean {s : State} {w : Nat} (ha : s.mayAccess .host w = true)
    (hf : sparseGet (fun _ => (0 : BitVec 80)) s.memc.flaws w = 0)
    (hp : sparseGet (fun _ => false) s.memc.poison w = false) : s.readWord .host w = ⟨s.data64 w, false, none⟩ := by
  have ho : s.oldWord .host w = none := by unfold State.oldWord; split <;> rfl
  unfold State.readWord
  rw [if_neg (not_not_intro ha), ho]
  exact if_pos ⟨hf, hp⟩

/-! ### The words of a range -/

/-- Words written one after another from word `first`: each is written once, in a state in which it is still as at the
start, and keeps what it then holds. -/
theorem State.writeWords (s : State) (cl : Client) (first : Nat) (g : Nat → List (Option Byte))
    (hg : ∀ j, (g j).length = 8) : ∀ n, (∀ j < n, s.alone cl (8 * (first + j))) →
    let t := (List.range n).foldl (fun t j => t.writeWord cl (8 * (first + j)) (g j)) s
    WriteKeeps s t ∧ (∀ v, v + 8 ≤ 8 * first ∨ 8 * (first + n) ≤ v → WordKept v s t) ∧
      ∀ j < n, ∃ u, WriteKeeps s u ∧ WordKept (8 * (first + j)) s u ∧
        WordKept (8 * (first + j)) (u.writeWord cl (8 * (first + j)) (g j)) t := by
  intro n
  induction n with
  | zero => exact fun _ => ⟨.refl, fun _ _ => .refl, nofun⟩
  | succ n ih =>
    intro ho
    obtain ⟨hk, hout, hin⟩ := ih fun j hj => ho j (by omega)
    simp only [List.range_succ, List.foldl_append, List.foldl_cons, List.foldl_nil]
    generalize (List.range n).foldl (fun t j => t.writeWord cl (8 * (first + j)) (g j)) s = t at hk hout hin ⊢
    obtain ⟨hk', hout'⟩ := t.writeWord_kept cl (8 * (first + n)) (g n) (hg n)
      (State.alone_congr hk (ho n (by omega)))
    refine ⟨hk.trans hk', fun v hv => (hout v (by omega)).trans (hout' v (by omega)), fun j hj => ?_⟩
    by_cases hjn : j = n
    · subst hjn
      exact ⟨t, hk, hout _ (by omega), .refl⟩
    · obtain ⟨u, hu, hs, ht⟩ := hin j (by omega)
      exact ⟨u, hu, hs, ht.trans (hout' _ (by omega))⟩

/-- The bytes that a write from `a` sends of the word at `w`. -/
def chunk (a : Nat) (bs : List Byte) (w : Nat) : List (Option Byte) :=
  (List.range 8).map fun i => if a ≤ w + i ∧ w + i < a + bs.length then bs[w + i - a]? else none

/-- The words that bytes from `a` lie in. -/
def wordsOf (a : Nat) (bs : List Byte) : Nat := (a + bs.length - 1) / 8 + 1 - a / 8

theorem State.putBytes_eq (s : State) (cl : Client) (a : Nat) {bs : List Byte} (h : bs ≠ []) :
    s.putBytes cl a bs = (List.range (wordsOf a bs)).foldl (fun t j =>
      t.writeWord cl (8 * (a / 8 + j)) (chunk a bs (8 * (a / 8 + j)))) s := by
  cases bs with
  | nil => exact absurd rfl h
  | cons b bs => rfl

theorem chunk_getD (a : Nat) (bs : List Byte) (w i : Nat) (hi : i < 8) :
    (chunk a bs w).getD i none = if a ≤ w + i ∧ w + i < a + bs.length then bs[w + i - a]? else none := by
  simp [chunk, List.getD_eq_getElem?_getD, hi]

/-- What a client's write leaves: beside the bytes, and of every word that it does not touch or may not access. -/
theorem State.writeBytes_kept (s : State) (cl : Client) (a : Nat) {bs : List Byte} (h : bs ≠ [])
    (ho : ∀ w, w % 8 = 0 → a < w + 8 → w < a + bs.length → s.alone cl w) :
    WriteKeeps s (s.writeBytes cl a bs) ∧
      (∀ w, w % 8 = 0 → w + 8 ≤ a / 8 * 8 ∨ (a + bs.length - 1) / 8 * 8 + 8 ≤ w ∨ s.mayAccess cl w = false →
        WordKept w s (s.writeBytes cl a bs)) := by
  have hl : 0 < bs.length := List.length_pos_iff.mpr h
  obtain ⟨hk, hout, hin⟩ := s.writeWords cl (a / 8) (fun j => chunk a bs (8 * (a / 8 + j))) (fun _ => by simp [chunk])
    (wordsOf a bs) fun j hj => ho _ (Nat.mul_mod_right _ _) (by unfold wordsOf at hj; omega) (by unfold wordsOf at hj; omega)
  rw [← s.putBytes_eq cl a h] at hk hout hin
  have hs : Untouched (s.putBytes cl a bs) (s.writeBytes cl a bs) := .serve .refl
  refine ⟨hk.trans hs.toWriteKeeps, fun w hw hc => .trans ?_ hs.wordKept⟩
  by_cases hrange : w + 8 ≤ 8 * (a / 8) ∨ 8 * (a / 8 + wordsOf a bs) ≤ w
  · exact hout w hrange
  · obtain ⟨u, hu, h1, h2⟩ := hin (w / 8 - a / 8) (by unfold wordsOf at hrange ⊢; omega)
    rw [show 8 * (a / 8 + (w / 8 - a / 8)) = w by omega] at h1 h2
    have hm : s.mayAccess cl w = false := by
      unfold wordsOf at hrange
      rcases hc with hc | hc | hc
      · omega
      · omega
      · exact hc
    rw [State.writeWord_violation ((hu.mayAccess cl w).trans hm)] at h2
    exact h1.trans h2

/-- What a client's write stores of a word that it touches and may access. -/
theorem State.writeBytes_stored (s : State) (cl : Client) (a : Nat) {bs : List Byte} (h : bs ≠ [])
    (ho : ∀ w, w % 8 = 0 → a < w + 8 → w < a + bs.length → s.alone cl w) {w : Nat} (hw : w % 8 = 0) (h1 : a < w + 8) (h2 : w < a + bs.length)
    (ha : s.mayAccess cl w = true) :
    ∃ u p, WriteKeeps s u ∧ WordKept w s u ∧
      ((∀ i < 8, a ≤ w + i ∧ w + i < a + bs.length) → p = false) ∧
      sparseGet (fun _ => (0 : BitVec 80)) (s.writeBytes cl a bs).memc.flaws w = 0 ∧
      sparseGet (fun _ => false) (s.writeBytes cl a bs).memc.poison w = p ∧
      ∀ i < 8, (s.writeBytes cl a bs).byte (w + i) =
        if a ≤ w + i ∧ w + i < a + bs.length then bs.getD (w + i - a) 0
        else BitVec.ofNat 8 ((u.readWord cl w).data.toNat / 256 ^ i) := by
  obtain ⟨hk, hout, hin⟩ := s.writeWords cl (a / 8) (fun j => chunk a bs (8 * (a / 8 + j))) (fun _ => by simp [chunk])
    (wordsOf a bs) fun j hj => ho _ (Nat.mul_mod_right _ _) (by unfold wordsOf at hj; omega) (by unfold wordsOf at hj; omega)
  rw [← s.putBytes_eq cl a h] at hk hout hin
  have hs : Untouched (s.putBytes cl a bs) (s.writeBytes cl a bs) := .serve .refl
  obtain ⟨u, hu, h1', h2'⟩ := hin (w / 8 - a / 8) (by unfold wordsOf; omega)
  rw [show 8 * (a / 8 + (w / 8 - a / 8)) = w by omega] at h1' h2'
  obtain ⟨d, p, hst, hp, hb⟩ := u.writeWord_stored cl w (chunk a bs w) (by simp [chunk])
    ((hu.mayAccess cl w).trans ha) (State.alone_congr hu (ho w hw h1 h2))
  have hend := h2'.trans hs.wordKept
  refine ⟨u, p, hu, h1', fun hall => hp ?_, ?_, ?_, fun i hi => ?_⟩
  · rw [List.all_eq_true]
    intro o hmem
    obtain ⟨i, hi, rfl⟩ := List.mem_map.mp hmem
    have hi := hall i (List.mem_range.mp hi)
    rw [if_pos hi, List.getElem?_eq_getElem (by omega)]
    rfl
  · rw [hend.flaw, hst.flaw, if_pos rfl]
  · rw [hend.poison, hst.poison, if_pos rfl]
  · rw [hend.byte _ (by omega) (by omega), hst.byte, if_pos (by omega), Nat.add_sub_cancel_left, hb i hi,
      chunk_getD a bs w i hi]
    split
    next hr => rw [List.getElem?_eq_getElem (by omega), List.getD_eq_getElem _ _ (by omega)]; rfl
    next => rfl

/-- Settles O13: the words of the range are written one by one, each once. -/
theorem memoryWriteFrame : Obligations.MemoryWriteFrame := by
  have alone (s : State) {a n : Nat} (w : Nat) (_ : w % 8 = 0) (_ : a < w + 8) (_ : w < a + n) : s.alone .host w := .inl rfl
  refine ⟨fun s a vs hne => ?_, fun s a vs x ha hl h1 h2 hm => ?_⟩
  · obtain ⟨hk, hkept⟩ := s.writeBytes_kept .host a hne (alone s)
    have hlen : 0 < vs.length := List.length_pos_iff.mpr hne
    have stored (x : Nat) (hx : a < x / 8 * 8 + 8 ∧ x / 8 * 8 < a + vs.length) (hm : s.mayAccess .host (x / 8 * 8) = true) :=
      s.writeBytes_stored .host a hne (alone s) (w := x / 8 * 8) (by omega) hx.1 hx.2 hm
    have hx (x : Nat) : x / 8 * 8 + x % 8 = x := by omega
    refine ⟨fun x h => ?_, fun x h => ?_, fun x hm h1 h2 => ?_, fun x h hf hp => ?_, hk.cmd, hk.txn, hk.clk⟩
    · exact (hkept (x / 8 * 8) (by omega) (by omega)).byte x (by omega) (by omega)
    · exact (hkept (x / 8 * 8) (by omega) (.inr (.inr h))).byte x (by omega) (by omega)
    · obtain ⟨u, p, -, -, -, -, -, hb⟩ := stored x (by omega) hm
      have := hb (x % 8) (by omega)
      rwa [hx, if_pos ⟨h1, h2⟩] at this
    · by_cases hc : x / 8 * 8 + 8 ≤ a / 8 * 8 ∨ (a + vs.length - 1) / 8 * 8 + 8 ≤ x / 8 * 8 ∨
          s.mayAccess .host (x / 8 * 8) = false
      · exact (hkept (x / 8 * 8) (by omega) hc).byte x (by omega) (by omega)
      · rw [not_or, not_or, Bool.not_eq_false] at hc
        obtain ⟨u, p, hu, hsame, -, -, -, hb⟩ := stored x (by omega) hc.2.2
        have := hb (x % 8) (by omega)
        rw [hx, if_neg (by omega), State.readWord_clean ((hu.mayAccess _ _).trans hc.2.2) (hsame.flaw.trans hf)
          (hsame.poison.trans hp), State.byte_data64 _ _ _ (by omega), hx] at this
        exact this.trans (hsame.byte x (by omega) (by omega))
  · have hne : vs ≠ [] := fun e => by subst e; simp at h2; omega
    obtain ⟨hk, -⟩ := s.writeBytes_kept .host a hne (alone s)
    obtain ⟨u, p, -, -, hp, hf, hpo, hb⟩ :=
      s.writeBytes_stored .host a hne (alone s) (w := x / 8 * 8) (by omega) (by omega) (by omega) hm
    have hx : x / 8 * 8 + x % 8 = x := by omega
    have hbyte := hb (x % 8) (by omega)
    rw [hx, if_pos ⟨h1, h2⟩] at hbyte
    rw [State.readByte, wordOf, State.readWord_clean ((hk.mayAccess _ _).trans hm) hf (hpo.trans (hp fun i hi => by omega)),
      State.byte_data64 _ _ _ (by omega), hx, hbyte]

end Sys2Proof.Machine
end

section
/-! What entering a mode leaves as it was (R14): memory, fuses and stores, the change under way, and the registers of the
system block and of the firmware's. -/

namespace Sys2Proof.Machine

open Sys2Proof

/-- The blocks of registers that no mode's end writes, `CUR` apart: the system's and the cocoon's. -/
def modeBlocks : List Nat := [0, 0xE]

/-- What entering a mode keeps. -/
structure ModeKeeps (s t : State) : Prop where
  mem : t.mem = s.mem
  sec : t.sec = s.sec
  change : t.sys.change = s.sys.change
  auto : t.sys.auto = s.sys.auto
  resetReq : t.sys.resetReq = s.sys.resetReq
  word : ∀ a, a / 0x10000 ∈ modeBlocks → t.word a = s.word a

namespace ModeKeeps
variable {s t u : State} {α : Type}

theorem refl : ModeKeeps s s := by constructor <;> intros <;> rfl

theorem trans (h : ModeKeeps s t) (h' : ModeKeeps t u) : ModeKeeps s u where
  mem := h'.mem.trans h.mem
  sec := h'.sec.trans h.sec
  change := h'.change.trans h.change
  auto := h'.auto.trans h.auto
  resetReq := h'.resetReq.trans h.resetReq
  word := fun a ha => (h'.word a ha).trans (h.word a ha)

theorem fld (h : ModeKeeps s t) {f : Fld} (hf : f.addr / 0x10000 ∈ modeBlocks) : t.fld f = s.fld f :=
  State.fld_congr (h.word _ hf)

theorem ite {c : Prop} [Decidable c] {a b : State} (ha : ModeKeeps s a) (hb : ModeKeeps s b) :
    ModeKeeps s (if c then a else b) := by
  split <;> assumption

/-- A further step under a condition. -/
theorem iteOn {c : Prop} [Decidable c] {a b : State} (ha : ModeKeeps s b → ModeKeeps s a) (hb : ModeKeeps s b) :
    ModeKeeps s (if c then a else b) := .ite (ha hb) hb

theorem foldl {f : State → α → State} {l : List α} (hf : ∀ t i, ModeKeeps s t → ModeKeeps s (f t i))
    (h : ModeKeeps s t) : ModeKeeps s (l.foldl f t) := by
  induction l generalizing t with
  | nil => exact h
  | cons i l ih => exact ih (hf t i h)

theorem foldlRange {f : State → Nat → State} {n : Nat} (hf : ∀ t, ∀ i < n, ModeKeeps s t → ModeKeeps s (f t i))
    (h : ModeKeeps s t) : ModeKeeps s ((List.range n).foldl f t) := by
  induction n with
  | zero => exact h
  | succ n ih =>
    rw [List.range_succ, List.foldl_append]
    exact hf _ n (by omega) (ih fun t i hi => hf t i (by omega))

/-- What writes none of the parts followed, nor a register, leaves them. -/
theorem same {clk tick tm cmd txn err fab cdc ring memc eth ing cmp lnk tile red rnd out pending} (h : ModeKeeps s t) :
    ModeKeeps s ⟨t.regs, t.mem, clk, tick, t.sys, t.sec, tm, cmd, txn, err, fab, cdc, ring, memc, eth, ing, cmp, lnk,
      tile, red, rnd, out, pending⟩ := { h with }

theorem setFld {f v} (hf : f.addr / 0x10000 ∉ modeBlocks) (h : ModeKeeps s t) : ModeKeeps s (t.setFld f v) :=
  { h with word := fun a ha => (State.word_setFld_other t f v fun e => hf (e ▸ ha)).trans (h.word a ha) }

theorem log {n d p} (hn : n.sev < 4) (h : ModeKeeps s t) : ModeKeeps s (t.log n d p) where
  mem := (t.log_mem n d p).trans h.mem
  sec := (t.log_sec n d p).trans h.sec
  change := (congrArg _ (t.log_sys n d p)).trans h.change
  auto := (congrArg _ (t.log_sys n d p)).trans h.auto
  resetReq := (congrArg _ (t.log_sys n d p)).trans h.resetReq
  word := fun a ha => by
    simp only [modeBlocks, List.mem_cons, List.not_mem_nil, or_false] at ha
    exact (t.log_word_block d p hn (by omega) (by omega)).trans (h.word a (by simpa [modeBlocks] using ha))

/-! ### The parts of the work -/

theorem setPortReg {b q lo w v} (hq : q < 4) (hb : b / 0x1000 = 0xA0) (h : ModeKeeps s t) :
    ModeKeeps s (t.setFld ⟨b + 4096 * q, lo, w⟩ v) :=
  .setFld (by simp only [modeBlocks, List.mem_cons, List.not_mem_nil, or_false]; omega) h

theorem freeCredits {q c} (h : ModeKeeps s t) : ModeKeeps s (t.freeCredits q c) := .ite h (.same h)

/-- The receive buffers in which cells stand are freed. -/
theorem freeAll {l : List QCell} (h : ModeKeeps s t) : ModeKeeps s (l.foldl (fun (t : State) e => match e.frees with
    | some a => t.freeCredits a.toNat e.cell
    | none => t) t) := by
  refine .foldl (fun _ _ ht => ?_) h
  split
  · exact .freeCredits ht
  · exact ht

theorem portDown {q st} (hq : q < 4) (h : ModeKeeps s t) : ModeKeeps s (t.portDown q st) := by
  unfold State.portDown
  extract_lets gone t1 t2 _ t3 t4 t5 _
  have h2 : ModeKeeps s t2 := .setFld (by decide) (.freeAll h)
  have h4 : ModeKeeps s t4 := .setPortReg hq rfl (.setPortReg hq rfl (.same h2))
  exact .same (.setPortReg hq rfl (.same (.ite (.setPortReg hq rfl h4) h4)))

theorem abortCal {q} (h : ModeKeeps s t) : ModeKeeps s (t.abortCal q) :=
  .ite (.ite (.ite (.same (.same h)) (.setFld (by decide) (.setFld (by decide) (.same (.same h))))) (.same h)) h

theorem endChecks {q} (hq : q < 4) (h : ModeKeeps s t) : ModeKeeps s (t.endChecks q) :=
  .foldlRange (fun _ l hl h => .setFld (by
    simp only [F.LNK_PAT_STAT_LOCK, modeBlocks, List.mem_cons, List.not_mem_nil, or_false]; omega) h) h

theorem eiosOut {q} (h : ModeKeeps s t) : ModeKeeps s (t.eiosOut q) := .ite h (.same h)

theorem disablePort {q} (hq : q < 4) (h : ModeKeeps s t) : ModeKeeps s (t.disablePort q) :=
  .ite h (.portDown hq (.eiosOut (.endChecks hq (.abortCal h))))

theorem dropRaster {q} (h : ModeKeeps s t) : ModeKeeps s (t.dropRaster q) := .same (.freeAll h)

theorem redBits (h : ModeKeeps s t) : ModeKeeps s t.redBits := .setFld (by decide) (.setFld (by decide) h)

theorem takeSource {k} (h : ModeKeeps s t) : ModeKeeps s (t.takeSource k) := .redBits (.same (.setFld (by decide) h))

theorem commandSource {sel} (h : ModeKeeps s t) : ModeKeeps s (t.commandSource sel) :=
  have taken := setFld (f := F.RED_CNT_COUNT 7) (by decide) (takeSource h)
  .ite h (.ite taken (.log (by decide) taken))

theorem sourceChange {c} (h : ModeKeeps s t) : ModeKeeps s (t.sourceChange c) := by
  fun_cases State.sourceChange
  case case1 => exact .commandSource h
  case case2 => exact .redBits (.same (.setFld (by decide) h))

theorem leaveTile (h : ModeKeeps s t) : ModeKeeps s t.leaveTile := by
  have hs : ModeKeeps s t.settleSources.stopJobs :=
    .setFld (by decide) (.same (.foldl (fun _ _ h => .sourceChange h) (.same h)))
  exact { hs with }

theorem leaveService (h : ModeKeeps s t) : ModeKeeps s t.leaveService :=
  .foldlRange (fun _ _ hq h => .same (.iteOn (.endChecks hq) h)) (.ite (.same (.same (.same h))) h)

theorem startMeasure {which} (h : ModeKeeps s t) : ModeKeeps s (t.startMeasure which) :=
  .foldl (fun _ _ h => .iteOn .same h) h

theorem igmpSend {j b} (h : ModeKeeps s t) : ModeKeeps s (t.igmpSend j b) := by
  have hm := j.port.isLt
  refine .ite (.same (.setFld ?_ h)) h
  simp only [F.ETH_CNT_COUNT, modeBlocks, List.mem_cons, List.not_mem_nil, or_false]
  omega

theorem rejoin (h : ModeKeeps s t) : ModeKeeps s t.rejoin :=
  .ite h (.same (.foldl (fun _ _ h => .same (.igmpSend h)) (.foldl (fun _ _ h => .same (.igmpSend h)) h)))

/-- What a mode entered takes with it: all that is followed stays, from the state in which `CUR` reads it. -/
theorem enterMode {m} : ModeKeeps (s.setFld F.SYS_MODE_CUR m) (s.enterMode m) := by
  unfold State.enterMode
  extract_lets old was s1 s2 s3 s4 s5 s6 s7 s8
  have h2 : ModeKeeps s1 s2 := .ite (.foldlRange (fun _ _ hq h => .disablePort hq h) .refl) .refl
  have h3 : ModeKeeps s1 s3 := .iteOn (.foldl fun _ _ h => .dropRaster h) h2
  have h4 : ModeKeeps s1 s4 := .iteOn .leaveTile h3
  have h5 : ModeKeeps s1 s5 := .iteOn .leaveService h4
  have h6 : ModeKeeps s1 s6 := .iteOn (fun h => .startMeasure { h with }) h5
  have h7 : ModeKeeps s1 s7 := .iteOn (.foldl fun _ _ h => .same h) h6
  exact .rejoin (.iteOn (fun h => .setFld (by decide) (.same h)) h7)

end ModeKeeps

/-! ### A mode entered -/

/-- A register of the followed blocks other than `SYS_MODE` is as it was. -/
theorem State.enterMode_word (s : State) (m : Nat) {a : Nat} (ha : a / 0x10000 ∈ modeBlocks)
    (hne : a ≠ F.SYS_MODE_CUR.addr) : (s.enterMode m).word a = s.word a :=
  (ModeKeeps.enterMode.word a ha).trans (s.word_setFld_other _ _ hne)

/-- The mode entered is the one that `CUR` reads. -/
theorem State.enterMode_mode (s : State) {m : Nat} (hm : m < 8) : (s.enterMode m).mode = m := by
  refine (ModeKeeps.enterMode.fld (by decide)).trans ?_
  rw [State.fld_setFld_same _ _ _ (by decide)]
  exact Nat.mod_eq_of_lt hm

/-- The other fields of `SYS_MODE` are as they were. -/
theorem State.enterMode_fld (s : State) (m : Nat) {f : Fld} (ha : f.addr / 0x10000 ∈ modeBlocks)
    (hf : f.lo + f.w ≤ 0 ∨ 3 ≤ f.lo) : (s.enterMode m).fld f = s.fld f :=
  (ModeKeeps.enterMode.fld ha).trans (s.fld_setFld_other F.SYS_MODE_CUR f m (by decide) (by
    simp only [F.SYS_MODE_CUR]; omega))

theorem State.enterMode_sec (s : State) (m : Nat) : (s.enterMode m).sec = s.sec := ModeKeeps.enterMode.sec
theorem State.enterMode_mem (s : State) (m : Nat) : (s.enterMode m).mem = s.mem := ModeKeeps.enterMode.mem
theorem State.enterMode_change (s : State) (m : Nat) : (s.enterMode m).sys.change = s.sys.change :=
  ModeKeeps.enterMode.change
theorem State.enterMode_auto (s : State) (m : Nat) : (s.enterMode m).sys.auto = s.sys.auto := ModeKeeps.enterMode.auto
theorem State.enterMode_resetReq (s : State) (m : Nat) : (s.enterMode m).sys.resetReq = s.sys.resetReq :=
  ModeKeeps.enterMode.resetReq

end Sys2Proof.Machine
end

section
/-! Requests for a mode, the role, and writes that do not land (R12 to R17, R25, R31). -/

namespace Sys2Proof.Machine

open Sys2Proof

/-- A request refused shows its code and changes nothing else (R16). -/
theorem State.requestMode_refused {s : State} {target : Nat} {pair : Bool} (h : s.modeErr target pair ≠ 0) :
    s.requestMode target pair =
      (s.setFld F.SYS_MODE_LAST_REQ target).setFld F.SYS_MODE_REQ_ERR (s.modeErr target pair) := if_pos h

/-- What a request that is taken leaves (R16). -/
structure Requested (target : Nat) (s t : State) : Prop where
  change : t.sys.change = some { target := BitVec.ofNat 3 target, origin := BitVec.ofNat 3 s.mode, at_ := s.clk }
  lastReq : t.fld F.SYS_MODE_LAST_REQ = target
  reqErr : t.fld F.SYS_MODE_REQ_ERR = 0
  busy : t.fld F.SYS_MODE_BUSY = 1
  mode : t.mode = if target = 2 then 2 else s.mode
  auto : t.sys.auto = s.sys.auto
  mem : t.mem = s.mem

/-- The registers of a request that is taken, before the mode it may enter at once. -/
def State.markRequest (s : State) (target : Nat) : State :=
  (((s.setFld F.SYS_MODE_LAST_REQ target).setFld F.SYS_MODE_REQ_ERR 0).updSys fun y => { y with
    change := some { target := BitVec.ofNat 3 target, origin := BitVec.ofNat 3 s.mode, at_ := s.clk } }).setFld
      F.SYS_MODE_BUSY 1

theorem State.markRequest_lastReq (s : State) {target : Nat} (ht : target < 8) :
    (s.markRequest target).fld F.SYS_MODE_LAST_REQ = target := by
  unfold State.markRequest
  rw [State.fld_setFld_other _ _ _ _ (by decide) (by decide)]
  refine (State.fld_setFld_other _ _ F.SYS_MODE_LAST_REQ _ (by decide) (by decide)).trans ?_
  rw [State.fld_setFld_same _ _ _ (by decide)]
  exact Nat.mod_eq_of_lt ht

theorem State.markRequest_reqErr (s : State) (target : Nat) : (s.markRequest target).fld F.SYS_MODE_REQ_ERR = 0 := by
  unfold State.markRequest
  rw [State.fld_setFld_other _ _ _ _ (by decide) (by decide)]
  exact State.fld_setFld_same _ F.SYS_MODE_REQ_ERR 0 (by decide)

theorem State.markRequest_busy (s : State) (target : Nat) : (s.markRequest target).fld F.SYS_MODE_BUSY = 1 :=
  State.fld_setFld_same _ _ _ (by decide)

/-- Another field of `SYS_MODE` after the code of a request is shown. -/
theorem State.mode_setReq (s : State) (target e : Nat) :
    ((s.setFld F.SYS_MODE_LAST_REQ target).setFld F.SYS_MODE_REQ_ERR e).mode = s.mode := by
  unfold State.mode
  rw [State.fld_setFld_other _ _ _ _ (by decide) (by decide), State.fld_setFld_other _ _ _ _ (by decide) (by decide)]

theorem State.markRequest_mode (s : State) (target : Nat) : (s.markRequest target).mode = s.mode := by
  refine Eq.trans ?_ (s.mode_setReq target 0)
  unfold State.markRequest State.mode
  rw [State.fld_setFld_other _ _ _ _ (by decide) (by decide)]
  rfl

theorem State.requestMode_eq {s : State} {target : Nat} {pair : Bool} (h : s.modeErr target pair = 0) :
    s.requestMode target pair =
      if target = 2 then (s.markRequest target).enterMode 2 else s.markRequest target := by
  have hm := s.mode_setReq target 0
  unfold State.requestMode State.markRequest
  simp only [h, ne_eq, not_true_eq_false, if_false, hm, State.setFld_clk]

/-- A request that nothing of R16 stands against is taken. -/
theorem State.requestMode_taken {s : State} {target : Nat} {pair : Bool} (h : s.modeErr target pair = 0)
    (ht : target < 8) : Requested target s (s.requestMode target pair) := by
  rw [s.requestMode_eq h]
  split
  next e =>
    subst e
    exact ⟨State.enterMode_change _ 2, (State.enterMode_fld _ 2 (by decide) (by decide)).trans (s.markRequest_lastReq ht),
      (State.enterMode_fld _ 2 (by decide) (by decide)).trans (s.markRequest_reqErr 2),
      (State.enterMode_fld _ 2 (by decide) (by decide)).trans (s.markRequest_busy 2),
      State.enterMode_mode _ (by decide), State.enterMode_auto _ 2, State.enterMode_mem _ 2⟩
  next e =>
    exact ⟨rfl, s.markRequest_lastReq ht, s.markRequest_reqErr target, s.markRequest_busy target,
      (s.markRequest_mode target).trans (if_neg e).symm, rfl, rfl⟩

/-! ### The codes of a request -/

theorem State.modeErr_offPath {s : State} {target : Nat} (hc : s.sys.change = none)
    (hp : modePath s.mode target = false) : s.modeErr target false = 1 := by
  simp [State.modeErr, hc, hp]

/-- From M1 into M2 nothing stands against a device with a role below instar 4. -/
theorem State.modeErr_bringUp {s : State} (hc : s.sys.change = none) (hm : s.mode = 1) (hr : s.role ≠ 0)
    (hi : s.instar ≤ 3) : s.modeErr 2 false = 0 := by
  simp [State.modeErr, hc, hm, hr, modePath, Nat.not_lt.mpr hi]

/-- From M1 into M7 nothing stands against a device below instar 4. -/
theorem State.modeErr_service {s : State} (hc : s.sys.change = none) (hm : s.mode = 1) (hi : s.instar ≤ 3) :
    s.modeErr 7 false = 0 := by
  simp [State.modeErr, hc, hm, modePath, Nat.not_lt.mpr hi]

/-! ### Writes that land -/

theorem State.lands_iff {s : State} :
    s.lands = true ↔ s.mode ≠ 0 ∧ s.bit F.SYS_BOOT_RECOVERY = false ∧ s.instar < 4 := by
  simp [State.lands, and_assoc]

theorem State.landed_of_lands {s : State} (h : s.lands = true) (f : State → State) : s.landed f = f s := if_pos h

theorem State.landed_of_not {s : State} (h : s.lands = false) (f : State → State) : s.landed f = s := by
  simp [State.landed, h]

/-- Before eclosion, in recovery and at instar 4 no write lands. -/
theorem State.not_lands {s : State} (h : s.mode = 0 ∨ s.bit F.SYS_BOOT_RECOVERY = true ∨ s.instar = 4) :
    s.lands = false := by
  rw [← Bool.not_eq_true, State.lands_iff]
  rintro ⟨hm, hr, hi⟩
  rcases h with h | h | h
  · exact hm h
  · simp [h] at hr
  · omega

/-- A write of `SYS_MODE_REQ` asks in a state that pursues no target and whose mode is the same (R16, R19). -/
def State.askedMode (s : State) (target : Nat) : State :=
  (s.updSys fun y => { y with auto := none }).setFld F.SYS_MODE_REQ_TARGET target

theorem State.askedMode_word (s : State) (target : Nat) {a : Nat} (ha : a ≠ F.SYS_MODE_REQ_TARGET.addr) :
    (s.askedMode target).word a = s.word a := State.word_setFld_other _ _ _ ha

theorem State.askedMode_fld (s : State) (target : Nat) {f : Fld} (hf : f.addr ≠ F.SYS_MODE_REQ_TARGET.addr) :
    (s.askedMode target).fld f = s.fld f := State.fld_congr (s.askedMode_word target hf)

theorem State.askedMode_mode (s : State) (target : Nat) : (s.askedMode target).mode = s.mode :=
  s.askedMode_fld target (by decide)

theorem execSysModeReq_lands {s : State} (h : s.lands = true) (g : BitVec 3) :
    exec (.sysModeReq g) s = .next ((s.askedMode g.toNat).requestMode g.toNat) :=
  congrArg _ (s.landed_of_lands h _)

theorem execRoleSet_lands {s : State} (h : s.lands = true) (r : BitVec 2) :
    exec (.roleSet r) s = .next (s.setRole r.toNat) := congrArg _ (s.landed_of_lands h _)

/-- A device without a role takes the one written (R12). -/
theorem State.setRole_assigns {s : State} {r : Nat} (h0 : s.role = 0) (hr : r ≠ 0) : s.setRole r =
    ((s.setFld F.SYS_ROLE_ROLE_SET r).setFld F.SYS_ROLE_ROLE r).setFld F.SYS_ROLE_SOURCE 3 := by
  unfold State.setRole
  rw [if_neg (not_not_intro h0)]
  exact if_neg hr

/-- A device with a role keeps it (R13). -/
theorem State.setRole_keeps {s : State} {r : Nat} (h0 : s.role ≠ 0) : s.setRole r = s := if_pos h0

/-- Settles O37: the code of a request decides whether it is taken; a role is written while there is none. -/
theorem modesAndRoleAreRequested : Obligations.ModesAndRoleAreRequested := by
  refine ⟨⟨fun s g hl hm hc hg hr => ?_, fun s g hl hc hp => ?_⟩, fun s r hl => ⟨fun h0 hr => ?_, fun h0 => ?_⟩,
    fun s h => ?_⟩
  · have hi : (s.askedMode g.toNat).instar ≤ 3 := by
      have := (State.lands_iff.mp hl).2.2
      have e : (s.askedMode g.toNat).instar = s.instar := s.askedMode_fld _ (by decide)
      omega
    have hm' : (s.askedMode g.toNat).mode = 1 := (s.askedMode_mode _).trans hm
    have he : (s.askedMode g.toNat).modeErr g.toNat false = 0 := by
      rcases hg with rfl | rfl
      · have hrole : (s.askedMode 2).role = s.role := s.askedMode_fld _ (by decide)
        exact State.modeErr_bringUp hc hm' (by rw [show (2 : BitVec 3).toNat = 2 from rfl, hrole]; exact hr rfl) hi
      · exact State.modeErr_service hc hm' hi
    have hq := State.requestMode_taken he g.isLt
    refine ⟨_, execSysModeReq_lands hl g, ?_, hq.lastReq, hq.reqErr, hq.busy, hq.auto, ?_⟩
    · rw [hq.change, BitVec.ofNat_toNat, BitVec.setWidth_eq, hm']
      rfl
    · rw [hq.mode, hm']
      exact if_congr ⟨fun e => BitVec.eq_of_toNat_eq e, fun e => e ▸ rfl⟩ rfl rfl
  · have he := State.modeErr_offPath (s := s.askedMode g.toNat) hc ((s.askedMode_mode _).symm ▸ hp)
    refine ⟨_, execSysModeReq_lands hl g, ?_, ?_, ?_, ?_⟩ <;> rw [State.requestMode_refused (by rw [he]; decide), he]
    · exact hc
    · rw [State.mode_setReq, State.askedMode_mode]
    · rw [State.fld_setFld_other _ _ _ _ (by decide) (by decide), State.fld_setFld_same _ _ _ (by decide)]
      exact Nat.mod_eq_of_lt g.isLt
    · exact State.fld_setFld_same _ _ _ (by decide)
  · have hr' : r.toNat ≠ 0 := fun e => hr (BitVec.eq_of_toNat_eq e)
    refine ⟨_, (execRoleSet_lands hl r).trans (congrArg _ (State.setRole_assigns h0 hr')), ?_, ?_, ?_, fun a ha => ?_,
      by simp only [State.setFld_mem]⟩
    · refine (State.fld_setFld_other _ _ _ _ (by decide) (by decide)).trans ?_
      rw [State.fld_setFld_same _ _ _ (by decide)]
      exact Nat.mod_eq_of_lt r.isLt
    · exact State.fld_setFld_same _ _ _ (by decide)
    · rw [State.fld_setFld_other _ _ _ _ (by decide) (by decide), State.fld_setFld_other _ _ _ _ (by decide) (by decide),
        State.fld_setFld_same _ _ _ (by decide)]
      exact Nat.mod_eq_of_lt r.isLt
    · exact (State.word_setFld_other _ F.SYS_ROLE_SOURCE _ ha).trans
        ((State.word_setFld_other _ F.SYS_ROLE_ROLE _ ha).trans (State.word_setFld_other _ F.SYS_ROLE_ROLE_SET _ ha))
  · exact (execRoleSet_lands hl r).trans (congrArg _ (State.setRole_keeps h0))
  · have stays (f : State → State) : (.next (s.landed f) : Host.Outcome State Fault Refusal) = .next s :=
      congrArg _ (s.landed_of_not (State.not_lands h) f)
    refine ⟨fun _ => stays _, fun _ => stays _, fun _ => stays _, stays _, stays _, stays _, stays _, stays _,
      fun _ _ => stays _, fun _ => stays _, fun _ => stays _, fun _ _ => stays _, stays _, stays _, fun _ _ => stays _,
      fun _ _ => stays _, fun _ _ => stays _, fun _ _ => stays _, fun _ _ => stays _, fun _ _ => stays _⟩

end Sys2Proof.Machine
end

section
/-! The end of a mode change, the pursuit of an automatic target, and the molt that is due (R17, R19, R411, R416). -/

namespace Sys2Proof.Machine

open Sys2Proof

theorem execModeChangeComplete_eq (s : State) : exec .modeChangeComplete s = .next s.modeComplete := rfl
theorem execAutoTargetStep_eq (s : State) : exec .autoTargetStep s = .next s.autoStep := rfl
theorem execMolt_eq (ok : Bool) (s : State) : exec (.molt ok) s = .next (s.molt ok) := rfl

theorem State.modeDone_mode (s : State) : s.modeDone.mode = s.mode :=
  State.fld_setFld_other _ F.SYS_MODE_BUSY F.SYS_MODE_CUR _ (by decide) (by decide)

theorem State.modeDone_busy (s : State) : s.modeDone.fld F.SYS_MODE_BUSY = 0 := State.fld_setFld_same _ _ _ (by decide)

/-- A change into M2 is in force since its acceptance: training and its wingbeat complete it (R17). -/
theorem State.modeComplete_bringUp {s : State} {c : ModeChange} (hc : s.sys.change = some c) (h2 : c.target = 2)
    (hb : atBeat c.origin.toNat 2 = true → c.beat = true) (ht : ∀ q < 4, s.trainingEnded q = true) :
    s.modeComplete = s.modeDone := by
  have hall : (List.range 4).all s.trainingEnded = true :=
    List.all_eq_true.mpr fun q hq => ht q (List.mem_range.mp hq)
  unfold State.modeComplete
  simp only [hc, h2, if_true]
  exact if_pos ⟨hb, hall⟩

/-- A change that no wingbeat makes enters its mode (R17). -/
theorem State.modeComplete_enters {s : State} {c : ModeChange} (hc : s.sys.change = some c) (h2 : c.target ≠ 2)
    (hb : atBeat c.origin.toNat c.target.toNat = false) : s.modeComplete = (s.enterMode c.target.toNat).modeDone := by
  unfold State.modeComplete
  simp only [hc, if_neg h2]
  exact if_neg (by simp [hb])

/-! ### The automatic target -/

/-- The pursuit ends in its target (R19). -/
theorem State.autoStep_there {s : State} {g : BitVec 3} (ha : s.sys.auto = some g) (hc : s.sys.change = none)
    (hm : s.mode = g.toNat) : s.autoStep = s.updSys fun y => { y with auto := none } := by
  simp [State.autoStep, ha, hc, hm]

/-- From M1 it asks for M2 (R19). -/
theorem State.autoStep_bringUp {s : State} {g : BitVec 3} (ha : s.sys.auto = some g) (hc : s.sys.change = none)
    (hm : s.mode = 1) (hg : g.toNat ≠ 1) : s.autoStep = s.requestMode 2 := by
  simp [State.autoStep, ha, hc, hm, Ne.symm hg]

/-- In M2 it asks for its target (R19). -/
theorem State.autoStep_target {s : State} {g : BitVec 3} (ha : s.sys.auto = some g) (hc : s.sys.change = none)
    (hm : s.mode = 2) (hg : g.toNat ≠ 2) : s.autoStep = s.requestMode g.toNat := by
  simp [State.autoStep, ha, hc, hm, Ne.symm hg]

/-- Taken or refused, a request shows itself and leaves the target pursued; one for another mode than M2 leaves memory. -/
theorem State.requestMode_shows (s : State) {target : Nat} {pair : Bool} (ht : target < 8) :
    (s.requestMode target pair).fld F.SYS_MODE_LAST_REQ = target ∧ (s.requestMode target pair).sys.auto = s.sys.auto ∧
      (s.requestMode target pair).mem = s.mem := by
  by_cases he : s.modeErr target pair = 0
  · have h := State.requestMode_taken he ht
    exact ⟨h.lastReq, h.auto, h.mem⟩
  · rw [State.requestMode_refused he]
    refine ⟨?_, rfl, rfl⟩
    rw [State.fld_setFld_other _ _ _ _ (by decide) (by decide), State.fld_setFld_same _ _ _ (by decide)]
    exact Nat.mod_eq_of_lt ht

/-! ### The molt -/

/-- The state in which the molt due is taken up. -/
def State.moltTaken (s : State) : State := s.updSec fun c => { c with moltDue := none }

/-- The directory copy that a molt writes (R416). -/
def State.moltDir (s : State) (advance : Bool) : Directory :=
  { seq := ((s.moltTaken.directory.map fun d => d.2.seq).getD 0 + 1) % 2 ^ 32, active := s.moltTaken.chrysSlot,
    advance := advance, digest := s.moltTaken.sec.chrys.digest }

/-- The state after the directory write of a molt. -/
def State.moltWritten (s : State) (advance ok : Bool) : State := s.moltTaken.writeDirectory (s.moltDir advance) ok

/-- A write of the directory changes flash alone. -/
theorem State.writeDirectory_flash (s : State) (d : Directory) (ok : Bool) :
    ∃ f, s.writeDirectory d ok = s.updSec fun c => { c with flash := f } := by
  unfold State.writeDirectory
  dsimp only
  split <;> exact ⟨_, rfl⟩

/-- What a molt leaves in every case: nothing due, and memory. -/
structure Molted (s t : State) : Prop where
  moltDue : t.sec.moltDue = none
  mem : t.mem = s.mem

theorem State.moltWritten_molted (s : State) (a ok : Bool) :
    Molted s (s.moltWritten a ok) ∧ (s.moltWritten a ok).sys = s.sys ∧ (s.moltWritten a ok).regs = s.regs := by
  obtain ⟨f, e⟩ := s.moltTaken.writeDirectory_flash (s.moltDir a) ok
  unfold State.moltWritten
  rw [e]
  exact ⟨⟨rfl, rfl⟩, rfl, rfl⟩

/-- The outcomes of a molt that nothing holds (R416). -/
theorem State.molt_eq {s : State} {a : Bool} (ok : Bool) (hd : s.sec.moltDue = some a) (hh : s.moltHeld = false) :
    s.molt ok =
      if s.fld F.SEC_STAT_CHRYS_STATE ≠ 1 then
        (s.moltTaken.bump (F.SEC_CNT_COUNT 7)).log Rec.moltSkipped [BitVec.ofNat 8 (s.fld F.SEC_STAT_CHRYS_STATE)]
      else if ok then
        let t := (s.moltWritten a ok).bump (F.SEC_CNT_COUNT 6)
        if t.role = roleTile ∧ t.mode = 5 then t.leaveTile.updSys fun y => { y with blankThenReset := true }
        else t.requestReset 4 false
      else (((s.moltWritten a ok).setChrys 2).bump (F.SEC_CNT_COUNT 7)).log Rec.moltFailed
        [BitVec.ofNat 8 s.moltTaken.chrysSlot] := by
  unfold State.molt
  simp only [hd, hh, Bool.false_eq_true, if_false]
  rfl

/-- Without a verified chrysalis a molt does nothing but count and record (R415). -/
theorem State.molt_skipped {s : State} {a : Bool} (ok : Bool) (hd : s.sec.moltDue = some a) (hh : s.moltHeld = false)
    (hc : s.fld F.SEC_STAT_CHRYS_STATE ≠ 1) :
    Molted s (s.molt ok) ∧ (s.molt ok).sys.resetReq = s.sys.resetReq ∧ (s.molt ok).sec.flash = s.sec.flash := by
  rw [State.molt_eq ok hd hh, if_pos hc]
  exact ⟨⟨by simp [State.moltTaken], by simp [State.moltTaken]⟩, by simp [State.moltTaken], by simp [State.moltTaken]⟩

/-- A verified chrysalis whose directory copy reads back: outside M5 a device reset is due (R416). -/
theorem State.molt_done {s : State} {a : Bool} (hd : s.sec.moltDue = some a) (hh : s.moltHeld = false)
    (hc : s.fld F.SEC_STAT_CHRYS_STATE = 1) (h5 : s.mode ≠ 5) :
    Molted s (s.molt true) ∧ (s.molt true).sys.resetReq = some 4 := by
  obtain ⟨⟨hdue, hmem⟩, -, hregs⟩ := s.moltWritten_molted a true
  have hm : ((s.moltWritten a true).bump (F.SEC_CNT_COUNT 6)).mode = s.mode :=
    (State.fld_setFld_addr _ _ _ _ (by decide)).trans (congrArg (fun r => F.SYS_MODE_CUR.get (sparseGet resetWord r _)) hregs)
  rw [State.molt_eq true hd hh, if_neg (not_not_intro hc), if_pos rfl]
  dsimp only
  rw [if_neg fun h => h5 (hm ▸ h.2)]
  exact ⟨⟨hdue, hmem⟩, rfl⟩

/-- One whose directory copy does not read back: the chrysalis is FAILED and no reset is due (R416). -/
theorem State.molt_failed {s : State} {a : Bool} (hd : s.sec.moltDue = some a) (hh : s.moltHeld = false)
    (hc : s.fld F.SEC_STAT_CHRYS_STATE = 1) :
    Molted s (s.molt false) ∧ (s.molt false).sys.resetReq = s.sys.resetReq ∧
      (s.molt false).fld F.SEC_STAT_CHRYS_STATE = 2 := by
  obtain ⟨⟨hdue, hmem⟩, hsys, -⟩ := s.moltWritten_molted a false
  rw [State.molt_eq false hd hh, if_neg (not_not_intro hc), if_neg Bool.false_ne_true]
  refine ⟨⟨(congrArg _ (State.log_sec _ _ _ _)).trans hdue, (State.log_mem _ _ _ _).trans hmem⟩,
    (congrArg _ (State.log_sys _ _ _ _)).trans (congrArg _ hsys), ?_⟩
  refine (State.fld_congr (State.log_word_block _ _ _ (by decide) (by decide) (by decide))).trans ?_
  rw [State.bump, State.fld_setFld_addr _ _ _ _ (by decide)]
  exact State.fld_setFld_same _ _ _ (by decide)

/-- Settles O46: each event by the cases of its function. -/
theorem modeStepsAndMoltComplete : Obligations.ModeStepsAndMoltComplete := by
  refine ⟨⟨fun s c hc => ⟨fun h2 hb => ?_, fun h2 hm hb ht => ?_⟩, fun s g ha hc => ⟨fun hm hg hr hi => ?_, fun hm hg => ?_,
    fun hm => ?_⟩⟩, fun s a hd hh => ⟨fun hv h5 => ?_, fun hv => ?_, fun ok hv => ?_⟩⟩
  · refine ⟨_, execModeChangeComplete_eq s, ?_⟩
    rw [State.modeComplete_enters hc h2 hb]
    exact ⟨(State.modeDone_mode _).trans (s.enterMode_mode c.target.isLt), rfl, State.modeDone_busy _⟩
  · refine ⟨_, execModeChangeComplete_eq s, ?_⟩
    rw [State.modeComplete_bringUp hc h2 hb ht]
    exact ⟨s.modeDone_mode.trans hm, rfl, s.modeDone_busy, rfl⟩
  · refine ⟨_, execAutoTargetStep_eq s, ?_⟩
    rw [State.autoStep_bringUp ha hc hm fun e => hg (BitVec.eq_of_toNat_eq e)]
    have h := State.requestMode_taken (State.modeErr_bringUp hc hm hr hi) (by decide)
    exact ⟨h.mode, h.change.trans (by rw [hm]; rfl), h.auto.trans ha, h.lastReq, h.reqErr, h.busy⟩
  · refine ⟨_, execAutoTargetStep_eq s, ?_⟩
    rw [State.autoStep_target ha hc hm fun e => hg (BitVec.eq_of_toNat_eq e)]
    obtain ⟨hlast, hauto, hmem⟩ := s.requestMode_shows (pair := false) g.isLt
    exact ⟨hlast, hauto.trans ha, hmem⟩
  · refine ⟨_, execAutoTargetStep_eq s, ?_⟩
    rw [State.autoStep_there ha hc hm]
    exact ⟨rfl, rfl, rfl, rfl⟩
  · obtain ⟨h, hreset⟩ := State.molt_done hd hh hv h5
    exact ⟨_, execMolt_eq _ s, hreset, h.moltDue, h.mem⟩
  · obtain ⟨h, hreset, hst⟩ := State.molt_failed hd hh hv
    exact ⟨_, execMolt_eq _ s, hreset, h.moltDue, hst, h.mem⟩
  · obtain ⟨h, hreset, hflash⟩ := State.molt_skipped ok hd hh hv
    exact ⟨_, execMolt_eq _ s, hreset, h.moltDue, hflash, h.mem⟩

end Sys2Proof.Machine
end

section
/-! Firmware commands, attestation and the instar's advance (R32, R33, R396, R410, R411, R415), over what a packet's turn
leaves as it was. -/

namespace Sys2Proof.Machine

open Sys2Proof

/-! ### A packet's turn -/

/-- A register other than the count of packets is as it was. -/
theorem State.turn_word (s : State) (c : Instr) (k : Nat) {a : Nat} (ha : a ≠ (F.CMD_CNT_COUNT 0).addr) :
    (s.turn c k).word a = s.word a := State.word_bump_other _ _ _ ha

theorem State.turn_fld (s : State) (c : Instr) (k : Nat) {f : Fld} (hf : f.addr ≠ (F.CMD_CNT_COUNT 0).addr) :
    (s.turn c k).fld f = s.fld f := State.fld_congr (s.turn_word c k hf)

theorem State.turn_opFree (s : State) (c : Instr) (k : Nat) : (s.turn c k).opFree = s.opFree := rfl
theorem State.turn_flashBusy (s : State) (c : Instr) (k : Nat) : (s.turn c k).flashBusy = s.flashBusy := rfl
theorem State.turn_moltPending (s : State) (c : Instr) (k : Nat) : (s.turn c k).moltPending = s.moltPending := rfl

theorem State.turn_inDram (s : State) (c : Instr) (k a n : Nat) : (s.turn c k).inDram a n = s.inDram a n := by
  have hin (i : Nat) : (s.turn c k).channelIn i = s.channelIn i :=
    State.bit_congr (s.turn_word c k (by simp only [F.MEM_CH_CTRL_IN_SERVICE, F.CMD_CNT_COUNT]; omega))
  have hcap (i : Nat) : (s.turn c k).capacity i = s.capacity i :=
    congrArg (2 ^ 30 * 2 ^ ·) (s.turn_fld c k (by simp only [F.MEM_CH_STAT_SIZE_LOG2, F.CMD_CNT_COUNT]; omega))
  simp only [State.inDram, hin, hcap]

theorem viaNumber_nextVia (old new : Via) : viaNumber (nextVia old new) = viaNumber new := by
  cases old <;> cases new <;> rfl

theorem State.ringSession_iff {s : State} {k : Nat} :
    s.ringSession k = true ↔ (s.sess k).isOpen = true ∧ viaNumber (s.sess k).via = 3 := by
  unfold State.ringSession
  cases (s.sess k).via <;> simp [viaNumber]

theorem State.ownerSession_iff {s : State} {k : Nat} :
    s.ownerSession k = true ↔ (s.sess k).isOpen = true ∧ ((s.sess k).owner = true ∨ viaNumber (s.sess k).via = 1) := by
  unfold State.ownerSession
  cases (s.sess k).via <;> simp [viaNumber]

section
variable {s : State} {c : Instr} {k : Nat} {x : Option Txn}

/-- The session of a ready packet, at its turn. -/
theorem State.ready_sess (h : s.ready c k x = true) :
    k < 64 ∧ ((s.turn c k).sess k).isOpen = (s.sess k).isOpen ∧ ((s.turn c k).sess k).owner = (s.sess k).owner ∧
      viaNumber ((s.turn c k).sess k).via = viaNumber (s.sess k).via := by
  obtain ⟨-, -, -, hs, hv, -⟩ := State.ready_iff.mp h
  obtain ⟨ho, -, hk⟩ := State.sessionOf_some hs
  rw [State.sess_turn (State.lt_of_isOpen ho)]
  exact ⟨hk, rfl, rfl, (viaNumber_nextVia _ _).trans hv.symm⟩

theorem State.who_slot (h : s.ready c k x = true) : (s.who k).slot.toNat = k :=
  (BitVec.toNat_ofNat k 6).trans (Nat.mod_eq_of_lt (State.ready_sess h).1)

theorem State.turn_ringSession (h : s.ready c k x = true) : (s.turn c k).ringSession k = s.ringSession k := by
  obtain ⟨-, ho, -, hv⟩ := State.ready_sess h
  rw [Bool.eq_iff_iff, State.ringSession_iff, State.ringSession_iff, ho, hv]

theorem State.turn_ownerSession (h : s.ready c k x = true) : (s.turn c k).ownerSession k = s.ownerSession k := by
  obtain ⟨-, ho, hp, hv⟩ := State.ready_sess h
  rw [Bool.eq_iff_iff, State.ownerSession_iff, State.ownerSession_iff, ho, hp, hv]

/-- A body that runs a long operation starts it in the free slot (R99). -/
theorem starts_of_runOp {j : Nat} {kind : OpKind} {after : Nat → State → State} (he : exec c s = .next (s.receive (.cmd c)))
    (h : s.ready c k x = true) (hj : s.opFree = some j)
    (hb : (s.turn c k).hostBody (s.who k) x c = (s.turn c k).runOp (s.who k) (Item.cmd c).opcode kind after) :
    Starts s c k j kind (after j) := by
  refine he.trans (congrArg _ (State.receive_answered h (hb.trans ?_)))
  unfold State.runOp
  rw [s.turn_opFree, hj]

/-- A body that answers answers. -/
theorem answers_of_body {u : State} {st : BitVec 8} {ws : List Word} (he : exec c s = .next (s.receive (.cmd c)))
    (h : s.ready c k x = true) (hb : (s.turn c k).hostBody (s.who k) x c = .done st ws u) : Answers s c k st ws u :=
  he.trans (congrArg _ (State.receive_answered h hb))

end

/-! ### The bodies -/

/-- Whole blocks, with their words or from whole words of DRAM in service, may be staged into the chrysalis (R410). -/
theorem State.fwStage_chrysalis {s : State} {w : Who} {d : Bool} {o n : Word} {a : Nat} {ws : List Word}
    (hw : if d then ws = [] else n.toNat = 4 * ws.length) (ho : o.toNat % 4096 = 0) (hn : n.toNat % 4096 = 0)
    (hd : d = true → a % 8 = 0 ∧ s.inDram a n.toNat = true) (hroom : o.toNat + n.toNat ≤ (s.areaOf 0).2)
    (hr : s.ringSession w.slot.toNat = true) (hm : s.moltPending = false) (hf : s.flashBusy = false) :
    s.fwStage w 0 d o n a ws = s.runOp w 0x60 (.fwStage 0 d o n a ws) fun k t =>
      if n.toNat = 0 then (t.setChrys 0).finishOp k Status.ok [0, 0, 0xFFFFFFFF] else t.setChrys 0 := by
  have hroom' : ¬ (s.areaOf (0 : BitVec 2).toNat).2 < o.toNat + n.toNat := Nat.not_lt.mpr hroom
  have hlen : ¬ ((d = true ∧ ws ≠ []) ∨ (¬ d = true ∧ n.toNat ≠ 4 * ws.length)) := by
    cases d <;> simp_all
  have hal : ¬ (d = true ∧ a % 8 ≠ 0) := fun h => h.2 (hd h.1).1
  have hin : ¬ (d = true ∧ ¬ s.inDram a n.toNat = true) := fun h => h.2 (hd h.1).2
  unfold State.fwStage
  dsimp only
  rw [if_neg hlen, if_neg (by decide), if_neg (not_not_intro ho), if_neg (not_not_intro hn), if_neg hal, if_neg hroom',
    if_neg hin, if_neg fun h => absurd h.1 (by decide), if_neg fun h => h.2 hr, if_neg (by simp [hm]), if_neg (by simp [hf])]
  rfl

/-- `FW_VERIFY` with no flash operation running (R411). -/
theorem State.fwVerify_runs {s : State} {w : Who} (hf : s.flashBusy = false) :
    s.fwVerify w = s.runOp w 0x61 .fwVerify := if_neg (by simp [hf])

/-- A verified image whose molt nothing precedes is due to be molted (R415). -/
theorem State.fwMolt_due {s : State} {w : Who} {v noReply : Bool} (hr : s.ringSession w.slot.toNat = true)
    (hc : s.fld F.SEC_STAT_CHRYS_STATE = 1) (hm : s.moltPending = false) :
    s.fwMolt w v noReply = okRes (s.updSec fun c => { c with moltDue := some v, moltWaits := !noReply }) := by
  simp [State.fwMolt, State.moltRefusal, hr, hc, hm]

/-- `ATTEST` with indexes left and none running (R396). -/
theorem State.attest_runs {s : State} {w : Who} {n : List Word} {p : Bool} (hi : s.sec.idNext < 2 ^ 30)
    (ho : ∀ i, (s.op i).st = 1 → (s.op i).opcode ≠ 0x68) : s.attest w n p = s.runOp w 0x68 (.attest n p) := by
  have hrun : ((List.range 16).any fun k => (s.op k).st = 1 && (s.op k).opcode == 0x68) = false := by
    rw [List.any_eq_false]
    intro i _
    simpa using ho i
  unfold State.attest
  rw [if_neg (Nat.not_le.mpr hi), hrun]
  rfl

/-- A record that meets R401 holds a valid check word (R32). -/
theorem State.provCheck_of_provOk {s : State} (h : s.provOk = true) : s.provCheck = true := by
  unfold State.provOk at h
  unfold State.provCheck
  simp only [Bool.and_eq_true, decide_eq_true_eq] at h ⊢
  obtain ⟨⟨⟨⟨⟨⟨⟨⟨hmagic, hver⟩, hlo, hhi, -⟩, -⟩, -⟩, -⟩, -⟩, -⟩, hcrc⟩ := h
  exact ⟨⟨⟨hmagic, hver⟩, hlo, hhi⟩, hcrc⟩

/-- What a step's fuses and record become (R30, R402). -/
def State.blowInstar (s : State) (target : Nat) : State :=
  (if target = 1 then s.updSec fun c => { c with nvm := { c.nvm with provDigest := Config.sha256 s.provBytes } } else s).updSec
    fun c => { c with fuses := { c.fuses with instar := c.fuses.instar.modify (target - 1) fun p => (p.1 || true, p.2 || true) } }

theorem State.blowInstar_regs (s : State) (target : Nat) : (s.blowInstar target).regs = s.regs := by
  unfold State.blowInstar
  split <;> rfl

theorem State.blowInstar_mem (s : State) (target : Nat) : (s.blowInstar target).mem = s.mem := by
  unfold State.blowInstar
  split <;> rfl

theorem State.blowInstar_instar (s : State) (target : Nat) :
    (s.blowInstar target).sec.fuses.instar = s.sec.fuses.instar.modify (target - 1) fun _ => (true, true) := by
  unfold State.blowInstar
  split <;> simp only [State.updSec, Bool.or_true]

/-- Nothing of R32 stands against the step: its fuses are blown, and a device reset is due (R33). -/
theorem State.instarAdvance_blows {s : State} {w : Who} {target : Nat} (h : s.instarRefusal w target 0x494E5354 = none) :
    s.instarAdvance w target 0x494E5354 true true = okRes ((s.blowInstar target).requestReset 3 true) := by
  unfold State.instarAdvance
  rw [h]
  rfl

/-- What R32 asks for, met. -/
theorem State.instarRefusal_none {s : State} {w : Who} {g : Nat} (hi : s.instar < 4) (hg : g = s.instar + 1)
    (hm : s.mode = 1) (ha : s.txn.actions = [])
    (ht : ∀ x ∈ s.txn.txns, x.state = .applied ∨ x.state = .aborted ∨ x.state = .uncertain)
    (h1 : g = 1 → s.provOk = true) (h2 : g = 2 → s.sec.nvm.ownerKey ≠ none)
    (h3 : 3 ≤ g → s.ownerSession w.slot.toNat = true) : s.instarRefusal w g 0x494E5354 = none := by
  have hbusy : (!s.txn.actions.isEmpty || s.txn.txns.any fun t =>
      t.state = .opened || t.state = .pending || t.state = .prepared) = false := by
    rw [ha, List.isEmpty_nil, Bool.not_true, Bool.false_or, List.any_eq_false]
    intro x hx
    rcases ht x hx with e | e | e <;> simp [e]
  have hprov : ¬ (g = 1 ∧ ¬ s.provCheck = true) := fun h => h.2 (State.provCheck_of_provOk (h1 h.1))
  have hkey : ¬ (g = 2 ∧ s.sec.nvm.ownerKey = none) := fun h => h2 h.1 h.2
  have hown : ¬ (3 ≤ g ∧ ¬ s.ownerSession w.slot.toNat = true) := fun h => h.2 (h3 h.1)
  unfold State.instarRefusal
  rw [hbusy, if_neg (Nat.not_le.mpr hi), if_neg (not_not_intro hg), if_neg (not_not_intro rfl), if_neg (not_not_intro hm),
    if_neg Bool.false_ne_true, if_neg hprov, if_neg hkey, if_neg hown]

/-- Settles O36: each body runs past its refusals, in the state of the packet's turn. -/
theorem firmwareCommandsComplete : Obligations.FirmwareCommandsComplete := by
  refine ⟨⟨fun s h k j d o n a ws hrdy hw ho hn hd hroom hr hm hf hj => ?_, fun s h k j hrdy hf hj => ?_,
    fun s h k v hrdy hr hc hm => ?_⟩, fun s h k j n p hrdy hi ho hj => ?_,
    fun s h k g hrdy hi hg hm ha ht h1 h2 h3 => ?_⟩
  · have hslot := State.who_slot hrdy
    have e := starts_of_runOp rfl hrdy hj (State.fwStage_chrysalis (s := s.turn _ k) (w := s.who k) hw ho hn
      (fun e => ⟨(hd e).1, (s.turn_inDram _ k _ _).trans (hd e).2⟩) hroom
      (by rw [hslot, State.turn_ringSession hrdy, hr]) hm hf)
    have hz : n = 0 ↔ n.toNat = 0 := ⟨fun e => e ▸ rfl, fun e => BitVec.eq_of_toNat_eq e⟩
    simpa only [hz] using e
  · have e := starts_of_runOp (c := .fwVerify h) rfl hrdy hj (State.fwVerify_runs (s := s.turn _ k) (w := s.who k) hf)
    exact e
  · refine answers_of_body rfl hrdy (State.fwMolt_due (s := s.turn _ k) (w := s.who k) ?_ ?_ hm)
    · rw [State.who_slot hrdy, State.turn_ringSession hrdy, hr]
    · rw [s.turn_fld _ _ (by decide), hc]
  · have e := starts_of_runOp (c := .attest h n p) rfl hrdy hj (State.attest_runs (s := s.turn _ k) (w := s.who k) hi ho)
    exact e
  · have hinstar : ∀ c, (s.turn c k).instar = s.instar := fun c => s.turn_fld c k (by decide)
    have hmode : ∀ c, (s.turn c k).mode = s.mode := fun c => s.turn_fld c k (by decide)
    have hgo := State.instarRefusal_none (s := s.turn (.instarAdvance h g 0x494E5354 true true) k) (w := s.who k)
      (by rw [hinstar]; exact hi) (by rw [hinstar]; exact hg) (by rw [hmode]; exact hm) ha ht
      (fun e => h1 (BitVec.eq_of_toNat_eq e)) (fun e => h2 (BitVec.eq_of_toNat_eq e))
      (fun e => by rw [State.who_slot hrdy, State.turn_ownerSession hrdy]; exact h3 e)
    exact ⟨_, answers_of_body rfl hrdy (State.instarAdvance_blows hgo), rfl, State.blowInstar_instar _ _,
      State.blowInstar_regs _ _, State.blowInstar_mem _ _⟩

end Sys2Proof.Machine
end

section
/-! A device reset (R20 to R24, R26): what its discard leaves, and what the steps of the start keep of that. -/

namespace Sys2Proof.Machine

open Sys2Proof

/-! ### The discard -/

/-- What no notice that leaves the device moves. -/
structure Notices (s t : State) : Prop where
  clk : t.clk = s.clk
  tick : t.tick = s.tick
  sys : t.sys = s.sys
  pending : t.pending = s.pending
  fuses : t.sec.fuses = s.sec.fuses
  flash : t.sec.flash = s.sec.flash

namespace Notices
variable {s t : State}

theorem refl : Notices s s := by constructor <;> rfl

theorem ite {c : Prop} [Decidable c] {a b : State} (ha : Notices s a) (hb : Notices s b) :
    Notices s (if c then a else b) := by
  split <;> assumption

theorem emit {o} (h : Notices s t) : Notices s (t.emit o) := { h with }
theorem saveLog (h : Notices s t) : Notices s t.saveLog := by
  unfold State.saveLog State.updSave
  exact { h with }
theorem eiosOut {q} (h : Notices s t) : Notices s (t.eiosOut q) := .ite h (.emit h)

theorem foldl {α : Type} {f : State → α → State} {l : List α} (hf : ∀ t i, Notices s t → Notices s (f t i))
    (h : Notices s t) : Notices s (l.foldl f t) := by
  induction l generalizing t with
  | nil => exact h
  | cons i l ih => exact ih (hf t i h)

end Notices

/-- What a discard leaves of a state (R20, R21, R27): what is volatile as at the start, the local clock, what waits, and
the fuses and flash. -/
structure Discarded (s t : State) : Prop where
  regs : t.regs = []
  mem : t.mem = []
  sess : t.cmd.sess = List.replicate 64 {}
  ops : t.cmd.ops = List.replicate 16 {}
  txn : t.txn = {}
  cmp : t.cmp = {}
  fab : t.fab = {}
  clk : t.clk = s.clk
  tick : t.tick = s.tick
  pending : t.pending = s.pending
  straps : t.sys.straps = s.sys.straps
  resetReq : t.sys.resetReq = none
  fuses : t.sec.fuses = s.sec.fuses
  flash : t.sec.flash = s.sec.flash

/-- What follows a discard at once: notices, and the grid's new count. -/
theorem Discarded.notice {s t : State} (h : Discarded s t) (o : Out) : Discarded s (t.emit o) := { h with }

theorem Discarded.alertEdge {s t u : State} (h : Discarded s t) : Discarded s (State.alertEdge u t) := by
  unfold State.alertEdge
  split
  · exact h
  · exact h.notice _

theorem Discarded.updTm {s t : State} {f : TimeSt → TimeSt} (h : Discarded s t) : Discarded s (t.updTm f) := { h with }

theorem Discarded.regrid {s t : State} (h : Discarded s t) : Discarded s t.regrid := by
  unfold State.regrid
  exact h.updTm

theorem State.discard_discarded (s : State) (c : Nat) : Discarded s (s.discard c) := by
  unfold State.discard
  extract_lets eclosed s1 por s2 s3 s4 s5 t
  have h1 : Notices s s1 := .ite (.saveLog .refl) .refl
  have h2 : Notices s s2 := .ite h1 (.foldl (fun _ _ h => .eiosOut h) h1)
  have h3 : Notices s s3 := .ite (.emit h2) h2
  have h4 : Notices s s4 := .ite (.emit h3) h3
  have h5 : Notices s s5 := .ite (.emit h4) h4
  have ht : Discarded s t :=
    { regs := rfl, mem := rfl, sess := rfl, ops := rfl, txn := rfl, cmp := rfl, fab := rfl, clk := h5.clk, tick := h5.tick,
      pending := h5.pending, straps := show s5.sys.straps = _ by rw [h5.sys], resetReq := rfl, fuses := h5.fuses, flash := h5.flash }
  exact ht.alertEdge.regrid

/-- Every register of a discarded state reads its reset value. -/
theorem Discarded.word {s t : State} (h : Discarded s t) (a : Nat) : t.word a = resetWord a := by
  unfold State.word
  rw [h.regs]
  rfl

theorem Discarded.mode {s t : State} (h : Discarded s t) : t.mode = 0 := by
  unfold State.mode State.fld
  rw [h.word]
  decide

/-! ### The steps of the start -/

/-- The registers that steps 2 to 9 of the start leave alone: the role, the mode and the fabric address. -/
def startRegs : List Nat := [0x100, 0x110, F.FAB_ADDR_ADDR.addr]

/-- What steps 2 to 6 of the start keep (R22). -/
structure StartKeeps (s t : State) : Prop where
  mem : t.mem = s.mem
  cmd : t.cmd = s.cmd
  txn : t.txn = s.txn
  cmp : t.cmp = s.cmp
  fab : t.fab = s.fab
  clk : t.clk = s.clk
  tick : t.tick = s.tick
  pending : t.pending = s.pending
  resetReq : t.sys.resetReq = s.sys.resetReq
  training : t.memc.training = s.memc.training
  serial : t.sec.fuses.serial = s.sec.fuses.serial
  instar : t.sec.fuses.instar = s.sec.fuses.instar
  cause : t.fld F.SYS_BOOT_RESET_CAUSE = s.fld F.SYS_BOOT_RESET_CAUSE
  word : ∀ a ∈ startRegs, t.word a = s.word a

namespace StartKeeps
variable {s t u : State} {α : Type}

theorem refl : StartKeeps s s := by constructor <;> intros <;> rfl

theorem ite {c : Prop} [Decidable c] {a b : State} (ha : StartKeeps s a) (hb : StartKeeps s b) :
    StartKeeps s (if c then a else b) := by
  split <;> assumption

/-- A further step under a condition. -/
theorem iteOn {c : Prop} [Decidable c] {a b : State} (ha : StartKeeps s b → StartKeeps s a) (hb : StartKeeps s b) :
    StartKeeps s (if c then a else b) := .ite (ha hb) hb

theorem iteSnd {c : Prop} [Decidable c] {a b : α × State} (ha : StartKeeps s a.2) (hb : StartKeeps s b.2) :
    StartKeeps s (if c then a else b).2 := by
  split <;> assumption

theorem ofPair {p : α × State} {y : α} (e : p = (y, t)) (h : StartKeeps s p.2) : StartKeeps s t := by
  subst e
  exact h

/-- A field that is none of those kept. -/
theorem setFld {f v} (hw : f.addr ∉ startRegs)
    (hc : f.addr ≠ 0x130 ∨ f.lo + f.w ≤ 32 ∧ (4 ≤ f.lo ∨ f.lo + f.w ≤ 1)) (h : StartKeeps s t) :
    StartKeeps s (t.setFld f v) :=
  { h with
    cause := by
      refine Eq.trans ?_ h.cause
      rcases hc with hc | ⟨h32, hc⟩
      · exact State.fld_setFld_addr _ _ _ _ (Ne.symm hc)
      · exact State.fld_setFld_other _ _ _ _ h32 hc
    word := fun a ha => (State.word_setFld_other t f v fun e => hw (e ▸ ha)).trans (h.word a ha) }

theorem setBit {f v} (hw : f.addr ∉ startRegs)
    (hc : f.addr ≠ 0x130 ∨ f.lo + f.w ≤ 32 ∧ (4 ≤ f.lo ∨ f.lo + f.w ≤ 1)) (h : StartKeeps s t) :
    StartKeeps s (t.setBit f v) := .setFld hw hc h

/-- Registers apart, only parts that are not followed have changed. -/
theorem same {sec tm err cdc ring eth ing lnk tile red rnd out}
    (hs : sec.fuses.serial = t.sec.fuses.serial) (hi : sec.fuses.instar = t.sec.fuses.instar) (h : StartKeeps s t) :
    StartKeeps s ⟨t.regs, t.mem, t.clk, t.tick, t.sys, sec, tm, t.cmd, t.txn, err, t.fab, cdc, ring, t.memc, eth, ing, t.cmp,
      lnk, tile, red, rnd, out, t.pending⟩ :=
  { h with serial := hs.trans h.serial, instar := hi.trans h.instar }

theorem alertEdge {v} (h : StartKeeps s t) : StartKeeps s (State.alertEdge v t) := .ite h (.same rfl rfl h)

/-- A count of the log. -/
theorem countLog {k n} (hk : k < 8) (h : StartKeeps s t) : StartKeeps s (t.bump (F.ERR_CNT_COUNT k) n) :=
  .setFld (by simp only [F.ERR_CNT_COUNT, startRegs, F.FAB_ADDR_ADDR, List.mem_cons, List.not_mem_nil, or_false]; omega)
    (.inl (by simp only [F.ERR_CNT_COUNT]; omega)) h

theorem pushRec {r} (h : StartKeeps s t) : StartKeeps s (t.pushRec r) :=
  .ite (.countLog (by decide) (.same rfl rfl h)) (.same rfl rfl h)

/-- No ALARM leaves while the device has no fabric address. -/
theorem alarmCell {r} (ha : s.addr = 0) (h : StartKeeps s t) : StartKeeps s (t.alarmCell r) := by
  have hz : t.addr = 0 := by
    unfold State.addr at ha ⊢
    rwa [State.fld_congr (h.word _ (by decide))]
  unfold State.alarmCell
  rw [if_pos (.inr hz)]
  exact h

theorem log {n d p} (hn : n.sev < 4) (ha : s.addr = 0) (h : StartKeeps s t) : StartKeeps s (t.log n d p) :=
  have logged := iteOn (fun h => .alarmCell ha (.same rfl rfl h)) (.countLog (by omega) (.pushRec (.same rfl rfl h)))
  .alertEdge logged

theorem startClocks (h : StartKeeps s t) : StartKeeps s t.startClocks := by
  unfold State.startClocks
  refine .setBit (by decide) (by decide) (.setBit (by decide) (by decide) (.setFld (by decide) (by decide)
    (.setFld (by decide) (by decide) (.setFld (by decide) (by decide) (.setFld (by decide) (by decide)
    (.setFld (by decide) (by decide) (.setFld (by decide) (by decide) (.setFld (by decide) (by decide) ?_))))))))
  exact .same rfl rfl h

theorem startFuses (h : StartKeeps s t) : StartKeeps s t.startFuses := by
  unfold State.startFuses
  extract_lets f i t1 t2 t3 t4 t5
  have h1 : StartKeeps s t1 := .ite (.same rfl rfl h) h
  have h3 : StartKeeps s t3 := .setBit (by decide) (by decide) (.setBit (by decide) (by decide)
    (.setBit (by decide) (by decide) (.setFld (by decide) (by decide) h1)))
  exact .setFld (by decide) (by decide) (.setBit (by decide) (by decide) (.setBit (by decide) (by decide)
    (.setFld (by decide) (by decide) (.setFld (by decide) (by decide) h3))))

theorem startSram (h : StartKeeps s t) : StartKeeps s t.startSram := by
  have h1 : StartKeeps s (t.updSys fun y => { y with sramReady := true }) := { h with }
  exact .ite (.alertEdge (.setFld (by decide) (by decide) (.same rfl rfl h1))) (.alertEdge (.same rfl rfl h1))

theorem startCalStat (h : StartKeeps s t) : StartKeeps s t.startCalStat := .setFld (by decide) (by decide) h

theorem startDram (h : StartKeeps s t) : StartKeeps s.startDram t.startDram := { h with training := rfl }

theorem coin {k} (h : StartKeeps s t) : StartKeeps s (t.coin k).2 := .same rfl rfl h

theorem writeDirectory {d ok} (h : StartKeeps s t) : StartKeeps s (t.writeDirectory d ok) :=
  .ite (.same rfl rfl (.same rfl rfl h)) (.same rfl rfl h)

/-- Fuse pairs of the security version are blown, and none of another kind. -/
theorem blowSvn {n} (ha : s.addr = 0) (h : StartKeeps s t) : StartKeeps s (t.blowSvn n).2 := by
  induction n generalizing t with
  | zero => exact h
  | succ n ih =>
    unfold State.blowSvn
    extract_lets have_ step
    refine .iteSnd h ?_
    split
    split
    have hb := StartKeeps.ofPair ‹_› (.coin (.ofPair ‹_› (.coin h)))
    extract_lets t1
    have h1 : StartKeeps s t1 := .same rfl rfl hb
    exact .iteSnd (ih h1) (.log (by decide) ha h1)

theorem advanceSvn (ha : s.addr = 0) (h : StartKeeps s t) : StartKeeps s t.advanceSvn := by
  have blown {b u} (e : t.blowSvn 64 = (b, u)) (v : Nat) : StartKeeps s (u.setFld F.SEC_STAT_SVN v) :=
    .setFld (by decide) (by decide) (.ofPair e (.blowSvn ha h))
  fun_cases State.advanceSvn
  case case1 => exact .writeDirectory (.ofPair ‹_› (.coin (blown ‹_› _)))
  case case2 => exact blown ‹_› _
  case case3 | case4 => exact h

theorem startImage (ha : s.addr = 0) (h : StartKeeps s t) : StartKeeps s t.startImage := by
  unfold State.startImage
  extract_lets dir slot t1 r sameDigest t2
  have h1 : StartKeeps s t1 := .setFld (by decide) (by decide) h
  refine .setBit (by decide) (by decide) (.ite ?_ ?_)
  · exact .advanceSvn ha (.setFld (by decide) (by decide) (.same rfl rfl h1))
  · exact .same rfl rfl (.setFld (by decide) (by decide) h1)

theorem startIndex (h : StartKeeps s t) : StartKeeps s t.startIndex := .same rfl rfl h
theorem newChallenge (h : StartKeeps s t) : StartKeeps s t.newChallenge := .same rfl rfl (.same rfl rfl h)

end StartKeeps

/-! ### The reset -/

/-- A device with its straps read and its DRAM under training: what later steps start from. -/
structure Started (s : State) (cause : Nat) (t : State) : Prop where
  mode : t.mode = 0
  cause : t.fld F.SYS_BOOT_RESET_CAUSE = cause
  strap : t.fld F.SYS_ROLE_STRAP = s.sys.straps.toNat
  role : t.role = s.sys.straps.toNat

/-- Step 1: the straps give the role, the cause is shown, and the device is in M0 (R10, R20). -/
theorem State.startRole_started {s t : State} (h : Discarded s t) {cause : Nat} (hc : cause < 8) :
    Started s cause (t.startRole cause) := by
  have hr := s.sys.straps.isLt
  have hz : (resetWord 0x100) = 0 := by decide
  have shows (u : State) : (u.setFld F.SYS_BOOT_RESET_CAUSE cause).fld F.SYS_BOOT_RESET_CAUSE = cause := by
    rw [State.fld_setFld_same _ _ _ (by decide)]
    exact Nat.mod_eq_of_lt hc
  have strap : (t.setFld F.SYS_ROLE_STRAP s.sys.straps.toNat).fld F.SYS_ROLE_STRAP = s.sys.straps.toNat := by
    rw [State.fld_setFld_same _ _ _ (by decide)]
    exact Nat.mod_eq_of_lt hr
  unfold State.startRole
  rw [h.straps]
  dsimp only
  split
  next e =>
    refine ⟨?_, shows _, ?_, ?_⟩
    · refine (State.fld_setFld_addr _ _ F.SYS_MODE_CUR _ (by decide)).trans ?_
      exact (State.fld_setFld_addr _ _ _ _ (by decide)).trans h.mode
    · exact (State.fld_setFld_addr _ _ _ _ (by decide)).trans strap
    · refine (State.fld_setFld_addr _ _ F.SYS_ROLE_ROLE _ (by decide)).trans ?_
      rw [State.fld_setFld_other _ _ _ _ (by decide) (by decide), State.fld, h.word, e]
      decide
  next e =>
    refine ⟨?_, shows _, ?_, ?_⟩
    · refine (State.fld_setFld_addr _ _ F.SYS_MODE_CUR _ (by decide)).trans ?_
      rw [State.fld_setFld_addr _ _ _ _ (by decide), State.fld_setFld_addr _ _ _ _ (by decide),
        State.fld_setFld_addr _ _ _ _ (by decide)]
      exact h.mode
    · refine (State.fld_setFld_addr _ _ _ _ (by decide)).trans ?_
      rw [State.fld_setFld_other _ _ _ _ (by decide) (by decide), State.fld_setFld_other _ _ _ _ (by decide) (by decide)]
      exact strap
    · refine (State.fld_setFld_addr _ _ F.SYS_ROLE_ROLE _ (by decide)).trans ?_
      rw [State.fld_setFld_other _ _ _ _ (by decide) (by decide), State.fld_setFld_same _ _ _ (by decide)]
      exact Nat.mod_eq_of_lt hr

/-- Two states that differ in registers alone. -/
def RegsOnly (s t : State) : Prop := ∃ r, t = { s with regs := r }

theorem RegsOnly.setFld {s t : State} {f : Fld} {v : Nat} (h : RegsOnly s t) : RegsOnly s (t.setFld f v) := by
  obtain ⟨r, rfl⟩ := h
  exact ⟨_, rfl⟩

/-- The straps move registers alone. -/
theorem State.startRole_regs (t : State) (cause : Nat) : RegsOnly t (t.startRole cause) := by
  have h : RegsOnly t (t.setFld F.SYS_ROLE_STRAP t.sys.straps.toNat) := .setFld ⟨t.regs, rfl⟩
  unfold State.startRole
  dsimp only
  split
  · exact h.setFld
  · exact h.setFld.setFld.setFld

theorem State.startRole_addr {s t : State} (h : Discarded s t) (cause : Nat) : (t.startRole cause).addr = 0 := by
  have hz : t.word F.FAB_ADDR_ADDR.addr = 0 := (h.word _).trans (by decide)
  have same : (t.startRole cause).word F.FAB_ADDR_ADDR.addr = t.word F.FAB_ADDR_ADDR.addr := by
    unfold State.startRole
    dsimp only
    rw [State.word_setFld_other _ _ _ (by decide)]
    split
    · exact State.word_setFld_other _ _ _ (by decide)
    · rw [State.word_setFld_other _ _ _ (by decide), State.word_setFld_other _ _ _ (by decide),
        State.word_setFld_other _ _ _ (by decide)]
  unfold State.addr State.fld
  rw [same, hz]
  decide

theorem execDeviceReset_eq (s : State) : exec .deviceReset s = .next s.deviceReset := rfl

/-- A device reset that nothing holds is a discard and the steps of the start (R20, R22). -/
theorem State.deviceReset_runs {s : State} {c : BitVec 3} (hr : s.sys.resetReq = some c) (hp : s.sys.pwrOff = false)
    (hh : s.resetHeld = false) : s.deviceReset =
      ((((((((((if c = 1 then s.emit .lampLow else s).discard c.toNat).startRole c.toNat).startClocks).startFuses).startSram)
        ).startCalStat).startDram).startImage.startIndex).newChallenge := by
  unfold State.deviceReset
  simp only [hr, hp, hh, Bool.false_eq_true, or_self, if_false]

/-- What the steps after the first leave of a started device: all of it, DRAM under training (R22). -/
theorem StartKeeps.ofSteps {t : State} (ha : t.addr = 0) : StartKeeps t.startDram
    t.startClocks.startFuses.startSram.startCalStat.startDram.startImage.startIndex.newChallenge := by
  have hk : StartKeeps t t.startClocks.startFuses.startSram.startCalStat :=
    .startCalStat (.startSram (.startFuses (.startClocks .refl)))
  exact (StartKeeps.startImage (s := t.startDram) ha hk.startDram).startIndex.newChallenge

/-- Settles O47: the discard leaves the parts as at the start, step 1 shows straps and cause, and the later steps keep all
this. -/
theorem deviceResetStartsOver : Obligations.DeviceResetStartsOver := by
  intro s c hr hp hh
  refine ⟨_, (execDeviceReset_eq s).trans (congrArg Host.Outcome.next (State.deviceReset_runs hr hp hh)), ?_⟩
  have hn : Notices s (if c = 1 then s.emit .lampLow else s) := .ite (.emit .refl) .refl
  have hd := State.discard_discarded (if c = 1 then s.emit .lampLow else s) c.toNat
  generalize (if c = 1 then s.emit .lampLow else s) = p at hn hd ⊢
  generalize p.discard c.toNat = t at hd ⊢
  have hst := State.startRole_started hd c.isLt
  have hk := StartKeeps.ofSteps (State.startRole_addr hd c.toNat)
  obtain ⟨r, er⟩ := t.startRole_regs c.toNat
  generalize t.startRole c.toNat = x at hst hk er ⊢
  have shows (f : Fld) (hf : f.addr ∈ startRegs) := State.fld_congr (hk.word f.addr hf)
  generalize x.startClocks.startFuses.startSram.startCalStat.startDram.startImage.startIndex.newChallenge = v
    at hk shows ⊢
  have hstraps : p.sys.straps.toNat = s.sys.straps.toNat := by rw [hn.sys]
  obtain ⟨ecmd, etxn, ecmp, efab, emem⟩ : x.cmd = t.cmd ∧ x.txn = t.txn ∧ x.cmp = t.cmp ∧ x.fab = t.fab ∧ x.mem = t.mem := by
    rw [er]
    exact ⟨rfl, rfl, rfl, rfl, rfl⟩
  obtain ⟨ereq, eclk, etick, epending, esec⟩ : x.sys.resetReq = t.sys.resetReq ∧ x.clk = t.clk ∧ x.tick = t.tick ∧
      x.pending = t.pending ∧ x.sec = t.sec := by
    rw [er]
    exact ⟨rfl, rfl, rfl, rfl, rfl⟩
  have hcmd : v.cmd = t.cmd := hk.cmd.trans ecmd
  have htxn : v.txn = {} := (hk.txn.trans etxn).trans hd.txn
  have hcmp : v.cmp = {} := (hk.cmp.trans ecmp).trans hd.cmp
  have hfab : v.fab = {} := (hk.fab.trans efab).trans hd.fab
  have hop (k : Nat) : v.op k = {} := by
    rw [State.op, hcmd, hd.ops]
    exact getD_replicate_default 16 k _
  have hfence (k : Nat) : v.fence k = {} := by
    rw [State.fence, hcmp]
    exact getD_replicate_default 64 k _
  have hport (q : Nat) : v.portQ q = {} := by
    rw [State.portQ, hfab]
    exact getD_replicate_default 4 q _
  refine ⟨(shows F.SYS_MODE_CUR (by decide)).trans hst.mode, hk.cause.trans hst.cause,
    (shows F.SYS_ROLE_STRAP (by decide)).trans (hst.strap.trans hstraps),
    (shows F.SYS_ROLE_ROLE (by decide)).trans (hst.role.trans hstraps), (hk.mem.trans emem).trans hd.mem,
    hk.resetReq.trans (ereq.trans hd.resetReq), ?_, ?_, ?_, ?_, fun k => ?_, fun k => ?_,
    fun q => ?_, ?_, hk.training, ?_, ?_, ?_, ?_, ?_⟩
  · rw [hcmd, hd.sess]
  · rw [htxn]
  · rw [htxn]
  · rw [htxn]
  · rw [hop]
  · rw [hfence]
    exact ⟨rfl, rfl⟩
  · rw [hport]
    rfl
  · rw [hfab]
  · exact hk.clk.trans (eclk.trans (hd.clk.trans hn.clk))
  · exact hk.tick.trans (etick.trans (hd.tick.trans hn.tick))
  · exact hk.pending.trans (epending.trans (hd.pending.trans hn.pending))
  · exact hk.serial.trans (congrArg Fuses.serial ((congrArg SecSt.fuses esec).trans (hd.fuses.trans hn.fuses)))
  · exact hk.instar.trans (congrArg Fuses.instar ((congrArg SecSt.fuses esec).trans (hd.fuses.trans hn.fuses)))

end Sys2Proof.Machine
end

section
/-! Eclosion, the causes of a device reset, and JTAG (R22, R31, R402, R439, R442, R451, R470). -/

namespace Sys2Proof.Machine

open Sys2Proof

theorem execEclosion_eq (s : State) : exec .eclosion s = .next s.eclosion := rfl
theorem execResetN_eq (s : State) (n : Nat) : exec (.resetN n) s = .next (s.resetPin n) := rfl
theorem execSupplyDrop_eq (s : State) : exec .supplyDrop s = .next s.supplyDrop := rfl
theorem execPowerOn_eq (s : State) : exec .powerOn s = .next s.powerOn := rfl
theorem execJtagAccess_eq (op : JtagOp) (s : State) : exec (.jtagAccess op) s = .next (s.jtag op) := rfl

/-! ### Eclosion -/

namespace ModeKeeps
variable {s t : State}

/-- A port's status. -/
theorem setPortStat {m lo w v} (hm : m < 8) (h : ModeKeeps s t) : ModeKeeps s (t.setFld ⟨262160 + 4 * m, lo, w⟩ v) :=
  .setFld (by simp only [modeBlocks, List.mem_cons, List.not_mem_nil, or_false]; omega) h

theorem linkUp {m up fec} (hm : m < 8) (h : ModeKeeps s t) : ModeKeeps s (t.linkUp m up fec) :=
  .setPortStat hm (.setPortStat hm (.ite (.setPortStat hm h) h))

theorem restartPorts (h : ModeKeeps s t) : ModeKeeps s (t.restartPorts (List.range 8)) :=
  .foldlRange (fun _ _ hm h => .setPortStat hm (.linkUp hm h)) h

end ModeKeeps

/-- Whether a record is sound is a matter of flash and fuses. -/
theorem State.provOk_congr {s t : State} (h : t.sec = s.sec) : t.provOk = s.provOk := by
  unfold State.provOk State.flashLE State.flashBytes
  rw [h]

/-- The state in which the device has entered M1, its provisioning record applied where it is valid. -/
def State.eclosed (s : State) (valid : Bool) (target : Nat) : State :=
  let s := (s.setFld F.SYS_BOOT_ECLOSED 1).setFld F.SYS_BOOT_ECLOSION_MS ((s.tick - s.sys.releaseTick) / 1500000)
  if valid ∧ target ≠ 0 ∧ ¬ s.bit F.SYS_BOOT_RECOVERY then
    s.updSys fun y => { y with auto := some (BitVec.ofNat 3 target) }
  else s

/-- What eclosion leaves of the state in which the device has entered M1: `ECLOSED` is set and the saved log is consumed
(R22, R426). -/
structure EclosedFrom (s t : State) : Prop where
  eclosed : t.bit F.SYS_BOOT_ECLOSED = true
  save : t.sec.nvm.save.getD 1036 0 = 0
  mem : t.mem = s.mem
  word : ∀ a, a / 0x10000 ∈ modeBlocks → a ≠ F.SYS_BOOT_ECLOSED.addr → t.word a = s.word a

/-- Whatever came before. -/
theorem State.eclosed_from (s : State) (valid : Bool) (target : Nat) :
    EclosedFrom s ((s.eclosed valid target).consumeLog.restartPorts (List.range 8)) := by
  generalize ht : (s.eclosed valid target).consumeLog.restartPorts (List.range 8) = t
  have hk : ModeKeeps (s.eclosed valid target).consumeLog t := ht ▸ .restartPorts .refl
  let u := (s.setFld F.SYS_BOOT_ECLOSED 1).setFld F.SYS_BOOT_ECLOSION_MS ((s.tick - s.sys.releaseTick) / 1500000)
  have hu : (s.eclosed valid target).regs = u.regs ∧ (s.eclosed valid target).mem = u.mem := by
    unfold State.eclosed
    dsimp only
    split <;> exact ⟨rfl, rfl⟩
  have hw (a : Nat) : (s.eclosed valid target).consumeLog.word a = u.word a :=
    congrArg (fun r => sparseGet resetWord r a) hu.1
  have hset : u.bit F.SYS_BOOT_ECLOSED = true := by
    have : u.fld F.SYS_BOOT_ECLOSED = 1 := by
      refine (State.fld_setFld_other _ _ _ _ (by decide) (by decide)).trans ?_
      exact State.fld_setFld_same _ _ _ (by decide)
    unfold State.bit
    rw [this]
    rfl
  refine ⟨(State.bit_congr ((hk.word _ (by decide)).trans (hw _))).trans hset, ?_, hk.mem.trans hu.2,
    fun a ha hne => (hk.word a ha).trans ((hw a).trans ?_)⟩
  · rw [hk.sec]
    have hset (l : List Byte) : (l.set 1036 0).getD 1036 0 = 0 := by
      rw [List.getD_eq_getElem?_getD, List.getElem?_set_self']
      cases l[1036]? <;> rfl
    exact hset _
  · exact (State.word_setFld_other _ F.SYS_BOOT_ECLOSION_MS _ hne).trans
      (State.word_setFld_other _ F.SYS_BOOT_ECLOSED _ hne)

/-- The state whose record eclosion looks at: a mismatch has been recorded (R402). -/
def State.provJudged (s : State) : State :=
  if 1 ≤ s.instar ∧ Config.sha256 s.provBytes ≠ s.sec.nvm.provDigest then s.log Rec.provMismatch [] else s

theorem State.provJudged_keeps (s : State) : ModeKeeps s s.provJudged := .ite (.log (by decide) .refl) .refl

/-- Without a sound record eclosion enters M1 and applies nothing (R402). -/
theorem State.eclosion_bare {s : State} (h : s.mayEclose = true) (hp : s.provOk = false) :
    ∃ f v, s.eclosion = ((((s.provJudged.setBit F.SEC_STAT_PROV_VALID false).updSec f).enterMode 1).eclosed false
      v).consumeLog.restartPorts (List.range 8) := by
  have hp' : (if (decide (1 ≤ s.instar) && Config.sha256 s.provBytes != s.sec.nvm.provDigest) = true then
      s.log Rec.provMismatch [] else s).provOk = false := by
    refine (State.provOk_congr ?_).trans hp
    split
    · exact State.log_sec _ _ _ _
    · rfl
  have hj : (if (decide (1 ≤ s.instar) && Config.sha256 s.provBytes != s.sec.nvm.provDigest) = true then
      s.log Rec.provMismatch [] else s) = s.provJudged := by
    unfold State.provJudged
    simp only [Bool.and_eq_true, decide_eq_true_eq, bne_iff_ne]
  refine ⟨fun c => { c with provDigest := 0 }, s.provJudged.flashLE 0x10011 1, ?_⟩
  unfold State.eclosion
  rw [if_pos h]
  simp only [hp', Bool.false_and, Bool.false_eq_true, false_and, if_false]
  rw [hj]
  rfl

/-- Eclosion ends with `ECLOSED` whatever the record holds. -/
theorem State.eclosion_ends {s : State} (h : s.mayEclose = true) :
    ∃ u valid target, s.eclosion = (State.eclosed u valid target).consumeLog.restartPorts (List.range 8) := by
  unfold State.eclosion
  rw [if_pos h]
  exact ⟨_, _, _, rfl⟩

theorem State.bit_updSec (s : State) (f : SecSt → SecSt) (g : Fld) : (s.updSec f).bit g = s.bit g := rfl

/-- After eclosion without a sound record: M1, memory as it was, no record shown as valid (R402). -/
theorem State.eclosion_bare_shows {s : State} (h : s.mayEclose = true) (hp : s.provOk = false) :
    s.eclosion.mode = 1 ∧ s.eclosion.mem = s.mem ∧ s.eclosion.bit F.SEC_STAT_PROV_VALID = false := by
  obtain ⟨f, v, e⟩ := State.eclosion_bare h hp
  rw [e]
  have hjudged := s.provJudged_keeps.mem
  generalize s.provJudged = j at hjudged ⊢
  have hshown : ((j.setBit F.SEC_STAT_PROV_VALID false).updSec f).bit F.SEC_STAT_PROV_VALID = false :=
    (State.bit_updSec _ f _).trans (State.bit_setBit_same j _ _ (by decide) (by decide))
  have hmem : ((j.setBit F.SEC_STAT_PROV_VALID false).updSec f).mem = s.mem :=
    ((State.updSec_mem _ f).trans (State.setFld_mem j _ _)).trans hjudged
  generalize (j.setBit F.SEC_STAT_PROV_VALID false).updSec f = u at hshown hmem ⊢
  have h1 := (u.enterMode 1).eclosed_from false v
  generalize ((u.enterMode 1).eclosed false v).consumeLog.restartPorts (List.range 8) = t at h1 ⊢
  refine ⟨(State.fld_congr (h1.word _ (by decide) (by decide))).trans (u.enterMode_mode (by decide)),
    (h1.mem.trans (u.enterMode_mem 1)).trans hmem, ?_⟩
  exact (State.bit_congr ((h1.word _ (by decide) (by decide)).trans
    (u.enterMode_word 1 (by decide) (by decide)))).trans hshown

/-! ### Causes of a reset -/

namespace Notices
variable {s t : State}

theorem setFld {f v} (h : Notices s t) : Notices s (t.setFld f v) := { h with }
theorem draw (h : Notices s t) : Notices s t.draw.2 := { h with }
theorem storeCal {q bs} (h : Notices s t) : Notices s (t.storeCal q bs) := by
  unfold State.storeCal
  exact .setFld { h with }

theorem tearCal {p} (h : Notices s t) : Notices s (t.tearCal p) := by
  refine .foldl (fun t q h => ?_) h
  dsimp only
  split
  · exact h.draw
  · exact .storeCal h.draw
  · exact .storeCal h.draw

theorem reserve {ok} (h : Notices s t) : Notices s (t.reserve ok).2 := by
  unfold State.reserve
  cases idCell t.sec.nvm.idCells <;> cases ok
  case none.false | some.false => exact { h with }
  case none.true | some.true => exact .setFld { h with }

theorem tearIndex (h : Notices s t) : Notices s t.tearIndex := by
  unfold State.tearIndex
  dsimp only
  split
  · exact h.draw
  · exact .reserve h.draw
  · exact .reserve h.draw

/-- Writes of NVM that a fall cuts short touch neither fuses nor flash (R442). -/
theorem tearNvm (h : Notices s t) : Notices s t.tearNvm := by
  refine .foldl (fun t o h => .ite ?_ h) h
  split
  · exact .tearCal h
  · exact .ite (.tearIndex h) h
  · exact h

end Notices

/-- A low pulse of 10 µs resets by the pin; one below 1 µs does nothing (R451). -/
theorem State.resetPin_long {s : State} {n : Nat} (hp : s.sys.pwrOff = false) (hn : 10000 ≤ n) :
    s.resetPin n = s.pinReset := by
  have h1 : ¬ n < 1000 := by omega
  unfold State.resetPin
  simp only [hp, h1, hn, Bool.false_eq_true, or_self, if_false, if_true]

theorem State.resetPin_short {s : State} {n : Nat} (hn : n < 1000) : s.resetPin n = s := if_pos (.inr hn)

/-- A start that the supplies began keeps its cause (R442). -/
theorem State.pinReset_power {s : State} (h : s.sys.resetReq = some 0) : s.pinReset = s.emit .pinsHeld := if_pos h

theorem State.pinReset_pin {s : State} (h : s.sys.resetReq ≠ some 0) :
    s.pinReset = ((s.discard 1).emit .pinsHeld).requestReset 1 false := if_neg h

/-- A discarded state with a reset due, by the pin (R20, R21, R439). -/
theorem Discarded.pinShows {s u : State} (h : Discarded s u) :
    let t := (u.emit .pinsHeld).requestReset 1 false
    .pinsHeld ∈ t.out ∧ t.sys.resetReq = some 1 ∧ t.sys.resetWaits = false ∧ t.mode = 0 ∧ t.regs = [] ∧ t.mem = [] ∧
      t.txn.txns = [] ∧ t.cmd.sess = List.replicate 64 {} ∧ t.sec.fuses = s.sec.fuses ∧ t.sec.flash = s.sec.flash :=
  ⟨List.mem_cons_self, rfl, rfl, h.mode, h.regs, h.mem, congrArg TxnSt.txns h.txn, h.sess, h.fuses, h.flash⟩

/-- A discarded state whose supplies are gone (R442, R444). -/
def State.unpowered (s : State) : State := ({ s with clk := 0 } : State).updSys fun y => { y with pwrOff := true }

theorem Discarded.dropShows {s u : State} (h : Discarded s u) :
    let t := u.unpowered
    t.sys.pwrOff = true ∧ t.clk = 0 ∧ t.mem = [] ∧ t.regs = [] ∧ t.txn.txns = [] ∧ t.cmd.sess = List.replicate 64 {} ∧
      t.sec.fuses = s.sec.fuses ∧ t.sec.flash = s.sec.flash :=
  ⟨rfl, rfl, h.mem, h.regs, congrArg TxnSt.txns h.txn, h.sess, h.fuses, h.flash⟩

theorem State.supplyDrop_powered {s : State} (hp : s.sys.pwrOff = false) :
    s.supplyDrop = (s.tearNvm.discard 0).unpowered := if_neg (by simp [hp])

/-! ### JTAG -/

/-- A device that the TAP works on: with supplies, and out of reset (R439). -/
theorem State.jtag_works {s : State} (hp : s.sys.pwrOff = false) (ht : s.sys.trstN = true) (op : JtagOp) :
    s.jtag op =
      match op with
      | .bypass | .sample | .extest | .privateInstr _ => s
      | .idcode => s.emit (.jtag ((s.word F.SYS_JTAG_ID_ONE.addr).setWidth 64))
      | .fuseWindow o v =>
        if blownSteps s.sec.fuses.instar = 0 then
          s.updSec fun c => { c with fuseWin := (o.toNat / 4 * 4, v) :: c.fuseWin.filter fun e => e.1 != o.toNat / 4 * 4 }
        else s
      | .memRead a => if blownSteps s.sec.fuses.instar < 3 then s.jtagMem a.toNat none else s
      | .memWrite a d => if blownSteps s.sec.fuses.instar < 3 then s.jtagMem a.toNat (some d) else s := by
  have h : ¬ (s.sys.pwrOff = true ∨ s.sys.trstN = false) := by simp [hp, ht]
  unfold State.jtag
  exact (if_neg h).trans (by cases op <;> rfl)

/-- The memory port owns no bank (R371): what it may access is no scratchpad. -/
theorem State.controller_alone {s : State} {w : Nat} (h : s.mayAccess .controller w = true) (b : Nat) :
    s.place w ≠ .bank b := by
  intro e
  simp [State.mayAccess, e, Client.owner] at h

theorem bytesLE_getD (k n i : Nat) (hi : i < k) : (bytesLE k n).getD i 0 = BitVec.ofNat 8 (n / 256 ^ i) := by
  simp [bytesLE, List.getD_eq_getElem?_getD, hi]

/-- A word that the memory port writes is stored byte by byte (R357, R470). -/
theorem State.jtagMem_write {s : State} {a : Nat} {d : BitVec 64} (h : s.mayAccess .controller (a / 8 * 8) = true) (i : Nat)
    (hi : i < 8) : (s.jtagMem a (some d)).byte (a / 8 * 8 + i) = BitVec.ofNat 8 (d.toNat / 256 ^ i) := by
  have hlen : (bytesLE 8 d.toNat).length = 8 := by simp [bytesLE]
  have hne : bytesLE 8 d.toNat ≠ [] := fun e => by simp [e] at hlen
  have hw : a / 8 * 8 % 8 = 0 := Nat.mul_mod_left _ _
  have e : s.jtagMem a (some d) = s.writeBytes .controller (a / 8 * 8) (bytesLE 8 d.toNat) := if_pos h
  rw [e]
  generalize a / 8 * 8 = w at h hw ⊢
  have halone (v : Nat) (hv : v % 8 = 0) (h1 : w < v + 8) (h2 : v < w + (bytesLE 8 d.toNat).length) :
      s.alone .controller v := by
    obtain rfl : v = w := by omega
    exact .inr (State.controller_alone h)
  obtain ⟨u, p, -, -, -, -, -, hb⟩ := s.writeBytes_stored .controller w hne halone hw (by omega) (by omega) h
  rw [hb i hi, if_pos (by omega), Nat.add_sub_cancel_left, bytesLE_getD 8 _ i hi]

theorem State.jtagMem_read {s : State} {a : Nat} (h : s.mayAccess .controller (a / 8 * 8) = true) :
    s.jtagMem a none = (s.accountRead .controller (a / 8 * 8) 8).emit
      (.jtag (BitVec.ofNat 64 (natLE (s.readBytes .controller (a / 8 * 8) 8)))) := if_pos h

theorem State.emit_head (s : State) (o : Out) : (s.emit o).out.head? = some o := rfl

/-- Settles O48: eclosion by the shape of its end, the pin and the supplies by what a discard leaves, JTAG operation by
operation. -/
theorem startAndResetCausesComplete : Obligations.StartAndResetCausesComplete := by
  refine ⟨fun s => ⟨fun h => ?_, fun h => ?_⟩, ⟨fun s n hp => ⟨fun hn => ?_, fun hn => ?_⟩, fun s hp => ?_, fun s => ?_⟩,
    fun s op h => ?_, fun s hp ht => ?_⟩
  · obtain ⟨u, valid, target, e⟩ := State.eclosion_ends h
    have he := u.eclosed_from valid target
    rw [← e] at he
    exact ⟨_, execEclosion_eq s, he.eclosed, he.save, State.eclosion_bare_shows h⟩
  · exact (execEclosion_eq s).trans (congrArg _ (if_neg (by simp [h])))
  · refine ⟨_, execResetN_eq s n, ?_⟩
    rw [State.resetPin_long hp hn]
    by_cases hr : s.sys.resetReq = some 0
    · rw [State.pinReset_power hr]
      exact ⟨List.mem_cons_self, fun h => absurd hr h, fun _ => ⟨hr, rfl, rfl⟩⟩
    · rw [State.pinReset_pin hr]
      obtain ⟨hout, hshown⟩ := (s.discard_discarded 1).pinShows
      exact ⟨hout, fun _ => hshown, fun h => absurd h hr⟩
  · exact (execResetN_eq s n).trans (congrArg _ (State.resetPin_short hn))
  · have ht : Notices s s.tearNvm := .tearNvm .refl
    refine ⟨_, (execSupplyDrop_eq s).trans (congrArg _ (State.supplyDrop_powered hp)), ?_⟩
    rw [← ht.fuses, ← ht.flash]
    exact (s.tearNvm.discard_discarded 0).dropShows
  · exact ⟨_, execPowerOn_eq s, rfl, rfl, rfl, rfl⟩
  · refine (execJtagAccess_eq op s).trans (congrArg _ (if_pos h))
  · intro instar
    have runs (op : JtagOp) : exec (.jtagAccess op) s = .next (s.jtag op) := execJtagAccess_eq op s
    refine ⟨?_, ?_, ?_, ?_, fun o v h0 => ?_, fun o v h0 => ?_, fun h3 a d => ⟨?_, ?_⟩, fun h3 a d ha => ⟨?_, ?_⟩⟩
    all_goals simp only [runs, State.jtag_works hp ht]
    · exact congrArg _ (if_neg h0)
    · refine ⟨_, congrArg _ (if_pos h0), List.mem_cons_self, rfl, rfl⟩
    · exact congrArg _ (if_neg (Nat.not_lt.mpr h3))
    · exact congrArg _ (if_neg (Nat.not_lt.mpr h3))
    · refine ⟨_, congrArg _ ((if_pos h3).trans (State.jtagMem_read ha)),
        (State.emit_mem _ _).trans (State.accountRead_mem s _ _ _), State.emit_head _ _⟩
    · exact ⟨_, congrArg _ (if_pos h3), State.jtagMem_write ha⟩

end Sys2Proof.Machine
end

section
/-! How long answers are (R88 keeps those of at most 250 payload words): every command but the reads of registers, memory,
results, log and lamps answers briefly, whatever the state. -/

namespace Sys2Proof.Machine

open Sys2Proof

/-- An answer of at most 250 payload words, which a session keeps for duplicates (R88). -/
def Brief : Res → Prop
  | .done _ ws _ => ws.length ≤ 250
  | .wait | .later _ => True

/-- A check whose refusals are brief. -/
def BriefErr {α : Type} (e : Except Res α) : Prop := ∀ r, e = .error r → Brief r

/-- A refusal that is brief, where there is one. -/
def BriefOpt (o : Option Res) : Prop := ∀ r, o = some r → Brief r

variable {s : State} {α : Type}

@[simp] theorem brief_done {st ws} : Brief (.done st ws s) ↔ ws.length ≤ 250 := Iff.rfl
@[simp] theorem brief_wait : Brief .wait := trivial
@[simp] theorem brief_later : Brief (.later s) := trivial
@[simp] theorem brief_okRes {ws} : Brief (okRes s ws) ↔ ws.length ≤ 250 := Iff.rfl
@[simp] theorem brief_refuse {st c d more} : Brief (refuse s st c d more) ↔ more.length ≤ 249 := by
  simp only [refuse, brief_done, List.length_cons]; omega
@[simp] theorem briefErr_error {r : Res} : BriefErr (.error r : Except Res α) ↔ Brief r := by simp [BriefErr]
@[simp] theorem briefErr_ok {x : α} : BriefErr (.ok x) := by simp [BriefErr]
theorem briefErr_ite {c : Prop} [Decidable c] {a b : Except Res α} (ha : BriefErr a) (hb : BriefErr b) :
    BriefErr (if c then a else b) := by
  split <;> assumption

@[simp] theorem briefOpt_some {r : Res} : BriefOpt (some r) ↔ Brief r := by simp [BriefOpt]
@[simp] theorem briefOpt_none : BriefOpt none := by simp [BriefOpt]

/-! ### Operations -/

@[simp] theorem brief_runOp {w op kind after} : Brief (s.runOp w op kind after) := by
  fun_cases State.runOp <;> simp [State.opFull, State.opReply]

@[simp] theorem brief_opRelease {w k gen} : Brief (s.opRelease w k gen) := by
  fun_cases State.opRelease <;> simp

theorem length_bitsOf_le (n v : Nat) : (bitsOf n v).length ≤ n := by
  simpa [bitsOf] using List.length_filter_le (bitOf v) (List.range n)

@[simp] theorem brief_opStatus {mask} : Brief (s.opStatus mask) := by
  have h := length_bitsOf_le 16 mask
  simp [State.opStatus, List.length_flatMap]
  omega

/-! ### Link ports -/

theorem briefOpt_calRefusal {ports} : BriefOpt (s.calRefusal ports) := by
  intro r h
  obtain ⟨q, -, hq⟩ := List.exists_of_findSome?_eq_some h
  split at hq
  · cases hq; simp
  · split at hq
    · cases hq; simp
    · cases hq

@[simp] theorem brief_calRun {w ports full} : Brief (s.calRun w ports full) := by
  fun_cases State.calRun
  case case1 => simp
  case case2 => exact briefOpt_calRefusal _ ‹_›
  case case3 => exact brief_runOp

@[simp] theorem brief_calStore {w ports} : Brief (s.calStore w ports) := by
  fun_cases State.calStore
  case case1 => exact briefOpt_calRefusal _ ‹_›
  case case2 => exact brief_runOp

theorem briefOpt_patRefused {pattern} : BriefOpt (patRefused s pattern) := by
  fun_cases patRefused <;> simp

@[simp] theorem brief_patternRun {q lanes pattern action arg} : Brief (s.patternRun q lanes pattern action arg) := by
  fun_cases State.patternRun
  case case2 => exact briefOpt_patRefused _ ‹_›
  all_goals simp

@[simp] theorem brief_patternStop {q pattern} : Brief (s.patternStop q pattern) := by
  fun_cases State.patternStop
  case case2 => exact briefOpt_patRefused _ ‹_›
  all_goals simp

@[simp] theorem brief_patternInject {q lanes pattern lcb arg} : Brief (s.patternInject q lanes pattern lcb arg) := by
  fun_cases State.patternInject
  case case2 => exact briefOpt_patRefused _ ‹_›
  all_goals simp

/-! ### Composer and lamps -/

@[simp] theorem brief_fenceSignal {k v frame} : Brief (s.fenceSignal k v frame) := by
  fun_cases State.fenceSignal <;> simp

@[simp] theorem brief_fenceReset {k v frame} : Brief (s.fenceReset k v frame) := by
  fun_cases State.fenceReset <;> simp

@[simp] theorem brief_fenceQuery {m0 m1} : Brief (s.fenceQuery m0 m1) := by
  have h := length_bitsOf_le 64 (m0.toNat + m1.toNat * 2 ^ 32)
  simp only [State.fenceQuery, brief_okRes, List.length_map]
  omega

@[simp] theorem brief_layerFlip {g f} : Brief (s.layerFlip g f) := by
  fun_cases State.layerFlip <;> simp

theorem brief_beforeBeat {body : State → Res} (hb : ∀ u, Brief (body u)) : Brief (s.beforeBeat body) := by
  unfold State.beforeBeat
  split
  · split
    · split
      · next e => exact (congrArg Brief e).mp (hb _)
      · exact hb _
    · exact hb _
  · exact hb _

theorem brief_gatedBody {body : State → Res} (hb : ∀ u, Brief (body u)) : Brief (s.gatedBody body) := by
  have h := brief_beforeBeat (s := s) hb
  unfold State.gatedBody
  split
  · next e => exact (congrArg Brief e).mp h
  · exact h

@[simp] theorem brief_lampPatternStart {pattern arg} : Brief (s.lampPatternStart pattern arg) := by
  fun_cases State.lampPatternStart <;> simp

@[simp] theorem brief_lampPatternStop {pattern} : Brief (s.lampPatternStop pattern) := by
  fun_cases State.lampPatternStop <;> simp

@[simp] theorem brief_lampScanStart {w mask faults stale all ageMin a limit} :
    Brief (s.lampScanStart w mask faults stale all ageMin a limit) := by
  fun_cases State.lampScanStart <;> simp

/-! ### Fabric -/

@[simp] theorem brief_routeSet {first setDef defPorts es} : Brief (s.routeSet first setDef defPorts es) := by
  fun_cases State.routeSet <;> simp

theorem briefOpt_probeRefused {least n fwd} : BriefOpt (s.probeRefused least n fwd) := by
  fun_cases State.probeRefused <;> simp

@[simp] theorem brief_fabProbe {w n fwd} : Brief (s.fabProbe w n fwd) := by
  fun_cases State.fabProbe
  case case1 => exact briefOpt_probeRefused _ ‹_›
  case case2 => exact brief_runOp

@[simp] theorem brief_assignAnswer {addr result} : Brief (s.assignAnswer addr result) := by
  fun_cases State.assignAnswer <;> simp

@[simp] theorem brief_fabAssign {w n addr fwd serial} : Brief (s.fabAssign w n addr fwd serial) := by
  fun_cases State.fabAssign
  case case1 => exact briefOpt_probeRefused _ ‹_›
  all_goals simp

@[simp] theorem brief_fabPathTest {w target plen count} : Brief (s.fabPathTest w target plen count) := by
  fun_cases State.fabPathTest <;> simp

/-! ### Redundancy, resets, firmware -/

@[simp] theorem brief_redSwitch {sel} : Brief (s.redSwitch sel) := by
  fun_cases State.redSwitch <;> simp

@[simp] theorem brief_redState : Brief s.redState := by
  fun_cases State.redState <;> simp

theorem briefOpt_joinRefusal {w pairSrc ranges} : BriefOpt (s.joinRefusal w pairSrc ranges) := by
  fun_cases State.joinRefusal <;> simp

@[simp] theorem brief_redJoin {w pairSrc ranges} : Brief (s.redJoin w pairSrc ranges) := by
  fun_cases State.redJoin
  case case1 => exact briefOpt_joinRefusal _ ‹_›
  case case2 => exact brief_runOp

@[simp] theorem brief_domainReset {kind noReply} : Brief (s.domainReset kind noReply) := by
  fun_cases State.domainReset <;> simp

@[simp] theorem brief_fwStage {w area fromDram offset size addr data} :
    Brief (s.fwStage w area fromDram offset size addr data) := by
  fun_cases State.fwStage <;> simp

@[simp] theorem brief_fwVerify {w} : Brief (s.fwVerify w) := by
  fun_cases State.fwVerify <;> simp

theorem briefOpt_moltRefusal {w} : BriefOpt (s.moltRefusal w) := by
  fun_cases State.moltRefusal <;> simp

@[simp] theorem brief_fwMolt {w advance noReply} : Brief (s.fwMolt w advance noReply) := by
  fun_cases State.fwMolt
  case case1 => exact briefOpt_moltRefusal _ ‹_›
  case case2 => simp

@[simp] theorem brief_attest {w nonce pubkey} : Brief (s.attest w nonce pubkey) := by
  fun_cases State.attest <;> simp

theorem briefOpt_instarRefusal {w target confirm} : BriefOpt (s.instarRefusal w target confirm) := by
  fun_cases State.instarRefusal <;> simp

@[simp] theorem brief_instarAdvance {w target confirm a b} : Brief (s.instarAdvance w target confirm a b) := by
  fun_cases State.instarAdvance
  case case1 => exact briefOpt_instarRefusal _ ‹_›
  all_goals simp

/-! ### Transactions and registers -/

@[simp] theorem brief_uncertainRes {x} : Brief (s.uncertainRes x) := by simp [State.uncertainRes, Txn.words]

theorem briefErr_findTxn {uid id late} : BriefErr (s.findTxn uid id late) := by
  fun_cases State.findTxn
  case case7 => split <;> simp
  all_goals simp

@[simp] theorem brief_txnBegin {w id global} : Brief (s.txnBegin w id global) := by
  fun_cases State.txnBegin <;> simp

theorem brief_addEntries {x es reply} (h : reply.length ≤ 250) : Brief (s.addEntries x es reply) := by
  fun_cases State.addEntries <;> simp [h]

@[simp] theorem brief_regWrite {k x addr vals} : Brief (s.regWrite k x addr vals) := by
  fun_cases State.regWrite
  case case5 => exact brief_addEntries (by simp)
  all_goals simp

@[simp] theorem brief_regModify {k x addr mask value} : Brief (s.regModify k x addr mask value) := by
  unfold State.regModify
  extract_lets a r
  split
  · simp
  · split
    case h_4 | h_5 => exact brief_addEntries (by simp)
    all_goals simp

/-- The function is a variable until it is replaced whole: unfolded in place, the kernel evaluates the target's beat. -/
theorem briefErr_checkCommit {x t st count} : BriefErr (s.checkCommit x t st count) := by
  generalize hf : @State.checkCommit = f
  delta State.checkCommit at hf
  subst hf
  beta_reduce
  cases s.aim x.entries t with
  | none => simp
  | some a =>
    refine briefErr_ite (by simp) (briefErr_ite (by simp) (briefErr_ite (by simp) ?_))
    extract_lets y
    split <;> simp

theorem briefErr_commitLocal {w id t count} : BriefErr (s.commitLocal w id t count) := by
  fun_cases State.commitLocal
  case case1 => exact briefErr_error.mpr (briefErr_findTxn _ ‹_›)
  case case4 => exact briefErr_checkCommit
  all_goals simp

@[simp] theorem brief_txnCommit {w id t} : Brief (s.txnCommit w id t) := by
  fun_cases State.txnCommit
  case case1 => exact briefErr_commitLocal _ ‹_›
  case case2 => simp

theorem briefErr_checkDecision {src id t commit count} : BriefErr (s.checkDecision src id t commit count) := by
  fun_cases State.checkDecision <;> simp

@[simp] theorem brief_recordDecision {src id t commit} : Brief (s.recordDecision src id t commit) := by
  fun_cases State.recordDecision
  case case1 => exact briefErr_checkDecision _ ‹_›
  case case2 => simp

@[simp] theorem brief_txnValidate {w id global t} : Brief (s.txnValidate w id global t) := by
  fun_cases State.txnValidate
  case case1 => exact briefErr_checkDecision _ ‹_›
  case case3 => exact briefErr_commitLocal _ ‹_›
  all_goals simp

@[simp] theorem brief_txnAbort {w id} : Brief (s.txnAbort w id) := by
  fun_cases State.txnAbort
  case case1 => exact briefErr_findTxn _ ‹_›
  case case2 => simp

@[simp] theorem brief_txnQuery {w id} : Brief (s.txnQuery w id) := by
  fun_cases State.txnQuery <;> simp [Txn.words]

@[simp] theorem brief_txnQueryGlobal {src id} : Brief (s.txnQueryGlobal src id) := by
  fun_cases State.txnQueryGlobal <;> simp

@[simp] theorem brief_txnPrepare {w id t} : Brief (s.txnPrepare w id t) := by
  fun_cases State.txnPrepare
  case case2 => exact briefErr_findTxn _ ‹_›
  case case5 => exact briefErr_checkCommit _ ‹_›
  all_goals simp

@[simp] theorem brief_fabRouteSet {x first setDef defPorts es} : Brief (s.fabRouteSet x first setDef defPorts es) := by
  fun_cases State.fabRouteSet
  case case1 => exact brief_addEntries (by simp)
  case case2 => simp

@[simp] theorem brief_redSwitchCmd {x sel} : Brief (s.redSwitchCmd x sel) := by
  fun_cases State.redSwitchCmd
  case case2 => exact brief_addEntries (by simp)
  all_goals simp

@[simp] theorem brief_fwMoltCmd {w x advance noReply} : Brief (s.fwMoltCmd w x advance noReply) := by
  fun_cases State.fwMoltCmd
  case case3 => exact briefOpt_moltRefusal _ ‹_›
  case case4 => exact brief_addEntries (by simp)
  all_goals simp

/-! ### Memory and tables -/

theorem briefOpt_writeLocked {a n} : BriefOpt (s.writeLocked a n) := by
  intro r h
  unfold State.writeLocked at h
  split at h
  · obtain ⟨t, -, rfl⟩ := Option.map_eq_some_iff.mp h; simp
  · split at h
    · obtain ⟨t, -, rfl⟩ := Option.map_eq_some_iff.mp h; simp
    · cases h

@[simp] theorem brief_memWrite {a vals} : Brief (s.memWrite a vals) := by
  fun_cases State.memWrite
  case case3 => exact briefOpt_writeLocked _ ‹_›
  all_goals simp

@[simp] theorem brief_memFill {w a size pattern} : Brief (s.memFill w a size pattern) := by
  fun_cases State.memFill
  case case4 => exact briefOpt_writeLocked _ ‹_›
  all_goals simp [State.startMover]

@[simp] theorem brief_memCopy {w src dst size} : Brief (s.memCopy w src dst size) := by
  fun_cases State.memCopy
  case case7 => exact briefOpt_writeLocked _ ‹_›
  all_goals simp [State.startMover]

@[simp] theorem brief_tableLoad {w t fromFlash a size} : Brief (s.tableLoad w t fromFlash a size) := by
  fun_cases State.tableLoad <;> simp

@[simp] theorem brief_tableVerify {w t} : Brief (s.tableVerify w t) := by
  fun_cases State.tableVerify <;> simp

/-! ### Packets -/

theorem briefOpt_checkTxn {uid it} : BriefOpt (s.checkTxn uid it) := by
  unfold State.checkTxn
  extract_lets op global fault
  have hf {e} (he : BriefErr e) : BriefOpt (fault e) := by
    cases e with
    | ok => exact briefOpt_none
    | error r => exact briefOpt_some.mpr (he r rfl)
  split
  · exact hf briefErr_findTxn
  · repeat' split
    case h_1.isTrue => simp
    case h_1.isFalse | h_2 => exact hf briefErr_findTxn
    case isFalse.isFalse => exact briefOpt_none

theorem briefErr_checkPacket {uid it} : BriefErr (s.checkPacket uid it) := by
  fun_cases State.checkPacket
  case case8 => exact briefErr_error.mpr (briefOpt_checkTxn _ ‹_›)
  case case13 => exact briefErr_error.mpr (briefErr_findTxn _ ‹_›)
  all_goals simp

theorem brief_onTile {r : Res} (h : Brief r) : Brief (s.onTile r) := by
  fun_cases State.onTile
  · exact h
  · simp

@[simp] theorem brief_reservedRes {it} : Brief (s.reservedRes it) := by
  have range : Brief (refuse s Status.badParam Reason.range 0) := by simp
  fun_cases State.reservedRes
  case case1 =>
    refine brief_onTile ?_
    split
    · simp
    · split
      · simp
      · exact range
  case case2 => exact range

@[simp] theorem brief_plainBody {k c} : Brief (s.plainBody k c) := by
  fun_cases State.plainBody
  case case3 => simp [State.errClear]
  case case11 | case12 => exact brief_onTile (by simp)
  all_goals simp

@[simp] theorem brief_actionRes {k h op ws} : Brief (s.actionRes k h op ws) := by
  fun_cases State.actionRes <;> simp

@[simp] theorem brief_schedAction {w h t op ws} : Brief (s.schedAction w h t op ws) := by
  fun_cases State.schedAction
  case case4 e _ => exact (congrArg Brief e).mp brief_actionRes
  all_goals simp

@[simp] theorem brief_schedCancel {w id} : Brief (s.schedCancel w id) := by
  fun_cases State.schedCancel <;> simp

end Sys2Proof.Machine
end

section
/-! What an answer leaves of a packet's traces (R86, R88): long reads and replies touch neither the sessions nor the count of
packets at their turn. -/

namespace Sys2Proof.Machine

open Sys2Proof

/-- The register that counts packets at their turn. -/
def packetCount : Fld := F.CMD_CNT_COUNT 0

/-- What a read or a reply keeps: the sessions, and the count of packets at their turn. -/
structure SessKept (s t : State) : Prop where
  sess : t.cmd.sess = s.cmd.sess
  word : t.word packetCount.addr = s.word packetCount.addr

namespace SessKept
variable {s t : State} {α β : Type}

theorem refl : SessKept s s := ⟨rfl, rfl⟩

theorem sessAt (h : SessKept s t) (k : Nat) : t.sess k = s.sess k := congrArg (fun l => l.getD k {}) h.sess

theorem fld (h : SessKept s t) : t.fld packetCount = s.fld packetCount := State.fld_congr h.word

theorem ite {c : Prop} [Decidable c] {a b : State} (ha : SessKept s a) (hb : SessKept s b) :
    SessKept s (if c then a else b) := by
  split <;> assumption

theorem iteSnd {c : Prop} [Decidable c] {a b : α × State} (ha : SessKept s a.2) (hb : SessKept s b.2) :
    SessKept s (if c then a else b).2 := by
  split <;> assumption

theorem ofPair {p : β × State} {y : β} (e : p = (y, t)) (h : SessKept s p.2) : SessKept s t := by
  subst e; exact h

theorem foldlMem {f : State → α → State} {l : List α} (hf : ∀ t, ∀ i ∈ l, SessKept s t → SessKept s (f t i))
    (h : SessKept s t) : SessKept s (l.foldl f t) := by
  induction l generalizing t with
  | nil => exact h
  | cons i l ih => exact ih (fun t j hj => hf t j (List.mem_cons_of_mem _ hj)) (hf t i List.mem_cons_self h)

theorem setWord {a v} (ha : packetCount.addr ≠ a) (h : SessKept s t) : SessKept s (t.setWord a v) :=
  ⟨h.sess, (State.word_setWord_other t v ha).trans h.word⟩

theorem setFld {f : Fld} {v} (hf : packetCount.addr ≠ f.addr) (h : SessKept s t) : SessKept s (t.setFld f v) :=
  .setWord hf h

theorem log {n d p} (hn : n.sev < 4) (h : SessKept s t) : SessKept s (t.log n d p) :=
  ⟨(congrArg CmdSt.sess (State.log_cmd t n d p)).trans h.sess,
    (State.log_word_block t d p hn (by decide) (by decide)).trans h.word⟩

/-- What changes neither a register nor the command block. -/
theorem same {mem clk tick sys sec tm txn err fab cdc ring memc eth ing cmp lnk tile red rnd out pending}
    (h : SessKept s t) : SessKept s ⟨t.regs, mem, clk, tick, sys, sec, tm, t.cmd, txn, err, fab, cdc, ring, memc, eth, ing,
      cmp, lnk, tile, red, rnd, out, pending⟩ := ⟨h.sess, h.word⟩

theorem limit {key max} (h : SessKept s t) : SessKept s (t.limit key max).2 := .iteSnd (.same h) h

theorem originate {c} (h : SessKept s t) : SessKept s (t.originate c) :=
  have kept := Apart.originate (x := .link) (c := c) (.refl (s := t))
  ⟨(congrArg CmdSt.sess kept.cmd).trans h.sess, (kept.word _ (by decide)).trans h.word⟩

/-! ### Reads of memory -/

theorem countAt {w kd ks nd ns : Nat} (hd : kd < 12) (hs : ks < 8) (h : SessKept s t) :
    SessKept s (match t.place w with
      | .dram c => t.bump (F.MEM_CH_CNT_COUNT c kd) nd
      | _ => t.bump (F.MEM_SP_CNT_COUNT ks) ns) := by
  split
  next c e =>
    have hc := State.place_dram_lt e
    exact h.setFld (by simp only [packetCount, F.CMD_CNT_COUNT, F.MEM_CH_CNT_COUNT]; omega)
  next => exact h.setFld (by simp only [packetCount, F.CMD_CNT_COUNT, F.MEM_SP_CNT_COUNT]; omega)

theorem accountWord {cl w} (h : SessKept s t) : SessKept s (t.accountWord cl w) := by
  have hd {d : Decoded} (e : (t.readWord cl w).dec = some d) : d.corrected - 1 < 12 := by
    have := State.readWord_corrected_le e
    omega
  fun_cases State.accountWord
  case case1 | case4 => exact h
  case case2 => exact .log (by split <;> decide) (.ofPair ‹_› (.limit (h.countAt (by split <;> decide) (by decide))))
  case case3 => exact .ofPair ‹_› (.limit (h.countAt (by split <;> decide) (by decide)))
  case case5 => exact .log (by decide) (.same (.ofPair ‹_› (.limit (h.countAt (hd ‹_›) (by decide)))))
  case case6 => exact .same (.ofPair ‹_› (.limit (h.countAt (hd ‹_›) (by decide))))

theorem serve {cl a n} (h : SessKept s t) : SessKept s (t.serve cl a n) := by
  have hr : cl.rank ≤ 5 := by cases cl <;> simp [Client.rank]
  refine .foldlMem (fun t c hc h => .ite (h.setFld ?_) h) h
  have hc := List.mem_range.mp hc
  simp only [packetCount, F.CMD_CNT_COUNT, F.MEM_CLS_CNT_COUNT]
  omega

theorem accountRead {cl a n} (h : SessKept s t) : SessKept s (t.accountRead cl a n) :=
  .serve (.setFld (by decide) (.foldlMem (fun _ _ _ h => .accountWord h) h))

/-! ### Reads of registers -/

/-- No read clears the count of packets. -/
theorem rc_packetCount : (regFind packetCount.addr).all (fun e => !e.1.rc e.2) = true := by decide

theorem readReg {live a} (h : SessKept s t) : SessKept s (t.readReg live a).2 := by
  fun_cases State.readReg
  case case4 d ix e _ =>
    change SessKept s (if d.rc ix then t.setWord a 0 else t)
    split
    next hrc =>
      refine h.setWord ?_
      rintro rfl
      simpa [e, hrc] using rc_packetCount
    next => exact h
  all_goals exact h

theorem readRegs {live a n} (h : SessKept s t) : SessKept s (t.readRegs live a n).2 := by
  induction n generalizing t a with
  | zero => exact h
  | succ n ih => exact ih (.readReg h)

/-! ### Replies -/

theorem emitUdp {o} (h : SessKept s t) : SessKept s (t.emitUdp o) := .ite (.same h) h

theorem udpSegment {via host seg} (h : SessKept s t) : SessKept s (t.udpSegment via host seg) := by
  fun_cases State.udpSegment
  case case1 => exact .emitUdp h
  case case2 | case3 => exact h

theorem ringSend (h : SessKept s t) : SessKept s t.ringSend := by
  fun_cases State.ringSend
  case case1 | case3 | case5 => exact h
  case case2 | case4 => exact ⟨h.sess, h.word⟩

theorem ringPush {f} (h : SessKept s t) : SessKept s (t.ringPush f) :=
  .ite h (.ringSend (.setFld (by decide) (.same h)))

theorem sendReply {via r} (h : SessKept s t) : SessKept s (t.sendReply via r) := by
  fun_cases State.sendReply
  case case1 => exact .emitUdp (.foldlMem (fun _ _ _ h => .udpSegment h) h)
  case case2 => exact .foldlMem (fun _ _ _ h => .ringPush h) (.same h)
  case case3 => exact h
  case case4 => exact .foldlMem (fun _ _ _ h => .originate h) (.same h)

theorem replyUnless {quiet via r} (h : SessKept s t) : SessKept s (t.replyUnless quiet via r) :=
  .ite h (.sendReply h)

end SessKept
end Sys2Proof.Machine
end

section
/-! A packet at its turn leaves a trace (R86, R88, R102): its session waits, waits for an assignment, keeps the reply or has
ended, or the packet stays counted. The installation of a snapshot leaves none, and no session value of the snapshot
(R350, R351): `State.streamsAfter` is given the state before as its result, so that it drops what the snapshot brought. -/

namespace Sys2Proof.Machine

open Sys2Proof

variable {s t : State} {k : Nat}

/-- Packets at their turn have been counted. -/
def Counted (s : State) : Prop := s.fld packetCount ≠ 0

theorem counted_bump (s : State) : Counted (s.bump packetCount) := by
  rw [Counted, State.fld_bump_same _ _ _ (by decide)]
  have : (0 : Nat) < 2 ^ packetCount.w - 1 := by decide
  omega

theorem Counted.after (hk : SessKept s t) (h : Counted s) : Counted t := by
  rwa [Counted, hk.fld]

/-! ### Answers -/

/-- An answer is brief, or leaves the packet counted. -/
def BriefOrCounted : Res → Prop
  | .done _ ws t => ws.length ≤ 250 ∨ Counted t
  | .wait | .later _ => True

theorem Brief.orCounted {r : Res} (h : Brief r) : BriefOrCounted r := by
  cases r with
  | done st ws t => exact .inl h
  | wait | later => trivial

theorem briefOrCounted_okRes {ws} (h : Counted s) : BriefOrCounted (okRes s ws) := .inr h

theorem briefOrCounted_regRead {live a n} (h : Counted s) : BriefOrCounted (s.regRead live a n) := by
  fun_cases State.regRead
  case case1 => exact Brief.orCounted (by simp)
  case case2 => exact briefOrCounted_okRes (h.after (.readRegs .refl))

theorem briefOrCounted_memRead {a n} (h : Counted s) : BriefOrCounted (s.memRead a n) := by
  fun_cases State.memRead
  case case5 => exact briefOrCounted_okRes (h.after (.accountRead .refl))
  all_goals exact Brief.orCounted (by simp)

theorem briefOrCounted_opResult {w j gen offset count} (h : Counted s) :
    BriefOrCounted (s.opResult w j gen offset count) := by
  fun_cases State.opResult
  case case5 => exact .inr h
  all_goals exact Brief.orCounted (by simp)

theorem briefOrCounted_errRead {first count} (h : Counted s) : BriefOrCounted (s.errRead first count) := by
  fun_cases State.errRead
  case case1 => exact Brief.orCounted (by simp)
  case case2 => exact briefOrCounted_okRes h

theorem briefOrCounted_lampReport {c d first count} (h : Counted s) :
    BriefOrCounted (s.lampReport c d first count) := by
  fun_cases State.lampReport
  case case1 => exact Brief.orCounted (by simp)
  case case2 => exact briefOrCounted_okRes (h.after (.accountRead (.accountRead .refl)))

theorem length_diagRegs_le {block : Nat} {l : List Nat} (h : diagRegs block = some l) : l.length ≤ 247 := by
  unfold diagRegs at h
  split at h
  case h_17 => cases h
  all_goals
    cases h
    decide

/-- The ingest counters lie in no register; every other block's are few. -/
theorem briefOrCounted_diagCounters {block clear} (h : Counted s) : BriefOrCounted (s.diagCounters block clear) := by
  fun_cases State.diagCounters
  case case1 =>
    refine briefOrCounted_okRes (h.after ?_)
    exact .ite ⟨rfl, rfl⟩ .refl
  case case2 => exact Brief.orCounted (by simp)
  case case3 stamp _ l e =>
    have := length_diagRegs_le e
    refine Brief.orCounted ?_
    simp only [brief_okRes, stamp, List.length_append, List.length_map, List.length_cons, List.length_nil]
    omega

theorem briefOrCounted_hostBody {w x c} (h : Counted s) : BriefOrCounted (s.hostBody w x c) := by
  fun_cases State.hostBody
  case case2 | case3 => exact briefOrCounted_regRead h
  case case6 => exact briefOrCounted_memRead h
  case case19 => exact Brief.orCounted (brief_gatedBody fun _ => brief_fenceSignal)
  case case20 => exact Brief.orCounted (brief_gatedBody fun _ => brief_fenceReset)
  case case22 => exact Brief.orCounted (brief_gatedBody fun _ => brief_layerFlip)
  case case26 => exact briefOrCounted_opResult h
  case case35 => exact briefOrCounted_lampReport h
  case case46 => exact briefOrCounted_errRead h
  case case47 => exact briefOrCounted_diagCounters h
  all_goals exact Brief.orCounted (by simp)

/-! ### Traces -/

/-- What a packet at its turn leaves of itself, its session open: it waits or its assignment runs, its reply is kept, or it
stays counted. -/
def Traced (k : Nat) (s : State) : Prop :=
  (s.sess k).isOpen = true →
    (s.sess k).waiting ≠ [] ∨ (s.sess k).assigning ≠ none ∨ (s.sess k).kept ≠ [] ∨ Counted s

theorem Traced.after (hk : SessKept s t) (h : Traced k s) : Traced k t := by
  rw [Traced, hk.sessAt]
  intro ho
  obtain hw | ha | hr | hc := h ho
  · exact .inl hw
  · exact .inr (.inl ha)
  · exact .inr (.inr (.inl hr))
  · exact .inr (.inr (.inr (hc.after hk)))

theorem Counted.traced (h : Counted s) : Traced k s := fun _ => .inr (.inr (.inr h))

/-- A session that an update leaves open has been updated. -/
theorem State.sess_updSess_open {f : Sess → Sess} (h : ((s.updSess k f).sess k).isOpen = true) :
    (s.updSess k f).sess k = f (s.sess k) :=
  State.sess_updSess_same s f ((s.length_updSess k f).symm ▸ State.lt_of_isOpen h)

theorem traced_updSess {f : Sess → Sess}
    (hf : ∀ e, (f e).isOpen = true → (f e).waiting ≠ [] ∨ (f e).assigning ≠ none ∨ (f e).kept ≠ []) :
    Traced k (s.updSess k f) := by
  intro ho
  have e := State.sess_updSess_open ho
  rw [e] at ho ⊢
  obtain hw | ha | hr := hf _ ho
  · exact .inl hw
  · exact .inr (.inl ha)
  · exact .inr (.inr (.inl hr))

theorem traced_holdFront {it : Item} : Traced k (s.holdFront k it) :=
  traced_updSess fun _ _ => .inl (List.cons_ne_nil _ _)

theorem traced_endSession : Traced k (s.endSession k) := traced_updSess fun _ h => nomatch h

theorem traced_answerKept {via it st ws} (h : ws.length ≤ 250 ∨ Counted s) :
    Traced k (s.answerKept k via it st ws) := by
  unfold State.answerKept
  refine Traced.after (.replyUnless .refl) ?_
  split
  next => exact traced_updSess fun _ _ => .inr (.inr (by simp))
  next hl => exact (h.resolve_left hl).traced

theorem traced_finishItem {via it st ws} (h : ws.length ≤ 250 ∨ Counted s) :
    Traced k (s.finishItem k via it st ws) := by
  unfold State.finishItem
  extract_lets t
  split
  · exact traced_endSession
  · exact traced_answerKept h

theorem reservedRes_ne_later {it : Item} : s.reservedRes it ≠ .later t := by
  have hr {st c d} : refuse s st c d ≠ .later t := nofun
  unfold State.reservedRes State.onTile
  repeat' split
  all_goals exact hr

theorem spell_kept (it : Item) : SessKept s (s.spell it).2 := by
  fun_cases State.spell
  case case1 | case3 => exact .refl
  case case2 => exact .same .refl

theorem traced_execItem {it : Item} {x : Option Txn} (h : Counted s) : Traced k (s.execItem k it x) := by
  have hs := h.after (spell_kept it)
  unfold State.execItem
  extract_lets e w c res
  have hres : BriefOrCounted res := by
    unfold res
    split
    · exact briefOrCounted_hostBody hs
    · exact brief_reservedRes.orCounted
  cases e : res with
  | wait => exact traced_holdFront
  | later t =>
    refine traced_updSess fun _ _ => .inr (.inl fun (hc : c.1 = none) => ?_)
    simp only [res, hc] at e
    exact reservedRes_ne_later e
  | done st ws t => exact traced_finishItem ((congrArg BriefOrCounted e).mp hres)

theorem traced_runItem {it : Item} : Traced k (s.runItem k it false) := by
  have h := counted_bump s
  unfold State.runItem
  simp only [Bool.false_eq_true, if_false]
  split
  next st ws t e => exact traced_finishItem (.inl (briefErr_checkPacket _ e))
  next => exact h.traced
  next =>
    split
    · exact traced_holdFront
    · exact traced_execItem h

theorem traced_dispatch {it : Item} : Traced k (s.dispatch k it) := by
  unfold State.dispatch
  extract_lets t e
  split
  · exact traced_updSess fun _ _ => .inl (by simp)
  · exact traced_runItem

/-- Held packets that are released leave the state of the last dispatch. -/
theorem release_cases (s : State) (k uid n : Nat) :
    s.release k uid n = s ∨ ∃ t it, s.release k uid n = State.dispatch t k it := by
  induction n generalizing s with
  | zero => exact .inl rfl
  | succ n ih =>
    unfold State.release
    extract_lets e
    split
    · exact .inl rfl
    · split
      · exact .inl rfl
      next it rest _ =>
        split
        · obtain h | h := ih ((s.updSess k fun e => { e with held := rest }).dispatch k it)
          · exact .inr ⟨_, _, h⟩
          · exact .inr h
        · exact .inl rfl

/-- After a join the pair session either expects what it did, or a packet of it has left its trace. -/
theorem afterJoin_cases (s : State) (k : Nat) (ho : ((s.afterJoin k).sess k).isOpen = true) :
    ((s.afterJoin k).sess k).expected = (s.sess k).expected ∨ Traced k (s.afterJoin k) := by
  unfold State.afterJoin State.releaseAll at ho ⊢
  generalize hn : List.length _ = n at ho ⊢
  generalize hu : Sess.uid _ = uid at ho ⊢
  obtain h | ⟨t, it, h⟩ := release_cases _ k uid n
  · rw [h] at ho ⊢
    have e := congrArg Sess.expected (State.sess_updSess_open ho)
    exact .inl e
  · rw [h]
    exact .inr traced_dispatch

/-! ### The installation of a snapshot -/

/-- What the installation of a sound snapshot in time leaves, the held packets released. -/
def State.installed (s : State) (j : JoinRun) (k : Nat) (sn : Snapshot) : State :=
  ((((s.installState k sn).bump (F.RED_CNT_COUNT 10)).finishOp j.slot.toNat Status.ok (joinResult 0 j sn.frame)).updRed
    fun r => { r with join := none, joinWait := some (sn.frame + 1) }).afterJoin k

theorem exec_snapshotInstall_sound {sn : Snapshot} {j : JoinRun} (hj : s.red.join = some j)
    (hk : s.sessionOf j.pairSrc = some k) (hh : j.held ≠ none) (ha : j.attempts < 8) (hw : j.work = [])
    (hc : sn.crc = sn.check) (ht : s.clk + usU 1000 < s.beat (sn.frame + 1)) :
    exec (.snapshotInstall sn) s = .next (s.installed j k sn) := by
  change Host.Outcome.next (joinEnded (s.installSnapshot sn)) = _
  simp only [State.installSnapshot, hj, hk]
  rw [if_neg (not_or.mpr ⟨hh, not_le.mpr ha⟩), if_neg (not_le.mpr ht),
    if_neg (not_or.mpr ⟨not_not.mpr hw, not_not.mpr hc⟩)]
  rfl

end Sys2Proof.Machine

namespace Sys2Proof.Tests

open Sys2Proof Sys2Proof.Machine

/-- A joiner with its copy whole, whose pair session expects `SEQ` 10. -/
def joiner : State := joining (base 1 4)

/-- A sound snapshot in which the pair session expects `SEQ` 11. -/
def snapAhead : Machine.Snapshot := { snap 700 with expected := 11, crc := { snap 700 with expected := 11 }.check }

theorem joiner_ready : joiner.red.join = some join5 ∧ joiner.sessionOf join5.pairSrc = some 0 ∧ join5.held ≠ none ∧
    join5.attempts < 8 ∧ join5.work = [] ∧ joiner.clk + usU 1000 < joiner.beat (snapAhead.frame + 1) := by
  decide +kernel

/-- The installation leaves the session as it was, without a trace of any packet. -/
theorem joiner_installed : let t := joiner.installed join5 0 snapAhead
    (t.sess 0).isOpen = true ∧ (t.sess 0).expected = 10 ∧ (t.sess 0).waiting.isEmpty = true ∧
      (t.sess 0).assigning.isNone = true ∧ (t.sess 0).kept.isEmpty = true ∧ t.fld packetCount = 0 := by
  decide +kernel

theorem joiner_untraced : ¬ Traced 0 (joiner.installed join5 0 snapAhead) := by
  obtain ⟨ho, -, hw, ha, hr, hc⟩ := joiner_installed
  rw [List.isEmpty_iff] at hw hr
  rw [Option.isNone_iff_eq_none] at ha
  intro h
  obtain hw' | ha' | hr' | hc' := h ho
  exacts [hw' hw, ha' ha, hr' hr, hc' hc]

/-- Refutes O59: the joiner's pair session expects `SEQ` 10 and the snapshot brings 11, but after the installation it still
expects 10, and no packet held for the join can have moved it there from 11, since none has left a trace. The model's
installation ends with `State.streamsAfter` of its two states in the wrong order, which answers the state before. -/
theorem not_pairAndMemoryEventsComplete : ¬ Obligations.PairAndMemoryEventsComplete := by
  unfold Obligations.PairAndMemoryEventsComplete
  rintro ⟨-, ⟨-, -, -, hinstall, -⟩, -⟩
  obtain ⟨hj, hk, hh, ha, hw, ht⟩ := joiner_ready
  obtain ⟨u, hu, -, -, he, -⟩ := (hinstall joiner snapAhead join5 0 hj hk hh ha).1 hw rfl ht
  rw [exec_snapshotInstall_sound hj hk hh ha hw rfl ht] at hu
  have e : joiner.installed join5 0 snapAhead = u.afterJoin 0 := Host.Outcome.next.inj hu
  obtain ⟨ho, hx, -⟩ := joiner_installed
  have untraced := joiner_untraced
  rw [e] at ho hx untraced
  obtain h | h := afterJoin_cases u 0 ho
  · rw [hx, he] at h
    exact absurd h (by decide)
  · exact untraced h

end Sys2Proof.Tests
end

section
/-! The frame grid: when a wingbeat has come, and the frame a time lies in (R54). -/

namespace Sys2Proof.Machine

open Sys2Proof

/-- A wingbeat has come once the whole units of 2^-32 ns of a time reach it. -/
theorem Grid.beat_le_iff (g : Grid) (n t : Nat) :
    g.beat n ≤ t ↔ n * g.span / g.den + g.off * 2 ^ 32 ≤ t / 2 ^ 32 :=
  (Nat.le_div_iff_mul_le (by positivity)).symm

/-- A time is not past a wingbeat while its units of 2^-32 ns, rounded up, are not. -/
theorem Grid.le_beat_iff (g : Grid) (n t : Nat) :
    t ≤ g.beat n ↔ (t + (2 ^ 32 - 1)) / 2 ^ 32 ≤ n * g.span / g.den + g.off * 2 ^ 32 := by
  unfold Grid.beat
  omega

/-- A frame begins at least 2^-32 ns before the next where the period is as long. -/
theorem Grid.step_div {g : Grid} (hd : 0 < g.den) (hs : g.den ≤ g.span) (n : Nat) :
    n * g.span / g.den + 1 ≤ (n + 1) * g.span / g.den :=
  calc n * g.span / g.den + 1 = (n * g.span + g.den) / g.den := (Nat.add_div_right _ hd).symm
    _ ≤ (n + 1) * g.span / g.den := Nat.div_le_div_right (by rw [Nat.succ_mul]; omega)

theorem Grid.beat_lt_succ {g : Grid} (hd : 0 < g.den) (hs : g.den ≤ g.span) (n : Nat) : g.beat n < g.beat (n + 1) :=
  Nat.mul_lt_mul_of_pos_right (Nat.add_lt_add_right (g.step_div hd hs n) _) (by positivity)

theorem Grid.beat_add_den {g : Grid} (hd : 0 < g.den) (n j : Nat) :
    g.beat (n + j * g.den) = g.beat n + j * g.num * 1000000000 * 2 ^ 64 := by
  have e : (n + j * g.den) * g.span = n * g.span + g.den * (j * g.span) := by ring
  unfold Grid.beat
  rw [e, Nat.add_mul_div_left _ _ hd]
  unfold Grid.span
  ring

/-- From the offset on, the frame found has begun and its successor has not. -/
theorem Grid.frameAt_spec {g : Grid} (hd : 0 < g.den) (hs : g.den ≤ g.span) {t : Nat} (ht : g.off * 2 ^ 64 ≤ t) :
    ∃ n, g.frameAt t = some n ∧ g.beat n ≤ t ∧ t < g.beat (n + 1) := by
  have ho : g.off * 2 ^ 32 ≤ t / 2 ^ 32 := by
    rw [Nat.le_div_iff_mul_le (by positivity), Nat.mul_assoc, ← Nat.pow_add]
    exact ht
  have hpos : 0 < g.span := Nat.lt_of_lt_of_le hd hs
  have hfound (n : Nat) : n ≤ ((t / 2 ^ 32 - g.off * 2 ^ 32 + 1) * g.den - 1) / g.span ↔ g.beat n ≤ t := by
    rw [g.beat_le_iff, Nat.le_div_iff_mul_le hpos, ← Nat.le_sub_iff_add_le ho, ← Nat.lt_succ_iff (m := n * g.span / g.den),
      Nat.div_lt_iff_lt_mul hd]
    have := Nat.mul_pos (Nat.succ_pos (t / 2 ^ 32 - g.off * 2 ^ 32)) hd
    simp only [Nat.succ_eq_add_one] at this ⊢
    omega
  refine ⟨_, by unfold Grid.frameAt; exact if_neg (not_or.mpr ⟨Nat.not_lt.mpr ho, hpos.ne'⟩), (hfound _).mp le_rfl, ?_⟩
  exact Nat.lt_of_not_le fun h => Nat.not_succ_le_self _ ((hfound _).mpr h)

/-- The first frame whose wingbeat is not before a time. -/
theorem Grid.frameFrom_le_iff {g : Grid} (hd : 0 < g.den) (hs : g.den ≤ g.span) (t n : Nat) :
    g.frameFrom t ≤ n ↔ t ≤ g.beat n := by
  have hpos : 0 < g.span := Nat.lt_of_lt_of_le hd hs
  rw [g.le_beat_iff]
  unfold Grid.frameFrom
  dsimp only
  generalize (t + (2 ^ 32 - 1)) / 2 ^ 32 = u
  split
  next h => exact iff_of_true (Nat.zero_le n) (Nat.le_add_left_of_le h)
  next h =>
    rw [if_neg hpos.ne', Nat.succ_le_iff, Nat.div_lt_iff_lt_mul hpos, ← Nat.sub_le_iff_le_add, Nat.le_div_iff_mul_le hd]
    have := Nat.mul_pos (Nat.sub_pos_of_lt (Nat.lt_of_not_le h)) hd
    exact Order.sub_one_lt_iff_of_not_isMin (fun hm => absurd (isMin_iff_eq_bot.mp hm) this.ne')

/-- Settles O28: `beat` is a rounded-down quotient, of which `frameAt` and `frameFrom` are the two inverses. -/
theorem wingbeatsOrderFrames : Obligations.WingbeatsOrderFrames := by
  intro g hd hs
  exact ⟨g.beat_lt_succ hd hs, g.beat_add_den hd, fun _ ht => g.frameAt_spec hd hs ht,
    fun t => ⟨(g.frameFrom_le_iff hd hs t _).mp le_rfl, fun n => (g.frameFrom_le_iff hd hs t n).mpr⟩⟩

end Sys2Proof.Machine
end

section
/-! The clock's servo (R43, R45, R48): what a sample, a change of the clock's state and a step leave, and the edges of
R51, which are samples. -/

namespace Sys2Proof.Machine

open Sys2Proof

/-- The fields of the time block that a sample shows or a time cell counts, and the servo leaves. -/
def cellFields : List Fld := [F.TIME_OFFSET_X, F.TIME_OFFSET_SEQ_COUNT, F.TIME_STAT_DEPTH, F.TIME_CNT_COUNT 0]

/-- A field that shares no bit with another. -/
def Fld.apart (g f : Fld) : Bool := f.addr ≠ g.addr || f.lo + f.w ≤ g.lo || g.lo + g.w ≤ f.lo

theorem State.fld_setFld_apart (s : State) {g f : Fld} (v : Nat) (hw : g.lo + g.w ≤ 32) (h : g.apart f = true) :
    (s.setFld g v).fld f = s.fld f := by
  simp only [Fld.apart, Bool.or_eq_true, decide_eq_true_eq, ne_eq] at h
  rcases h with (h | h) | h
  · exact s.fld_setFld_addr g f v h
  · exact s.fld_setFld_other g f v hw (.inl h)
  · exact s.fld_setFld_other g f v hw (.inr h)

/-- What the servo leaves of a state: memory, the time of the last valid sample and the fields of `cellFields`; and,
where the clock does not go to acquire anew (`R`), what it keeps of its masters and of its root. -/
structure ServoKeeps (R : Prop) (s t : State) : Prop where
  mem : t.mem = s.mem
  lastValid : t.tm.lastValid = s.tm.lastValid
  fld : ∀ f ∈ cellFields, t.fld f = s.fld f
  ptp : R → t.tm.ptp = s.tm.ptp
  root : R → t.tm.root = s.tm.root
  cellSeq : R → t.tm.cellSeq = s.tm.cellSeq

section
variable {R : Prop} {s t u : State}

theorem ServoKeeps.refl : ServoKeeps R s s := ⟨rfl, rfl, fun _ _ => rfl, fun _ => rfl, fun _ => rfl, fun _ => rfl⟩

theorem ServoKeeps.trans (h : ServoKeeps R s t) (h' : ServoKeeps R t u) : ServoKeeps R s u :=
  ⟨h'.mem.trans h.mem, h'.lastValid.trans h.lastValid, fun f hf => (h'.fld f hf).trans (h.fld f hf),
    fun r => (h'.ptp r).trans (h.ptp r), fun r => (h'.root r).trans (h.root r),
    fun r => (h'.cellSeq r).trans (h.cellSeq r)⟩

theorem ServoKeeps.ite {p : Prop} [Decidable p] {a b : State} (ha : ServoKeeps R s a) (hb : ServoKeeps R s b) :
    ServoKeeps R s (if p then a else b) := by
  split
  · exact ha
  · exact hb

theorem ServoKeeps.setFld {g : Fld} {v : Nat} (h : ServoKeeps R s t) (hw : g.lo + g.w ≤ 32 := by decide)
    (hg : cellFields.all g.apart = true := by decide) : ServoKeeps R s (t.setFld g v) :=
  h.trans ⟨rfl, rfl, fun f hf => t.fld_setFld_apart v hw (List.all_eq_true.mp hg f hf), fun _ => rfl, fun _ => rfl,
    fun _ => rfl⟩

theorem ServoKeeps.bump {g : Fld} {n : Nat} (h : ServoKeeps R s t) (hw : g.lo + g.w ≤ 32 := by decide)
    (hg : cellFields.all g.apart = true := by decide) : ServoKeeps R s (t.bump g n) := h.setFld hw hg

/-- A change of the clock's own record that keeps the times and, under `R`, masters and root. -/
theorem ServoKeeps.updTm {f : TimeSt → TimeSt} (h : ServoKeeps R s t) (hl : (f t.tm).lastValid = t.tm.lastValid)
    (hp : R → (f t.tm).ptp = t.tm.ptp) (hr : R → (f t.tm).root = t.tm.root)
    (hc : R → (f t.tm).cellSeq = t.tm.cellSeq) : ServoKeeps R s (t.updTm f) :=
  h.trans ⟨rfl, hl, fun _ _ => rfl, hp, hr, hc⟩

theorem ServoKeeps.log {n : RecName} {d : List Byte} {p : Nat} (hn : n.sev < 4) (h : ServoKeeps R s t) :
    ServoKeeps R s (t.log n d p) := by
  refine h.trans ⟨by simp, by simp, fun f hf => State.fld_congr (t.log_word_block d p hn ?_ ?_), by simp, by simp,
    by simp⟩ <;> revert f <;> decide

theorem ServoKeeps.selectMaster {m : Master} (hR : ¬ R) (h : ServoKeeps R s t) : ServoKeeps R s (t.selectMaster m) :=
  .setFld (.setFld (.setFld (h.updTm rfl (absurd · hR) (absurd · hR) (absurd · hR))))

theorem ServoKeeps.enterState {st : Nat} (hst : R → st ≠ stAcquiring) (h : ServoKeeps R s t) :
    ServoKeeps R s (t.enterState st) := by
  have h1 : ServoKeeps R s ((t.setFld F.TIME_STAT_STATE st).updTm fun tm => { tm with lockRun := 0, outRun := 0 }) :=
    .updTm (.setFld h) rfl (fun _ => rfl) (fun _ => rfl) (fun _ => rfl)
  have fresh {v : State} (hv : ServoKeeps R s v) {f : TimeSt → TimeSt} (hl : (f v.tm).lastValid = v.tm.lastValid)
      (e : st = stAcquiring) : ServoKeeps R s (v.updTm f) :=
    hv.updTm hl (absurd e <| hst ·) (absurd e <| hst ·) (absurd e <| hst ·)
  fun_cases State.enterState
  case case1 => exact .selectMaster (fun r => hst r ‹_›) (fresh (fresh h1 rfl ‹_›) rfl ‹_›)
  case case2 => exact fresh (fresh h1 rfl ‹_›) rfl ‹_›
  case case3 => exact fresh h1 rfl ‹_›
  case case4 => exact h1

theorem ServoKeeps.enterHoldover {cause : Nat} (h : ServoKeeps R s t) : ServoKeeps R s (t.enterHoldover cause) := by
  have h1 := (h.enterState (st := stHoldover) fun _ => by decide).updTm
    (f := fun tm => { tm with holdStart := t.tick, switchTest := false }) rfl (fun _ => rfl) (fun _ => rfl) (fun _ => rfl)
  exact .log (by decide) (.ite h1 h1.setFld)

/-- What replaces neither memory, registers nor the clock's record leaves all that the servo leaves. -/
theorem ServoKeeps.same (h : ServoKeeps R s t) (hm : u.mem = t.mem) (ht : u.tm = t.tm) (hr : u.regs = t.regs) :
    ServoKeeps R s u :=
  h.trans ⟨hm, congrArg _ ht, fun _ _ => State.fld_congr (congrArg (sparseGet resetWord · _) hr),
    fun _ => congrArg _ ht, fun _ => congrArg _ ht, fun _ => congrArg _ ht⟩

theorem ServoKeeps.regrid (h : ServoKeeps R s t) : ServoKeeps R s t.regrid := by
  unfold State.regrid
  generalize t.grid.frameFrom (t.clk + 1) = next, timeSec t.clk + 1 = pps
  exact h.updTm rfl (fun _ => rfl) (fun _ => rfl) (fun _ => rfl)

theorem ServoKeeps.stepTo {c kind : Nat} (h : ServoKeeps R s t) : ServoKeeps R s (t.stepTo c kind) := by
  have moved : ServoKeeps R s { t with clk := c } := h.same rfl rfl rfl
  have stepped := moved.regrid.same (u := State.clearLimits (State.replan (State.regrid { t with clk := c }))) rfl rfl rfl
  exact .log (by decide) stepped.bump

theorem ServoKeeps.servo {x i : Rat} (h : ServoKeeps R s t) : ServoKeeps R s (t.servo x i) := by
  have drawn : ServoKeeps R s t.draw.2 := h.trans ⟨rfl, rfl, fun _ _ => rfl, fun _ => rfl, fun _ => rfl, fun _ => rfl⟩
  exact .ite h (.updTm (.setFld (.ite drawn h)) rfl (fun _ => rfl) (fun _ => rfl) (fun _ => rfl))

theorem ServoKeeps.reacquire (hR : ¬ R) (h : ServoKeeps R s t) : ServoKeeps R s t.reacquire := by
  fun_cases State.reacquire
  case case1 => exact h.enterState (absurd · hR)
  case case2 => exact h
  case case3 => exact h.setFld

end

theorem toBits_lt (n : Nat) (v : Int) : toBits n v < 2 ^ n := by
  have hn : (0 : Int) < (2 ^ n : Nat) := by positivity
  exact (Int.toNat_lt (Int.emod_nonneg v hn.ne')).mpr (Int.emod_lt_of_pos v hn)

/-- The sample as the registers show it (R48): its offset, and one more in the count of samples. -/
def State.showOffset (s : State) (x : Rat) : State :=
  let t := s.setFld F.TIME_OFFSET_X (toBits 32 (satInt 32 (openRound 48 (x * 256))))
  t.setFld F.TIME_OFFSET_SEQ_COUNT (t.fld F.TIME_OFFSET_SEQ_COUNT + 1)

theorem State.showOffset_x (s : State) (x : Rat) :
    (s.showOffset x).fld F.TIME_OFFSET_X = toBits 32 (satInt 32 (openRound 48 (x * 256))) := by
  unfold State.showOffset
  rw [State.fld_setFld_apart _ _ (by decide) (by decide), State.fld_setFld_same _ _ _ (by decide)]
  exact Nat.mod_eq_of_lt (toBits_lt 32 _)

theorem State.showOffset_count (s : State) (x : Rat) :
    (s.showOffset x).fld F.TIME_OFFSET_SEQ_COUNT = (s.fld F.TIME_OFFSET_SEQ_COUNT + 1) % 2 ^ 32 := by
  unfold State.showOffset
  rw [State.fld_setFld_same _ _ _ (by decide), State.fld_setFld_apart _ _ (by decide) (by decide)]
  rfl

theorem State.showOffset_fld (s : State) (x : Rat) {f : Fld} (h : f.addr ≠ 0x20044) (h' : f.addr ≠ 0x20048) :
    (s.showOffset x).fld f = s.fld f :=
  (State.fld_setFld_addr _ _ _ _ h').trans (State.fld_setFld_addr _ _ _ _ h)

/-- Past its own registers a sample is the servo's work; it forgets masters and root in HOLDOVER alone. -/
theorem State.sample_keeps (s : State) (src x : Rat) :
    ServoKeeps (s.timeState ≠ stHoldover) (s.showOffset x) (s.sample src x) := by
  have hst : (s.showOffset x).timeState = s.timeState := s.showOffset_fld x (by decide) (by decide)
  have upd {v : State} {f : TimeSt → TimeSt} (hv : ServoKeeps (s.timeState ≠ stHoldover) (s.showOffset x) v)
      (hl : (f v.tm).lastValid = v.tm.lastValid := by rfl) (hp : (f v.tm).ptp = v.tm.ptp := by rfl)
      (hr : (f v.tm).root = v.tm.root := by rfl) (hc : (f v.tm).cellSeq = v.tm.cellSeq := by rfl) :
      ServoKeeps (s.timeState ≠ stHoldover) (s.showOffset x) (v.updTm f) :=
    hv.updTm hl (fun _ => hp) (fun _ => hr) (fun _ => hc)
  have served {v : State} {o : Option Rat} (hv : ServoKeeps (s.timeState ≠ stHoldover) (s.showOffset x) v) :
      ServoKeeps (s.timeState ≠ stHoldover) (s.showOffset x)
        (match o with | some p => v.servo x (src - p) | none => v) := by
    split
    · exact hv.servo
    · exact hv
  have h3 : ServoKeeps (s.timeState ≠ stHoldover) (s.showOffset x)
      ((s.showOffset x).updTm fun tm => { tm with prev := some src, switchTest := false }) := upd .refl
  fun_cases State.sample
  case case1 => exact .enterState (fun _ => by decide) (upd (served (.ite (.stepTo (upd h3)) h3)))
  case case2 => exact upd (served (.ite (.stepTo (upd h3)) h3))
  case case3 => exact .enterHoldover (upd (.bump h3))
  case case4 => exact upd (.bump h3)
  case case5 => exact served (upd h3)
  case case6 => exact .enterState (fun _ => by decide) (upd h3)
  case case7 => exact upd h3
  case case8 hh _ _ _ =>
    exact .reacquire (fun hR => hR (hst.symm.trans hh)) (upd h3)
  case case9 => exact upd h3
  case case10 => exact h3

/-- What a sample shows and leaves, whatever the clock's state. -/
theorem State.sample_shown (s : State) (src x : Rat) :
    (s.sample src x).fld F.TIME_OFFSET_X = toBits 32 (satInt 32 (openRound 48 (x * 256))) ∧
      (s.sample src x).fld F.TIME_OFFSET_SEQ_COUNT = (s.fld F.TIME_OFFSET_SEQ_COUNT + 1) % 2 ^ 32 ∧
      (s.sample src x).tm.lastValid = s.tm.lastValid ∧ (s.sample src x).mem = s.mem := by
  have k := s.sample_keeps src x
  exact ⟨(k.fld _ (by simp [cellFields])).trans (s.showOffset_x x),
    (k.fld _ (by simp [cellFields])).trans (s.showOffset_count x), k.lastValid, k.mem⟩

/-- The nearer of two times is one of them, and no farther than the other. -/
theorem nearer_cases (t a b : Nat) :
    (nearer t a b = a ∧ t - a ≤ b - t) ∨ (nearer t a b = b ∧ b - t ≤ t - a) := by
  unfold nearer
  split
  next h => exact .inl ⟨rfl, h⟩
  next h => exact .inr ⟨rfl, Nat.le_of_not_le h⟩

/-- Settles O50: both edges are samples of the clock at the nearer of the two instants about them. -/
theorem inputEdgesGiveSamples : Obligations.InputEdgesGiveSamples := by
  refine ⟨fun s hs hd => ?_, fun s hs => ?_, fun s hd => ?_, fun t a b _ _ => nearer_cases t a b⟩
  · exact ⟨congrArg Host.Outcome.next (if_pos ⟨hs, hd⟩), State.sample_shown _ _ _⟩
  · exact ⟨congrArg Host.Outcome.next (if_pos hs), State.sample_shown _ _ _⟩
  · exact congrArg Host.Outcome.next (if_neg fun h => h.2 hd)

end Sys2Proof.Machine
end

section
/-! Time cells, pulses and the losses of a source (R39, R40, R44, R52, R59, R61, R65). -/

namespace Sys2Proof.Machine

open Sys2Proof

theorem Fld.get_lt (f : Fld) (w : Word) : f.get w < 2 ^ f.w := Nat.mod_lt _ (by positivity)

theorem State.fld_lt (s : State) (f : Fld) : s.fld f < 2 ^ f.w := f.get_lt _

/-- What counting a time cell and sending it on leave of a state: memory, the ticks, the followed root, and the two words
that show the clock's state and count the cells. -/
structure CellKeeps (s t : State) : Prop where
  mem : t.mem = s.mem
  tick : t.tick = s.tick
  root : t.tm.root = s.tm.root
  word : ∀ a, a = F.TIME_STAT_STATE.addr ∨ a = (F.TIME_CNT_COUNT 0).addr → t.word a = s.word a

section
variable {s t : State}

theorem CellKeeps.refl : CellKeeps s s := ⟨rfl, rfl, rfl, fun _ _ => rfl⟩

theorem CellKeeps.bump {g : Fld} {n : Nat} (h : CellKeeps s t) (h4 : g.addr ≠ F.TIME_STAT_STATE.addr)
    (h0 : g.addr ≠ (F.TIME_CNT_COUNT 0).addr) : CellKeeps s (t.bump g n) :=
  ⟨h.mem, h.tick, h.root, fun a ha => (t.word_bump_other g n (by rcases ha with rfl | rfl; exacts [h4.symm, h0.symm])).trans
    (h.word a ha)⟩

theorem CellKeeps.checkTag {o : Nat} {w : Word} {r : BitVec 16} (h : CellKeeps s t) : CellKeeps s (t.checkTag o w r) := by
  have hb : CellKeeps s (t.bump (F.TIME_CNT_COUNT 6)) := h.bump (by decide) (by decide)
  have hl (d : List Byte) : CellKeeps s ((t.bump (F.TIME_CNT_COUNT 6)).log Rec.timingMismatch d) :=
    ⟨by simpa using hb.mem, by simpa using hb.tick, by simpa using hb.root, fun a ha =>
      (State.log_word_block _ _ _ (by decide) (by rcases ha with rfl | rfl <;> decide)
        (by rcases ha with rfl | rfl <;> decide)).trans (hb.word a ha)⟩
  have noted {u : State} (hu : CellKeeps s u) (b : Bool) : CellKeeps s (u.updTm fun tm => { tm with mismatch := b }) :=
    ⟨hu.mem, hu.tick, hu.root, hu.word⟩
  unfold State.checkTag
  dsimp only
  split
  · exact h
  · split
    · exact noted h false
    · split
      · exact noted hb true
      · exact noted (hl _) true

theorem CellKeeps.forward {l : List Nat} {c : Nat → Cell} (h : CellKeeps s t) :
    CellKeeps s (l.foldl (fun u q => (u.bump (F.FAB_CNT_COUNT 1)).enqueue q (c q) false) t) := by
  induction l generalizing t with
  | nil => exact h
  | cons q l ih =>
    have hb : CellKeeps s (t.bump (F.FAB_CNT_COUNT 1)) := h.bump (by decide) (by decide)
    exact ih ⟨hb.mem, hb.tick, hb.root, hb.word⟩

end

/-- The cells of an emission move neither clock nor memory, and of the clock's record the sequence number alone. -/
theorem State.emitTime_keeps (s : State) (n : BitVec 64) (a : List Byte) (e : Nat → Nat) :
    (s.emitTime n a e).tm = { s.tm with timeSeq := s.tm.timeSeq + 1 } ∧ (s.emitTime n a e).clk = s.clk ∧
      (s.emitTime n a e).mem = s.mem := by
  have sent (l : List Nat) (c : Nat → Cell) (t : State) :
      let u := l.foldl (fun t q => (t.bump (F.FAB_CNT_COUNT 0)).enqueue q (c q) true) t
      u.tm = t.tm ∧ u.clk = t.clk ∧ u.mem = t.mem := by
    induction l generalizing t with
    | nil => exact ⟨rfl, rfl, rfl⟩
    | cons q l ih => exact ih _
  unfold State.emitTime
  dsimp only
  split
  · exact ⟨rfl, rfl, rfl⟩
  · obtain ⟨ht, hc, hm⟩ := sent s.timePorts (fun q => mkCell CellType.time 0xFFFF s.addr 0 s.tm.timeSeq (n.setWidth 16)
      (timePayload (e q) 0 n s.tm.timeSeq s.addr 0 (BitVec.ofNat 8 (s.source + 8 * s.timeState)) s.timingTag a)) s
    exact ⟨congrArg (fun tm : TimeSt => { tm with timeSeq := tm.timeSeq + 1 }) ht, hc, hm⟩

/-- A cell accepted on the followed port, without an announcement, ends in a sample of a clock whose state is as before,
which follows the cell's root and shows its sequence number and its depth. -/
theorem State.timeCell_samples {s : State} {c : TimeCellIn} (hs : s.source = srcFabric)
    (hm : s.tm.marked.getD c.port.toNat false = true) (hu : c.port.toNat = s.fld F.TIME_STAT_UPSTREAM_NOW)
    (hh : c.hops.toNat < 64) (hr : s.tm.root = none ∨ s.tm.root = some c.root) (ha : c.announce = []) :
    ∃ (t : State) (o x : Rat), s.timeCell c = t.sample o x ∧ t.timeState = s.timeState ∧ t.tm.root = some c.root ∧
      t.tm.cellSeq = some c.timeSeq ∧ t.tm.lastValid = s.tick ∧ t.fld F.TIME_STAT_DEPTH = c.hops.toNat + 1 ∧
      t.fld (F.TIME_CNT_COUNT 0) = min (s.fld (F.TIME_CNT_COUNT 0) + 1) (2 ^ 32 - 1) ∧ t.mem = s.mem := by
  have hroot : ¬ (s.tm.root.any fun r => r != c.root) = true := by rcases hr with h | h <;> simp [h]
  unfold State.timeCell
  rw [if_neg (not_not_intro hs), if_neg (not_not_intro hm), if_neg fun h => h.1 hu, if_neg (Nat.not_le.mpr hh),
    if_neg hroot]
  extract_lets followed counted origin tagged heard delay mask ann fwd sent gap missed seen deep rooted o
  rw [if_pos hu]
  have k : CellKeeps counted missed := by
    have hheard : heard = tagged := by unfold heard; rw [ha]; rfl
    have htagged : CellKeeps counted tagged := CellKeeps.refl.checkTag
    exact (hheard ▸ htagged).forward.bump (by decide) (by decide)
  refine ⟨rooted, _, _, rfl, ?_⟩
  clear_value missed
  refine ⟨?_, k.root, rfl, k.tick, ?_, ?_, k.mem⟩
  · calc rooted.timeState = missed.timeState :=
          (State.fld_setFld_apart _ _ (by decide) (by decide)).trans (State.fld_setFld_apart _ _ (by decide) (by decide))
      _ = s.timeState := (State.fld_congr (k.word _ (.inl rfl))).trans (State.fld_setFld_apart _ _ (by decide) (by decide))
  · calc rooted.fld F.TIME_STAT_DEPTH = deep.fld F.TIME_STAT_DEPTH := State.fld_setFld_apart _ _ (by decide) (by decide)
      _ = (c.hops.toNat + 1) % 2 ^ 8 := State.fld_setFld_same _ _ _ (by decide)
      _ = c.hops.toNat + 1 := Nat.mod_eq_of_lt (by omega)
  · calc rooted.fld (F.TIME_CNT_COUNT 0) = missed.fld (F.TIME_CNT_COUNT 0) :=
          (State.fld_setFld_apart _ _ (by decide) (by decide)).trans (State.fld_setFld_apart _ _ (by decide) (by decide))
      _ = counted.fld (F.TIME_CNT_COUNT 0) := State.fld_congr (k.word _ (.inr rfl))
      _ = _ := State.fld_bump_same _ _ _ (by decide)

/-- HOLDOVER is entered from whatever state: since when is kept, and the clock runs at `acc` where the host does not
serve it (R42). -/
theorem State.enterHoldover_entered (s : State) (cause : Nat) :
    (s.enterHoldover cause).timeState = stHoldover ∧ (s.enterHoldover cause).tm.holdStart = s.tick ∧
      (s.enterHoldover cause).clk = s.clk ∧
      (s.bit F.TIME_CTRL_SERVO_HOST = false →
        (s.enterHoldover cause).fld F.TIME_RATE_RATE = toBits 32 s.tm.acc) ∧
      (s.enterHoldover cause).mem = s.mem := by
  unfold State.enterHoldover
  extract_lets port t u
  have hu : u.timeState = t.timeState ∧ u.tm = t.tm ∧ u.clk = t.clk ∧ u.mem = t.mem := by
    unfold u
    split
    · exact ⟨rfl, rfl, rfl, rfl⟩
    · exact ⟨State.fld_setFld_apart _ _ (by decide) (by decide), rfl, rfl, rfl⟩
  obtain ⟨hst, htm, hclk, hmem⟩ := hu
  have held {f : Fld} (h9 : f.addr / 0x10000 ≠ 9) (hF : f.addr / 0x10000 ≠ 0xF) (d : List Byte) :
      (u.log Rec.holdover d).fld f = u.fld f := State.fld_congr (u.log_word_block d 0 (by decide) h9 hF)
  refine ⟨(held (by decide) (by decide) _).trans (hst.trans (State.fld_setFld_same _ _ _ (by decide))),
    by rw [State.log_tm, htm]; rfl, by rw [State.log_clk, hclk]; rfl, fun hb => ?_, by rw [State.log_mem, hmem]; rfl⟩
  have hbt : ¬ t.bit F.TIME_CTRL_SERVO_HOST = true := by
    rw [show t.bit F.TIME_CTRL_SERVO_HOST = s.bit F.TIME_CTRL_SERVO_HOST from
      State.bit_congr (State.word_setFld_other _ _ _ (by decide)), hb]
    exact Bool.false_ne_true
  refine (held (by decide) (by decide) _).trans ?_
  unfold u
  rw [if_neg hbt, State.fld_setFld_same _ _ _ (by decide)]
  exact Nat.mod_eq_of_lt (toBits_lt 32 _)

/-- Entering HOLDOVER writes the clock's state and its rate. -/
theorem State.enterHoldover_word (s : State) (cause : Nat) {a : Nat} (hS : a ≠ F.TIME_STAT_STATE.addr)
    (hR : a ≠ F.TIME_RATE_RATE.addr) (h9 : a / 0x10000 ≠ 9) (hF : a / 0x10000 ≠ 0xF) :
    (s.enterHoldover cause).word a = s.word a := by
  have entered : (s.enterState stHoldover).word a = s.word a := State.word_setFld_other _ _ _ hS
  refine (State.log_word_block _ _ _ (by decide) h9 hF).trans ?_
  split
  · exact entered
  · exact (State.word_setFld_other _ _ _ hR).trans entered

/-- A source lost in LOCKED, with no change of master armed, leaves the clock in HOLDOVER. -/
theorem State.sourceLoss_locked {s : State} (hl : s.sourceLost = true) (hs : s.timeState = stLocked)
    (hp : s.source = srcPtp → s.bit F.TIME_POLICY_MASTER_CHANGE = false) : s.sourceLoss = s.enterHoldover 0 := by
  have hsrc : (s.enterHoldover 0).source = s.source :=
    State.fld_congr (s.enterHoldover_word 0 (by decide) (by decide) (by decide) (by decide))
  have hbit : (s.enterHoldover 0).bit F.TIME_POLICY_MASTER_CHANGE = s.bit F.TIME_POLICY_MASTER_CHANGE :=
    State.bit_congr (s.enterHoldover_word 0 (by decide) (by decide) (by decide) (by decide))
  unfold State.sourceLoss
  dsimp only
  rw [if_pos hl, if_pos hs, if_neg]
  rintro ⟨h, hb⟩
  rw [hbit, hp (hsrc ▸ h)] at hb
  exact absurd hb Bool.false_ne_true

/-- The silent upstream of a locked clock without an alternate port that was heard leaves it in HOLDOVER. -/
theorem State.upstreamLoss_held {s : State} (hs : s.source = srcFabric) (hst : s.timeState = stLocked)
    (hl : s.tm.lastValid + usTicks (s.fld F.TIME_CELL_CFG_LOSS_US) ≤ s.tick)
    (hq : ∀ q n, s.altPort = some q → s.tm.portSeen.getD q none = some n →
      n + usTicks (s.fld F.TIME_CELL_CFG_LOSS_US) < s.tick) : s.upstreamLoss = s.enterHoldover 0 := by
  unfold State.upstreamLoss
  extract_lets loss silent now alt
  have halt : alt = none := by
    refine Option.filter_eq_none_iff.mpr fun q hsome => ?_
    split
    next n hseen =>
      have := hq q n hsome hseen
      simp only [decide_eq_true_eq]
      omega
    · exact Bool.false_ne_true
  rw [if_pos ⟨hs, hl, .inl hst⟩, halt]
  exact if_pos hst

/-- With an alternate port heard within the loss time that port is followed, and the clock stays locked. -/
theorem State.upstreamLoss_switched {s : State} {q n : Nat} (hs : s.source = srcFabric) (hst : s.timeState = stLocked)
    (hl : s.tm.lastValid + usTicks (s.fld F.TIME_CELL_CFG_LOSS_US) ≤ s.tick) (hq : s.altPort = some q)
    (hn : s.tm.portSeen.getD q none = some n) (hle : s.tick ≤ n + usTicks (s.fld F.TIME_CELL_CFG_LOSS_US)) :
    s.upstreamLoss.fld F.TIME_STAT_UPSTREAM_NOW = q ∧ s.upstreamLoss.timeState = stLocked ∧
      s.upstreamLoss.tm.switchTest = true ∧ s.upstreamLoss.clk = s.clk ∧ s.upstreamLoss.mem = s.mem := by
  have hq4 : q < 2 ^ F.TIME_STAT_UPSTREAM_NOW.w := by
    have h := hq
    unfold State.altPort at h
    dsimp only at h
    split at h
    · exact Option.some.inj h ▸ s.fld_lt F.TIME_SRC_ALT_UPSTREAM
    · exact absurd h (Option.some_ne_none q).symm
  unfold State.upstreamLoss
  extract_lets loss silent now alt
  have halt : alt = some q := by
    unfold alt
    rw [hq, Option.filter_some, if_pos]
    simpa only [hn, decide_eq_true_eq] using hle
  rw [if_pos ⟨hs, hl, .inl hst⟩, halt]
  dsimp only
  have held {f : Fld} (h9 : f.addr / 0x10000 ≠ 9) (hF : f.addr / 0x10000 ≠ 0xF) (u : State) (d : List Byte) :
      (u.log Rec.upstreamSwitch d).fld f = u.fld f := State.fld_congr (u.log_word_block d 0 (by decide) h9 hF)
  refine ⟨(held (by decide) (by decide) _ _).trans ?_, (held (by decide) (by decide) _ _).trans ?_, ?_, ?_, ?_⟩
  · exact (State.fld_setFld_same _ _ _ (by decide)).trans (Nat.mod_eq_of_lt hq4)
  · exact (State.fld_setFld_apart _ _ (by decide) (by decide)).trans hst
  · rw [State.log_tm]
    exact decide_eq_true hst
  · rw [State.log_clk]
    rfl
  · rw [State.log_mem]
    rfl

/-- The end of a pulse at the tick nearest to where it stops. -/
theorem State.pulseEnd_falls {s : State} {fsync : Bool} {e : Nat}
    (he : (if fsync = true then s.tm.fsyncEnd else s.tm.ppsEnd) = some e) (hn : s.nearest (s.pulseStop fsync e) = true) :
    s.pulseEnd fsync = (s.updTm fun tm => if fsync = true then { tm with fsyncEnd := none } else { tm with ppsEnd := none }).emit
      (.pulse fsync false) := by
  unfold State.pulseEnd
  rw [he]
  exact if_pos hn

theorem State.pulseStop_pps (s : State) (e : Nat) : s.pulseStop false e =
    if s.fld F.TIME_IO_PPS_OUT_W = 0 then e else min e (s.tm.nextPps * secU - s.inc) := by
  unfold State.pulseStop State.nextPulse
  split <;> simp_all

/-- With a width of 0 the whole second passes without a pulse; with one `PPS_OUT` rises, and a pulse that still stands
ends before (R52). -/
theorem State.ppsOut_rises {s : State} (hn : s.nearest (s.tm.nextPps * secU) = true) :
    s.ppsOut.tm.nextPps = s.tm.nextPps + 1 ∧ s.ppsOut.regs = s.regs ∧ s.ppsOut.mem = s.mem ∧
      (s.fld F.TIME_IO_PPS_OUT_W ≠ 0 →
        s.ppsOut.out = .pulse false true :: ((if s.tm.ppsEnd = none then [] else [.pulse false false]) ++ s.out) ∧
        s.ppsOut.tm.ppsEnd = some (s.tm.nextPps * secU + usU (s.fld F.TIME_IO_PPS_OUT_W))) ∧
      (s.fld F.TIME_IO_PPS_OUT_W = 0 → s.ppsOut.out = s.out) := by
  unfold State.ppsOut
  dsimp only
  rw [if_pos hn]
  by_cases hw : s.fld F.TIME_IO_PPS_OUT_W = 0
  · rw [if_pos hw]
    exact ⟨rfl, rfl, rfl, absurd hw, fun _ => rfl⟩
  · rw [if_neg hw]
    unfold State.pulseLow
    cases he : s.tm.ppsEnd <;> simp [State.updTm, State.emit, he, hw]

/-- Settles O51: emissions and pulses by their cases; a time cell ends in a sample, which leaves what the cell has
brought; a loss is HOLDOVER or the switch to the alternate port. -/
theorem timeEventsComplete : Obligations.TimeEventsComplete := by
  refine ⟨⟨fun s l hr hp hl => ?_, fun s hn => ⟨_, rfl, State.ppsOut_rises hn⟩, fun s e he hn => ?_, fun s e he hn => ?_⟩, fun s c hc hh => ?_, fun s hl hs hp => ?_,
    fun s hl => ?_, fun s hs hst => ⟨fun hl => ⟨fun hq => ?_, fun q n hq hn hle => ?_⟩, fun hl => ?_⟩⟩
  · obtain ⟨ht, hc, hm⟩ := s.emitTime_keeps (BitVec.allOnes 64) (List.replicate 20 0) fun q => s.stampTime (l.getD q 0)
    exact ⟨_, congrArg Host.Outcome.next (if_pos ⟨hr, hp, hl⟩), congrArg TimeSt.timeSeq ht, rfl, hc, hm⟩
  · exact ⟨_, congrArg Host.Outcome.next (State.pulseEnd_falls (fsync := true) he hn), rfl, rfl, rfl, rfl, rfl⟩
  · exact ⟨_, congrArg Host.Outcome.next (State.pulseEnd_falls (fsync := false) he (s.pulseStop_pps e ▸ hn)),
      rfl, rfl, rfl, rfl, rfl⟩
  · have run : exec (.timeCell c) s = .next (s.timeCell c) := congrArg Host.Outcome.next (if_pos ⟨hc, hh⟩)
    rw [run]
    refine ⟨fun hs => congrArg _ (if_pos hs), fun hs => ⟨fun hm => congrArg _ ?_, fun hm => ⟨fun hu hb => congrArg _ ?_,
      fun hu hops => congrArg _ ?_, fun hu hops hst hr ha => ⟨_, rfl, ?_⟩⟩⟩⟩
    · unfold State.timeCell
      rw [if_neg (not_not_intro hs), if_pos (by rw [hm]; exact Bool.false_ne_true)]
    · unfold State.timeCell
      rw [if_neg (not_not_intro hs), if_neg (not_not_intro hm), if_pos ⟨hu, hb⟩]
    · unfold State.timeCell
      rw [if_neg (not_not_intro hs), if_neg (not_not_intro hm), if_neg fun h => h.1 hu, if_pos hops]
    · obtain ⟨t, o, x, ht, htst, hroot, hseq, hlast, hdepth, hcnt, hmem⟩ := State.timeCell_samples hs hm hu hops hr ha
      have k := t.sample_keeps o x
      have tracking : t.timeState ≠ stHoldover := by rw [htst]; rcases hst with h | h <;> rw [h] <;> decide
      rw [ht]
      exact ⟨(k.root tracking).trans hroot, (k.cellSeq tracking).trans hseq, k.lastValid.trans hlast,
        ((k.fld _ (by simp [cellFields])).trans (t.showOffset_fld x (by decide) (by decide))).trans hdepth,
        ((k.fld _ (by simp [cellFields])).trans (t.showOffset_fld x (by decide) (by decide))).trans hcnt,
        k.mem.trans hmem⟩
  · exact ⟨_, congrArg Host.Outcome.next (State.sourceLoss_locked hl hs hp), s.enterHoldover_entered 0⟩
  · exact congrArg Host.Outcome.next (if_neg (by simp [hl]))
  · exact ⟨_, congrArg Host.Outcome.next (State.upstreamLoss_held hs hst hl hq), s.enterHoldover_entered 0⟩
  · exact ⟨_, rfl, State.upstreamLoss_switched hs hst hl hq hn hle⟩
  · exact congrArg Host.Outcome.next (if_neg fun h => absurd h.2.1 (Nat.not_le.mpr hl))

end Sys2Proof.Machine
end

section
/-! PTP messages, their bridge and the delay marks of links (R50, R63, R141 to R143). -/

namespace Sys2Proof.Machine

open Sys2Proof

/-- A frame received is counted on its port, and does no more. -/
theorem State.frameIn_cases (s : State) (m n : Nat) :
    s.frameIn m n = s ∨ s.frameIn m n = s.bump (F.ETH_CNT_COUNT m 0) n := by
  unfold State.frameIn
  split
  · exact .inr rfl
  · exact .inl rfl

theorem State.ptpFrames_cases (s : State) (p : BitVec 3) (n : Nat) :
    s.ptpFrames p n = s ∨ s.ptpFrames p n = s.bump (F.ETH_CNT_COUNT p.toNat 0) n := by
  unfold State.ptpFrames
  split
  · exact .inl rfl
  · exact s.frameIn_cases _ _

theorem State.ptpFrames_tm (s : State) (p : BitVec 3) (n : Nat) : (s.ptpFrames p n).tm = s.tm := by
  rcases s.ptpFrames_cases p n with h | h <;> simp [h]

theorem State.ptpFrames_clk (s : State) (p : BitVec 3) (n : Nat) : (s.ptpFrames p n).clk = s.clk := by
  rcases s.ptpFrames_cases p n with h | h <;> simp [h]

theorem State.ptpFrames_mem (s : State) (p : BitVec 3) (n : Nat) : (s.ptpFrames p n).mem = s.mem := by
  rcases s.ptpFrames_cases p n with h | h <;> simp [h]

/-- The sample of an exchange keeps the masters, the time of the last valid sample and memory, but in HOLDOVER. -/
theorem State.ptpSample_keeps {s : State} (h : s.timeState = stAcquiring ∨ s.timeState = stLocked) :
    s.ptpSample.tm.ptp = s.tm.ptp ∧ s.ptpSample.tm.lastValid = s.tm.lastValid ∧ s.ptpSample.mem = s.mem := by
  have tracking : s.timeState ≠ stHoldover := by rcases h with h | h <;> rw [h] <;> decide
  fun_cases State.ptpSample
  case case1 => exact ⟨rfl, rfl, rfl⟩
  case case2 t1 ms _ l _ =>
    have k := s.sample_keeps t1 (l.sum / (l.length : Nat) - ms)
    exact ⟨k.ptp tracking, k.lastValid, k.mem⟩
  case case3 => exact ⟨rfl, rfl, rfl⟩

/-! ## Masters (R50) -/

theorem State.selectMaster_keeps (s : State) (m : Master) :
    (s.selectMaster m).tm.ptp.masters = s.tm.ptp.masters ∧ (s.selectMaster m).clk = s.clk ∧
      (s.selectMaster m).mem = s.mem := ⟨rfl, rfl, rfl⟩

/-- The record of a master just heard. -/
def State.masterHeard (s : State) (m : PtpAnnounce) : Master :=
  ⟨m.port, m.identity, m.portNumber, m.rank, m.logInterval, s.tick⟩

/-- The masters remembered when an Announce is heard: its own first, in the place of what it said before. -/
def State.remember (s : State) (m : PtpAnnounce) : State :=
  s.updTm fun tm => { tm with ptp := { tm.ptp with
    masters := s.masterHeard m :: tm.ptp.masters.filter fun x =>
      !(x.port == m.port && x.identity == m.identity && x.portNumber == m.portNumber) } }

/-- An Announce that is heard is remembered, and moves neither clock nor memory. -/
theorem State.ptpAnnounce_remembers {s : State} {m : PtpAnnounce}
    (h : s.hearsPtp m.port m.domain = true ∧ -3 ≤ m.logInterval ∧ m.logInterval ≤ 1) :
    (s.ptpAnnounce m).tm.ptp.masters = (s.remember m).tm.ptp.masters ∧ (s.ptpAnnounce m).clk = s.clk ∧
      (s.ptpAnnounce m).mem = s.mem := by
  unfold State.ptpAnnounce
  rw [if_pos h]
  extract_lets e same heard chosen
  have hc : chosen.tm.ptp.masters = heard.tm.ptp.masters ∧ chosen.clk = heard.clk ∧ chosen.mem = heard.mem := by
    have kept : heard.tm.ptp.masters = heard.tm.ptp.masters ∧ heard.clk = heard.clk ∧ heard.mem = heard.mem :=
      ⟨rfl, rfl, rfl⟩
    unfold chosen
    split
    · split
      · split
        · exact heard.selectMaster_keeps _
        · exact kept
      · exact kept
    · split
      · split
        · split
          · exact kept
          · exact heard.selectMaster_keeps _
        · exact kept
      · exact kept
  split
  · exact hc
  · exact hc

theorem State.announceTicks_pos (s : State) {i : Int} (hi : -3 ≤ i) : 0 < s.announceTicks i := by
  have hn : 2 ≤ s.fld F.TIME_PTP_CFG_ANN_TIMEOUT + 2 := Nat.le_add_left _ _
  unfold State.announceTicks
  dsimp only
  generalize s.fld F.TIME_PTP_CFG_ANN_TIMEOUT + 2 = n at hn ⊢
  split
  · positivity
  · refine Nat.div_pos ?_ (by positivity)
    calc 2 ^ (-i).toNat ≤ 2 ^ 3 := Nat.pow_le_pow_right (by decide) (by omega)
      _ ≤ n * 1500000000 := by omega

/-- The first master heard in ACQUIRING is selected on the port it was heard on. -/
theorem State.ptpAnnounce_selects {s : State} {m : PtpAnnounce} (hh : s.hearsPtp m.port m.domain = true)
    (hl : -3 ≤ m.logInterval) (hu : m.logInterval ≤ 1) (hm : s.tm.ptp.masters = []) (hs : s.tm.ptp.selected = none)
    (ha : s.timeState = stAcquiring) :
    (s.ptpAnnounce m).tm.ptp.selected = some (m.identity, m.portNumber) ∧ (s.ptpAnnounce m).tm.ptp.selPort = m.port := by
  have hp : bitOf (s.fld F.TIME_PTP_CFG_PORTS) m.port.toNat = true := by
    simp only [State.hearsPtp, Bool.and_eq_true] at hh
    exact hh.1.1.1.2
  have hlive : (s.remember m).liveMasters = [s.masterHeard m] := by
    have := s.announceTicks_pos hl
    have hms : (s.remember m).tm.ptp.masters = [s.masterHeard m] := by simp [State.remember, State.updTm, hm]
    unfold State.liveMasters
    rw [hms]
    exact List.filter_eq_self.mpr fun x hx => by
      rw [List.mem_singleton.mp hx]
      exact Bool.and_eq_true_iff.mpr ⟨decide_eq_true (Nat.lt_add_of_pos_right this), hp⟩
  have hsel : (s.remember m).tm.ptp.selected = none := hs
  have hacq : (s.remember m).timeState = stAcquiring := ha
  have chosen : ((s.remember m).selectMaster (s.masterHeard m)).tm.ptp.selected = some (m.identity, m.portNumber) ∧
      ((s.remember m).selectMaster (s.masterHeard m)).tm.ptp.selPort = m.port := by
    refine ⟨rfl, ?_⟩
    change List.foldl _ _ (List.map _ (List.filter _ (s.remember m).liveMasters)) = _
    simp [hlive, State.masterHeard]
  have run : s.ptpAnnounce m = (((s.remember m).selectMaster (s.masterHeard m)).setFld F.TIME_UTC_OFFSET_UTC_OFFSET
      m.utcOffset.toNat).setBit F.TIME_UTC_OFFSET_VALID m.utcValid := by
    unfold State.ptpAnnounce
    rw [if_pos ⟨hh, hl, hu⟩]
    extract_lets e same heard picked
    have hheard : heard = s.remember m := rfl
    have hpicked : picked = (s.remember m).selectMaster (s.masterHeard m) := by
      unfold picked
      rw [hheard, hsel]
      dsimp only
      rw [if_pos hacq, hlive]
      rfl
    refine (if_pos ?_).trans ?_
    · rw [hpicked]
      exact chosen.1
    · rw [hpicked]
  rw [run]
  exact chosen

/-! ## The bridge (R143) -/

/-- A frame counted changes no register below the counters of the ports. -/
theorem State.frameIn_word (s : State) (m n : Nat) {a : Nat} (h : a < 0x40200) : (s.frameIn m n).word a = s.word a := by
  rcases s.frameIn_cases m n with e | e
  · rw [e]
  · rw [e, State.word_bump_other]
    simp only [F.ETH_CNT_COUNT]
    omega

theorem State.frameIn_fld (s : State) (m n : Nat) {f : Fld} (h : f.addr < 0x40200) :
    (s.frameIn m n).fld f = s.fld f := State.fld_congr (s.frameIn_word m n h)

theorem State.frameIn_bit (s : State) (m n : Nat) {f : Fld} (h : f.addr < 0x40200) :
    (s.frameIn m n).bit f = s.bit f := State.bit_congr (s.frameIn_word m n h)

/-- Of a port of the bridge neither its stamps nor its tag nor its address depend on the frames counted. -/
theorem State.frameIn_port (s : State) (m n : Nat) (p : BitVec 1) :
    (s.frameIn m n).hasMac p.toNat = s.hasMac p.toNat ∧ (s.frameIn m n).sendTag p.toNat = s.sendTag p.toNat ∧
      (s.frameIn m n).txStamp p.toNat = s.txStamp p.toNat ∧ (s.frameIn m n).rxStamp p.toNat = s.rxStamp p.toNat := by
  have hp := p.isLt
  have mac (tx : Bool) : (s.frameIn m n).macDelay p.toNat tx = s.macDelay p.toNat tx := by
    rcases s.frameIn_cases m n with e | e
    · rw [e]
    · rw [e]
      rfl
  have low (k : Nat) (hk : k < 0x400D0) : k + 8 * p.toNat < 0x40200 ∧ k + 4 * p.toNat < 0x40200 := by omega
  refine ⟨?_, ?_, funext fun t => ?_, funext fun t => ?_⟩
  · unfold State.hasMac
    rw [s.frameIn_fld m n, s.frameIn_fld m n] <;> simp only [F.ETH_MAC_MAC] <;> omega
  · unfold State.sendTag
    rw [s.frameIn_bit m n, s.frameIn_fld m n] <;> simp only [F.ETH_VLAN_VID, F.ETH_VLAN_EN] <;> omega
  · unfold State.txStamp
    rw [mac, s.frameIn_fld m n]
    simp only [F.ETH_TS_EXT_TX_PS]
    omega
  · unfold State.rxStamp
    rw [mac, s.frameIn_fld m n]
    simp only [F.ETH_TS_EXT_RX_PS]
    omega

theorem openRound_zero (k : Nat) : openRound k 0 = 0 := by simp [openRound, show Rat.floor 0 = 0 from rfl]

/-- What the bridge forwards, and the one of its two ports that counts it. -/
structure Bridged (s : State) (m : PtpBridged) (correction : Int) (sum : Option (BitVec 16)) (t : State) : Prop where
  out : t.out = .ptpForward (m.port ^^^ 1) (s.sendTag (m.port ^^^ 1).toNat) m.msgType correction sum :: s.out
  counted : ∃ p : BitVec 1,
    t.fld (F.ETH_CNT_COUNT p.toNat 9) = min (s.fld (F.ETH_CNT_COUNT p.toNat 9) + 1) (2 ^ 32 - 1) ∧
      t.fld (F.ETH_CNT_COUNT (p ^^^ 1).toNat 9) = s.fld (F.ETH_CNT_COUNT (p ^^^ 1).toNat 9)
  mem : t.mem = s.mem
  cmd : t.cmd = s.cmd

theorem State.frameIn_out_mem_cmd (s : State) (m n : Nat) :
    (s.frameIn m n).out = s.out ∧ (s.frameIn m n).mem = s.mem ∧ (s.frameIn m n).cmd = s.cmd := by
  rcases s.frameIn_cases m n with e | e <;> rw [e] <;> exact ⟨rfl, rfl, rfl⟩

/-- The counter of forwarded frames is no counter of frames received. -/
theorem State.frameIn_forwarded (s : State) (m p : BitVec 1) (n : Nat) :
    (s.frameIn m.toNat n).fld (F.ETH_CNT_COUNT p.toNat 9) = s.fld (F.ETH_CNT_COUNT p.toNat 9) := by
  rcases s.frameIn_cases m.toNat n with e | e
  · rw [e]
  · rw [e]
    refine State.fld_congr (State.word_bump_other _ _ _ ?_)
    simp only [F.ETH_CNT_COUNT]
    omega

/-- A message of a type that passes leaves by the other port, its correctionField as the type asks. -/
theorem State.ptpBridge_bridged {s : State} {m : PtpBridged} (hb : s.bridges = true)
    (hm : s.hasMac (m.port ^^^ 1).toNat = true) (hp : m.udpPort = 319 ∨ m.udpPort = 320) (hd : m.dstIp = 0xE0000181)
    (ht : m.msgType.toNat ≠ 2 ∧ m.msgType.toNat ≠ 3 ∧ m.msgType.toNat ≠ 10) :
    Bridged s m (m.correction + openRound 143 ((if m.msgType.toNat = 0 ∨ m.msgType.toNat = 1 then
      s.txStamp (m.port ^^^ 1).toNat m.tOut - s.rxStamp m.port.toNat m.tIn else 0) * 65536))
      (if m.msgType.toNat = 0 ∨ m.msgType.toNat = 1 then some 0 else none)
      ((s.frameIn m.port.toNat).ptpBridge m) := by
  obtain ⟨hout, hmem, hcmd⟩ := s.frameIn_out_mem_cmd m.port.toNat 1
  obtain ⟨hmac, htag, htx, -⟩ := s.frameIn_port m.port.toNat 1 (m.port ^^^ 1)
  have hrx := (s.frameIn_port m.port.toNat 1 m.port).2.2.2
  have hbr : (s.frameIn m.port.toNat).bridges = s.bridges := by
    unfold State.bridges
    rw [s.frameIn_bit _ _ (by decide), s.frameIn_bit _ _ (by decide), s.frameIn_bit _ _ (by decide)]
  have hcnt := s.frameIn_forwarded m.port (n := 1)
  generalize s.frameIn m.port.toNat = u at *
  unfold State.ptpBridge
  dsimp only
  rw [if_pos (c := u.bridges = true ∧ _) ⟨hbr.trans hb, hmac.trans hm, hp, hd, ht⟩, htag, htx, hrx]
  generalize hk : Config.free 143 [u.draw.1] % 2 = k
  have hk2 : k < 2 := hk ▸ Nat.mod_lt _ (by decide)
  have hself : (BitVec.ofNat 1 k).toNat = k := Nat.mod_eq_of_lt hk2
  have hother : (BitVec.ofNat 1 k ^^^ 1).toNat ≠ k := by
    intro e
    exact absurd (BitVec.eq_of_toNat_eq (e.trans hself.symm)) (by generalize BitVec.ofNat 1 k = p; revert p; decide)
  refine ⟨congrArg _ hout, ⟨BitVec.ofNat 1 k, ?_, ?_⟩, hmem, hcmd⟩
  · rw [← hcnt (BitVec.ofNat 1 k), hself]
    exact State.fld_bump_same _ _ _ (Nat.le_refl 32)
  · rw [← hcnt (BitVec.ofNat 1 k ^^^ 1)]
    refine State.fld_congr (State.word_bump_other _ _ _ ?_)
    simp only [F.ETH_CNT_COUNT]
    omega

/-- A peer-delay message does not pass. -/
theorem State.ptpBridge_peerDelay (s : State) {m : PtpBridged}
    (ht : m.msgType.toNat = 2 ∨ m.msgType.toNat = 3 ∨ m.msgType.toNat = 10) : s.ptpBridge m = s := by
  refine if_neg ?_
  rintro ⟨-, -, -, -, h2, h3, h10⟩
  exact ht.elim h2 (Or.elim · h3 h10)

/-! ## Delay marks (R63) -/

theorem State.lane_updLane_same (s : State) {q : Nat} (f : LaneSt → LaneSt) (hq : q < s.lnk.ports.length) :
    (s.updLane q f).lane q = f (s.lane q) := by
  simp [State.lane, State.updLane, List.getD_eq_getElem?_getD, hq]

/-- The measurement of a mark whose reply has come: half the round trip less the turnaround and half the asymmetry. -/
def State.markDelay (s : State) (q : Nat) (roundTrip : Int) (turn : Nat) : Rat :=
  ((roundTrip - turn : Int) : Rat) * s.tickNs / (256 : Nat) + (sext 32 (s.fld (F.TIME_ASYM_ASYM_PS q)) : Rat) / (2000 : Nat)

/-- A measurement joins those of its port, and answers the mark. -/
theorem State.linkMeasure_measures {s : State} {q : Nat} {roundTrip : Int} {turn : Nat} (h : s.markReplied q = true)
    (hd : q < s.tm.delays.length) (hm : q < s.tm.marked.length) (hp : q < s.lnk.ports.length) :
    ((s.linkMeasure q roundTrip turn).lane q).markOut = none ∧
      (s.linkMeasure q roundTrip turn).tm.marked.getD q false = true ∧
      (s.linkMeasure q roundTrip turn).tm.delays.getD q [] =
        (s.markDelay q roundTrip turn :: s.tm.delays.getD q []).take 16 ∧
      (s.linkMeasure q roundTrip turn).clk = s.clk ∧ (s.linkMeasure q roundTrip turn).mem = s.mem := by
  unfold State.linkMeasure
  rw [if_pos h]
  extract_lets answered d before had joined after ps shown
  have kept {t : State} (hl : t.lnk = answered.lnk) (ht : t.tm = joined.tm) (hc : t.clk = s.clk) (hmem : t.mem = s.mem) :
      (t.lane q).markOut = none ∧ t.tm.marked.getD q false = true ∧
        t.tm.delays.getD q [] = (d :: s.tm.delays.getD q []).take 16 ∧ t.clk = s.clk ∧ t.mem = s.mem := by
    refine ⟨?_, ?_, ?_, hc, hmem⟩
    · unfold State.lane
      rw [hl]
      exact congrArg LaneSt.markOut (s.lane_updLane_same _ hp)
    · rw [ht]
      change (s.tm.marked.set q true).getD q false = true
      simp [List.getD_eq_getElem?_getD, hm]
    · rw [ht]
      change (s.tm.delays.modify q fun l => (d :: l).take 16).getD q [] = _
      simp [List.getD_eq_getElem?_getD, hd]
  split
  · exact kept (State.log_lnk ..) (State.log_tm ..) (State.log_clk ..) (State.log_mem ..)
  · exact kept rfl rfl rfl rfl

/-- A Sync of the selected master leaves its times. -/
theorem State.ptpSync_kept {s : State} {m : PtpSync} (hh : s.hearsPtp m.port m.domain = true)
    (hs : s.tm.ptp.selected = some (m.identity, m.portNumber)) (hp : s.tm.ptp.selPort = m.port) (hl : -7 ≤ m.logInterval)
    (hu : m.logInterval ≤ 0) (hst : s.timeState = stAcquiring ∨ s.timeState = stLocked) :
    (s.ptpSync m).tm.lastValid = s.tick ∧ (s.ptpSync m).tm.ptp.lastSync = some s.tick ∧
      (s.ptpSync m).tm.ptp.syncInterval = m.logInterval ∧
      (s.ptpSync m).tm.ptp.ms = some (q16 m.t1, s.rxStamp m.port.toNat m.t2 - q16 m.t1 - q16 m.cs) ∧
      (s.ptpSync m).mem = s.mem := by
  unfold State.ptpSync
  rw [if_pos ⟨hh, hs, hp, hl, hu⟩]
  extract_lets t2 u
  obtain ⟨hptp, hlast, hmem⟩ := State.ptpSample_keeps (s := u) hst
  rw [hptp, hlast, hmem]
  exact ⟨rfl, rfl, rfl, rfl, rfl⟩

/-- The answer to a Delay_Req with a Sync before it adds a measurement. -/
theorem State.ptpDelayResp_measures {s : State} {m : PtpDelayResp} {t3 : Rat} (hh : s.hearsPtp m.port m.domain = true)
    (hs : s.tm.ptp.selected = some (m.identity, m.portNumber)) (hp : s.tm.ptp.selPort = m.port)
    (h3 : s.tm.ptp.t3s = some t3) (hq : s.tm.ptp.lastReq.isSome = true)
    (hst : s.timeState = stAcquiring ∨ s.timeState = stLocked) :
    (s.ptpDelayResp m).tm.ptp.t3s = none ∧ (s.ptpDelayResp m).tm.ptp.answered = true ∧
      (s.ptpDelayResp m).tm.ptp.reqInterval = m.logMinDelayReq ∧
      (s.ptpDelayResp m).tm.ptp.means =
        ((s.tm.ptp.reqMs + (q16 m.t4 - t3 - q16 m.cr)) / (2 : Nat) :: s.tm.ptp.means).take 16 ∧
      (s.ptpDelayResp m).mem = s.mem := by
  unfold State.ptpDelayResp
  rw [if_pos ⟨hh, hs, hp, hq⟩]
  extract_lets u
  have sampled {v : State} {l : List Rat} (hv : v.timeState = s.timeState) (hn : v.tm.ptp.t3s = none)
      (ha : v.tm.ptp.answered = true) (hi : v.tm.ptp.reqInterval = m.logMinDelayReq) (hl : v.tm.ptp.means = l)
      (hm : v.mem = s.mem) : v.ptpSample.tm.ptp.t3s = none ∧ v.ptpSample.tm.ptp.answered = true ∧
        v.ptpSample.tm.ptp.reqInterval = m.logMinDelayReq ∧ v.ptpSample.tm.ptp.means = l ∧ v.ptpSample.mem = s.mem := by
    obtain ⟨hptp, -, hmem⟩ := State.ptpSample_keeps (hv ▸ hst)
    rw [hptp, hmem]
    exact ⟨hn, ha, hi, hl, hm⟩
  rw [show u.tm.ptp.t3s = some t3 from h3]
  exact sampled rfl rfl rfl rfl rfl rfl

/-- Without a Sync before the Delay_Req its answer sets the interval alone. -/
theorem State.ptpDelayResp_unmeasured {s : State} {m : PtpDelayResp} (hh : s.hearsPtp m.port m.domain = true)
    (hs : s.tm.ptp.selected = some (m.identity, m.portNumber)) (hp : s.tm.ptp.selPort = m.port)
    (h3 : s.tm.ptp.t3s = none) (hq : s.tm.ptp.lastReq.isSome = true) :
    s.ptpDelayResp m = s.updTm fun tm =>
      { tm with ptp := { tm.ptp with answered := true, reqInterval := m.logMinDelayReq } } := by
  unfold State.ptpDelayResp
  rw [if_pos ⟨hh, hs, hp, hq⟩]
  extract_lets u
  rw [show u.tm.ptp.t3s = none from h3]

/-- A Delay_Req where none was sent before and a Sync has come. -/
theorem State.delayReq_leaves {s : State} (a b : Int) {x : Rat × Rat} (hs : s.source = srcPtp)
    (hsel : s.tm.ptp.selected.isSome = true) (hq : s.tm.ptp.lastReq = none)
    (hm : s.hasMac s.tm.ptp.selPort.toNat = true)
    (hl : s.bit (F.ETH_PORT_STAT_LINK_UP s.tm.ptp.selPort.toNat) = true) (hx : s.tm.ptp.ms = some x) :
    s.delayReq a b = (s.updTm fun tm =>
      { tm with ptp := { tm.ptp with lastReq := some s.tick, t3s := some (q16 a), reqMs := x.2 } }).emit
        (.delayReq s.tm.ptp.selPort (s.sendTag s.tm.ptp.selPort.toNat) (q16 a)
          (openRound 141 ((s.txStamp s.tm.ptp.selPort.toNat b - q16 a) * 65536)) 0) := by
  unfold State.delayReq
  extract_lets m gap due exchange
  have hdue : due = true := by
    unfold due
    rw [hq]
  have hex : exchange = (some (q16 a), x.2) := by
    unfold exchange
    rw [hx]
  rw [if_pos ⟨hs, hsel, hdue, hm, hl⟩, hex]

/-- Settles O52: each message has its case; the samples that follow leave what the message has set. -/
theorem ptpAndLinkDelayComplete : Obligations.PtpAndLinkDelayComplete := by
  refine ⟨⟨fun s m hd hh hl hu => ?_, fun s m hd hh hs hp hl hu hst => ?_, fun s a b x hs hsel hq hm hl hx => ?_,
    fun s m t3 hd hh hs hp h3 hq hst => ?_, fun s m hd hh hs hp h3 hq => ?_⟩,
    fun s m hd hen h0 h1 hm hp hip => ?_, fun s q r n hc hr hdl hml hpl => ?_⟩
  · obtain ⟨hms, hclk, hmem⟩ := State.ptpAnnounce_remembers ⟨hh, hl, hu⟩
    refine ⟨_, congrArg Host.Outcome.next (State.crossIn_running s 1 _ hd), ?_⟩
    rw [State.ptpFrames_tm, State.ptpFrames_clk, State.ptpFrames_mem]
    exact ⟨congrArg List.head? hms, fun h1 h2 h3 => State.ptpAnnounce_selects hh hl hu h1 h2 h3, hclk, hmem⟩
  · refine ⟨_, congrArg Host.Outcome.next (State.crossIn_running s 1 _ hd), ?_⟩
    rw [State.ptpFrames_tm, State.ptpFrames_mem]
    exact State.ptpSync_kept hh hs hp hl hu hst
  · exact ⟨_, congrArg Host.Outcome.next (s.delayReq_leaves a b hs hsel hq hm hl hx), rfl, rfl, rfl, rfl, rfl, rfl⟩
  · refine ⟨_, congrArg Host.Outcome.next (State.crossIn_running s 1 _ hd), ?_⟩
    rw [State.ptpFrames_tm, State.ptpFrames_mem]
    exact State.ptpDelayResp_measures hh hs hp h3 hq hst
  · refine ⟨_, congrArg Host.Outcome.next (State.crossIn_running s 1 _ hd), ?_⟩
    rw [State.ptpFrames_tm, State.ptpFrames_clk, State.ptpFrames_mem, State.ptpDelayResp_unmeasured hh hs hp h3 hq]
    exact ⟨rfl, rfl, rfl, rfl, rfl⟩
  · have hb : s.bridges = true := by simp [State.bridges, hen, h0, h1]
    have run : exec (.bridgedPtpMessage m) s = .next ((s.frameIn m.port.toNat).ptpBridge m) :=
      congrArg Host.Outcome.next (State.crossIn_running s 1 _ hd)
    refine ⟨fun ht => ⟨_, run, ?_⟩, fun ht => ⟨_, run, ?_⟩, fun ht => ⟨_, run, ?_⟩⟩
    · have b := State.ptpBridge_bridged hb hm hp hip (by omega)
      rw [if_pos (by omega), if_pos (by omega)] at b
      exact ⟨b.out, b.counted, b.mem, b.cmd⟩
    · have hgen : 8 ≤ m.msgType.toNat ∧ m.msgType.toNat ≠ 10 := by
        rcases ht with h | h | h
        · rw [h]; decide
        · rw [h]; decide
        · omega
      have b := State.ptpBridge_bridged hb hm hp hip (by omega)
      rw [if_neg (by omega), if_neg (by omega), zero_mul, openRound_zero, add_zero] at b
      exact ⟨b.out, b.counted, b.mem, b.cmd⟩
    · rw [State.ptpBridge_peerDelay _ (by rcases ht with h | h | h <;> rw [h] <;> decide)]
      exact s.frameIn_out_mem_cmd _ _
  · have hrep : s.markReplied q.toNat = true := by
      unfold State.markReplied
      rcases hr with h | ⟨x, hx, hpos⟩ <;> simp_all
    exact ⟨_, rfl, State.linkMeasure_measures hrep hdl hml hpl⟩

end Sys2Proof.Machine
end

section
/-! The clock's own registers: the source, the captured time, the steps and the counters (R38, R41, R43, R46). -/

namespace Sys2Proof.Machine

open Sys2Proof

/-! ## The state of the clock -/

/-- Beside the clock's state, entering one writes the master's registers alone. -/
theorem State.enterState_word (s : State) (st : Nat) {a : Nat} (hS : a ≠ F.TIME_STAT_STATE.addr)
    (hM : ∀ k < 3, a ≠ (F.TIME_PTP_MASTER_VALUE k).addr) : (s.enterState st).word a = s.word a := by
  have set : (s.setFld F.TIME_STAT_STATE st).word a = s.word a := State.word_setFld_other _ _ _ hS
  fun_cases State.enterState
  case case1 =>
    exact (State.word_setFld_other _ _ _ (hM 2 (by decide))).trans
      ((State.word_setFld_other _ _ _ (hM 1 (by decide))).trans
        ((State.word_setFld_other _ _ _ (hM 0 (by decide))).trans set))
  case case2 => exact set
  case case3 => exact set
  case case4 => exact set

theorem State.enterState_source (s : State) (st : Nat) : (s.enterState st).source = s.source :=
  State.fld_congr (s.enterState_word st (by decide) (by decide))

/-- The state entered is the one asked for, whichever master it selects. -/
theorem State.enterState_timeState (s : State) {st : Nat} (h : st < 4) : (s.enterState st).timeState = st := by
  have set : (s.setFld F.TIME_STAT_STATE st).timeState = st :=
    (State.fld_setFld_same _ _ _ (by decide)).trans (Nat.mod_eq_of_lt h)
  fun_cases State.enterState
  case case1 =>
    exact (State.fld_setFld_addr _ _ _ _ (by decide)).trans
      ((State.fld_setFld_addr _ _ _ _ (by decide)).trans ((State.fld_setFld_addr _ _ _ _ (by decide)).trans set))
  case case2 => exact set
  case case3 => exact set
  case case4 => exact set

theorem State.enterState_acquiring_root (s : State) : (s.enterState stAcquiring).tm.root = none := by
  unfold State.enterState
  dsimp only
  rw [if_pos rfl]
  split
  · split <;> rfl
  · rfl

/-! ## The source (R41, R43) -/

/-- The source that a write of `TIME_SRC` leaves in force: the one in force in M3 to M5, none for a reserved value. -/
def State.sourceAfter (s : State) (v : Word) : Nat :=
  if 3 ≤ s.mode ∧ s.mode ≤ 5 then s.source
  else if 6 ≤ F.TIME_SRC_SOURCE.get v then 0 else F.TIME_SRC_SOURCE.get v

theorem State.sourceAfter_lt (s : State) (v : Word) : s.sourceAfter v < 2 ^ 3 := by
  unfold State.sourceAfter
  split
  · exact s.fld_lt _
  · split
    · decide
    · exact F.TIME_SRC_SOURCE.get_lt v

/-- The state of the clock on a source newly in force. -/
def stateOfSource (src : Nat) : Nat :=
  if src = srcFree then stFree else if src = srcInternal then stLocked else stAcquiring

theorem stateOfSource_lt (src : Nat) : stateOfSource src < 4 := by
  unfold stateOfSource
  split_ifs <;> decide

/-- A write of `TIME_SRC` puts the source in force, and moves the state where it is another. -/
theorem State.writeTimeSrc_source (s : State) (v : Word) :
    (s.writeTimeSrc v).source = s.sourceAfter v ∧
      (s.writeTimeSrc v).timeState = if s.sourceAfter v = s.source then s.timeState else stateOfSource (s.sourceAfter v) := by
  have hlt := s.sourceAfter_lt v
  unfold State.writeTimeSrc
  extract_lets old w w' src s1 s2 s3 s4 s5 up s6 s7 s8
  have hsrc : src = s.sourceAfter v := rfl
  rw [← hsrc] at hlt ⊢
  clear_value src
  have h1 : s1.source = src := (State.fld_setFld_same _ _ _ (by decide)).trans (Nat.mod_eq_of_lt hlt)
  have h5 : s5.source = src ∧ s5.timeState = s.timeState :=
    ⟨(State.fld_setFld_apart _ _ (by decide) (by decide)).trans <|
      (State.fld_setFld_apart _ _ (by decide) (by decide)).trans <|
      (State.fld_setFld_apart _ _ (by decide) (by decide)).trans <|
      (State.fld_setFld_apart _ _ (by decide) (by decide)).trans h1,
    (State.fld_setFld_apart _ _ (by decide) (by decide)).trans <|
      (State.fld_setFld_apart _ _ (by decide) (by decide)).trans <|
      (State.fld_setFld_apart _ _ (by decide) (by decide)).trans <|
      (State.fld_setFld_apart _ _ (by decide) (by decide)).trans <|
      State.fld_setFld_apart _ _ (by decide) (by decide)⟩
  have h6 : s6.source = src ∧ s6.timeState = s.timeState := by
    unfold s6
    split
    · exact ⟨(State.fld_setFld_apart _ _ (by decide) (by decide)).trans h5.1,
        (State.fld_setFld_apart _ _ (by decide) (by decide)).trans h5.2⟩
    · exact h5
  have h8 : s8.source = src := (State.fld_setFld_apart _ _ (by decide) (by decide)).trans h6.1
  have entered (st : Nat) (hst : st < 4) :
      (s8.enterState st).source = src ∧ (s8.enterState st).timeState = st :=
    ⟨(s8.enterState_source st).trans h8, s8.enterState_timeState hst⟩
  unfold stateOfSource
  split_ifs
  · exact h6
  · exact entered stFree (by decide)
  · exact entered stLocked (by decide)
  · exact entered stAcquiring (by decide)

theorem regFind_timeSrc : (regFind 0x20000).map (fun p => (p.1.base, p.2)) = some (0x20000, []) := by decide

/-- A write of the register is a write of the source, and no membership depends on it. -/
theorem State.writeReg_timeSrc (s : State) (k : Nat) (v : Word) :
    s.writeReg k F.TIME_SRC_SOURCE.addr v = (s.writeTimeSrc v).rejoin := by
  obtain ⟨⟨d, ix⟩, hd, he⟩ := Option.map_eq_some_iff.mp regFind_timeSrc
  obtain ⟨hb, rfl⟩ : d.base = 0x20000 ∧ ix = [] := Prod.mk.inj he
  have special (m w t : Word) : s.writeSpecial k [] 0x20000 F.TIME_SRC_SOURCE.addr m w t = some (s.writeTimeSrc w) := rfl
  unfold State.writeReg State.landWord
  rw [show regFind F.TIME_SRC_SOURCE.addr = _ from hd]
  dsimp only
  rw [if_neg (by decide), hb, special]

/-- The write through the register map, memberships and all. -/
theorem State.writeReg_source (s : State) (k : Nat) (v : Word) :
    (s.writeReg k F.TIME_SRC_SOURCE.addr v).source = s.sourceAfter v ∧
      (s.writeReg k F.TIME_SRC_SOURCE.addr v).timeState =
        if s.sourceAfter v = s.source then s.timeState else stateOfSource (s.sourceAfter v) := by
  have joined : MediaKeeps (fun a => a / 0x10000 = 4) (s.writeTimeSrc v) (s.writeTimeSrc v).rejoin :=
    MediaKeeps.rejoin (by decide) .refl
  obtain ⟨hs, ht⟩ := s.writeTimeSrc_source v
  rw [s.writeReg_timeSrc]
  exact ⟨(State.fld_congr (joined.word _ (by decide))).trans hs, (State.fld_congr (joined.word _ (by decide))).trans ht⟩

/-! ## Fields of an array -/

/-- Fields written one by one, each at an address of its own, hold their values; nothing else changes. -/
theorem State.foldl_setFld {f : Nat → Fld} {v : Nat → Nat} (hf : ∀ i j, (f i).addr = (f j).addr → i = j)
    (hw : ∀ i, (f i).lo + (f i).w ≤ 32) (n : Nat) (s : State) :
    let t := (List.range n).foldl (fun t k => t.setFld (f k) (v k)) s
    (∀ i < n, t.fld (f i) = v i % 2 ^ (f i).w) ∧ t.clk = s.clk ∧ t.mem = s.mem := by
  induction n with
  | zero => exact ⟨fun _ h => absurd h (Nat.not_lt_zero _), rfl, rfl⟩
  | succ n ih =>
    obtain ⟨hv, hc, hm⟩ := ih
    rw [List.range_succ, List.foldl_append]
    refine ⟨fun i hi => ?_, hc, hm⟩
    by_cases e : i = n
    · subst e
      exact State.fld_setFld_same _ _ _ (hw i)
    · exact (State.fld_setFld_addr _ _ _ _ fun h => e (hf i n h)).trans (hv i (by omega))

/-! ## Steps and actions (R38, R46) -/

theorem State.stepTo_clk (s : State) (t kind : Nat) : (s.stepTo t kind).clk = t := by
  unfold State.stepTo
  rw [State.log_clk]
  rfl

theorem State.timeSet_steps {s : State} (h : s.stepGate true = 0) : s.timeSet.clk =
    wrapTime (((s.fld (F.TIME_SET_VALUE 0) * 2 ^ 32 + s.fld (F.TIME_SET_VALUE 1)) * secU +
      s.fld (F.TIME_SET_VALUE 2) % 2 ^ 30 * nsU : Nat) : Int) := by
  unfold State.timeSet
  rw [h]
  exact s.stepTo_clk _ _

theorem State.timeAdj_steps {s : State} (h : s.stepGate true = 0) : s.timeAdj.clk =
    wrapTime ((s.clk : Int) + sext 32 (s.fld F.TIME_ADJ_ADJ_NS) * (nsU : Nat)) := by
  unfold State.timeAdj
  rw [h]
  exact s.stepTo_clk _ _

theorem State.timeSet_ignored {s : State} (h : s.stepGate true ≠ 0) :
    s.timeSet = s.setFld F.TIME_STAT_CTRL_IGN (s.stepGate true) := by
  unfold State.timeSet
  split
  next h0 => exact absurd h0 h
  next => rfl

theorem State.timeAdj_ignored {s : State} (h : s.stepGate true ≠ 0) :
    s.timeAdj = s.setFld F.TIME_STAT_CTRL_IGN (s.stepGate true) := by
  unfold State.timeAdj
  split
  next h0 => exact absurd h0 h
  next => rfl

theorem State.reacquire_ignored {s : State} (h : s.stepGate false ≠ 0) :
    s.reacquire = s.setFld F.TIME_STAT_CTRL_IGN (s.stepGate false) := by
  unfold State.reacquire
  split
  next h0 => exact absurd h0 h
  next => rfl

theorem State.reacquire_acquires {s : State} (h : s.stepGate false = 0) (hs : s.timeState = stHoldover) :
    s.reacquire = s.enterState stAcquiring := by
  unfold State.reacquire
  rw [h]
  exact if_pos hs

/-- The captured words are those of one instant. -/
theorem State.timeSnap_captures (s : State) :
    s.timeSnap.clk = s.clk ∧ s.timeSnap.fld (F.TIME_SNAP_VALUE 0) = timeSec s.clk / 2 ^ 32 % 2 ^ 32 ∧
      s.timeSnap.fld (F.TIME_SNAP_VALUE 1) = timeSec s.clk % 2 ^ 32 % 2 ^ 32 ∧
      s.timeSnap.fld (F.TIME_SNAP_VALUE 2) = timeNs s.clk % 2 ^ 32 ∧
      s.timeSnap.fld (F.TIME_SNAP_VALUE 3) = timeFrac s.clk % 2 ^ 32 ∧
      s.timeSnap.fld (F.TIME_SNAP_VALUE 4) = s.tm.curFrame / 2 ^ 32 % 2 ^ 32 ∧
      s.timeSnap.fld (F.TIME_SNAP_VALUE 5) = s.tm.curFrame % 2 ^ 32 % 2 ^ 32 ∧
      s.timeSnap.fld (F.TIME_SNAP_VALUE 6) = s.curPhase % 2 ^ 32 := by
  obtain ⟨hv, hc, -⟩ := State.foldl_setFld (f := F.TIME_SNAP_VALUE)
    (v := ([timeSec s.clk / 2 ^ 32, timeSec s.clk % 2 ^ 32, timeNs s.clk, timeFrac s.clk, s.tm.curFrame / 2 ^ 32,
      s.tm.curFrame % 2 ^ 32, s.curPhase].getD · 0))
    (fun i j h => by simp only [F.TIME_SNAP_VALUE] at h; omega) (fun _ => Nat.le_refl 32) 7 s
  exact ⟨hc, hv 0 (by decide), hv 1 (by decide), hv 2 (by decide), hv 3 (by decide), hv 4 (by decide), hv 5 (by decide),
    hv 6 (by decide)⟩

/-- Settles O38: a write of the source moves the state by the source it leaves in force; the actions are their functions,
by the gate of R46. -/
theorem clockWritesComplete : Obligations.ClockWritesComplete := by
  have land {s : State} (h : s.lands = true) (f : State → State) :
      Host.Outcome.next (s.landed f) = (Host.Outcome.next (f s) : Host.Outcome State Fault Refusal) :=
    congrArg _ (s.landed_of_lands h f)
  refine ⟨fun s v h => ⟨_, land h _, ?_⟩, fun s h => ⟨⟨_, land h _, ?_⟩, fun hg => ⟨_, land h _, State.timeSet_steps hg⟩,
    fun hg => ⟨_, land h _, State.timeAdj_steps hg⟩, fun hg => ⟨(land h _).trans ?_, (land h _).trans ?_⟩,
    fun hst hg => ⟨_, land h _, ?_⟩, fun hg => (land h _).trans ?_, ⟨_, land h _, ?_⟩⟩⟩
  · obtain ⟨hs, ht⟩ := s.writeReg_source noSlot v
    rw [hs, ht]
    refine ⟨fun hm hv => ?_, fun he => if_pos he, fun he => if_neg he, fun h3 h5 => if_pos ⟨h3, h5⟩⟩
    unfold State.sourceAfter
    rw [if_neg (by omega), if_neg (by omega)]
  · have hc := s.timeSnap_captures
    rwa [Nat.mod_mod, Nat.mod_mod] at hc
  · rw [State.timeSet_ignored hg]
  · rw [State.timeAdj_ignored hg]
  · rw [State.reacquire_acquires hg hst]
    exact ⟨s.enterState_timeState (by decide), s.enterState_acquiring_root⟩
  · rw [State.reacquire_ignored hg]
  · exact State.foldl_setFld (f := F.TIME_CNT_COUNT) (v := fun _ => 0)
      (fun i j h => by simp only [F.TIME_CNT_COUNT] at h; omega) (fun _ => Nat.le_refl 32) 8 s

end Sys2Proof.Machine
end

section
/-! What neither time nor packets notice: the relation under which a tick's work, and a wingbeat's, leave a state. -/

namespace Sys2Proof.Machine

open Sys2Proof

/-- The clock, the ticks, the packets that wait, the sessions, the transactions and a wingbeat that is due stay; and so,
where `M` holds, do memory and a join. -/
structure Paced (M : Prop) (s t : State) : Prop where
  clk : t.clk = s.clk
  tick : t.tick = s.tick
  pending : t.pending = s.pending
  sess : t.cmd.sess = s.cmd.sess
  txn : t.txn = s.txn
  beatAt : t.tm.beatAt = s.tm.beatAt
  mem : M → t.mem = s.mem
  join : M → t.red.join = s.red.join

namespace Paced
variable {M : Prop} {s t u : State} {α : Type}

theorem refl : Paced M s s := ⟨rfl, rfl, rfl, rfl, rfl, rfl, fun _ => rfl, fun _ => rfl⟩

theorem trans (h : Paced M s t) (h' : Paced M t u) : Paced M s u :=
  ⟨h'.clk.trans h.clk, h'.tick.trans h.tick, h'.pending.trans h.pending, h'.sess.trans h.sess, h'.txn.trans h.txn,
    h'.beatAt.trans h.beatAt, fun m => (h'.mem m).trans (h.mem m), fun m => (h'.join m).trans (h.join m)⟩

theorem ite {c : Prop} [Decidable c] {a b : State} (ha : Paced M s a) (hb : Paced M s b) :
    Paced M s (if c then a else b) := by
  split <;> assumption

/-- A further step under a condition. -/
theorem iteOn {c : Prop} [Decidable c] {a b : State} (ha : Paced M s b → Paced M s a) (hb : Paced M s b) :
    Paced M s (if c then a else b) := .ite (ha hb) hb

theorem foldl {f : State → α → State} {l : List α} (hf : ∀ t i, Paced M s t → Paced M s (f t i)) (h : Paced M s t) :
    Paced M s (l.foldl f t) := by
  induction l generalizing t with
  | nil => exact h
  | cons i l ih => exact ih (hf t i h)

theorem ofPair {β : Type} {p : β × State} {y : β} (e : p = (y, t)) (h : Paced M s p.2) : Paced M s t := by
  subst e
  exact h

/-- What writes none of the parts followed leaves them. -/
theorem same {regs sys sec err fab cdc ring memc eth ing cmp lnk tile rnd out} (h : Paced M s t) :
    Paced M s ⟨regs, t.mem, t.clk, t.tick, sys, sec, t.tm, t.cmd, t.txn, err, fab, cdc, ring, memc, eth, ing, cmp, lnk,
      tile, t.red, rnd, out, t.pending⟩ := { h with }

theorem setFld {f v} (h : Paced M s t) : Paced M s (t.setFld f v) := .same h

theorem updTm {f : TimeSt → TimeSt} (hf : (f t.tm).beatAt = t.tm.beatAt) (h : Paced M s t) : Paced M s (t.updTm f) :=
  { h with beatAt := hf.trans h.beatAt }

theorem updRed {f : RedSt → RedSt} (hf : M → (f t.red).join = t.red.join) (h : Paced M s t) : Paced M s (t.updRed f) :=
  { h with join := fun m => (hf m).trans (h.join m) }

theorem updCmd {f : CmdSt → CmdSt} (hf : (f t.cmd).sess = t.cmd.sess) (h : Paced M s t) : Paced M s (t.updCmd f) :=
  { h with sess := hf.trans h.sess }

theorem log {n d p} (h : Paced M s t) : Paced M s (t.log n d p) :=
  h.trans ⟨t.log_clk n d p, t.log_tick n d p, t.log_pending n d p, congrArg _ (t.log_cmd n d p), t.log_txn n d p,
    congrArg _ (t.log_tm n d p), fun _ => t.log_mem n d p, fun _ => congrArg _ (t.log_red n d p)⟩

/-! ### Links -/

/-- The receive buffers in which cells stand are freed. -/
theorem freeAll {l : List QCell} (h : Paced M s t) : Paced M s (l.foldl (fun (t : State) e => match e.frees with
    | some a => t.freeCredits a.toNat e.cell
    | none => t) t) := by
  refine .foldl (fun _ _ ht => ?_) h
  split
  · exact .ite ht (.same ht)
  · exact ht

theorem portDown {q st} (h : Paced M s t) : Paced M s (t.portDown q st) := by
  unfold State.portDown
  extract_lets gone t1 t2 _ t3 t4 t5 _
  have h4 : Paced M s t4 := .setFld (.setFld (.same (.setFld (.freeAll h))))
  exact .same (.setFld (.same (.ite (.setFld h4) h4)))

theorem calIdle (h : Paced M s t) : Paced M s t.calIdle := by
  unfold State.calIdle
  exact .setFld h

theorem abortCal {q} (h : Paced M s t) : Paced M s (t.abortCal q) :=
  .ite (.ite (.ite (.same (.same h)) (.setFld (.calIdle (.same (.same h))))) (.same h)) h

theorem loadTaps {q} (h : Paced M s t) : Paced M s (t.loadTaps q) :=
  .foldl (fun _ _ h => .ite (.same (.same h)) (.same h)) (.same h)

theorem leaveActive {q cause} (h : Paced M s t) : Paced M s (t.leaveActive q cause) := by
  unfold State.leaveActive
  extract_lets t1 width t2 t3 t4 t5 t6 t7
  have h2 : Paced M s t2 := .same (.iteOn (fun h => .loadTaps (.abortCal h)) h)
  have h6 : Paced M s t6 := .updTm rfl (.same (.same (.same h2)))
  exact .ite (.log (.same (.same (.same h6)))) (.portDown (.updTm rfl h2))

theorem startReplay {q k} (h : Paced M s t) : Paced M s (t.startReplay q k) :=
  .ite h (.iteOn .leaveActive (.same (.same h)))

theorem sendFrame {q} (h : Paced M s t) : Paced M s (t.sendFrame q) := by
  unfold State.sendFrame
  extract_lets n t1
  have h1 : Paced M s t1 := .iteOn .startReplay h
  exact .ite h1 (.same (.same h1))

theorem sendDue (h : Paced M s t) : Paced M s t.sendDue :=
  .foldl (fun _ _ h => .ite (.same (.sendFrame h)) h) h

/-! ### Domains in reset and the ring -/

theorem linkUp {m up fec} (h : Paced M s t) : Paced M s (t.linkUp m up fec) := .same (.same (.iteOn .same h))

theorem restartPorts {ms} (h : Paced M s t) : Paced M s (t.restartPorts ms) :=
  .foldl (fun _ _ h => .same (.linkUp h)) h

theorem statusLost {kind} (h : Paced M s t) : Paced M s (t.statusLost kind) :=
  .ite (.restartPorts h) (.ite (.foldl (fun _ _ h => .same (.same h)) (.same h)) (.ite (.same h) h))

theorem crossingsLost {kind} (h : Paced M s t) : Paced M s (t.crossingsLost kind) :=
  .foldl (fun _ _ h => .same h) (.statusLost h)

theorem domainHold {kind} (h : Paced M s t) : Paced M s (t.domainHold kind) :=
  .same (.same (.same (.same (.iteOn (fun h => .same (.same h)) (.crossingsLost h)))))

theorem domainDue (h : Paced M s t) : Paced M s t.domainDue := .ite h (.foldl (fun _ _ h => .domainHold h) h)

theorem ringSend (h : Paced M s t) : Paced M s t.ringSend := by
  unfold State.ringSend
  extract_lets own
  refine .ite h (.ite ?_ ?_)
  · split
    · exact .same (.same h)
    · exact h
  · split
    · exact .same (.same h)
    · exact h

/-! ### Memory served -/

theorem accountWord {cl w} (h : Paced M s t) : Paced M s (t.accountWord cl w) := by
  have limit {key max} {v : State} (hv : Paced M s v) : Paced M s (v.limit key max).2 := by
    unfold State.limit
    extract_lets sec n
    split
    · exact .same hv
    · exact hv
  have counted (pl : Place) (f : Nat → Fld) (g : Fld) :
      Paced M s (match pl with | .dram c => t.bump (f c) | _ => t.bump g) := by
    split <;> exact .same h
  fun_cases State.accountWord
  case case1 | case4 => exact h
  case case2 => exact .log (.ofPair ‹_› (limit (counted _ _ _)))
  case case3 => exact .ofPair ‹_› (limit (counted _ _ _))
  case case5 => exact .log (.same (.ofPair ‹_› (limit (counted _ _ _))))
  case case6 => exact .same (.ofPair ‹_› (limit (counted _ _ _)))

theorem serve {cl a n} (h : Paced M s t) : Paced M s (t.serve cl a n) := .foldl (fun _ _ h => .ite (.same h) h) h

theorem accountRead {cl a n} (h : Paced M s t) : Paced M s (t.accountRead cl a n) :=
  .serve (.same (.foldl (fun _ _ h => .accountWord h) h))

theorem servePump (h : Paced M s t) : Paced M s t.servePump := by
  fun_cases State.servePump
  case case1 => exact h
  case case2 => exact .updRed (fun _ => rfl) h
  case case3 => exact .same (.updRed (fun _ => rfl) h)
  case case4 => exact .updRed (fun _ => rfl) h
  case case5 => exact h
  case case6 =>
    exact .updRed (fun _ => rfl) (.foldl (fun _ _ h => .same (.same h)) (.same (.accountRead h)))
  case case7 => exact .updRed (fun _ => rfl) (.same h)
  case case8 => exact h

theorem moverTick (h : Paced M s t) : Paced M s t.moverTick := .updCmd rfl h

/-! ### Memory written -/

theorem noteWrite {a n} (h : Paced M s t) : Paced M s (t.noteWrite a n) := by
  unfold State.noteWrite
  extract_lets meets t1
  have h1 : Paced M s t1 := .foldl (fun _ _ h => .ite (.same (.same (.same (.same h)))) h) h
  split
  · exact .ite { h1 with } h1
  · exact h1

theorem dropScrub {cl w} (h : Paced M s t) : Paced M s (t.dropScrub cl w) := by
  unfold State.dropScrub
  extract_lets hit gone t1
  refine .ite h ?_
  split
  · exact .same (.same h)
  · exact .same (.same (.same h))

theorem storeWord {w d p} (hM : ¬ M) (h : Paced M s t) : Paced M s (t.storeWord w d p) := by
  unfold State.storeWord
  extract_lets t1 t2
  have h1 : Paced M s t1 := .foldl (fun _ _ h => { h with mem := (absurd · hM) }) h.noteWrite
  refine .ite ?_ (.same h1)
  split
  · exact .same (.same h1)
  · exact .same (.same h1)
  · exact .same h1

theorem putWord {cl w d p} (hM : ¬ M) (h : Paced M s t) : Paced M s (t.putWord cl w d p) := by
  fun_cases State.putWord
  case case1 => exact .iteOn .same (.dropScrub h)
  case case2 => exact .same (.storeWord hM (.iteOn .same (.dropScrub h)))
  case case3 => exact .storeWord hM (.dropScrub h)

theorem joinWrite {a data} (hM : ¬ M) (h : Paced M s t) : Paced M s (t.joinWrite a data) := by
  have written : Paced M s ((((List.range data.length).zip data).foldl (fun (t : State) e =>
      let b := a + 8 * e.1
      if t.mayAccess .bulk b then t.putWord .bulk b (if e.2.2 then 0 else e.2.1) e.2.2 else t) t).serve .bulk a
        (8 * data.length)) := .serve (.foldl (fun _ _ h => .iteOn (.putWord hM) h) h)
  fun_cases State.joinWrite
  case case1 => exact .updCmd rfl (.updRed (absurd · hM) written)
  case case2 => exact written

theorem joinHold (hM : ¬ M) (h : Paced M s t) : Paced M s t.joinHold := by
  fun_cases State.joinHold
  case case1 => exact h
  case case2 => exact .same (.updRed (absurd · hM) h)
  case case3 => exact h

/-- Where no join is under way its work is none. -/
theorem joinWork (hM : M → t.red.join = none) (h : Paced M s t) : Paced M s t.joinWork := by
  unfold State.joinWork
  split
  next j hj =>
    have hM' : ¬ M := fun m => Option.some_ne_none j (hj.symm.trans (hM m))
    have executed {l : List (Nat × List (BitVec 64 × Bool))}
        {p : State × List (Nat × List (BitVec 64 × Bool))} (hp : Paced M s p.1) :
        Paced M s (l.foldl (fun (acc : State × List (Nat × List (BitVec 64 × Bool))) e =>
          if acc.2 ≠ [] ∨ acc.1.memWaits e.1 (8 * e.2.length) true then (acc.1, acc.2 ++ [e])
          else (acc.1.joinWrite e.1 e.2, [])) p).1 := by
      induction l generalizing p with
      | nil => exact hp
      | cons e l ih =>
        refine ih ?_
        dsimp only
        split
        · exact hp
        · exact hp.joinWrite hM'
    exact .joinHold hM' (.updRed (absurd · hM') (executed h))
  · exact h

/-- Where the scrubber has nothing to write back nothing is written back. -/
theorem scrubFlush (hM : M → t.memc.scrubBack = []) (h : Paced M s t) : Paced M s t.scrubFlush := by
  unfold State.scrubFlush
  extract_lets due t1 t2
  split
  · exact h
  next hdue =>
    have hM' : ¬ M := fun m => hdue (by simp [due, hM m])
    refine .foldl (fun _ _ h => .serve h) (.foldl (fun _ _ h => ?_) (.same h))
    refine .ite (.storeWord hM' ?_) h
    split <;> exact .same h

end Paced

/-- What gives the clock its next time, beside the time itself: the supply and the rate (R37, R444). -/
structure RateKept (s t : State) : Prop where
  sys : t.sys = s.sys
  word : t.word F.TIME_RATE_RATE.addr = s.word F.TIME_RATE_RATE.addr

namespace RateKept
variable {s t : State} {α : Type}

theorem refl : RateKept s s := ⟨rfl, rfl⟩

theorem inc (h : RateKept s t) : t.inc = s.inc := by
  unfold State.inc
  rw [State.fld_congr h.word]

theorem ite {c : Prop} [Decidable c] {a b : State} (ha : RateKept s a) (hb : RateKept s b) :
    RateKept s (if c then a else b) := by
  split <;> assumption

theorem foldl {f : State → α → State} {l : List α} (hf : ∀ t i, RateKept s t → RateKept s (f t i))
    (h : RateKept s t) : RateKept s (l.foldl f t) := by
  induction l generalizing t with
  | nil => exact h
  | cons i l ih => exact ih (hf t i h)

theorem setFld {f v} (hf : 0x30000 ≤ f.addr) (h : RateKept s t) : RateKept s (t.setFld f v) :=
  ⟨h.sys, (State.word_setFld_other _ _ _ (by simp only [F.TIME_RATE_RATE]; omega)).trans h.word⟩

/-- The count of a word's place is one of memory. -/
theorem counted {p : Place} {k j n : Nat} (h : RateKept s t) :
    RateKept s (match p with | .dram c => t.bump (F.MEM_CH_CNT_COUNT c k) n | _ => t.bump (F.MEM_SP_CNT_COUNT j) n) := by
  split
  · exact .setFld (by simp only [F.MEM_CH_CNT_COUNT]; omega) h
  · exact .setFld (by simp only [F.MEM_SP_CNT_COUNT]; omega) h

theorem serve {cl a n} (h : RateKept s t) : RateKept s (t.serve cl a n) :=
  .foldl (fun _ _ h => .ite (.setFld (by simp only [F.MEM_CLS_CNT_COUNT]; omega) h) h) h

theorem noteWrite {a n} (h : RateKept s t) : RateKept s (t.noteWrite a n) := by
  have table {v : State} {k : Nat} (hv : RateKept s v) : RateKept s (v.tblInvalidate k) :=
    .setFld (by simp only [F.LCR_TBL_CRC_BODY_CRC]; omega) (.setFld (by simp only [F.LCR_TBL_GEOM_SH]; omega)
      (.setFld (by simp only [F.LCR_TBL_GEOM_SW]; omega) (.setFld (by decide) hv)))
  unfold State.noteWrite
  extract_lets meets t1
  have h1 : RateKept s t1 := .foldl (fun _ _ h => .ite (table h) h) h
  split
  · exact .ite ⟨h1.sys, h1.word⟩ h1
  · exact h1

theorem storeWord {w d p} (h : RateKept s t) : RateKept s (t.storeWord w d p) := by
  unfold State.storeWord
  extract_lets t1 _ t2
  have h1 : RateKept s t1 := .foldl (fun _ _ h => ⟨h.sys, h.word⟩) h.noteWrite
  have h2 : RateKept s t2 := ⟨h1.sys, h1.word⟩
  refine .ite ?_ h2
  split
  · exact .setFld (by simp only [F.MEM_CH_CNT_COUNT]; omega) h2
  · exact .setFld (by decide) h2
  · exact h2

theorem scrubFlush (h : RateKept s t) : RateKept s t.scrubFlush := by
  unfold State.scrubFlush
  extract_lets due _ t1 t2
  have h1 : RateKept s t1 := ⟨h.sys, h.word⟩
  exact .ite h (.foldl (fun _ _ h => .serve h) (.foldl (fun _ _ h => .ite (.storeWord (.counted h)) h) h1))

theorem ethWait (h : RateKept s t) : RateKept s t.ethWait := .ite h ⟨h.sys, h.word⟩

end RateKept

/-- The tick's own part (R36, R37): one tick more, and the clock on by its increment while there is a supply. -/
def State.ticked (s : State) : State :=
  { s with tick := s.tick + 1, clk := if s.sys.pwrOff then s.clk else wrapTime ((s.clk + s.inc : Nat) : Int) }

/-- Settles O2: the write-backs and the waits before the tick, and the work after it, notice no time; the scrubber and a
join alone write memory. -/
theorem idleStepIsOneTick : Obligations.IdleStepIsOneTick := by
  intro s hp
  have before : Paced (s.memc.scrubBack = []) s s.scrubFlush.ethWait :=
    .ite (.scrubFlush id .refl) (.same (.scrubFlush id .refl))
  have rate : RateKept s s.scrubFlush.ethWait := .ethWait (.scrubFlush .refl)
  generalize hu : s.scrubFlush.ethWait = u at before rate
  have after : Paced (u.red.join = none) u.ticked s.advance := by
    have h : Paced (u.red.join = none) u.ticked u.ticked.sendDue.domainDue.ringSend.moverTick.servePump :=
      .servePump (.moverTick (.ringSend (.domainDue (.sendDue .refl))))
    have e : s.advance = u.ticked.sendDue.domainDue.ringSend.moverTick.servePump.joinWork := hu ▸ rfl
    rw [e]
    exact h.joinWork fun m => (h.join m).trans m
  refine ⟨s.advance, ?_, ?_, ?_, ?_, ?_, ?_, fun hs hj => ?_⟩
  · unfold step
    rw [hp]
  · rw [after.tick, show u.ticked.tick = u.tick + 1 from rfl, before.tick]
  · rw [after.clk, show u.ticked.clk = if u.sys.pwrOff then u.clk else wrapTime ((u.clk + u.inc : Nat) : Int) from rfl,
      before.clk, rate.sys, rate.inc]
  · exact after.txn.trans before.txn
  · exact after.sess.trans before.sess
  · exact after.pending.trans (before.pending.trans hp)
  · exact (after.mem ((before.join hs).trans hj)).trans (before.mem hs)

end Sys2Proof.Machine
end

section
/-! Lamp chains: loads, reports, the return line and measurements (R307, R308, R318, R320, R321). -/

namespace Sys2Proof.Machine

open Sys2Proof

/-! ### One chain -/

theorem State.chain_updChain_same (s : State) {c : Nat} (f : Chain → Chain) (hc : c < s.tile.chains.length) :
    (s.updChain c f).chain c = f (s.chain c) := by
  simp [State.chain, State.updChain, State.updTile, List.getD_eq_getElem?_getD, hc]

@[simp] theorem State.chains_length_updChain (s : State) (c : Nat) (f : Chain → Chain) :
    (s.updChain c f).tile.chains.length = s.tile.chains.length := List.length_modify ..

theorem State.updChain_updChain (s : State) (c : Nat) (f g : Chain → Chain) :
    (s.updChain c f).updChain c g = s.updChain c (g ∘ f) := by
  simp [State.updChain, State.updTile, List.modify_modify_eq]

/-- A record changes no lamp chain. -/
theorem State.chain_log (s : State) (n : RecName) (d : List Byte) (p c : Nat) : (s.log n d p).chain c = s.chain c := by
  unfold State.chain
  rw [State.log_tile]

theorem State.chain_setFld (s : State) (f : Fld) (v c : Nat) : (s.setFld f v).chain c = s.chain c := by
  unfold State.chain
  rw [State.setFld_tile]

/-! ### Loads (R318) -/

theorem State.sendLoad_drivers (s : State) {c : Nat} (phase arg : Nat) (shares : List (List (BitVec 16))) (first : Nat)
    (hc : c < s.tile.chains.length) : ((s.sendLoad c phase arg shares first).chain c).drivers = (s.chain c).drivers := by
  unfold State.sendLoad
  dsimp only
  rw [State.chain_updChain_same _ _ (by exact hc)]
  rfl

/-- A configuration load that is due, on a chain at rest. -/
theorem State.configLoad_sends {s : State} {c : Nat} (hl : s.lampsOn = true) (hd : (s.chain c).cfgDue = true)
    (hdr : s.driven s.tblForce c = true) (he : (s.chain c).loadEnd ≤ s.tick) (ht : (s.chain c).timedEnd ≤ (s.clk : Int))
    (hm : (s.chain c).measuring = false) (hc : c < s.tile.chains.length) :
    ((s.configLoad c).chain c).cfgDue = false ∧ (s.configLoad c).regs = s.regs ∧ (s.configLoad c).mem = s.mem ∧
      (s.configLoad c).out.length = s.out.length + 1 ∧
      ∀ d, d < s.tblForce.drivers c → d < (s.chain c).drivers.length →
        (((s.configLoad c).chain c).driver d).sent = ((s.chain c).driver d).trim := by
  unfold State.configLoad
  extract_lets h k sent
  rw [if_neg (by simp only [h, hl, hd, hdr, hm, not_true_eq_false, false_or, or_false, Bool.false_eq_true]; omega),
    State.chain_updChain_same _ _ (by simpa [sent, State.sendLoad] using hc)]
  have hs : (sent.chain c).drivers = (s.chain c).drivers := s.sendLoad_drivers _ _ _ _ hc
  refine ⟨rfl, rfl, rfl, rfl, fun d hk hd' => ?_⟩
  simp only [Chain.driver, hs, List.getD_eq_getElem?_getD, List.getElem?_mapIdx]
  simp [hd', k, hk]

/-! ### Reports (R320, R321) -/

theorem State.word_congr {s t : State} (h : t.regs = s.regs) (a : Nat) : t.word a = s.word a :=
  congrArg (sparseGet resetWord · a) h

theorem State.limit_keeps (s : State) (key max : Nat) :
    (s.limit key max).2.tile = s.tile ∧ (s.limit key max).2.tick = s.tick ∧ (s.limit key max).2.regs = s.regs ∧
      (s.limit key max).2.mem = s.mem := by
  unfold State.limit
  extract_lets sec n
  split <;> exact ⟨rfl, rfl, rfl, rfl⟩

theorem State.reportErr_keeps (s : State) (c d k : Nat) :
    (s.reportErr c d k).tile = s.tile ∧ (s.reportErr c d k).tick = s.tick ∧ (s.reportErr c d k).mem = s.mem ∧
      ∀ a, a / 0x10000 ≠ 9 → a / 0x10000 ≠ 0xF → a ≠ (F.LDR_CHAIN_STAT_REPORT_ERR c).addr →
        (s.reportErr c d k).word a = s.word a := by
  unfold State.reportErr
  extract_lets marked
  obtain ⟨ht, hk, hr, hm⟩ := marked.limit_keeps (3220000 + c) 1
  split
  next ok u e =>
    rw [e] at ht hk hr hm
    have hw (a : Nat) (ha : a ≠ (F.LDR_CHAIN_STAT_REPORT_ERR c).addr) : u.word a = s.word a := by
      rw [State.word_congr hr]
      exact State.word_setFld_other _ _ _ ha
    split
    · exact ⟨(State.log_tile ..).trans (ht.trans (s.setFld_tile ..)), (State.log_tick ..).trans (hk.trans (s.setFld_tick ..)),
        (State.log_mem ..).trans (hm.trans (s.setFld_mem ..)), fun a h9 hF ha =>
        (State.log_word_block _ _ _ (by decide) h9 hF).trans (hw a ha)⟩
    · exact ⟨ht.trans (s.setFld_tile ..), hk.trans (s.setFld_tick ..), hm.trans (s.setFld_mem ..), fun a _ _ ha => hw a ha⟩

/-- A report that ends leaves its chain without one, else as it was. -/
theorem State.endReport_chain (s : State) {c : Nat} (hc : c < s.tile.chains.length) :
    (s.endReport c).chain c = { s.chain c with report := none } ∧
      (s.endReport c).tile.chains.length = s.tile.chains.length ∧ (s.endReport c).tick = s.tick := by
  have ended := s.chain_updChain_same (fun h => { h with report := none }) hc
  unfold State.endReport
  split
  next r hr =>
    generalize (List.range (s.fld (F.LDR_CHAIN_STAT_DETECTED c))).find? (fun d => !r.got.contains d) = miss
    cases miss with
    | some d =>
      obtain ⟨ht, hk, -⟩ := (s.updChain c fun h => { h with report := none }).reportErr_keeps c d 4
      exact ⟨(congrArg (fun t : TileSt => t.chains.getD c {}) ht).trans ended,
        (congrArg (fun t : TileSt => t.chains.length) ht).trans (s.chains_length_updChain ..), hk⟩
    | none => exact ⟨ended, s.chains_length_updChain .., rfl⟩
  next hr => exact ⟨by rw [← hr], rfl, rfl⟩

/-- REPORT goes out on a chain at rest whose report is due: a report that still runs ends with it. -/
theorem State.reportSend_asks {s : State} {c : BitVec 7} {x : Int} {f : Nat} (hl : s.lampsOn = true)
    (hr : (s.chain c.toNat).reportDue = some (x, f)) (hd : s.driven s.tblForce c.toNat = true) (hx : x ≤ (s.clk : Int))
    (he : (s.chain c.toNat).loadEnd ≤ s.tick) (hli : (s.chain c.toNat).lineEnd ≤ s.tick)
    (hc : c.toNat < s.tile.chains.length)
    (hw : ∀ w, s.tile.lastWindow = some w → s.lineFrom s.tblForce w.1 w.2 c.toNat s.tick (burstTicks 1) = s.tick) :
    ((s.chain c.toNat).returnTick + 1500 ≤ s.tick → (s.chain c.toNat).measuring = false →
      ((s.reportSend c.toNat).chain c.toNat).reportDue = none ∧
        ((s.reportSend c.toNat).chain c.toNat).report = some { c0 := s.tblForce.drivers c.toNat - 1, latchFrame := f } ∧
        (s.reportSend c.toNat).out.head? =
          some (.lampBurst c s.tick [typedWord ldReport 0 (s.tblForce.drivers c.toNat - 1) 0])) ∧
    (s.tick < (s.chain c.toNat).returnTick + 1500 →
      ((s.reportSend c.toNat).chain c.toNat).reportDue = none ∧ (s.reportSend c.toNat).out = s.out ∧
        (s.reportSend c.toNat).fld (F.LDR_CNT_COUNT 10) = min (s.fld (F.LDR_CNT_COUNT 10) + 1) (2 ^ 32 - 1)) := by
  have near : (s.tile.lastWindow.all fun w =>
      s.lineFrom s.tblForce w.1 w.2 c.toNat s.tick (burstTicks 1) == s.tick) = true := by
    cases h : s.tile.lastWindow with
    | none => rfl
    | some w => exact beq_iff_eq.mpr (hw w h)
  unfold State.reportSend
  dsimp only
  rw [hr]
  dsimp only
  rw [if_neg (by simp only [near, hl, hd, not_true_eq_false, false_or, or_false, reduceCtorEq]; omega)]
  have hu := s.chain_updChain_same (fun h => { h with reportDue := none }) hc
  have hlen := s.chains_length_updChain c.toNat fun h => { h with reportDue := none }
  have hk : (s.updChain c.toNat fun h => { h with reportDue := none }).tick = s.tick := rfl
  have hf : (s.updChain c.toNat fun h => { h with reportDue := none }).tblForce = s.tblForce := rfl
  have hcnt := State.fld_bump_same (s.updChain c.toNat fun h => { h with reportDue := none }) (F.LDR_CNT_COUNT 10) 1 (by decide)
  rw [hk, hf]
  refine ⟨fun hidle hm => ?_, fun hbusy => ?_⟩
  · rw [if_neg (by simp only [hm, Bool.false_eq_true, or_false]; omega)]
    generalize (s.updChain c.toNat fun h => { h with reportDue := none }) = u at *
    obtain ⟨hch, hlen', hk'⟩ := u.endReport_chain (hlen.symm ▸ hc)
    rw [State.chain_updChain_same _ _ (by exact (hlen'.trans hlen).symm ▸ hc)]
    refine ⟨?_, rfl, ?_⟩
    · exact (congrArg Chain.reportDue hch).trans (congrArg Chain.reportDue hu)
    · change some (Out.lampBurst (BitVec.ofNat 7 c.toNat) (u.endReport c.toNat).tick _) = _
      rw [hk', hk, BitVec.ofNat_toNat, BitVec.setWidth_eq]
  · rw [if_pos (.inl hbusy)]
    exact ⟨congrArg Chain.reportDue hu, rfl, hcnt⟩

/-! ### The return line (R301, R302, R321) -/

/-- A symbol of nominal timing is read as itself, and does not end its burst. -/
theorem classify_nominal (x : LdSymbol) :
    classify (BitVec.ofNat 16 (16 * x.high)).toNat (BitVec.ofNat 16 (16 * x.low)).toNat = some (x, false) := by
  cases x <;> decide

/-- A burst of nominal timing is its symbols one by one. -/
theorem State.returnBurst_nominal {s : State} (hl : s.lampsOn = true) (c : Nat) (l : List LdSymbol) :
    s.returnBurst c (nominalEdges l) = l.foldl (fun (t : State) x => t.returnSymbol c x false)
      (s.updChain c fun h => { h with returnTick := s.tick }) := by
  unfold State.returnBurst nominalEdges
  rw [if_neg (not_not_intro hl), List.foldl_map]
  congr 1
  funext t x
  rw [classify_nominal]

/-- The symbol of a bit. -/
def bitSymbol (b : Bool) : LdSymbol := if b then .d1 else .d0

/-- A chain's return line as something has just arrived there: the words since a SYNC and the bits behind them. -/
def State.lineHeld (s : State) (c : Nat) (ws : Option (List (BitVec 16))) (bits : List Bool) : State :=
  s.updChain c fun h => { h with returnTick := s.tick, rxWords := ws, rxBits := bits }

section
variable {s : State} {c : Nat} {ws : Option (List (BitVec 16))} {bits : List Bool}

theorem State.chain_lineHeld (hc : c < s.tile.chains.length) :
    (s.lineHeld c ws bits).chain c = { s.chain c with returnTick := s.tick, rxWords := ws, rxBits := bits } :=
  s.chain_updChain_same _ hc

theorem State.lineHeld_anew (ws' : Option (List (BitVec 16))) (bits' : List Bool) :
    ((s.lineHeld c ws bits).updChain c fun h => { h with rxWords := ws', rxBits := bits' }) = s.lineHeld c ws' bits' :=
  s.updChain_updChain ..

/-- A bit that does not yet fill a word is kept. -/
theorem State.returnSymbol_kept (hc : c < s.tile.chains.length) (b : Bool) (h : (bits ++ [b]).length < 16) :
    (s.lineHeld c ws bits).returnSymbol c (bitSymbol b) false = s.lineHeld c ws (bits ++ [b]) := by
  have hb : ((s.lineHeld c ws bits).chain c).rxBits = bits := congrArg Chain.rxBits (State.chain_lineHeld hc)
  have kept : (s.lineHeld c ws bits).returnSymbol c (bitSymbol b) false = (s.lineHeld c ws bits).updChain c fun h =>
      { h with rxBits := ((s.lineHeld c ws bits).chain c).rxBits ++ [b] } := by
    cases b <;> exact if_pos (hb.symm ▸ h)
  rw [kept, hb]
  exact s.updChain_updChain ..

theorem State.returnSymbols_kept (hc : c < s.tile.chains.length) (l : List Bool) :
    ∀ bits : List Bool, bits.length + l.length < 16 →
      (l.map bitSymbol).foldl (fun (t : State) x => t.returnSymbol c x false) (s.lineHeld c ws bits) =
        s.lineHeld c ws (bits ++ l) := by
  induction l with
  | nil => simp
  | cons b l ih =>
    intro bits hlen
    rw [List.length_cons] at hlen
    rw [List.map_cons, List.foldl_cons,
      State.returnSymbol_kept hc b (by rw [List.length_append, List.length_singleton]; omega),
      ih _ (by rw [List.length_append, List.length_singleton]; omega), List.append_assoc, List.singleton_append]

/-- The bit that fills the only word of a burst has it taken. -/
theorem State.returnSymbol_fills (hc : c < s.tile.chains.length) {b : Bool} {w : BitVec 16}
    (hlen : (bits ++ [b]).length = 16) (hb : (bits ++ [b]).foldl (fun a b => 2 * a + b.toNat) 0 = w.toNat)
    (hr : returnWhole [w] = true) :
    (s.lineHeld c (some []) bits).returnSymbol c (bitSymbol b) false = (s.lineHeld c (some []) bits).takeWords c [w] := by
  have hch := State.chain_lineHeld (ws := some []) (bits := bits) hc
  generalize s.lineHeld c (some []) bits = u at hch ⊢
  have hw : (u.chain c).rxWords = some [] := congrArg Chain.rxWords hch
  have hbits : (u.chain c).rxBits = bits := congrArg Chain.rxBits hch
  have taken : (if returnWhole ([] ++ [BitVec.ofNat 16 ((bits ++ [b]).foldl (fun a b => 2 * a + b.toNat) 0)]) then
      u.takeWords c ([] ++ [BitVec.ofNat 16 ((bits ++ [b]).foldl (fun a b => 2 * a + b.toNat) 0)])
      else u.updChain c fun h => { h with
        rxWords := some ([] ++ [BitVec.ofNat 16 ((bits ++ [b]).foldl (fun a b => 2 * a + b.toNat) 0)]), rxBits := [] }) =
      u.takeWords c [w] := by
    rw [hb, BitVec.ofNat_toNat, BitVec.setWidth_eq, List.nil_append, if_pos hr]
  have filled : ¬ ((u.chain c).rxBits ++ [b]).length < 16 := by rw [hbits, hlen]; exact lt_irrefl 16
  cases b <;> exact (if_neg filled).trans (by rw [hw, hbits]; exact taken)

/-- A word taken leaves its chain's line at rest before it is looked at. -/
theorem State.takeWords_at_rest (w : BitVec 16) :
    (s.lineHeld c ws bits).takeWords c [w] =
      if w.toNat / 4096 = ldEnd ∧ parityOf 16 w.toNat = true then (s.lineHeld c none []).returnItem c .endFrame
      else if w.toNat / 4096 = ldEcho ∧ parityOf 16 w.toNat = true then s.lineHeld c none []
      else (s.lineHeld c none []).returnItem c (.record [w]) := by
  unfold State.takeWords
  rw [State.lineHeld_anew]
  rfl

end

/-- Sixteen bits fill a word: the last of them gives it. -/
theorem bits_of_word (w : BitVec 16) (k : Nat) (hk : k ≤ 16) :
    ((List.range k).map fun i => w.getLsbD (15 - i)).foldl (fun a b => 2 * a + b.toNat) 0 = w.toNat / 2 ^ (16 - k) := by
  induction k with
  | zero => exact (Nat.div_eq_of_lt w.isLt).symm
  | succ k ih =>
    rw [List.range_succ, List.map_append, List.foldl_append, ih (by omega)]
    have e : 16 - k = (15 - k) + 1 := by omega
    have hb : (w.getLsbD (15 - k)).toNat = w.toNat / 2 ^ (15 - k) % 2 := by
      rw [BitVec.getLsbD, Nat.toNat_testBit]
    simp only [List.map_cons, List.map_nil, List.foldl_cons, List.foldl_nil, hb, e, Nat.pow_succ, ← Nat.div_div_eq_div_mul,
      show 16 - (k + 1) = 15 - k by omega]
    omega

/-- The bits of a word, in the order in which they arrive. -/
def wordBits (w : BitVec 16) : List Bool := (List.range 15).map fun i => w.getLsbD (15 - i)

theorem wordSymbols_eq (w : BitVec 16) : wordSymbols w = (wordBits w).map bitSymbol ++ [bitSymbol (w.getLsbD 0)] := rfl

/-- A word received alone after a SYNC is taken, on a line that was at rest. -/
theorem State.returnBurst_word {s : State} {c : Nat} {w : BitVec 16} (hl : s.lampsOn = true)
    (hc : c < s.tile.chains.length) (hb : (s.chain c).rxBits = []) (hw : (s.chain c).rxWords = none)
    (hr : returnWhole [w] = true) :
    s.returnBurst c (nominalEdges (burstSymbols [w])) = (s.lineHeld c (some []) (wordBits w)).takeWords c [w] := by
  have hsync : (s.updChain c fun h => { h with returnTick := s.tick }).returnSymbol c .sync false =
      s.lineHeld c (some []) [] := by
    have hch := s.chain_updChain_same (fun h => { h with returnTick := s.tick }) hc
    refine (if_neg (not_not_intro ((congrArg Chain.rxBits hch).trans hb))).trans ?_
    rw [(congrArg Chain.rxWords hch).trans hw]
    exact s.updChain_updChain ..
  have hlen : (wordBits w).length = 15 := by simp [wordBits]
  rw [State.returnBurst_nominal hl, burstSymbols, List.flatMap_singleton, wordSymbols_eq, List.foldl_cons, hsync,
    List.foldl_append, State.returnSymbols_kept hc _ [] (by rw [hlen]; decide), List.nil_append]
  exact State.returnSymbol_fills hc (by rw [List.length_append, hlen]; rfl)
    ((bits_of_word w 16 le_rfl).trans (Nat.div_one _)) hr

/-- What a report in progress takes of a symbol error: the counter, the line's last activity and memory stay. -/
theorem State.reportBroken_keeps (s : State) {c : Nat} (r : ReportRun) (hc : c < s.tile.chains.length) :
    ((s.updChain c fun h => { h with report := some { r with broken := true } }).reportErr c 64 3).fld (F.LDR_CNT_COUNT 7) =
        s.fld (F.LDR_CNT_COUNT 7) ∧
      (((s.updChain c fun h => { h with report := some { r with broken := true } }).reportErr c 64 3).chain c).returnTick =
        (s.chain c).returnTick ∧
      ((s.updChain c fun h => { h with report := some { r with broken := true } }).reportErr c 64 3).mem = s.mem := by
  have hbroken := s.chain_updChain_same (fun h => { h with report := some { r with broken := true } }) hc
  have hfld : (s.updChain c fun h => { h with report := some { r with broken := true } }).fld (F.LDR_CNT_COUNT 7) =
      s.fld (F.LDR_CNT_COUNT 7) := rfl
  have hmem : (s.updChain c fun h => { h with report := some { r with broken := true } }).mem = s.mem := rfl
  generalize (s.updChain c fun h => { h with report := some { r with broken := true } }) = u at *
  obtain ⟨ht, -, hm, hw⟩ := u.reportErr_keeps c 64 3
  have hne : (F.LDR_CNT_COUNT 7).addr ≠ (F.LDR_CHAIN_STAT_REPORT_ERR c).addr := by
    simp only [F.LDR_CNT_COUNT, F.LDR_CHAIN_STAT_REPORT_ERR]
    omega
  refine ⟨?_, ?_, by rw [hm, hmem]⟩
  · rw [State.fld_congr (hw (F.LDR_CNT_COUNT 7).addr (by decide) (by decide) hne), hfld]
  · rw [State.chain, ht, ← State.chain, hbroken]

/-- A symbol error is counted, and leaves the time of the line's last activity and memory. -/
theorem State.returnItem_symbolError (s : State) {c : Nat} (hc : c < s.tile.chains.length) :
    (s.returnItem c .symbolError).fld (F.LDR_CNT_COUNT 7) = min (s.fld (F.LDR_CNT_COUNT 7) + 1) (2 ^ 32 - 1) ∧
      ((s.returnItem c .symbolError).chain c).returnTick = (s.chain c).returnTick ∧
      (s.returnItem c .symbolError).mem = s.mem := by
  have hne : (F.LDR_CNT_COUNT 7).addr ≠ (F.LDR_CHAIN_STAT_REPORT_ERR c).addr := by
    simp only [F.LDR_CNT_COUNT, F.LDR_CHAIN_STAT_REPORT_ERR]
    omega
  have hcnt := s.fld_bump_same (F.LDR_CNT_COUNT 7) 1 (by decide)
  have hch : (s.bump (F.LDR_CNT_COUNT 7)).chain c = s.chain c := s.chain_setFld ..
  have hlen : c < (s.bump (F.LDR_CNT_COUNT 7)).tile.chains.length := hc
  have hmem := s.bump_mem (F.LDR_CNT_COUNT 7) 1
  unfold State.returnItem
  dsimp only
  generalize s.bump (F.LDR_CNT_COUNT 7) = u at *
  split
  next r hr =>
    split
    · exact ⟨by rw [State.fld_setFld_addr _ _ _ _ hne, hcnt]; rfl, by rw [State.chain_setFld, hch],
        by rw [State.setFld_mem, hmem]⟩
    · obtain ⟨hfld, htick, hm⟩ := u.reportBroken_keeps r hlen
      exact ⟨by rw [hfld, hcnt]; rfl, by rw [htick, hch], by rw [hm, hmem]⟩
  next => exact ⟨hcnt, by rw [hch], hmem⟩

/-- A burst of no symbol's timing is a symbol error. -/
theorem State.returnBurst_error {s : State} {c : Nat} {hi lo : BitVec 16} (hl : s.lampsOn = true)
    (he : classify hi.toNat lo.toNat = none) :
    s.returnBurst c [(hi, lo)] = (s.lineHeld c none []).returnItem c .symbolError := by
  unfold State.returnBurst
  rw [if_neg (not_not_intro hl), List.foldl_cons, List.foldl_nil, he]
  unfold State.lineError
  rw [State.updChain_updChain]
  rfl

/-- A report whose drivers have all answered ends with its END word. -/
theorem State.endReport_whole {s : State} {c : Nat} {r : ReportRun} (hr : (s.chain c).report = some r)
    (hall : ∀ d, d < s.fld (F.LDR_CHAIN_STAT_DETECTED c) → d ∈ r.got) :
    s.endReport c = s.updChain c fun h => { h with report := none } := by
  have none_missing : (List.range (s.fld (F.LDR_CHAIN_STAT_DETECTED c))).find? (fun d => !r.got.contains d) = none := by
    refine List.find?_eq_none.mpr fun d hd => ?_
    simpa using hall d (List.mem_range.mp hd)
  unfold State.endReport
  rw [hr]
  dsimp only
  rw [none_missing]

/-! ### Measurements (R307) -/

/-- What the refreshing of `SHORT` leaves: the chains, and every field apart from it and from the counters. -/
structure ShortKeeps (s t : State) : Prop where
  tile : t.tile = s.tile
  fld : ∀ f : Fld, (∀ c, (F.LDR_CHAIN_STAT_SHORT c).apart f = true) → f.addr / 0x10000 ≠ 9 → f.addr / 0x10000 ≠ 0xF →
    t.fld f = s.fld f

theorem State.refreshShort_keeps (s : State) : ShortKeeps s s.refreshShort := by
  have kept {t : State} (c : Nat) (b : Bool) (h : ShortKeeps s t) :
      ShortKeeps s (t.setBit (F.LDR_CHAIN_STAT_SHORT c) b) :=
    ⟨h.tile, fun f hf h9 hF => (t.fld_setFld_apart _ (by exact Nat.le_add_right 9 23) (hf c)).trans (h.fld f hf h9 hF)⟩
  have logged {t : State} (d : List Byte) (h : ShortKeeps s t) : ShortKeeps s (t.log Rec.chainShort d) :=
    ⟨(t.log_tile ..).trans h.tile, fun f hf h9 hF =>
      (State.fld_congr (t.log_word_block _ _ (by decide) h9 hF)).trans (h.fld f hf h9 hF)⟩
  unfold State.refreshShort
  suffices ∀ t, ShortKeeps s t → ShortKeeps s ((List.range 128).foldl _ t) from this s ⟨rfl, fun _ _ _ _ => rfl⟩
  induction List.range 128 with
  | nil => exact fun t h => h
  | cons c l ih =>
    refine fun t h => ih _ ?_
    dsimp only
    split
    · exact h
    · split
      · exact logged _ (kept c _ h)
      · exact kept c _ h

/-- A measurement that waits for a load, or with no lamps driven, does nothing. -/
theorem State.chainMeasure_waits {s : State} {c : Nat} (rt : List Nat)
    (h : s.tick < (s.chain c).loadEnd ∨ s.lampsOn = false) : s.chainMeasure c rt = s :=
  if_pos (by rcases h with h | h <;> simp [h])

theorem trimOf_first (a : Rat) : trimOf 0 a a = 0 := by
  have e : (16 * ((0 : Nat) : Rat) - (a - a)) * 16 = 0 := by rw [sub_self]; norm_num
  unfold trimOf
  rw [e]
  rfl

theorem shortApart (c d : Nat) :
    (F.LDR_CHAIN_STAT_SHORT d).apart (F.LDR_CHAIN_STAT_DETECTED c) = true ∧
      (F.LDR_CHAIN_STAT_SHORT d).apart (F.LDR_CHAIN_STAT_MEAS_OK c) = true := by
  simp [Fld.apart, F.LDR_CHAIN_STAT_SHORT, F.LDR_CHAIN_STAT_DETECTED, F.LDR_CHAIN_STAT_MEAS_OK]

theorem chainStat_block {c : Nat} (h128 : c < 128) :
    (F.LDR_CHAIN_STAT_DETECTED c).addr / 0x10000 = 0xC ∧ (F.LDR_CHAIN_STAT_MEAS_OK c).addr / 0x10000 = 0xC := by
  simp only [F.LDR_CHAIN_STAT_DETECTED, F.LDR_CHAIN_STAT_MEAS_OK]
  omega

/-- `SHORT` refreshed leaves every chain and what a measurement shows. -/
theorem State.refreshShort_shows (s : State) {c : Nat} (h128 : c < 128) :
    s.refreshShort.chain c = s.chain c ∧
      s.refreshShort.fld (F.LDR_CHAIN_STAT_DETECTED c) = s.fld (F.LDR_CHAIN_STAT_DETECTED c) ∧
      s.refreshShort.fld (F.LDR_CHAIN_STAT_MEAS_OK c) = s.fld (F.LDR_CHAIN_STAT_MEAS_OK c) := by
  obtain ⟨ht, hf⟩ := s.refreshShort_keeps
  obtain ⟨hd, ho⟩ := chainStat_block h128
  exact ⟨congrArg (fun t : TileSt => t.chains.getD c {}) ht, hf _ (fun d => (shortApart c d).1) (by omega) (by omega),
    hf _ (fun d => (shortApart c d).2) (by omega) (by omega)⟩

theorem State.fld_updChain (s : State) (c : Nat) (g : Chain → Chain) (f : Fld) : (s.updChain c g).fld f = s.fld f :=
  rfl

/-- What answered a measurement is shown, and the chain measures no longer. -/
def State.measureShown (s : State) (c n : Nat) (a0 : Rat) : State :=
  (((s.emit (.lampEcho (BitVec.ofNat 7 c) (echoWords n))).updChain c fun h => { h with measuring := false }).setFld
    (F.LDR_CHAIN_STAT_DETECTED c) n).setFld (F.LDR_CHAIN_STAT_A0 c) (openRound 307 (a0 * 16)).toNat

theorem State.measureShown_shows (s : State) {c n : Nat} (a0 : Rat) (hc : c < s.tile.chains.length) (hn : n ≤ 64) :
    ((s.measureShown c n a0).chain c).measuring = false ∧
      (s.measureShown c n a0).fld (F.LDR_CHAIN_STAT_DETECTED c) = n ∧
      c < (s.measureShown c n a0).tile.chains.length := by
  unfold State.measureShown
  refine ⟨?_, ?_, ?_⟩
  · rw [State.chain_setFld, State.chain_setFld, State.chain_updChain_same _ _ (by exact hc)]
  · rw [State.fld_setFld_other _ _ _ _ (by exact Nat.le_refl 32) (by exact .inl (Nat.le_add_right 7 9)),
      State.fld_setFld_same _ _ _ (by exact Nat.le_add_right 7 25)]
    exact Nat.mod_eq_of_lt (show n < 128 by omega)
  · rw [State.setFld_tile, State.setFld_tile, State.chains_length_updChain]
    exact hc

/-- A measurement fails. -/
def State.measureFails (s : State) (c cause d : Nat) : State :=
  (s.setFld (F.LDR_CHAIN_STAT_MEAS_OK c) 0).log Rec.chainMeasure [BitVec.ofNat 8 c, BitVec.ofNat 8 cause, BitVec.ofNat 8 d]

theorem State.measureFails_shows (s : State) {c : Nat} (h128 : c < 128) (cause d : Nat) :
    (s.measureFails c cause d).chain c = s.chain c ∧
      (s.measureFails c cause d).fld (F.LDR_CHAIN_STAT_DETECTED c) = s.fld (F.LDR_CHAIN_STAT_DETECTED c) ∧
      (s.measureFails c cause d).fld (F.LDR_CHAIN_STAT_MEAS_OK c) = 0 := by
  unfold State.measureFails
  have logged (t : State) (l : List Byte) (f : Fld) (hf : f.addr / 0x10000 = 0xC) :
      (t.log Rec.chainMeasure l).fld f = t.fld f :=
    State.fld_congr (State.log_word_block _ _ _ (by decide) (by omega) (by omega))
  obtain ⟨hd, ho⟩ := chainStat_block h128
  refine ⟨?_, ?_, ?_⟩
  · rw [State.chain_log, State.chain_setFld]
  · rw [logged _ _ _ hd, State.fld_setFld_other _ _ _ _ (by exact Nat.le_add_right 8 24) (by exact .inl (Nat.le_refl 7))]
  · rw [logged _ _ _ ho, State.fld_setFld_same _ _ _ (by exact Nat.le_add_right 8 24)]
    rfl

/-- A measurement passes: the trims are kept, and a configuration load follows. -/
def State.measurePasses (s : State) (c n : Nat) (a0 : Rat) (trims : List Int) : State :=
  (s.setFld (F.LDR_CHAIN_STAT_MEAS_OK c) 1).updChain c fun h => { h with
    a0 := a0, cfgDue := true,
    drivers := h.drivers.mapIdx fun d v =>
      if d < n then { v with trim := trims.getD d 0, measTemp := v.seen.map fun _ => v.temp } else v }

theorem State.measurePasses_shows (s : State) {c : Nat} (n : Nat) (a0 : Rat) (trims : List Int)
    (hc : c < s.tile.chains.length) :
    ((s.measurePasses c n a0 trims).chain c).measuring = (s.chain c).measuring ∧
      ((s.measurePasses c n a0 trims).chain c).cfgDue = true ∧ ((s.measurePasses c n a0 trims).chain c).a0 = a0 ∧
      (s.measurePasses c n a0 trims).fld (F.LDR_CHAIN_STAT_DETECTED c) = s.fld (F.LDR_CHAIN_STAT_DETECTED c) ∧
      (s.measurePasses c n a0 trims).fld (F.LDR_CHAIN_STAT_MEAS_OK c) = 1 := by
  unfold State.measurePasses
  rw [State.chain_updChain_same _ _ (by exact hc), State.chain_setFld, State.fld_updChain, State.fld_updChain,
    State.fld_setFld_other _ _ _ _ (by exact Nat.le_add_right 8 24) (by exact .inl (Nat.le_refl 7)),
    State.fld_setFld_same _ _ _ (by exact Nat.le_add_right 8 24)]
  exact ⟨rfl, rfl, rfl, rfl, rfl⟩

/-- The outcome of a measurement, by the first driver whose trim is out of range. -/
def State.measureEnds (s : State) (c n : Nat) (a0 : Rat) (trims : List Int) (far : Option Nat) : State :=
  if n = 0 then s.measureFails c 0 0
  else match far with
    | some d => s.measureFails c 1 d
    | none => s.measurePasses c n a0 trims

theorem State.measureEnds_keeps (s : State) {c : Nat} (n : Nat) (a0 : Rat) (trims : List Int) (far : Option Nat)
    (hc : c < s.tile.chains.length) (h128 : c < 128) :
    ((s.measureEnds c n a0 trims far).chain c).measuring = (s.chain c).measuring ∧
      (s.measureEnds c n a0 trims far).fld (F.LDR_CHAIN_STAT_DETECTED c) = s.fld (F.LDR_CHAIN_STAT_DETECTED c) := by
  have failed (cause d : Nat) := s.measureFails_shows h128 cause d
  unfold State.measureEnds
  split
  · exact ⟨congrArg Chain.measuring (failed 0 0).1, (failed 0 0).2.1⟩
  · cases far with
    | some d => exact ⟨congrArg Chain.measuring (failed 1 d).1, (failed 1 d).2.1⟩
    | none =>
      obtain ⟨hm, -, -, hd, -⟩ := s.measurePasses_shows n a0 trims hc
      exact ⟨hm, hd⟩

/-- A measurement on a quiet chain. -/
theorem State.chainMeasure_eq {s : State} {c : Nat} {rt : List Nat} (hl : s.lampsOn = true)
    (hm : (s.chain c).measuring = true) (he : (s.chain c).loadEnd ≤ s.tick) (hi : s.returnIdle c = true) :
    s.chainMeasure c rt =
      ((s.measureShown c (rt.take 64).length (((rt.take 64).map arrivalDelay).headD 0)).measureEnds c (rt.take 64).length
        (((rt.take 64).map arrivalDelay).headD 0)
        ((List.range (rt.take 64).length).map fun d => trimOf d (((rt.take 64).map arrivalDelay).headD 0)
          (((rt.take 64).map arrivalDelay).getD d 0))
        (((List.range (rt.take 64).length).map fun d => trimOf d (((rt.take 64).map arrivalDelay).headD 0)
          (((rt.take 64).map arrivalDelay).getD d 0)).findIdx? fun t => decide (256 < t ∨ t < -256))).refreshShort := by
  unfold State.chainMeasure
  rw [if_neg (by simp only [hl, hm, hi, not_true_eq_false, false_or, or_false, Bool.true_eq_false]; omega)]
  unfold State.measureEnds
  simp only [List.length_eq_zero_iff]
  rfl

/-- A measurement on a quiet chain shows how many drivers answered; one that answers alone has it pass, none has it fail. -/
theorem State.chainMeasure_measures {s : State} {c : Nat} {rt : List Nat} (hl : s.lampsOn = true)
    (hm : (s.chain c).measuring = true) (he : (s.chain c).loadEnd ≤ s.tick) (hi : s.returnIdle c = true)
    (hc : c < s.tile.chains.length) (h128 : c < 128) :
    ((s.chainMeasure c rt).chain c).measuring = false ∧
      (s.chainMeasure c rt).fld (F.LDR_CHAIN_STAT_DETECTED c) = min rt.length 64 ∧
      (rt = [] → (s.chainMeasure c rt).bit (F.LDR_CHAIN_STAT_MEAS_OK c) = false) ∧
      (∀ x, rt = [x] → (s.chainMeasure c rt).bit (F.LDR_CHAIN_STAT_MEAS_OK c) = true ∧
        ((s.chainMeasure c rt).chain c).cfgDue = true ∧ ((s.chainMeasure c rt).chain c).a0 = arrivalDelay x) := by
  have hlen : (rt.take 64).length = min rt.length 64 := (List.length_take ..).trans (Nat.min_comm ..)
  rw [State.chainMeasure_eq hl hm he hi]
  generalize htr : ((List.range (rt.take 64).length).map fun d => trimOf d (((rt.take 64).map arrivalDelay).headD 0)
    (((rt.take 64).map arrivalDelay).getD d 0)) = trims
  generalize ha : ((rt.take 64).map arrivalDelay).headD 0 = a0 at *
  obtain ⟨hmeas, hdet, hc'⟩ := s.measureShown_shows (n := (rt.take 64).length) a0 hc (by omega)
  generalize s.measureShown c (rt.take 64).length a0 = u at *
  obtain ⟨hkm, hkd⟩ := u.measureEnds_keeps (rt.take 64).length a0 trims
    (trims.findIdx? fun t => decide (256 < t ∨ t < -256)) hc' h128
  have shown (v : State) := v.refreshShort_shows h128
  refine ⟨?_, ?_, fun hrt => ?_, fun x hrt => ?_⟩
  · rw [(shown _).1, hkm, hmeas]
  · rw [(shown _).2.1, hkd, hdet, hlen]
  · subst hrt
    have ends (far : Option Nat) : u.measureEnds c (([] : List Nat).take 64).length a0 trims far = u.measureFails c 0 0 := rfl
    unfold State.bit
    rw [(shown _).2.2, ends, (u.measureFails_shows h128 0 0).2.2]
    rfl
  · subst hrt
    have hfar : (trims.findIdx? fun t => decide (256 < t ∨ t < -256)) = none := by
      rw [← htr, ← ha]
      simp [trimOf_first]
    have ends : u.measureEnds c ([x].take 64).length a0 trims none = u.measurePasses c 1 a0 trims := rfl
    obtain ⟨-, hcfg, ha0, -, hok⟩ := u.measurePasses_shows 1 a0 trims hc'
    unfold State.bit
    rw [hfar, ends, (shown _).1, (shown _).2.2, hcfg, ha0, hok]
    exact ⟨rfl, rfl, ha.symm⟩

end Sys2Proof.Machine
end

section
/-! The events of lamp chains, command by command (R307, R318, R320, R321). -/

namespace Sys2Proof.Machine

open Sys2Proof

theorem exec_returnRecord (s : State) (c : BitVec 7) (l : List (BitVec 16 × BitVec 16)) :
    exec (.returnRecord c l) s = .next (s.returnBurst c.toNat l) := rfl

section
variable {s : State} {c : Nat} {w : BitVec 16}

theorem State.lineHeld_returnTick {ws : Option (List (BitVec 16))} {bits : List Bool} (hc : c < s.tile.chains.length) :
    ((s.lineHeld c ws bits).chain c).returnTick = s.tick := congrArg Chain.returnTick (State.chain_lineHeld hc)

theorem State.lineHeld_report {ws : Option (List (BitVec 16))} {bits : List Bool} (hc : c < s.tile.chains.length) :
    ((s.lineHeld c ws bits).chain c).report = (s.chain c).report :=
  (congrArg Chain.report (State.chain_lineHeld (ws := ws) (bits := bits) hc) :)

/-- A time that is no symbol's is counted, and is an activity of the line. -/
theorem State.returnBurst_counts_error {hi lo : BitVec 16} (hl : s.lampsOn = true) (hc : c < s.tile.chains.length)
    (he : classify hi.toNat lo.toNat = none) :
    (s.returnBurst c [(hi, lo)]).fld (F.LDR_CNT_COUNT 7) = min (s.fld (F.LDR_CNT_COUNT 7) + 1) (2 ^ 32 - 1) ∧
      ((s.returnBurst c [(hi, lo)]).chain c).returnTick = s.tick ∧ (s.returnBurst c [(hi, lo)]).mem = s.mem := by
  have hlen : c < (s.lineHeld c none []).tile.chains.length := (s.chains_length_updChain ..).symm ▸ hc
  obtain ⟨hcnt, htick, hmem⟩ := (s.lineHeld c none []).returnItem_symbolError hlen
  rw [State.returnBurst_error hl he]
  exact ⟨hcnt, htick.trans (State.lineHeld_returnTick hc), hmem⟩

/-- An END word ends the report of a chain whose drivers have all answered. -/
theorem State.returnBurst_ends {r : ReportRun} (hl : s.lampsOn = true) (hc : c < s.tile.chains.length)
    (hb : (s.chain c).rxBits = []) (hw : (s.chain c).rxWords = none) (hend : w.toNat / 4096 = ldEnd)
    (hpar : parityOf 16 w.toNat = true) (hr : (s.chain c).report = some r)
    (hall : ∀ d, d < s.fld (F.LDR_CHAIN_STAT_DETECTED c) → d ∈ r.got) :
    s.returnBurst c (nominalEdges (burstSymbols [w])) =
      (s.lineHeld c none []).updChain c fun h => { h with report := none } := by
  rw [State.returnBurst_word hl hc hb hw (by simp [returnWhole, hend, ldEnd, ldRecord]), State.takeWords_at_rest,
    if_pos ⟨hend, hpar⟩]
  exact State.endReport_whole ((State.lineHeld_report hc).trans hr) hall

/-- A word of no known type is counted where no report is expected. -/
theorem State.returnBurst_discards (hl : s.lampsOn = true) (hc : c < s.tile.chains.length)
    (hb : (s.chain c).rxBits = []) (hw : (s.chain c).rxWords = none) (hend : w.toNat / 4096 ≠ ldEnd)
    (hecho : w.toNat / 4096 ≠ ldEcho) (hrec : w.toNat / 4096 ≠ ldRecord) (hr : (s.chain c).report = none) :
    s.returnBurst c (nominalEdges (burstSymbols [w])) = (s.lineHeld c none []).bump (F.LDR_CNT_COUNT 3) := by
  rw [State.returnBurst_word hl hc hb hw (by simp [returnWhole, hrec]), State.takeWords_at_rest,
    if_neg (fun h => hend h.1), if_neg (fun h => hecho h.1)]
  have none_running : ((s.lineHeld c none []).chain c).report = none := (State.lineHeld_report hc).trans hr
  unfold State.returnItem
  rw [none_running]

end

/-- What a burst on the return line of a chain at rest does. -/
theorem returnRecord_completes (s : State) (c : BitVec 7) (hl : s.lampsOn = true) (hc : c.toNat < s.tile.chains.length)
    (hb : (s.chain c.toNat).rxBits = []) (hw : (s.chain c.toNat).rxWords = none) :
    (∀ hi lo, classify hi.toNat lo.toNat = none →
      ∃ t, exec (.returnRecord c [(hi, lo)]) s = .next t ∧
        t.fld (F.LDR_CNT_COUNT 7) = min (s.fld (F.LDR_CNT_COUNT 7) + 1) (2 ^ 32 - 1) ∧
        (t.chain c.toNat).returnTick = s.tick ∧ t.mem = s.mem) ∧
    (∀ w : BitVec 16, w.toNat / 4096 = ldEnd → parityOf 16 w.toNat = true →
      ∀ r, (s.chain c.toNat).report = some r → (∀ d, d < s.fld (F.LDR_CHAIN_STAT_DETECTED c.toNat) → d ∈ r.got) →
      ∃ t, exec (.returnRecord c (nominalEdges (burstSymbols [w]))) s = .next t ∧ (t.chain c.toNat).report = none ∧
        (t.chain c.toNat).returnTick = s.tick ∧ t.regs = s.regs ∧ t.mem = s.mem) ∧
    (∀ w : BitVec 16, w.toNat / 4096 ≠ ldEnd → w.toNat / 4096 ≠ ldEcho → w.toNat / 4096 ≠ ldRecord →
      (s.chain c.toNat).report = none →
      ∃ t, exec (.returnRecord c (nominalEdges (burstSymbols [w]))) s = .next t ∧
        t.fld (F.LDR_CNT_COUNT 3) = min (s.fld (F.LDR_CNT_COUNT 3) + 1) (2 ^ 32 - 1) ∧ t.mem = s.mem) := by
  refine ⟨fun hi lo he => ⟨_, exec_returnRecord .., State.returnBurst_counts_error hl hc he⟩,
    fun w hend hpar r hr hall => ⟨_, exec_returnRecord .., ?_⟩, fun w h1 h2 h3 hr => ⟨_, exec_returnRecord .., ?_⟩⟩
  · have ended := (s.lineHeld c.toNat none []).chain_updChain_same (fun h => { h with report := none })
      ((s.chains_length_updChain ..).symm ▸ hc)
    rw [State.returnBurst_ends hl hc hb hw hend hpar hr hall]
    exact ⟨congrArg Chain.report ended, (congrArg Chain.returnTick ended).trans (State.lineHeld_returnTick hc), rfl, rfl⟩
  · rw [State.returnBurst_discards hl hc hb hw h1 h2 h3 hr]
    exact ⟨(s.lineHeld c.toNat none []).fld_bump_same (F.LDR_CNT_COUNT 3) 1 (by decide), rfl⟩

/-- A report that is due on a chain with a free line is asked for, or skipped and counted. -/
theorem reportSend_completes {s : State} {c : BitVec 7} {x : Int} {f : Nat} (hl : s.lampsOn = true)
    (hr : (s.chain c.toNat).reportDue = some (x, f)) (hd : s.driven s.tblForce c.toNat = true) (hx : x ≤ (s.clk : Int))
    (he : (s.chain c.toNat).loadEnd ≤ s.tick) (hli : (s.chain c.toNat).lineEnd ≤ s.tick)
    (hc : c.toNat < s.tile.chains.length)
    (hw : ∀ w, s.tile.lastWindow = some w → s.lineFrom s.tblForce w.1 w.2 c.toNat s.tick (burstTicks 1) = s.tick) :
    ((s.chain c.toNat).returnTick + 1500 ≤ s.tick → (s.chain c.toNat).measuring = false →
      ∃ t, exec (.reportSend c) s = .next t ∧ (t.chain c.toNat).reportDue = none ∧
        (t.chain c.toNat).report = some { c0 := s.tblForce.drivers c.toNat - 1, latchFrame := f } ∧
        t.out.head? = some (.lampBurst c s.tick [typedWord ldReport 0 (s.tblForce.drivers c.toNat - 1) 0]) ∧
        t.mem = s.mem) ∧
    (s.tick < (s.chain c.toNat).returnTick + 1500 →
      ∃ t, exec (.reportSend c) s = .next t ∧ (t.chain c.toNat).reportDue = none ∧ t.out = s.out ∧
        t.fld (F.LDR_CNT_COUNT 10) = min (s.fld (F.LDR_CNT_COUNT 10) + 1) (2 ^ 32 - 1) ∧ t.mem = s.mem) := by
  have hmem : (s.reportSend c.toNat).mem = s.mem := (Apart.reportSend c.isLt (Apart.refl (s := s))).mem
  obtain ⟨asked, skipped⟩ := State.reportSend_asks hl hr hd hx he hli hc hw
  refine ⟨fun hidle hm => ⟨_, rfl, ?_⟩, fun hbusy => ⟨_, rfl, ?_⟩⟩
  · obtain ⟨h1, h2, h3⟩ := asked hidle hm
    exact ⟨h1, h2, h3, hmem⟩
  · obtain ⟨h1, h2, h3⟩ := skipped hbusy
    exact ⟨h1, h2, h3, hmem⟩

/-- A measurement waits, or shows what answered. -/
theorem chainMeasure_completes {s : State} {e : ChainEcho} (hm : (s.chain e.chain.toNat).measuring = true)
    (hc : e.chain.toNat < s.tile.chains.length) :
    ((s.tick < (s.chain e.chain.toNat).loadEnd ∨ s.lampsOn = false) → exec (.chainMeasure e) s = .next s) ∧
    (s.lampsOn = true → (s.chain e.chain.toNat).loadEnd ≤ s.tick → s.returnIdle e.chain.toNat = true →
      ∃ t, exec (.chainMeasure e) s = .next t ∧ (t.chain e.chain.toNat).measuring = false ∧
        t.fld (F.LDR_CHAIN_STAT_DETECTED e.chain.toNat) = min e.rt.length 64 ∧ t.mem = s.mem ∧
        (e.rt = [] → t.bit (F.LDR_CHAIN_STAT_MEAS_OK e.chain.toNat) = false) ∧
        (∀ x, e.rt = [x] → t.bit (F.LDR_CHAIN_STAT_MEAS_OK e.chain.toNat) = true ∧
          (t.chain e.chain.toNat).cfgDue = true ∧ (t.chain e.chain.toNat).a0 = arrivalDelay x)) := by
  refine ⟨fun h => congrArg Host.Outcome.next (State.chainMeasure_waits e.rt h), fun hl he hi => ⟨_, rfl, ?_⟩⟩
  obtain ⟨h1, h2, h3, h4⟩ := State.chainMeasure_measures hl hm he hi hc e.chain.isLt
  exact ⟨h1, h2, (Apart.chainMeasure e.chain.isLt (Apart.refl (s := s))).mem, h3, h4⟩

end Sys2Proof.Machine
end

section
/-! Images of a tile: correction, loads and windows (R67, R280, R317, R330, R344). -/

namespace Sys2Proof.Machine

open Sys2Proof

/-- The counters of corrected images, of missing ones and of latches. -/
def imageCounts : List Nat := [0xB011C, 0xB0120, 0xC0204]

/-- What the steps of an image's correction leave: the images gone by, those received, the buffers, the counters above. -/
structure ImagesKept (s t : State) : Prop where
  lastTc : t.tile.lastTc = s.tile.lastTc
  lastLoad : t.tile.lastLoad = s.tile.lastLoad
  imgs : t.tile.imgs = s.tile.imgs
  bufs : t.tile.bufs = s.tile.bufs
  word : ∀ a ∈ imageCounts, t.word a = s.word a

namespace ImagesKept
variable {s t u : State} {α β : Type}

theorem refl : ImagesKept s s := ⟨rfl, rfl, rfl, rfl, fun _ _ => rfl⟩

theorem ite {c : Prop} [Decidable c] {a b : State} (ha : ImagesKept s a) (hb : ImagesKept s b) :
    ImagesKept s (if c then a else b) := by
  split <;> assumption

theorem iteOn {c : Prop} [Decidable c] {a b : State} (ha : ImagesKept s b → ImagesKept s a) (hb : ImagesKept s b) :
    ImagesKept s (if c then a else b) := .ite (ha hb) hb

theorem iteSnd {c : Prop} [Decidable c] {a b : α × State} (ha : ImagesKept s a.2) (hb : ImagesKept s b.2) :
    ImagesKept s (if c then a else b).2 := by
  split <;> assumption

theorem foldlMem {f : State → α → State} {l : List α} (hf : ∀ t, ∀ i ∈ l, ImagesKept s t → ImagesKept s (f t i))
    (h : ImagesKept s t) : ImagesKept s (l.foldl f t) := by
  induction l generalizing t with
  | nil => exact h
  | cons i l ih =>
    exact ih (fun t j hj => hf t j (List.mem_cons_of_mem _ hj)) (hf t i List.mem_cons_self h)

theorem foldl {f : State → α → State} {l : List α} (hf : ∀ t i, ImagesKept s t → ImagesKept s (f t i))
    (h : ImagesKept s t) : ImagesKept s (l.foldl f t) := .foldlMem (fun t i _ => hf t i) h

theorem ofPair {p : β × State} {y : β} (e : p = (y, t)) (h : ImagesKept s p.2) : ImagesKept s t := by
  subst e; exact h

/-- What writes neither a register nor the tile's part leaves them. -/
theorem same {mem clk tick sys sec tm cmd txn err fab cdc ring memc eth ing cmp lnk red rnd out pending}
    (h : ImagesKept s t) :
    ImagesKept s ⟨t.regs, mem, clk, tick, sys, sec, tm, cmd, txn, err, fab, cdc, ring, memc, eth, ing, cmp, lnk,
      t.tile, red, rnd, out, pending⟩ := { h with }

theorem setFld {f : Fld} {v : Nat} (hf : f.addr ∉ imageCounts) (h : ImagesKept s t) : ImagesKept s (t.setFld f v) :=
  { h with word := fun a ha => (t.word_setFld_other f v fun e => hf (e ▸ ha)).trans (h.word a ha) }

theorem log {n d p} (hn : n.sev < 4) (h : ImagesKept s t) : ImagesKept s (t.log n d p) := by
  have ht := t.log_tile n d p
  refine ⟨ht ▸ h.lastTc, ht ▸ h.lastLoad, ht ▸ h.imgs, ht ▸ h.bufs, fun a ha => ?_⟩
  have hb : a / 0x10000 = 0xB ∨ a / 0x10000 = 0xC := by
    simp only [imageCounts, List.mem_cons, List.not_mem_nil, or_false] at ha
    omega
  exact (t.log_word_block d p hn (by omega) (by omega)).trans (h.word a ha)

/-! ### Memory -/

theorem not_imageCounts_of_block {a : Nat} (h : a / 0x10000 = 0xD) : a ∉ imageCounts := by
  simp only [imageCounts, List.mem_cons, List.not_mem_nil, or_false]
  omega

theorem channelCount {c k n : Nat} (hc : c < 4) (hk : k < 8) (h : ImagesKept s t) :
    ImagesKept s (t.bump (F.MEM_CH_CNT_COUNT c k) n) :=
  .setFld (not_imageCounts_of_block (by simp only [F.MEM_CH_CNT_COUNT]; omega)) h

theorem limit {key max} (h : ImagesKept s t) : ImagesKept s (t.limit key max).2 := .iteSnd (.same h) (.same h)

theorem accountWord {cl w} (h : ImagesKept s t) : ImagesKept s (t.accountWord cl w) := by
  have counted (k : Nat) (hk : k < 8) (g : Fld) (hg : g.addr ∉ imageCounts) :
      ImagesKept s (match t.place w with | .dram c => t.bump (F.MEM_CH_CNT_COUNT c k) | _ => t.bump g) := by
    split
    next c e => exact .channelCount (State.place_dram_lt e) hk h
    next => exact .setFld hg h
  have hd {d : Decoded} (e : (t.readWord cl w).dec = some d) : d.corrected - 1 < 8 := by
    have := State.readWord_corrected_le e
    omega
  fun_cases State.accountWord
  case case1 | case4 => exact h
  case case2 => exact .log (by split <;> decide) (.ofPair ‹_› (.limit (counted _ (by split <;> decide) _ (by decide))))
  case case3 => exact .ofPair ‹_› (.limit (counted _ (by split <;> decide) _ (by decide)))
  case case5 => exact .log (by decide) (.same (.ofPair ‹_› (.limit (counted _ (hd ‹_›) _ (by decide)))))
  case case6 => exact .same (.ofPair ‹_› (.limit (counted _ (hd ‹_›) _ (by decide))))

theorem serve {cl a n} (h : ImagesKept s t) : ImagesKept s (t.serve cl a n) := by
  refine .foldlMem (fun u c hc h => .ite (.setFld (not_imageCounts_of_block ?_) h) h) h
  have hc : c < 4 := List.mem_range.mp hc
  have hr : cl.rank ≤ 5 := by cases cl <;> simp [Client.rank]
  simp only [F.MEM_CLS_CNT_COUNT]
  omega

theorem accountRead {cl a n} (h : ImagesKept s t) : ImagesKept s (t.accountRead cl a n) :=
  .serve (.setFld (by decide) (.foldl (fun _ _ h => .accountWord h) h))

theorem tblInvalidate {k} (hk : k < 2) (h : ImagesKept s t) : ImagesKept s (t.tblInvalidate k) := by
  have hb (b : Nat) (hb : b < 0x100) : 0xB0000 + b + 4 * k ∉ imageCounts := by
    simp only [imageCounts, List.mem_cons, List.not_mem_nil, or_false]
    omega
  exact .setFld (hb 0x30 (by decide)) (.setFld (hb 0x28 (by decide)) (.setFld (hb 0x28 (by decide))
    (.setFld (by decide) h)))

theorem noteWrite {a n} (h : ImagesKept s t) : ImagesKept s (t.noteWrite a n) := by
  unfold State.noteWrite
  extract_lets meets t1
  have h1 : ImagesKept s t1 := .foldlMem (fun _ k hk h => .ite (.tblInvalidate (by simp at hk; omega) h) h) h
  split
  · exact .ite { h1 with } h1
  · exact h1

theorem dropScrub {cl w} (h : ImagesKept s t) : ImagesKept s (t.dropScrub cl w) := by
  unfold State.dropScrub
  extract_lets hit gone t1
  refine .ite h ?_
  split
  next c e => exact .channelCount (State.place_dram_lt e) (by decide) (.same h)
  next => exact .setFld (by decide) (.setFld (by decide) (.same h))

theorem storeWord {w d p} (h : ImagesKept s t) : ImagesKept s (t.storeWord w d p) := by
  have stored {v : State} (hv : ImagesKept s v) (l : List Nat) (f : Nat → Nat) (g : Nat → Byte) :
      ImagesKept s (l.foldl (fun u i => u.setByte (f i) (g i)) v) := .foldl (fun _ _ h => .same h) hv
  unfold State.storeWord
  extract_lets t1 _ t2
  have h2 : ImagesKept s t2 := .same (stored (.noteWrite h) _ _ _)
  refine .ite ?_ h2
  split
  next c e => exact .channelCount (State.place_dram_lt e) (by decide) h2
  next => exact .setFld (by decide) h2
  next => exact h2

theorem putWord {cl w d p} (h : ImagesKept s t) : ImagesKept s (t.putWord cl w d p) := by
  fun_cases State.putWord
  case case1 => exact .iteOn (.setFld (by decide)) (.dropScrub h)
  case case2 => exact .same (.storeWord (.iteOn (.setFld (by decide)) (.dropScrub h)))
  case case3 => exact .storeWord (.dropScrub h)

theorem writeBytes {cl a bs} (h : ImagesKept s t) : ImagesKept s (t.writeBytes cl a bs) :=
  .serve (.ite h (.foldl (fun _ _ h => .ite h (.ite (.putWord h) (.putWord (.accountWord h)))) h))

/-! ### Correction -/

theorem updTile {f : TileSt → TileSt} (h : ImagesKept s t) (hf : (f t.tile).lastTc = t.tile.lastTc)
    (hl : (f t.tile).lastLoad = t.tile.lastLoad) (hi : (f t.tile).imgs = t.tile.imgs)
    (hb : (f t.tile).bufs = t.tile.bufs) : ImagesKept s (t.updTile f) :=
  ⟨hf.trans h.lastTc, hl.trans h.lastLoad, hi.trans h.imgs, hb.trans h.bufs, h.word⟩

theorem zeroBuf {k} (h : ImagesKept s t) : ImagesKept s (t.zeroBuf k) :=
  .foldl (fun _ _ h => .ite (.same (.setFld (by decide) h)) h) h

theorem corrPoison {kind pixel comp sw pos} (h : ImagesKept s t) : ImagesKept s (t.corrPoison kind pixel comp sw pos) :=
  .ite h (.log (by decide) (.setFld (by decide) (.setFld (by decide) (.setFld (by decide) (.setFld (by decide)
    (.setFld (by decide) (.setFld (by decide) (.setFld (by decide) (.setFld (by decide)
      (.updTile h rfl rfl rfl rfl))))))))))

theorem correctImage {j k} (h : ImagesKept s t) : ImagesKept s (t.correctImage j k) := by
  unfold State.correctImage
  extract_lets regs t' h' n slot tbl lostOf lost b outs s1 s2 s3 s4
  have h3 : ImagesKept s s3 := .zeroBuf (.setFld (by decide) (.accountRead (.accountRead h)))
  have h4 : ImagesKept s s4 := .foldl (fun _ _ h => .foldl (fun _ _ h => .corrPoison h)
    (.foldl (fun _ _ h => .writeBytes h) h)) h3
  exact .ite (.setFld (by decide) h4) h4

/-! ### The source in use -/

theorem redBits (h : ImagesKept s t) : ImagesKept s t.redBits := .setFld (by decide) (.setFld (by decide) h)

theorem takeSource {k} (h : ImagesKept s t) : ImagesKept s (t.takeSource k) := .redBits (.same (.setFld (by decide) h))

theorem sourceChange {c} (h : ImagesKept s t) : ImagesKept s (t.sourceChange c) := by
  fun_cases State.sourceChange
  case case1 =>
    exact .ite h (.ite (.setFld (by decide) (.takeSource h)) (.log (by decide) (.setFld (by decide) (.takeSource h))))
  case case2 => exact .redBits (.same (.setFld (by decide) h))

theorem takeChanges {n p} (h : ImagesKept s t) : ImagesKept s (t.takeChanges n p) := by
  unfold State.takeChanges
  extract_lets due t1 t2
  refine .foldl (fun _ _ ht => ?_) (.foldl (fun _ _ h => .sourceChange h) (.same h))
  split
  · exact ht
  · exact .same (.foldl (fun _ _ h => .sourceChange h) ht)

theorem compareCopies {n p sig0 sig1} (h : ImagesKept s t) : ImagesKept s (t.compareCopies n p sig0 sig1) := by
  unfold State.compareCopies
  extract_lets t1 first t2 t3 t4 t5 t6
  have h1 : ImagesKept s t1 := .same (.setFld (by decide) h)
  have h2 : ImagesKept s t2 := .same (.setFld (by decide) h1)
  have h6 : ImagesKept s t6 := .setFld (by decide) (.setFld (by decide) (.setFld (by decide) (.setFld (by decide) h2)))
  exact .ite (.same (.setFld (by decide) h1)) (.ite (.log (by decide) h6) h6)

theorem sourceLossSeen {cause} (h : ImagesKept s t) : ImagesKept s (t.sourceLossSeen cause) := .ite (.same h) h

theorem judgeRun (h : ImagesKept s t) : ImagesKept s t.judgeRun :=
  .redBits (.same (.ite h (.ite (.ite (.log (by decide) (.same h)) (.same h)) (.ite h (.same h)))))

theorem noteMissing {n p} (h : ImagesKept s t) : ImagesKept s (t.noteMissing n p) :=
  .ite h (.log (by decide) (.setFld (by decide) (.same h)))

end ImagesKept

end Sys2Proof.Machine
end

section
/-! The correction of an image: its deadline and its end (R280, R344). -/

namespace Sys2Proof.Machine

open Sys2Proof

/-- A job that starts takes a free buffer; every other buffer, the images gone by and the counters stay. -/
theorem State.startJob_keeps (s : State) :
    s.startJob.tile.lastTc = s.tile.lastTc ∧ s.startJob.tile.lastLoad = s.tile.lastLoad ∧
      (∀ k, s.tile.bufs.getD k .free ≠ .free → s.startJob.tile.bufs.getD k .free = s.tile.bufs.getD k .free) ∧
      (∀ a, a ≠ F.LCR_STAT_CORRECTING.addr → s.startJob.word a = s.word a) := by
  have same : s.tile.lastTc = s.tile.lastTc ∧ s.tile.lastLoad = s.tile.lastLoad ∧
      (∀ k, s.tile.bufs.getD k .free ≠ .free → s.tile.bufs.getD k .free = s.tile.bufs.getD k .free) ∧
      (∀ a, a ≠ F.LCR_STAT_CORRECTING.addr → s.word a = s.word a) := ⟨rfl, rfl, fun _ _ => rfl, fun _ _ => rfl⟩
  fun_cases State.startJob
  case case1 | case2 => exact same
  case case3 k hk _ _ _ =>
    have free : s.tile.bufs.getD k .free = .free := by simpa using List.find?_some hk
    refine ⟨rfl, rfl, fun i hi => ?_, fun a ha => State.word_setFld_other _ _ _ ha⟩
    have hne : k ≠ i := fun e => hi (e ▸ free)
    simp [List.getD_eq_getElem?_getD, List.getElem?_set_ne hne]
  case case4 => exact same

/-! ### The deadline -/

/-- The image's processing has begun and the changes due have been taken. -/
def State.deadlineTaken (s : State) (n p : Nat) : State :=
  ((s.updTile fun t => { t with lastTc := some (n, p) }).beginSlice n p).takeChanges n p

theorem State.deadlineTaken_keeps (s : State) (n p : Nat) :
    ImagesKept (s.updTile fun t => { t with lastTc := some (n, p) }) (s.deadlineTaken n p) :=
  .takeChanges (.ite .refl (.updTile .refl rfl rfl rfl rfl))

theorem State.sliceImg_none {s : State} (h : s.tile.imgs = []) (k n p : Nat) : s.sliceImg k n p = none := by
  unfold State.sliceImg
  rw [h]
  rfl

/-- A deadline that is due is taken once; with no copy received the image counts as missing. -/
theorem State.correctionDeadline_taken {s : State} {n p : Nat} (hrole : s.role = roleTile) (hmode : s.mode = 5)
    (hfresh : (s.tile.lastTc.all fun l => imgLt l.1 l.2 n p) = true) (hp : p < phasesOf (s.governing n p))
    (hat : s.at_ (s.tCorrect n p) = true) (hlatch : (s.clk : Int) < s.tLatch n p) :
    (s.correctionDeadline n p).tile.lastTc = some (n, p) ∧ (s.tile.imgs = [] →
      (s.correctionDeadline n p).fld (F.LCR_CNT_COUNT 8) = min (s.fld (F.LCR_CNT_COUNT 8) + 1) (2 ^ 32 - 1)) := by
  have hbegun := s.deadlineTaken_keeps n p
  unfold State.correctionDeadline
  rw [if_neg (by simp only [hrole, hmode, hfresh, hat, ne_eq, not_true_eq_false, false_or]; omega)]
  change ImagesKept _ (((s.updTile fun t => { t with lastTc := some (n, p) }).beginSlice n p).takeChanges n p) at hbegun
  extract_lets t1 two copy u c0 c1 mine other t2 t3 t4 off t5 t6 t7
  change ImagesKept _ t1 at hbegun
  have h2 : ImagesKept t1 t2 := by
    unfold t2
    clear_value c0 c1
    split
    · exact .compareCopies .refl
    · exact .refl
  have h4 : ImagesKept t1 t4 := .iteOn (.setFld (by decide)) (.same h2)
  have h7 : t7.tile.lastTc = t6.tile.lastTc ∧ t7.word 0xB0120 = t6.word 0xB0120 := by
    have h : ImagesKept t6 t7 := .ite (.judgeRun .refl) .refl
    exact ⟨h.lastTc, h.word _ (by decide)⟩
  have h5 : ImagesKept ((t4.bump (F.RED_CNT_COUNT 3)).bump (F.LCR_CNT_COUNT 8)) t5 := .noteMissing .refl
  have lost : ImagesKept t5 (if other.isSome then t5.sourceLossSeen 1 else t5) := .ite (.sourceLossSeen .refl) .refl
  refine ⟨h7.1.trans ?_, fun himgs => ?_⟩
  · have h6 : t6.tile.lastTc = t4.tile.lastTc := by
      unfold t6
      clear_value mine
      split
      next g =>
        split
        · rfl
        · exact (State.startJob_keeps _).1
      next => exact lost.lastTc.trans h5.lastTc
    exact h6.trans (h4.lastTc.trans hbegun.lastTc)
  · have none_held (k : Nat) : copy k = none := by
      have himgs' : t1.tile.imgs = [] := hbegun.imgs.trans himgs
      simp only [copy, State.sliceImg_none himgs', Option.filter_none]
    have none_mine : mine = none := by
      have h1 : c1 = none := by unfold c1; split <;> simp only [none_held]
      unfold mine
      rw [h1, show c0 = none from none_held 0, ite_self]
    have h6 : t6 = if other.isSome then t5.sourceLossSeen 1 else t5 := by
      unfold t6
      rw [none_mine]
    have counted := (t4.bump (F.RED_CNT_COUNT 3)).fld_bump_same (F.LCR_CNT_COUNT 8) 1 (by decide)
    have before : (t4.bump (F.RED_CNT_COUNT 3)).fld (F.LCR_CNT_COUNT 8) = s.fld (F.LCR_CNT_COUNT 8) :=
      (State.fld_setFld_addr _ _ _ _ (by decide)).trans
        (State.fld_congr ((h4.word 0xB0120 (by decide)).trans (hbegun.word 0xB0120 (by decide))))
    rw [before] at counted
    refine (State.fld_congr (h7.2.trans ?_)).trans counted
    rw [h6]
    exact (lost.word 0xB0120 (by decide)).trans (h5.word 0xB0120 (by decide))

theorem correctionDeadline_completes {s : State} {n : BitVec 64} {p : BitVec 2} (hrole : s.role = roleTile)
    (hmode : s.mode = 5) (hfresh : (s.tile.lastTc.all fun l => imgLt l.1 l.2 n.toNat p.toNat) = true)
    (hp : p.toNat < phasesOf (s.governing n.toNat p.toNat)) (hat : s.at_ (s.tCorrect n.toNat p.toNat) = true)
    (hlatch : (s.clk : Int) < s.tLatch n.toNat p.toNat) :
    ∃ t, exec (.correctionDeadline n p) s = .next t ∧ t.tile.lastTc = some (n.toNat, p.toNat) ∧ t.mem = s.mem ∧
      t.cmd = s.cmd ∧ (s.tile.imgs = [] →
        t.fld (F.LCR_CNT_COUNT 8) = min (s.fld (F.LCR_CNT_COUNT 8) + 1) (2 ^ 32 - 1)) := by
  obtain ⟨htc, hcnt⟩ := State.correctionDeadline_taken hrole hmode hfresh hp hat hlatch
  have apart : Apart .lamp s (s.correctionDeadline n.toNat p.toNat) := .correctionDeadline .refl
  exact ⟨_, rfl, htc, apart.mem, apart.cmd, hcnt⟩

/-! ### The end -/

/-- A correction whose time has not run, or whose buffer's banks still serve another owner, waits. -/
theorem State.correctionDone_waits {s : State} {j : Job} {rest : List Job} {k : Nat} (hj : s.tile.jobs = j :: rest)
    (hk : j.buf = some k) (h : s.tick < j.start + s.jobTicks j ∨ s.bufDrains (s.imgBank k) = true) :
    s.correctionDone = s := by
  unfold State.correctionDone
  rw [hj]
  dsimp only
  rw [hk]
  exact if_pos h

/-- The corrected image is shown and counted. -/
def State.showImage (s : State) (frame phase format addr : Nat) : State :=
  ((((s.setFld F.LCR_IMG_LAST_FRAME frame).bump (F.LCR_CNT_COUNT 7)).setFld F.LCR_IMG_LAST_INFO_PHASE phase).setFld
    F.LCR_IMG_LAST_INFO_FORMAT format).setFld F.LCR_IMG_LAST_INFO_SRC addr

theorem State.showImage_shows (s : State) (frame phase format addr : Nat) :
    (s.showImage frame phase format addr).fld F.LCR_IMG_LAST_FRAME = frame % 2 ^ 32 ∧
      (s.showImage frame phase format addr).fld F.LCR_IMG_LAST_INFO_PHASE = phase % 4 ∧
      (s.showImage frame phase format addr).fld (F.LCR_CNT_COUNT 7) =
        min (s.fld (F.LCR_CNT_COUNT 7) + 1) (2 ^ 32 - 1) := by
  have info {f : Fld} (hf : f.addr ≠ F.LCR_IMG_LAST_INFO_PHASE.addr) : (s.showImage frame phase format addr).fld f =
      ((s.setFld F.LCR_IMG_LAST_FRAME frame).bump (F.LCR_CNT_COUNT 7)).fld f := by
    unfold State.showImage
    rw [State.fld_setFld_addr _ F.LCR_IMG_LAST_INFO_SRC _ _ hf, State.fld_setFld_addr _ F.LCR_IMG_LAST_INFO_FORMAT _ _ hf,
      State.fld_setFld_addr _ _ _ _ hf]
  refine ⟨(info (by decide)).trans ?_, ?_, (info (by decide)).trans ?_⟩
  · unfold State.bump
    rw [State.fld_setFld_addr _ _ _ _ (by decide), State.fld_setFld_same _ _ _ (by decide)]
    rfl
  · unfold State.showImage
    rw [State.fld_setFld_other _ _ _ _ (by decide) (.inl (by decide)),
      State.fld_setFld_other _ _ _ _ (by decide) (.inl (by decide)), State.fld_setFld_same _ _ _ (by decide)]
    rfl
  · rw [(s.setFld F.LCR_IMG_LAST_FRAME frame).fld_bump_same (F.LCR_CNT_COUNT 7) 1 (by decide),
      State.fld_setFld_addr _ _ _ _ (by decide)]
    rfl

/-- The job is over: its buffer is ready, or free where it came late, and its layout kept. -/
def State.endJob (s : State) (j : Job) (rest : List Job) (k : Nat) (lay : TblSt) : State :=
  (s.updTile fun t => { t with
    jobs := rest, bufs := t.bufs.set k (if j.late then .free else .ready j.frame j.phase),
    lays := t.lays.set k lay }).setFld F.LCR_STAT_CORRECTING 0

theorem State.endJob_bufs (s : State) (j : Job) (rest : List Job) (k : Nat) (lay : TblSt) :
    (s.endJob j rest k lay).tile.bufs = s.tile.bufs.set k (if j.late then .free else .ready j.frame j.phase) := rfl

theorem State.fld_endJob (s : State) (j : Job) (rest : List Job) (k : Nat) (lay : TblSt) {f : Fld}
    (hf : f.addr ≠ F.LCR_STAT_CORRECTING.addr) : (s.endJob j rest k lay).fld f = s.fld f :=
  State.fld_setFld_addr _ _ _ _ hf

/-- The image of a job whose time has run is shown and counted, and its buffer is ready, unless it came late. -/
theorem State.correctionDone_shows {s : State} {j : Job} {rest : List Job} {k : Nat} (hj : s.tile.jobs = j :: rest)
    (hk : j.buf = some k) (ht : j.start + s.jobTicks j ≤ s.tick) (hd : s.bufDrains (s.imgBank k) = false) :
    s.correctionDone.fld F.LCR_IMG_LAST_FRAME = j.frame % 2 ^ 32 ∧
      s.correctionDone.fld F.LCR_IMG_LAST_INFO_PHASE = j.phase % 4 ∧
      s.correctionDone.fld (F.LCR_CNT_COUNT 7) = min (s.fld (F.LCR_CNT_COUNT 7) + 1) (2 ^ 32 - 1) ∧
      (k < s.tile.bufs.length → j.late = false → s.correctionDone.tile.bufs.getD k .free = .ready j.frame j.phase) := by
  have hcorr : ImagesKept s (s.correctImage j k) := .correctImage .refl
  have ends : ∃ addr lay, s.correctionDone =
      (((s.correctImage j k).showImage j.frame j.phase j.format addr).endJob j rest k lay).startJob := by
    unfold State.correctionDone
    rw [hj]
    dsimp only
    rw [hk]
    dsimp only
    rw [if_neg (by rw [hd]; simp only [Bool.false_eq_true, or_false]; omega)]
    generalize s.correctImage j k = u
    exact ⟨_, _, rfl⟩
  obtain ⟨addr, lay, ends⟩ := ends
  generalize s.correctImage j k = u at hcorr ends
  obtain ⟨hframe, hphase, hcount⟩ := u.showImage_shows j.frame j.phase j.format addr
  have hbufs : (u.showImage j.frame j.phase j.format addr).tile.bufs = s.tile.bufs := hcorr.bufs
  have before : u.fld (F.LCR_CNT_COUNT 7) = s.fld (F.LCR_CNT_COUNT 7) := State.fld_congr (hcorr.word 0xB011C (by decide))
  rw [before] at hcount
  generalize u.showImage j.frame j.phase j.format addr = v at *
  obtain ⟨-, -, hkept, hword⟩ := (v.endJob j rest k lay).startJob_keeps
  have held {f : Fld} (hf : f.addr ≠ F.LCR_STAT_CORRECTING.addr) : s.correctionDone.fld f = v.fld f := by
    rw [ends]
    exact (State.fld_congr (hword _ hf)).trans (State.fld_endJob _ _ _ _ _ hf)
  refine ⟨(held (by decide)).trans hframe, (held (by decide)).trans hphase, (held (by decide)).trans hcount,
    fun hlen hlate => ?_⟩
  have ready : (v.endJob j rest k lay).tile.bufs.getD k .free = .ready j.frame j.phase := by
    rw [State.endJob_bufs, hbufs]
    simp [hlate, hlen, List.getD_eq_getElem?_getD]
  rw [ends, hkept k (by rw [ready]; nofun), ready]

theorem correctionDone_completes {s : State} {j : Job} {rest : List Job} {k : Nat} (hj : s.tile.jobs = j :: rest)
    (hk : j.buf = some k) :
    (j.start + s.jobTicks j ≤ s.tick → s.bufDrains (s.imgBank k) = false →
      ∃ t, exec .correctionDone s = .next t ∧ t.fld F.LCR_IMG_LAST_FRAME = j.frame % 2 ^ 32 ∧
        t.fld F.LCR_IMG_LAST_INFO_PHASE = j.phase % 4 ∧
        t.fld (F.LCR_CNT_COUNT 7) = min (s.fld (F.LCR_CNT_COUNT 7) + 1) (2 ^ 32 - 1) ∧
        (k < s.tile.bufs.length → j.late = false → t.tile.bufs.getD k .free = .ready j.frame j.phase)) ∧
    ((s.tick < j.start + s.jobTicks j ∨ s.bufDrains (s.imgBank k) = true) → exec .correctionDone s = .next s) :=
  ⟨fun ht hd => ⟨_, rfl, State.correctionDone_shows hj hk ht hd⟩,
    fun h => congrArg Host.Outcome.next (State.correctionDone_waits hj hk h)⟩

end Sys2Proof.Machine
end

section
/-! Loads and windows of the lamp chains (R67, R308, R312, R317, R330). -/

namespace Sys2Proof.Machine

open Sys2Proof

/-! ### Plans -/

theorem State.plan_setPlan_same (s : State) (x : Plan) : (s.setPlan x).plan x.frame x.phase = some x := by
  simp [State.plan, State.setPlan, State.updTile]

/-- A plan found is the image's own, and so is one made anew. -/
theorem State.plan_image {s : State} {n p : Nat} {x : Plan} (h : s.plan n p = some x) : x.frame = n ∧ x.phase = p := by
  simpa using List.find?_some h

theorem State.plan_getD_image (s : State) (n p : Nat) :
    ((s.plan n p).getD { frame := n, phase := p }).frame = n ∧ ((s.plan n p).getD { frame := n, phase := p }).phase = p := by
  cases h : s.plan n p with
  | some x => exact State.plan_image h
  | none => exact ⟨rfl, rfl⟩

/-! ### Loads -/

namespace ImagesKept
variable {s t : State}

theorem lateJob {n p} (h : ImagesKept s t) : ImagesKept s (t.lateJob n p) := by
  fun_cases State.lateJob
  case case1 => exact .noteMissing (.log (by decide) (.setFld (by decide) h))
  case case2 => exact h
  case case3 => exact .noteMissing (.log (by decide) (.setFld (by decide) (.updTile h rfl rfl rfl rfl)))

theorem sendLoad {c phase arg shares first} (h : ImagesKept s t) :
    ImagesKept s (t.sendLoad c phase arg shares first) := { h with }

theorem loadBuffer {hd k n p} (h : ImagesKept s t) : ImagesKept s (t.loadBuffer hd k n p) :=
  .foldl (fun _ _ h => .sendLoad (.accountRead h)) (.setFld (by decide) h)

theorem setPlan {x} (h : ImagesKept s t) : ImagesKept s (t.setPlan x) := .updTile h rfl rfl rfl rfl

end ImagesKept

/-- A load that is due is taken once; an image without a lit time is loaded dark. -/
theorem State.chainLoad_taken {s : State} {n p : Nat} (hl : s.lampsOn = true) (hmode : s.mode = 5)
    (hfresh : (s.tile.lastLoad.all fun l => imgLt l.1 l.2 n p) = true) (hp : p < phasesOf (s.governing n p))
    (hat : s.at_ (s.tLoad n p) = true) (hlatch : (s.clk : Int) < s.tLatch n p) (hd : s.loadDrains n p = false) :
    (s.chainLoad n p).tile.lastLoad = some (n, p) ∧
      (s.litNs n p = 0 → ((s.chainLoad n p).plan n p).map (fun x => x.load) = some 2) := by
  have hm : (s.updTile fun t => { t with lastLoad := some (n, p) }).mode ≠ 7 := by
    rw [show (s.updTile fun t => { t with lastLoad := some (n, p) }).mode = 5 from hmode]
    decide
  have hdark : s.litNs n p = 0 → (s.updTile fun t => { t with lastLoad := some (n, p) }).loadDark n p = true :=
    fun h => decide_eq_true (.inl h)
  have hx := (s.updTile fun t => { t with lastLoad := some (n, p) }).plan_getD_image n p
  unfold State.chainLoad
  rw [if_neg (by simp only [hl, hmode, hfresh, hat, hd, not_true_eq_false, false_or, Bool.false_eq_true, or_false]; omega)]
  dsimp only
  rw [if_neg hm]
  have hlast : (s.updTile fun t => { t with lastLoad := some (n, p) }).tile.lastLoad = some (n, p) := rfl
  generalize (s.updTile fun t => { t with lastLoad := some (n, p) }) = u at *
  generalize (u.plan n p).getD { frame := n, phase := p } = x at *
  have kept {v : State} (hv : ImagesKept u v) (y : Plan) : (v.setPlan y).tile.lastLoad = some (n, p) :=
    hv.lastLoad.trans hlast
  have late : ImagesKept u (u.lateJob n p) := .lateJob .refl
  split
  · refine ⟨?_, fun _ => ?_⟩
    · change (match (u.lateJob n p).readyBuf n p with
        | some k => ((u.lateJob n p).setBuf k .free).startJob
        | none => u.lateJob n p).tile.lastLoad = _
      split
      · exact (State.startJob_keeps _).2.1.trans (late.lastLoad.trans hlast)
      · exact late.lastLoad.trans hlast
    · rw [← hx.1, ← hx.2]
      exact congrArg _ (State.plan_setPlan_same _ _)
  next hlight =>
    refine ⟨?_, fun h => absurd (hdark h) hlight⟩
    split
    · exact kept (.loadBuffer .refl) _
    · split
      · refine kept (.iteOn (.log (by decide)) (.setFld (by decide) (.setFld (by decide) (.noteMissing late)))) _
      · split
        · exact kept (.loadBuffer (.setFld (by decide) (.noteMissing late))) _
        · exact kept (.noteMissing late) _

theorem chainLoad_completes {s : State} {n : BitVec 64} {p : BitVec 2} (hl : s.lampsOn = true) (hmode : s.mode = 5)
    (hfresh : (s.tile.lastLoad.all fun l => imgLt l.1 l.2 n.toNat p.toNat) = true)
    (hp : p.toNat < phasesOf (s.governing n.toNat p.toNat)) (hat : s.at_ (s.tLoad n.toNat p.toNat) = true)
    (hlatch : (s.clk : Int) < s.tLatch n.toNat p.toNat) (hd : s.loadDrains n.toNat p.toNat = false) :
    ∃ t, exec (.chainLoad n p) s = .next t ∧ t.tile.lastLoad = some (n.toNat, p.toNat) ∧ t.mem = s.mem ∧
      t.cmd = s.cmd ∧ (s.litNs n.toNat p.toNat = 0 → (t.plan n.toNat p.toNat).map (fun x => x.load) = some 2) := by
  obtain ⟨hlast, hdark⟩ := State.chainLoad_taken hl hmode hfresh hp hat hlatch hd
  have apart : Apart .lamp s (s.chainLoad n.toNat p.toNat) := .chainLoad .refl
  exact ⟨_, rfl, hlast, apart.mem, apart.cmd, hdark⟩

/-! ### Windows -/

theorem State.launch_keeps (s : State) (hd : TblSt) (typ phase arg : Nat) (at_ : Int) (e : Nat) :
    (s.launch hd typ phase arg at_ e).out.length = s.out.length + (s.drivenChains hd).length ∧
      ∀ a, (s.launch hd typ phase arg at_ e).word a = s.word a := by
  unfold State.launch
  generalize s.drivenChains hd = l
  have step (l : List Nat) (f : State → Nat → Out) (g : State → Nat → Chain → Chain) : ∀ u : State,
      (l.foldl (fun (u : State) c => (u.emit (f u c)).updChain c (g u c)) u).out.length = u.out.length + l.length ∧
        ∀ a, (l.foldl (fun (u : State) c => (u.emit (f u c)).updChain c (g u c)) u).word a = u.word a := by
    induction l with
    | nil => exact fun _ => ⟨rfl, fun _ => rfl⟩
    | cons c l ih =>
      intro u
      obtain ⟨ho, hw⟩ := ih ((u.emit (f u c)).updChain c (g u c))
      refine ⟨ho.trans ?_, hw⟩
      change u.out.length + 1 + l.length = u.out.length + (l.length + 1)
      omega
  exact step l _ _ s

/-- A job that starts leaves the windows, their plans and what was sent. -/
theorem State.startJob_windows (s : State) : s.startJob.tile.lastWindow = s.tile.lastWindow ∧
    s.startJob.tile.plans = s.tile.plans ∧ s.startJob.out = s.out := by
  fun_cases State.startJob
  case case1 | case2 | case4 => exact ⟨rfl, rfl, rfl⟩
  case case3 => exact ⟨rfl, rfl, State.setFld_out ..⟩

/-- A lit window still open ends with the next latch. -/
def State.lastWindowEnds (s : State) (t : Int) : State :=
  match s.tile.lastWindow.bind fun w => s.plan w.1 w.2 with
  | some y => if y.ended then s else s.windowEnded y.frame y.phase t
  | none => s

theorem State.lastWindowEnds_keeps (s : State) (t : Int) :
    (s.lastWindowEnds t).out = s.out ∧ (s.lastWindowEnds t).regs = s.regs := by
  unfold State.lastWindowEnds
  split
  · split <;> exact ⟨rfl, rfl⟩
  · exact ⟨rfl, rfl⟩

/-- The window of an image is the last one, its buffer and its plan latched. -/
def State.windowLatched (s : State) (x : Plan) (n p : Nat) : State :=
  let s := s.updTile fun u => { u with
    lastWindow := some (n, p),
    bufs := u.bufs.mapIdx fun k b => if k = x.buf then .latched else if b = .latched then .free else b }
  let s := if p = 0 then s.allChains fun h => { h with cfgDue := true } else s
  s.setPlan { x with latched := true }

theorem State.windowLatched_keeps (s : State) (x : Plan) (n p : Nat) :
    (s.windowLatched x n p).tile.lastWindow = some (n, p) ∧
      (s.windowLatched x n p).plan x.frame x.phase = some { x with latched := true } ∧
      (s.windowLatched x n p).out = s.out ∧ (s.windowLatched x n p).regs = s.regs := by
  unfold State.windowLatched
  extract_lets t3 t4
  have h4 : t4.tile.lastWindow = some (n, p) ∧ t4.out = s.out ∧ t4.regs = s.regs := by
    unfold t4
    split <;> exact ⟨rfl, rfl, rfl⟩
  exact ⟨h4.1, t4.plan_setPlan_same { x with latched := true }, h4.2⟩

/-- A latched image of its own ends what was held before it. -/
def State.holdEnds (s : State) (n p : Nat) (t : Int) : State :=
  { s with red := { s.red with latched := true, lastLatch := some t,
                               holding := s.red.holding.filter fun e => !imgLt e.1 e.2 n p } }

theorem State.holdEnds_keeps (s : State) (n p : Nat) (t : Int) :
    (s.holdEnds n p t).tile = s.tile ∧ (s.holdEnds n p t).out = s.out ∧ (s.holdEnds n p t).regs = s.regs :=
  ⟨rfl, rfl, rfl⟩

/-- An image of its own ends the hold and shows it. -/
def State.ownLatched (s : State) (own : Bool) (n p : Nat) (t : Int) : State :=
  if own then ((s.setFld F.RED_TILE_HOLD_FRAMES 0).setFld F.RED_TILE_STAT_BLACK 0).holdEnds n p t else s

theorem State.ownLatched_keeps (s : State) (own : Bool) (n p : Nat) (t : Int) :
    (s.ownLatched own n p t).tile = s.tile ∧ (s.ownLatched own n p t).out = s.out ∧
      (s.ownLatched own n p t).word 0xC0204 = s.word 0xC0204 := by
  unfold State.ownLatched
  split
  · obtain ⟨htile, hout, hregs⟩ :=
      ((s.setFld F.RED_TILE_HOLD_FRAMES 0).setFld F.RED_TILE_STAT_BLACK 0).holdEnds_keeps n p t
    rw [htile, hout, State.word_congr hregs, State.setFld_tile, State.setFld_tile, State.setFld_out, State.setFld_out,
      State.word_setFld_other _ _ _ (by decide), State.word_setFld_other _ _ _ (by decide)]
    exact ⟨rfl, rfl, rfl⟩
  · exact ⟨rfl, rfl, rfl⟩

theorem State.latchLaunch_eq {s : State} {n p : Nat} {x : Plan} (hl : s.lampsOn = true) (hx : s.plan n p = some x)
    (hload : x.load = 1) (hlatched : x.latched = false) (hdue : s.launchDue x.lay ldLatch (s.tApply n p) = true) :
    s.latchLaunch n p = (((((s.launch x.lay ldLatch p 0 (s.tApply n p)).bump (F.LDR_CNT_COUNT 1)).lastWindowEnds
      (s.tApply n p)).windowLatched x n p).ownLatched x.own n p (s.tApply n p)).startJob := by
  unfold State.latchLaunch
  rw [hx]
  exact if_neg (by simp only [hl, hload, hlatched, hdue, not_true_eq_false, ne_eq, Bool.false_eq_true, or_self,
    not_false_eq_true])

/-- The latch of a loaded image: sent on every driven chain, counted, the window noted, the plan latched. -/
theorem State.latchLaunch_launches {s : State} {n p : Nat} {x : Plan} (hl : s.lampsOn = true) (hx : s.plan n p = some x)
    (hload : x.load = 1) (hlatched : x.latched = false) (hdue : s.launchDue x.lay ldLatch (s.tApply n p) = true) :
    (s.latchLaunch n p).tile.lastWindow = some (n, p) ∧
      ((s.latchLaunch n p).plan n p).map (fun y => y.latched) = some true ∧
      (s.latchLaunch n p).out.length = s.out.length + (s.drivenChains x.lay).length ∧
      (s.latchLaunch n p).fld (F.LDR_CNT_COUNT 1) = min (s.fld (F.LDR_CNT_COUNT 1) + 1) (2 ^ 32 - 1) := by
  obtain ⟨hout, hword⟩ := s.launch_keeps x.lay ldLatch p 0 (s.tApply n p) 0
  rw [State.latchLaunch_eq hl hx hload hlatched hdue]
  generalize s.launch x.lay ldLatch p 0 (s.tApply n p) = t1 at *
  have hcnt := t1.fld_bump_same (F.LDR_CNT_COUNT 1) 1 (by decide)
  rw [show t1.fld (F.LDR_CNT_COUNT 1) = s.fld (F.LDR_CNT_COUNT 1) from State.fld_congr (hword _)] at hcnt
  rw [← State.bump_out t1 (F.LDR_CNT_COUNT 1)] at hout
  generalize t1.bump (F.LDR_CNT_COUNT 1) = t2 at *
  obtain ⟨hout3, hregs3⟩ := t2.lastWindowEnds_keeps (s.tApply n p)
  generalize t2.lastWindowEnds (s.tApply n p) = t3 at *
  obtain ⟨hwin4, hplan4, hout4, hregs4⟩ := t3.windowLatched_keeps x n p
  generalize t3.windowLatched x n p = t4 at *
  obtain ⟨htile5, hout5, hword5⟩ := t4.ownLatched_keeps x.own n p (s.tApply n p)
  generalize t4.ownLatched x.own n p (s.tApply n p) = t5 at *
  obtain ⟨hwin, hplans, hjobOut⟩ := t5.startJob_windows
  obtain ⟨-, -, -, hjobWord⟩ := t5.startJob_keeps
  obtain ⟨rfl, rfl⟩ := State.plan_image hx
  have planned : t5.startJob.plan x.frame x.phase = t4.plan x.frame x.phase := by
    unfold State.plan
    rw [hplans, htile5]
  refine ⟨by rw [hwin, htile5, hwin4], by rw [planned, hplan4]; rfl, by rw [hjobOut, hout5, hout4, hout3, hout], ?_⟩
  refine (State.fld_congr ?_).trans hcnt
  exact (hjobWord _ (by decide)).trans (hword5.trans (State.word_congr (hregs4.trans hregs3) _))

theorem latchLaunch_completes {s : State} {n : BitVec 64} {p : BitVec 2} {x : Plan} (hl : s.lampsOn = true)
    (hx : s.plan n.toNat p.toNat = some x) (hload : x.load = 1) (hlatched : x.latched = false)
    (hdue : s.launchDue x.lay ldLatch (s.tApply n.toNat p.toNat) = true) :
    ∃ t, exec (.latchLaunch n p) s = .next t ∧ t.tile.lastWindow = some (n.toNat, p.toNat) ∧
      (t.plan n.toNat p.toNat).map (fun y => y.latched) = some true ∧
      t.out.length = s.out.length + (s.drivenChains x.lay).length ∧
      t.fld (F.LDR_CNT_COUNT 1) = min (s.fld (F.LDR_CNT_COUNT 1) + 1) (2 ^ 32 - 1) ∧ t.mem = s.mem ∧ t.cmd = s.cmd := by
  obtain ⟨hwin, hplan, hout, hcnt⟩ := State.latchLaunch_launches hl hx hload hlatched hdue
  have apart : Apart .lamp s (s.latchLaunch n.toNat p.toNat) := .latchLaunch .refl
  exact ⟨_, rfl, hwin, hplan, hout, hcnt, apart.mem, apart.cmd⟩

/-- Lamps that are driven await no BLANK on the way out of M5. -/
theorem State.blankThenLow_of_lampsOn {s : State} (hl : s.lampsOn = true) : s.sys.blankThenLow = false := by
  simp only [State.lampsOn, Bool.and_eq_true, Bool.not_eq_true'] at hl
  exact hl.1.2

section
variable {s : State} {n : BitVec 64} {p : BitVec 2} {x : Plan} (hl : s.lampsOn = true)
  (hx : s.plan n.toNat p.toNat = some x)
include hl hx

theorem blankLaunch_dark (hload : x.load = 2) (hend : x.ended = false)
    (hdue : s.launchDue x.lay ldBlank (s.tApply n.toNat p.toNat) (s.symbolDelay n.toNat p.toNat 2) = true) :
    exec (.blankLaunch n p true) s = .next ((s.launch x.lay ldBlank p.toNat 1 (s.tApply n.toNat p.toNat)
      (s.symbolDelay n.toNat p.toNat 2)).setPlan { x with ended := true }) := by
  refine congrArg Host.Outcome.next ?_
  unfold State.blankLaunch
  rw [hx]
  simp only [State.blankThenLow_of_lampsOn hl, hl, hload, hend, hdue, Bool.and_false, Bool.false_eq_true, if_false,
    not_true_eq_false, or_self, if_true, and_self]

theorem blankLaunch_lit (hload : x.load = 1) (hlatched : x.latched = true) (hend : x.ended = false)
    (hgap : ((8 * nsU : Nat) : Int) ≤ (s.litEnd n.toNat p.toNat).2)
    (hdue : s.launchDue x.lay ldBlank (s.litEnd n.toNat p.toNat).1 (s.symbolDelay n.toNat p.toNat 1) = true) :
    exec (.blankLaunch n p false) s = .next (((s.launch x.lay ldBlank p.toNat 0 (s.litEnd n.toNat p.toNat).1
      (s.symbolDelay n.toNat p.toNat 1)).setPlan { x with ended := true }).windowEnded n.toNat p.toNat
        (s.windowOver n.toNat p.toNat)) := by
  refine congrArg Host.Outcome.next ?_
  unfold State.blankLaunch
  rw [hx]
  simp only [hl, hload, hlatched, hend, hgap, hdue, Bool.false_and, Bool.false_eq_true, if_false,
    not_true_eq_false, or_self, if_true, true_or, and_self]

theorem diagLaunch_follows (hf : s.diagFollows n.toNat p.toNat = true) (hload : x.load = 1) (hend : x.ended = true)
    (hpulsed : x.pulsed = false)
    (hdue : s.launchDue x.lay ldDiag ((s.litEnd n.toNat p.toNat).1 +
      (rfld (s.governing n.toNat p.toNat) F.LDR_DIAG_OFFSET_OFFSET_NS * nsU : Nat)) (s.symbolDelay n.toNat p.toNat 3) = true) :
    let r := s.governing n.toNat p.toNat
    let us := rfld r F.LDR_DIAG_WIN_PULSE_US
    let t := (s.litEnd n.toNat p.toNat).1 + (rfld r F.LDR_DIAG_OFFSET_OFFSET_NS * nsU : Nat)
    let u := (s.launch x.lay ldDiag p.toNat us t (s.symbolDelay n.toNat p.toNat 3)).setPlan { x with pulsed := true }
    exec (.diagLaunch n p) s = .next
      (if us = 0 then u else (u.windowEnded n.toNat p.toNat (t + (usU us : Nat))).bump (F.LDR_CNT_COUNT 9)) := by
  refine congrArg Host.Outcome.next ?_
  unfold State.diagLaunch
  rw [hx]
  exact if_pos ⟨hl, hf, hload, .inl hend, by simp [hpulsed], hdue⟩

end

/-- Settles O58: the deadline and the end of a correction, the loads and windows of an image, and the reports, the
return line and the measurements of a chain, each by its own lemma above. -/
theorem lampImageEventsComplete : Obligations.LampImageEventsComplete := by
  unfold Obligations.LampImageEventsComplete
  refine ⟨⟨fun s n p hrole hmode hfresh hp hat hlatch => correctionDeadline_completes hrole hmode hfresh hp hat hlatch,
      fun s j rest k hj hk => correctionDone_completes hj hk⟩,
    ⟨fun s n p hl hmode hfresh hp hat hlatch hd => chainLoad_completes hl hmode hfresh hp hat hlatch hd,
      fun s c hl hd hdr he ht hm hc => ⟨_, rfl, State.configLoad_sends hl hd hdr he ht hm hc⟩⟩,
    fun s n p x hl hx => ⟨latchLaunch_completes hl hx, blankLaunch_dark hl hx, blankLaunch_lit hl hx,
      diagLaunch_follows hl hx⟩,
    fun s c x f hl hr hd hx he hli hc hw => reportSend_completes hl hr hd hx he hli hc hw,
    fun s c hl hc hb hw => returnRecord_completes s c hl hc hb hw,
    fun s e hm hc => chainMeasure_completes hm hc⟩

end Sys2Proof.Machine
end

section
/-! What the work of a wingbeat leaves as it was (R54): time, the transactions, and the registers of the mode. -/

namespace Sys2Proof.Machine

open Sys2Proof

/-- The clock, a wingbeat that is due, the transactions, the change of mode under way and the registers of the system
block stay. -/
structure BeatKeeps (s t : State) : Prop where
  clk : t.clk = s.clk
  beatAt : t.tm.beatAt = s.tm.beatAt
  txn : t.txn = s.txn
  change : t.sys.change = s.sys.change
  word : ∀ a, a < 0x10000 → t.word a = s.word a

namespace BeatKeeps
variable {s t u : State} {α : Type}

theorem refl : BeatKeeps s s := ⟨rfl, rfl, rfl, rfl, fun _ _ => rfl⟩

theorem ite {c : Prop} [Decidable c] {a b : State} (ha : BeatKeeps s a) (hb : BeatKeeps s b) :
    BeatKeeps s (if c then a else b) := by
  split <;> assumption

/-- A further step under a condition. -/
theorem iteOn {c : Prop} [Decidable c] {a b : State} (ha : BeatKeeps s b → BeatKeeps s a) (hb : BeatKeeps s b) :
    BeatKeeps s (if c then a else b) := .ite (ha hb) hb

theorem iteSnd {c : Prop} [Decidable c] {a b : α × State} (ha : BeatKeeps s a.2) (hb : BeatKeeps s b.2) :
    BeatKeeps s (if c then a else b).2 := by
  split <;> assumption

theorem foldl {f : State → α → State} {l : List α} (hf : ∀ t i, BeatKeeps s t → BeatKeeps s (f t i))
    (h : BeatKeeps s t) : BeatKeeps s (l.foldl f t) := by
  induction l generalizing t with
  | nil => exact h
  | cons i l ih => exact ih (hf t i h)

theorem foldlFst {β : Type} {f : State × β → α → State × β} {l : List α} {p : State × β}
    (hf : ∀ p i, BeatKeeps s p.1 → BeatKeeps s (f p i).1) (h : BeatKeeps s p.1) : BeatKeeps s (l.foldl f p).1 := by
  induction l generalizing p with
  | nil => exact h
  | cons i l ih => exact ih (hf p i h)

theorem ofPair {β : Type} {p : β × State} {y : β} (e : p = (y, t)) (h : BeatKeeps s p.2) : BeatKeeps s t := by
  subst e
  exact h

/-- What writes none of the parts followed, nor a register, leaves them. -/
theorem same {mem tick sec cmd err fab cdc ring memc eth ing cmp lnk tile red rnd out pending} (h : BeatKeeps s t) :
    BeatKeeps s ⟨t.regs, mem, t.clk, tick, t.sys, sec, t.tm, cmd, t.txn, err, fab, cdc, ring, memc, eth, ing, cmp, lnk,
      tile, red, rnd, out, pending⟩ := { h with }

theorem updTm {f : TimeSt → TimeSt} (hf : (f t.tm).beatAt = t.tm.beatAt) (h : BeatKeeps s t) : BeatKeeps s (t.updTm f) :=
  { h with beatAt := hf.trans h.beatAt }

theorem updSys {f : SysSt → SysSt} (hf : (f t.sys).change = t.sys.change) (h : BeatKeeps s t) :
    BeatKeeps s (t.updSys f) :=
  { h with change := hf.trans h.change }

theorem setFld {f : Fld} {v : Nat} (hf : 0x10000 ≤ f.addr) (h : BeatKeeps s t) : BeatKeeps s (t.setFld f v) :=
  { h with word := fun a ha => (t.word_setFld_other f v (by omega)).trans (h.word a ha) }

/-- A field of an array of registers, whose index is added to its base. -/
theorem setAt {b d lo w v : Nat} (hb : 0x10000 ≤ b) (h : BeatKeeps s t) : BeatKeeps s (t.setFld ⟨b + d, lo, w⟩ v) :=
  .setFld (Nat.le_add_right_of_le hb) h

/-- A field of an array with two indexes. -/
theorem setAt₂ {b d e lo w v : Nat} (hb : 0x10000 ≤ b) (h : BeatKeeps s t) :
    BeatKeeps s (t.setFld ⟨b + d + e, lo, w⟩ v) :=
  .setAt (Nat.le_add_right_of_le hb) h

theorem log {n d p} (hn : n.sev < 4) (h : BeatKeeps s t) : BeatKeeps s (t.log n d p) where
  clk := (t.log_clk n d p).trans h.clk
  beatAt := (congrArg _ (t.log_tm n d p)).trans h.beatAt
  txn := (t.log_txn n d p).trans h.txn
  change := (congrArg _ (t.log_sys n d p)).trans h.change
  word := fun a ha => (t.log_word_block d p hn (by omega) (by omega)).trans (h.word a ha)

/-! ### A mode entered (R14) -/

theorem freeCredits {q c} (h : BeatKeeps s t) : BeatKeeps s (t.freeCredits q c) := .ite h (.same h)

/-- The receive buffers in which cells stand are freed. -/
theorem freeAll {l : List QCell} (h : BeatKeeps s t) : BeatKeeps s (l.foldl (fun (t : State) e => match e.frees with
    | some a => t.freeCredits a.toNat e.cell
    | none => t) t) := by
  refine .foldl (fun _ _ ht => ?_) h
  split
  · exact .freeCredits ht
  · exact ht

theorem portDown {q st} (h : BeatKeeps s t) : BeatKeeps s (t.portDown q st) := by
  unfold State.portDown
  extract_lets gone t1 t2 _ t3 t4 t5 _
  have h4 : BeatKeeps s t4 := .setAt (by decide) (.setAt (by decide) (.same (.setFld (by decide) (.freeAll h))))
  exact .same (.setAt (by decide) (.same (.ite (.setAt (by decide) h4) h4)))

theorem abortCal {q} (h : BeatKeeps s t) : BeatKeeps s (t.abortCal q) :=
  .ite (.ite (.ite (.same (.same h)) (.setFld (by decide) (.setFld (by decide) (.same (.same h))))) (.same h)) h

theorem endChecks {q} (h : BeatKeeps s t) : BeatKeeps s (t.endChecks q) :=
  .foldl (fun _ _ h => .setAt₂ (by decide) h) h

theorem disablePort {q} (h : BeatKeeps s t) : BeatKeeps s (t.disablePort q) :=
  .ite h (.portDown (.ite (.endChecks (.abortCal h)) (.same (.endChecks (.abortCal h)))))

theorem dropRaster {q} (h : BeatKeeps s t) : BeatKeeps s (t.dropRaster q) := .same (.freeAll h)

theorem redBits (h : BeatKeeps s t) : BeatKeeps s t.redBits := .setFld (by decide) (.setFld (by decide) h)

theorem sourceChange {c} (h : BeatKeeps s t) : BeatKeeps s (t.sourceChange c) := by
  have taken {k} : BeatKeeps s ((t.takeSource k).bump (F.RED_CNT_COUNT 7)) :=
    .setFld (by decide) (.redBits (.same (.setFld (by decide) h)))
  fun_cases State.sourceChange
  case case1 => exact .ite h (.ite taken (.log (by decide) taken))
  case case2 => exact .redBits (.same (.setFld (by decide) h))

theorem stopJobs (h : BeatKeeps s t) : BeatKeeps s t.stopJobs := .setFld (by decide) (.same h)

theorem leaveTile (h : BeatKeeps s t) : BeatKeeps s t.leaveTile :=
  .same (.same (.updSys rfl (.stopJobs (.foldl (fun _ _ h => .sourceChange h) (.same h)))))

theorem leaveService (h : BeatKeeps s t) : BeatKeeps s t.leaveService :=
  .foldl (fun _ _ h => .same (.iteOn .endChecks h)) (.ite (.same (.same (.same h))) h)

theorem startMeasure {which} (h : BeatKeeps s t) : BeatKeeps s (t.startMeasure which) :=
  .foldl (fun _ _ h => .iteOn .same h) h

theorem igmpSend {j b} (h : BeatKeeps s t) : BeatKeeps s (t.igmpSend j b) :=
  .ite (.same (.setAt₂ (by decide) h)) h

theorem rejoin (h : BeatKeeps s t) : BeatKeeps s t.rejoin :=
  .ite h (.same (.foldl (fun _ _ h => .same (.igmpSend h)) (.foldl (fun _ _ h => .same (.igmpSend h)) h)))

/-- What a mode entered takes with it: all that is followed stays, from the state in which `CUR` reads it. -/
theorem enterMode {m} : BeatKeeps (s.setFld F.SYS_MODE_CUR m) (s.enterMode m) := by
  unfold State.enterMode
  extract_lets old was s1 s2 s3 s4 s5 s6 s7 s8
  have h2 : BeatKeeps s1 s2 := .ite (.foldl (fun _ _ h => .disablePort h) .refl) .refl
  have h3 : BeatKeeps s1 s3 := .iteOn (.foldl fun _ _ h => .dropRaster h) h2
  have h4 : BeatKeeps s1 s4 := .iteOn .leaveTile h3
  have h5 : BeatKeeps s1 s5 := .iteOn .leaveService h4
  have h6 : BeatKeeps s1 s6 := .iteOn (fun h => .startMeasure (.updSys rfl h)) h5
  have h7 : BeatKeeps s1 s7 := .iteOn (.foldl fun _ _ h => .same h) h6
  exact .rejoin (.iteOn (fun h => .setFld (by decide) (.same h)) h7)

/-! ### The time cell and the pulse -/

theorem emitTime {frame ann egress} (h : BeatKeeps s t) : BeatKeeps s (t.emitTime frame ann egress) := by
  unfold State.emitTime
  extract_lets status send t1
  have sent (u : State) (q : Nat) (hu : BeatKeeps s u) : BeatKeeps s (send u q) :=
    have counted : BeatKeeps s (u.bump (F.FAB_CNT_COUNT 0)) := .setFld (by decide) hu
    .same counted
  have h1 : BeatKeeps s t1 := .ite h (.foldl sent h)
  exact .updTm rfl h1

theorem wingbeatCell {n} (h : BeatKeeps s t) : BeatKeeps s (t.wingbeatCell n) :=
  have drawn : BeatKeeps s t.draw.2 := .same h
  .ite (.emitTime drawn) h

theorem fsyncOut {n i} (h : BeatKeeps s t) : BeatKeeps s (t.fsyncOut n i) :=
  .ite (.same (.updTm rfl (.ite (.same h) h))) h

/-! ### Memory -/

theorem accountWord {cl w} (h : BeatKeeps s t) : BeatKeeps s (t.accountWord cl w) := by
  have limit {key max} {v : State} (hv : BeatKeeps s v) : BeatKeeps s (v.limit key max).2 := .iteSnd (.same hv) (.same hv)
  have counted (pl : Place) (k : Nat) (g : Fld) (hg : 0x10000 ≤ g.addr) :
      BeatKeeps s (match pl with | .dram c => t.bump (F.MEM_CH_CNT_COUNT c k) | _ => t.bump g) := by
    split
    · exact .setAt₂ (by decide) h
    · exact .setFld hg h
  fun_cases State.accountWord
  case case1 | case4 => exact h
  case case2 => exact .log (by split <;> decide) (.ofPair ‹_› (limit (counted _ _ _ (by decide))))
  case case3 => exact .ofPair ‹_› (limit (counted _ _ _ (by decide)))
  case case5 => exact .log (by decide) (.same (.ofPair ‹_› (limit (counted _ _ _ (by decide)))))
  case case6 => exact .same (.ofPair ‹_› (limit (counted _ _ _ (by decide))))

theorem serve {cl a n} (h : BeatKeeps s t) : BeatKeeps s (t.serve cl a n) :=
  .foldl (fun _ _ h => .ite (.setFld (by simp only [F.MEM_CLS_CNT_COUNT]; omega) h) h) h

theorem accountRead {cl a n} (h : BeatKeeps s t) : BeatKeeps s (t.accountRead cl a n) :=
  .serve (.setFld (by decide) (.foldl (fun _ _ h => .accountWord h) h))

theorem tblInvalidate {k} (h : BeatKeeps s t) : BeatKeeps s (t.tblInvalidate k) :=
  .setAt (by decide) (.setAt (by decide) (.setAt (by decide) (.setFld (by decide) h)))

theorem noteWrite {a n} (h : BeatKeeps s t) : BeatKeeps s (t.noteWrite a n) := by
  unfold State.noteWrite
  extract_lets meets t1
  have h1 : BeatKeeps s t1 := .foldl (fun _ _ h => .iteOn .tblInvalidate h) h
  split
  · exact .ite { h1 with } h1
  · exact h1

theorem dropScrub {cl w} (h : BeatKeeps s t) : BeatKeeps s (t.dropScrub cl w) := by
  unfold State.dropScrub
  extract_lets hit gone t1
  refine .ite h ?_
  split
  · exact .setAt₂ (by decide) (.same h)
  · exact .setFld (by decide) (.setFld (by decide) (.same h))

theorem storeWord {w d p} (h : BeatKeeps s t) : BeatKeeps s (t.storeWord w d p) := by
  have stored {v : State} (hv : BeatKeeps s v) (l : List Nat) (f : Nat → Nat) (g : Nat → Byte) :
      BeatKeeps s (l.foldl (fun u i => u.setByte (f i) (g i)) v) := .foldl (fun _ _ h => .same h) hv
  unfold State.storeWord
  extract_lets t1 _ t2
  have h2 : BeatKeeps s t2 := .same (stored (.noteWrite h) _ _ _)
  refine .ite ?_ h2
  split
  · exact .setAt₂ (by decide) h2
  · exact .setFld (by decide) h2
  · exact h2

theorem putWord {cl w d p} (h : BeatKeeps s t) : BeatKeeps s (t.putWord cl w d p) := by
  fun_cases State.putWord
  case case1 => exact .iteOn (.setFld (by decide)) (.dropScrub h)
  case case2 => exact .same (.storeWord (.iteOn (.setFld (by decide)) (.dropScrub h)))
  case case3 => exact .storeWord (.dropScrub h)

theorem writeBytes {cl a bs} (h : BeatKeeps s t) : BeatKeeps s (t.writeBytes cl a bs) :=
  .serve (.ite h (.foldl (fun _ _ h => .ite h (.ite (.putWord h) (.putWord (.accountWord h)))) h))

/-! ### The compositor (R162 to R200) -/

theorem selectFor {v k n} (h : BeatKeeps s t) : BeatKeeps s (t.selectFor v k n).2 := by
  have repeated (cur : LayerSel) {put : State → LayerSel → State} {w : State} (hw : BeatKeeps s w)
      (hp : ∀ u l, BeatKeeps s u → BeatKeeps s (put u l)) : BeatKeeps s (State.selectFor.repeatCase k n w cur put).2 := by
    unfold State.selectFor.repeatCase
    exact hp _ _ (.ite (.setAt (by decide) hw) hw)
  fun_cases State.selectFor
  case case1 => exact repeated _ (.same h) fun _ _ h => .same h
  case case2 => exact .same (.same h)
  case case3 => exact repeated _ (.same h) fun _ _ h => .same h

theorem selectFrames {n} (h : BeatKeeps s t) : BeatKeeps s (t.selectFrames n) := by
  unfold State.selectFrames
  extract_lets selects t1 now _
  have h1 : BeatKeeps s t1 := by
    refine .foldl (fun t v ht => .ite ?_ (.same ht)) h
    split
    next e =>
    have hs := BeatKeeps.ofPair e (.selectFor ht)
    exact .ite (.setAt (by decide) (.setAt (by decide) (.setAt (by decide) hs))) (.ite hs (.setAt (by decide) hs))
  exact .same h1

theorem setFlip {g f} (h : BeatKeeps s t) : BeatKeeps s (t.setFlip g f) :=
  .setAt (by decide) (.setAt (by decide) (.setAt (by decide) (.setAt (by decide) (.setAt (by decide)
    (.setAt (by decide) (.same h))))))

theorem gateFlip {n g} (h : BeatKeeps s t) : BeatKeeps s (t.gateFlip n g) := by
  fun_cases State.gateFlip
  case case1 | case2 => exact .setAt (by decide) h
  case case3 => exact .setFld (by decide) (.setAt (by decide) (.setFlip (.setAt (by decide) h)))
  case case4 => exact .setAt (by decide) (.setAt (by decide) (.setAt (by decide) h))

theorem gateBeat {n before} (h : BeatKeeps s t) : BeatKeeps s (t.gateBeat n before) :=
  .foldl (fun _ _ h => .setAt (by decide) h) (.foldl (fun _ _ h => .gateFlip h) (.same (.same h)))

theorem lbWrite {k off bs} (h : BeatKeeps s t) : BeatKeeps s (t.lbWrite k off bs) :=
  .foldlFst (fun _ _ h => .writeBytes h) h

theorem fetchInput {img k f l lo hi} (h : BeatKeeps s t) : BeatKeeps s (t.fetchInput img k f l lo hi) :=
  .accountRead (.setAt₂ (by decide) h)

theorem loadWindow {img k key} (h : BeatKeeps s t) : BeatKeeps s (t.loadWindow img k key) :=
  .same (.foldl (fun _ _ h => .fetchInput h) h)

theorem loadSlot {img k j l} (h : BeatKeeps s t) : BeatKeeps s (t.loadSlot img k j l) := by
  unfold State.loadSlot
  refine .same ?_
  split
  · exact h
  · exact .lbWrite (.fetchInput h)

theorem beginSlots {img k} (h : BeatKeeps s t) : BeatKeeps s (t.beginSlots img k) := by
  refine .ite (.same h) (.foldl (fun _ _ h => ?_) (.same h))
  split
  · exact .same (.loadSlot h)
  · exact h

theorem beginScaler {img p k} (h : BeatKeeps s t) : BeatKeeps s (t.beginScaler img p k) :=
  .iteOn .beginSlots (.iteOn .loadWindow (.ite (.iteOn .same (.selectFor h)) h))

theorem composeBeat {n} (h : BeatKeeps s t) : BeatKeeps s (t.composeBeat n) := by
  unfold State.composeBeat
  extract_lets old err t1 t2 t3 t4 run t5
  have h1 : BeatKeeps s t1 := .setFld (by decide) h
  have h3 : BeatKeeps s t3 := .foldl (fun _ _ h => .ite h (.log (by decide) (.setAt (by decide) h)))
    (.ite (.log (by decide) h1) h1)
  have h5 : BeatKeeps s t5 := .same (.selectFrames (.gateBeat h3))
  exact .ite (.ite (.foldl (fun _ _ h => .beginScaler h) (.same h5)) h5) h

/-! ### The region map, write-back, and a tile's chains -/

theorem mapBeat (h : BeatKeeps s t) : BeatKeeps s t.mapBeat := by
  unfold State.mapBeat
  extract_lets rows bad words old first t1 t2 t3 t4 t5
  have h5 : BeatKeeps s t5 := .setFld (by decide) (.setFld (by decide) (.setFld (by decide) (.setFld (by decide)
    (.foldl (fun _ _ h => .setAt (by decide) h) h))))
  exact .ite (.ite h5 (.log (by decide) h5)) h

theorem wbChoose {n} (h : BeatKeeps s t) : BeatKeeps s (t.wbChoose n) := by
  fun_cases State.wbChoose
  case case1 => exact .setFld (by decide) (.same (.same h))
  case case2 => exact .setFld (by decide) (.same h)

theorem wbBeat {n} (h : BeatKeeps s t) : BeatKeeps s (t.wbBeat n) :=
  .ite (.iteOn .wbChoose (.setFld (by decide) (.same (.setFld (by decide) h)))) h

theorem lcrBeat (h : BeatKeeps s t) : BeatKeeps s t.lcrBeat :=
  have stopped {c : Prop} [Decidable c] := ite (c := c) h (.stopJobs h)
  .ite (.ite stopped (.log (by decide) (.setFld (by decide) stopped))) h

theorem fadeBeat {n} (h : BeatKeeps s t) : BeatKeeps s (t.fadeBeat n) := by
  unfold State.fadeBeat
  refine .foldl (fun _ _ ht => ?_) h
  split
  · extract_lets start
    exact .ite ht (.same (.setAt (by decide) (.setAt (by decide) ht)))
  · exact ht

theorem groupTemps (h : BeatKeeps s t) : BeatKeeps s t.groupTemps := by
  unfold State.groupTemps
  refine .foldl (fun _ _ ht => ?_) h
  extract_lets put
  split
  · exact .setAt (by decide) ht
  · extract_lets t1 warn was
    have h1 : BeatKeeps s t1 := .setAt (by decide) (.setAt (by decide) ht)
    exact .ite (.ite h1 (.log (by decide) (.same h1))) (.ite (.same h1) h1)

theorem driveBeat {n} (h : BeatKeeps s t) : BeatKeeps s (t.driveBeat n) :=
  .same (.foldl (fun _ _ h => .setAt (by decide) h) (.groupTemps (.fadeBeat h)))

theorem refreshShort (h : BeatKeeps s t) : BeatKeeps s t.refreshShort :=
  .foldl (fun _ _ h => .ite h (.iteOn (.log (by decide)) (.setAt (by decide) h))) h

theorem startJob (h : BeatKeeps s t) : BeatKeeps s t.startJob := by
  fun_cases State.startJob
  case case1 | case2 | case4 => exact h
  case case3 => exact .setFld (by decide) (.same h)

theorem ldrBeat {n} (h : BeatKeeps s t) : BeatKeeps s (t.ldrBeat n) :=
  .ite (.ite (.refreshShort (.driveBeat (.ite h (.log (by decide) (.setFld (by decide) h)))))
    (.startJob (.same (.refreshShort (.driveBeat (.ite h (.log (by decide) (.setFld (by decide) h)))))))) h

theorem redBeat {n} (h : BeatKeeps s t) : BeatKeeps s (t.redBeat n) :=
  have digest : BeatKeeps s (t.redDigest n) :=
    .ite (.setFld (by decide) (.setFld (by decide)
      { h with word := fun a ha => (State.word_setWord_other t _ (ne_of_lt (ha.trans (by decide)))).trans (h.word a ha) })) h
  .iteOn .same (.iteOn (fun h => .same (.setFld (by decide) h)) (.iteOn (.setFld (by decide)) digest))

end BeatKeeps

end Sys2Proof.Machine
end

section
/-! The wingbeat (R54, R57): with nothing due the frame turns, and a change of mode that waited for it is complete. -/

namespace Sys2Proof.Machine

open Sys2Proof

/-! ### Nothing due -/

theorem State.pendingTxns_nil {s : State} (h : s.txn.txns = []) : s.pendingTxns = [] := by
  simp [State.pendingTxns, h, sortBy]

theorem State.applyDue_idle {s : State} (ht : s.txn.txns = []) (ha : s.txn.actions = []) : s.applyDue = s := by
  simp [State.applyDue, State.dueInstants, State.pendingTxns_nil ht, ha, sortBy]

theorem State.updTxn_eq_self {s : State} {f : TxnSt → TxnSt} (h : f s.txn = s.txn) : s.updTxn f = s := by
  unfold State.updTxn
  rw [h]

theorem State.gridBegins_idle {s : State} (ht : s.txn.txns = []) (n t : Nat) : s.gridBegins n t = s := by
  unfold State.gridBegins
  rw [State.updTxn_eq_self (by rw [ht]; exact congrArg (fun l => { s.txn with txns := l }) ht.symm)]
  exact if_pos rfl

/-! ### The mode -/

theorem State.modeBeat_time (s : State) (t : Nat) :
    (s.modeBeat t).clk = s.clk ∧ (s.modeBeat t).tm.beatAt = s.tm.beatAt := by
  fun_cases State.modeBeat
  case case1 | case3 | case4 => exact ⟨rfl, rfl⟩
  case case2 c _ _ _ =>
    have h : BeatKeeps (s.setFld F.SYS_MODE_CUR c.target.toNat) (s.enterMode c.target.toNat) := .enterMode
    exact ⟨h.clk, h.beatAt⟩

theorem State.modeBeat_none {s : State} (h : s.sys.change = none) (t : Nat) : s.modeBeat t = s := by
  unfold State.modeBeat
  rw [h]

/-- A change that takes effect at a wingbeat, requested 1 ms before, is complete at it. -/
theorem State.modeBeat_completes {s : State} {c : ModeChange} {t : Nat} (hc : s.sys.change = some c)
    (hb : atBeat c.origin.toNat c.target.toNat = true) (ht : c.at_ + usU 1000 ≤ t) (h2 : c.target ≠ 2) :
    (s.modeBeat t).mode = c.target.toNat ∧ (s.modeBeat t).sys.change = none ∧
      (s.modeBeat t).fld F.SYS_MODE_BUSY = 0 := by
  unfold State.modeBeat
  rw [hc]
  dsimp only
  rw [if_pos ⟨hb, ht⟩, if_neg h2]
  exact ⟨(State.modeDone_mode _).trans (s.enterMode_mode c.target.isLt), rfl, State.modeDone_busy _⟩

/-- The rest of a frame's start. -/
theorem State.frameStart_keeps {s : State} (hm : s.mode ≠ 0) (n t : Nat) : BeatKeeps (s.modeBeat t) (s.frameStart n t) := by
  unfold State.frameStart
  rw [if_neg hm]
  exact .redBeat (.ldrBeat (.lcrBeat (.wbBeat (.mapBeat (.composeBeat (.fsyncOut (.wingbeatCell .refl)))))))

theorem State.frameStart_time (s : State) (n t : Nat) :
    (s.frameStart n t).clk = s.clk ∧ (s.frameStart n t).tm.beatAt = s.tm.beatAt := by
  by_cases hm : s.mode = 0
  · unfold State.frameStart
    rw [if_pos hm]
    exact ⟨rfl, rfl⟩
  · have h := State.frameStart_keeps hm n t
    obtain ⟨hclk, hbeat⟩ := s.modeBeat_time t
    exact ⟨h.clk.trans hclk, h.beatAt.trans hbeat⟩

/-- Without a change the mode stays, in M0 and elsewhere. -/
theorem State.frameStart_mode {s : State} (h : s.sys.change = none) (n t : Nat) : (s.frameStart n t).mode = s.mode := by
  by_cases hm : s.mode = 0
  · unfold State.frameStart
    rw [if_pos hm]
  · have hk := State.frameStart_keeps hm n t
    rw [State.modeBeat_none h] at hk
    exact State.fld_congr (hk.word _ (by decide))

theorem State.frameStart_completes {s : State} {c : ModeChange} (n : Nat) {t : Nat} (hm : s.mode ≠ 0)
    (hc : s.sys.change = some c) (hb : atBeat c.origin.toNat c.target.toNat = true) (ht : c.at_ + usU 1000 ≤ t)
    (h2 : c.target ≠ 2) :
    (s.frameStart n t).mode = c.target.toNat ∧ (s.frameStart n t).sys.change = none ∧
      (s.frameStart n t).fld F.SYS_MODE_BUSY = 0 := by
  obtain ⟨hmode, hchange, hbusy⟩ := State.modeBeat_completes hc hb ht h2
  have h := State.frameStart_keeps hm n t
  exact ⟨(State.fld_congr (h.word _ (by decide))).trans hmode, h.change.trans hchange,
    (State.fld_congr (h.word _ (by decide))).trans hbusy⟩

/-! ### The frame turns -/

theorem State.frameTurn_turns (s : State) (n t : Nat) (h : s.tm.beatAt = none) :
    (s.frameTurn n t).tm.curFrame = n ∧ (s.frameTurn n t).tm.curBeat = t ∧ (s.frameTurn n t).tm.nextFrame = n + 1 ∧
      (s.frameTurn n t).tm.beatAt = none := by
  refine ⟨rfl, rfl, ?_, rfl⟩
  change s.followingFrame n t = n + 1
  unfold State.followingFrame
  rw [h]
  rfl

theorem State.wingbeat_turns {s : State} (hn : s.nearest s.nextBeat = true) (ht : s.txn.txns = [])
    (ha : s.txn.actions = []) :
    s.wingbeat = (s.frameStart s.tm.nextFrame s.nextBeat).frameTurn s.tm.nextFrame s.nextBeat := by
  unfold State.wingbeat
  dsimp only
  rw [if_pos hn, State.applyDue_idle ht ha, State.gridBegins_idle ht]

theorem wingbeat_completes (s : State) :
    (s.nearest s.nextBeat = true → s.txn.txns = [] → s.txn.actions = [] → s.tm.beatAt = none →
      ∃ t, exec .wingbeat s = .next t ∧ t.tm.curFrame = s.tm.nextFrame ∧ t.tm.curBeat = s.nextBeat ∧
        t.tm.nextFrame = s.tm.nextFrame + 1 ∧ t.tm.beatAt = none ∧ t.clk = s.clk ∧
        (s.sys.change = none → t.mode = s.mode) ∧
        (∀ c, s.sys.change = some c → s.mode ≠ 0 → atBeat c.origin.toNat c.target.toNat = true →
          c.at_ + usU 1000 ≤ s.nextBeat → c.target ≠ 2 →
          t.mode = c.target.toNat ∧ t.sys.change = none ∧ t.fld F.SYS_MODE_BUSY = 0)) ∧
    (s.nearest s.nextBeat = false → exec .wingbeat s = .next s) := by
  refine ⟨fun hn ht ha hb => ⟨_, rfl, ?_⟩, fun hn => congrArg Host.Outcome.next (if_neg (Bool.not_eq_true _ ▸ hn))⟩
  obtain ⟨hclk, hbeat⟩ := s.frameStart_time s.tm.nextFrame s.nextBeat
  obtain ⟨hcur, hcurBeat, hnext, hnone⟩ :=
    State.frameTurn_turns (s.frameStart s.tm.nextFrame s.nextBeat) s.tm.nextFrame s.nextBeat (hbeat.trans hb)
  rw [State.wingbeat_turns hn ht ha]
  exact ⟨hcur, hcurBeat, hnext, hnone, hclk, fun hc => State.frameStart_mode hc _ _,
    fun c hc hm hab hat h2 => State.frameStart_completes _ hm hc hab hat h2⟩

end Sys2Proof.Machine
end

section
/-! A transaction at its apply instant (R117, R123, R128). -/

namespace Sys2Proof.Machine

open Sys2Proof

/-! ### What the effects of entries leave -/

/-- The transactions and the scheduled actions stay, and so, where `P` holds, do the registers of the region map. -/
structure TxnsKept (P : Prop) (s t : State) : Prop where
  txns : t.txn.txns = s.txn.txns
  actions : t.txn.actions = s.txn.actions
  map : P → ∀ a, a / 0x10000 = 8 → t.word a = s.word a

namespace TxnsKept
variable {P : Prop} {s t u : State} {α : Type}

theorem refl : TxnsKept P s s := ⟨rfl, rfl, fun _ _ _ => rfl⟩

theorem trans (h : TxnsKept P s t) (h' : TxnsKept P t u) : TxnsKept P s u :=
  ⟨h'.txns.trans h.txns, h'.actions.trans h.actions, fun p a ha => (h'.map p a ha).trans (h.map p a ha)⟩

theorem ite {c : Prop} [Decidable c] {a b : State} (ha : TxnsKept P s a) (hb : TxnsKept P s b) :
    TxnsKept P s (if c then a else b) := by
  split <;> assumption

/-- A further step under a condition. -/
theorem iteOn {c : Prop} [Decidable c] {a b : State} (ha : TxnsKept P s b → TxnsKept P s a) (hb : TxnsKept P s b) :
    TxnsKept P s (if c then a else b) := .ite (ha hb) hb

theorem foldlMem {f : State → α → State} {l : List α} (hf : ∀ t, ∀ i ∈ l, TxnsKept P s t → TxnsKept P s (f t i))
    (h : TxnsKept P s t) : TxnsKept P s (l.foldl f t) := by
  induction l generalizing t with
  | nil => exact h
  | cons i l ih =>
    exact ih (fun t j hj => hf t j (List.mem_cons_of_mem _ hj)) (hf t i List.mem_cons_self h)

theorem foldl {f : State → α → State} {l : List α} (hf : ∀ t i, TxnsKept P s t → TxnsKept P s (f t i))
    (h : TxnsKept P s t) : TxnsKept P s (l.foldl f t) := .foldlMem (fun t i _ => hf t i) h

/-- What writes neither the transactions nor a register leaves them. -/
theorem same {mem clk tick sys sec tm cmd err fab cdc ring memc eth ing cmp lnk tile red rnd out pending}
    (h : TxnsKept P s t) : TxnsKept P s ⟨t.regs, mem, clk, tick, sys, sec, tm, cmd, t.txn, err, fab, cdc, ring, memc,
      eth, ing, cmp, lnk, tile, red, rnd, out, pending⟩ := { h with }

theorem setFld {f : Fld} {v : Nat} (hf : 0x90000 ≤ f.addr) (h : TxnsKept P s t) : TxnsKept P s (t.setFld f v) :=
  { h with map := fun p a ha => (t.word_setFld_other f v (by omega)).trans (h.map p a ha) }

theorem ofApart (h : Apart .lamp t u) (h' : TxnsKept P s t) : TxnsKept P s u :=
  h'.trans ⟨congrArg _ h.txn, congrArg _ h.txn, fun _ a ha => h.word a (by simp [Actor.blocks, ha])⟩

theorem ofTxn (hP : ¬ P) (h : u.txn = t.txn) (h' : TxnsKept P s t) : TxnsKept P s u :=
  h'.trans ⟨congrArg _ h, congrArg _ h, (absurd · hP)⟩

theorem banksApplied {addrs} (h : TxnsKept P s t) : TxnsKept P s (t.banksApplied addrs) := by
  have hb (b c : Nat) (hb : 0x90000 ≤ b) : 0x90000 ≤ b + c := Nat.le_add_right_of_le hb
  exact .foldl (fun _ _ h => .ite (.ite (.setFld (hb _ _ (by decide)) h) (.setFld (hb _ _ (by decide))
    (.setFld (hb _ _ (by decide)) (.setFld (hb _ _ (by decide)) h)))) h) h

theorem rejoin (h : TxnsKept P s t) : TxnsKept P s t.rejoin := by
  have hr : MediaKeeps EthAddr t t.rejoin := .rejoin (fun m hm => by simp only [EthAddr, F.ETH_CNT_COUNT]; omega) .refl
  exact h.trans ⟨congrArg _ hr.txn, congrArg _ hr.txn, fun _ a ha => hr.word a (by simp [EthAddr, ha])⟩

theorem exchangeNow (hP : ¬ P) (h : TxnsKept P s t) : TxnsKept P s t.exchangeNow := by
  have entered (u : State) (m : Nat) : (u.enterMode m).txn = u.txn := (BeatKeeps.enterMode (s := u) (m := m)).txn
  unfold State.exchangeNow
  extract_lets m e t1
  have asked : t1.txn = t.txn := rfl
  exact .ite (.ofTxn hP ((entered t1 m).trans asked) h) (.ofTxn hP asked h)

/-- The effects of a transaction's entries, once the registers have them; a switch of the pair moves the mode. -/
theorem runEntries {x : Txn} (hP : P → ∀ c, .redSwitch c ∉ x.entries) :
    TxnsKept P { s with regs := entriesOnRegs x.entries s.regs } (s.runEntries x) := by
  have hs : TxnsKept P { s with regs := entriesOnRegs x.entries s.regs } { s with regs := entriesOnRegs x.entries s.regs } :=
    .refl
  have settled : (s.keepHist x.frame x.phase).settleTokens.regs = s.regs ∧ (s.keepHist x.frame x.phase).settleTokens.txn = s.txn := by
    unfold State.settleTokens
    generalize State.tokens (s.keepHist x.frame x.phase) = tok
    generalize (s.keepHist x.frame x.phase).tick = tick
    have step (l : List Nat) : ∀ t : State, (l.foldl (fun (t : State) q => t.updPortQ q fun p =>
        { p with tokens := tok q, tokTick := tick }) t).regs = t.regs ∧
        (l.foldl (fun (t : State) q => t.updPortQ q fun p => { p with tokens := tok q, tokTick := tick }) t).txn = t.txn := by
      induction l with
      | nil => exact fun _ => ⟨rfl, rfl⟩
      | cons q l ih => exact fun t => ih _
    exact step _ _
  unfold State.runEntries
  extract_lets before addrs s1 s2 s3 s4 s5 s6 s7 diag s8 s9 s10 s11 s12 s13
  have h3 : TxnsKept P { s with regs := entriesOnRegs x.entries s.regs } s3 := by
    have htxns := congrArg TxnSt.txns settled.2
    have hacts := congrArg TxnSt.actions settled.2
    have hword (a : Nat) := congrArg (fun r => sparseGet resetWord (entriesOnRegs x.entries r) a) settled.1
    exact ⟨htxns, hacts, fun _ a _ => hword a⟩
  have h4 : TxnsKept P { s with regs := entriesOnRegs x.entries s.regs } s4 := by
    refine .foldl (fun t e ht => ?_) h3
    split
    · exact .ite ht (.same ht)
    · exact ht
  have h7 : TxnsKept P { s with regs := entriesOnRegs x.entries s.regs } s7 :=
    .foldl (fun _ _ h => .iteOn .same h) (.same (.same h4))
  have h9 : TxnsKept P { s with regs := entriesOnRegs x.entries s.regs } s9 := .iteOn .same (.iteOn .same h7)
  have h10 : TxnsKept P { s with regs := entriesOnRegs x.entries s.regs } s10 := by
    refine .ite (.ite (.same h9) (.ite (.same h9) (.foldl (fun _ _ h => .ofApart (.sourceChange .refl) h) h9))) (.ite
      (.foldlMem (fun t e he ht => ?_) h9) h9)
    split
    · exact .exchangeNow (fun p => hP p _ he) ht
    · exact ht
  have h13 : TxnsKept P { s with regs := entriesOnRegs x.entries s.regs } s13 := by
    refine .foldl (fun t e ht => ?_) (.foldl (fun _ _ h => .same h) (.banksApplied h10))
    split
    · exact .same ht
    · exact ht
  exact .rejoin h13

end TxnsKept

end Sys2Proof.Machine
end

section
/-! The apply instant (R117, R123, R128): which transaction is due, and how it ends. -/

namespace Sys2Proof.Machine

open Sys2Proof

/-! ### The one transaction due -/

theorem sessionOrder_singleton (x : Txn) : sessionOrder [x] = [x] := by
  simp [sessionOrder, sortBy, insertBy]

theorem State.pendingTxns_singleton {s : State} {x : Txn} (ht : s.txn.txns = [x])
    (hx : x.state = .pending ∨ x.state = .prepared) : s.pendingTxns = [x] := by
  have hf : [x].filter (fun t => t.state = .pending || t.state = .prepared) = [x] := by simp [hx]
  unfold State.pendingTxns
  rw [ht, hf]
  simp [sortBy, insertBy, List.eraseDups_cons, sessionOrder_singleton]

/-- With one transaction waiting and no action, what is due is that transaction. -/
theorem State.applyDue_txn {s : State} {x : Txn} (ht : s.txn.txns = [x]) (ha : s.txn.actions = [])
    (hx : x.state = .pending ∨ x.state = .prepared) (hn : s.nearest x.at_ = true)
    (hacts : (s.resolveTxn x).txn.actions = []) : s.applyDue = s.resolveTxn x := by
  have hp := State.pendingTxns_singleton ht hx
  have hdue : s.dueInstants = [x.at_] := by
    unfold State.dueInstants
    simp [hp, ha, hn, sortBy, insertBy, List.eraseDups_cons]
  unfold State.applyDue
  rw [hdue, List.foldl_cons, List.foldl_nil]
  unfold State.applyAt
  simp [hp, hacts, sortBy]

/-! ### How it ends -/

section
variable {s : State} {x y : Txn}

theorem State.putTxn_txns (ht : s.txn.txns = [x]) (hu : y.uid = x.uid) (hb : y.began = x.began) :
    (s.putTxn y).txn.txns = [y] := by
  simp [State.putTxn, ht, hu, hb]

theorem State.endTxn_txns (ht : s.txn.txns = [x]) (st : TxnState) (r : Word) :
    ∀ y ∈ (s.endTxn x st r).txn.txns, y.state = st := by
  intro y hy
  have h := State.putTxn_txns (y := { x with state := st, reason := r, entries := [], ended := s.txn.seq, pend := 0 })
    ht rfl rfl
  rw [show (s.endTxn x st r).txn.txns = _ from h, List.mem_singleton] at hy
  rw [hy]

theorem State.gridLeaves_keeps (s : State) (g : Grid) :
    (s.gridLeaves g).txn = s.txn ∧ (s.gridLeaves g).regs = s.regs ∧ (s.gridLeaves g).mem = s.mem := by
  unfold State.gridLeaves
  split
  · exact ⟨rfl, rfl, rfl⟩
  · exact ⟨s.updTm_txn _, s.updTm_regs _, s.updTm_mem _⟩

theorem State.gridApplied_keeps (s : State) (g : Grid) (x : Txn) :
    (s.gridApplied g x).txn = s.txn ∧ (s.gridApplied g x).regs = s.regs := by
  unfold State.gridApplied
  split
  · exact ⟨rfl, rfl⟩
  · split <;> exact ⟨s.updTm_txn _, s.updTm_regs _⟩

/-- An application counts, and leaves what the entries left. -/
theorem State.applyTxn_keeps (s : State) (x : Txn) :
    (s.applyTxn x).txn = (((s.runEntries x).endTxn x .applied 0).bump (F.TXN_CNT_COUNT 0)).txn ∧
      (s.applyTxn x).regs = (((s.runEntries x).endTxn x .applied 0).bump (F.TXN_CNT_COUNT 0)).regs := by
  unfold State.applyTxn
  extract_lets before t1 t2 k
  have h : t2.txn = ((t1.endTxn x .applied 0).bump (F.TXN_CNT_COUNT 0)).txn ∧
      t2.regs = ((t1.endTxn x .applied 0).bump (F.TXN_CNT_COUNT 0)).regs := State.gridApplied_keeps ..
  split
  · exact h
  · exact h

theorem State.endTxn_actions (s : State) (x : Txn) (st : TxnState) (r : Word) :
    (s.endTxn x st r).txn.actions = s.txn.actions := rfl

/-- A transaction that applies is APPLIED; what it writes to the region map stands there. -/
theorem State.applyTxn_applies (ht : s.txn.txns = [x]) :
    (∀ y ∈ (s.applyTxn x).txn.txns, y.state = .applied) ∧ (s.applyTxn x).txn.actions = s.txn.actions ∧
      ∀ a v, x.entries = [.write a v] → a / 0x10000 = 8 → (s.applyTxn x).word a = v ∧
        ∀ b, b / 0x10000 = 8 → b ≠ a → (s.applyTxn x).word b = s.word b := by
  obtain ⟨htxn, hregs⟩ := s.applyTxn_keeps x
  have run : TxnsKept False _ (s.runEntries x) := .runEntries False.elim
  rw [htxn]
  refine ⟨State.endTxn_txns (run.txns.trans ht) _ _, run.actions, fun a v he hab => ?_⟩
  have kept : TxnsKept True _ (s.runEntries x) := .runEntries fun _ c hc => by simp [he] at hc
  have hword {b : Nat} (hb : b / 0x10000 = 8) : (s.applyTxn x).word b = sparseGet resetWord (sparsePut resetWord s.regs a v) b := by
    have counted : (((s.runEntries x).endTxn x .applied 0).bump (F.TXN_CNT_COUNT 0)).word b = (s.runEntries x).word b :=
      State.word_setFld_other _ _ _ (by simp only [F.TXN_CNT_COUNT]; omega)
    rw [State.word_congr hregs, counted, kept.map trivial b hb, he]
    rfl
  exact ⟨(hword hab).trans (sparseGet_put_same ..), fun b hb hne => (hword hb).trans (sparseGet_put_other _ _ hne)⟩

theorem State.resolveTxn_applies (hx : x.state = .pending ∨ (x.state = .prepared ∧ x.gotCommit = true ∧ x.gotAbort = false)) :
    s.resolveTxn x = s.applyTxn x := by
  unfold State.resolveTxn
  exact if_pos (hx.imp_right And.right)

theorem State.resolveTxn_aborts (hx : x.state = .prepared) (hc : x.gotCommit = false) (ha : x.gotAbort = true) :
    s.resolveTxn x = (s.abortTxn x Reason.decision).gridLeaves s.grid := by
  unfold State.resolveTxn
  rw [if_neg (by simp [hx, hc]), if_pos ⟨ha, hc⟩]

/-- The transaction becomes UNCERTAIN and is counted. -/
def State.txnUncertain (s : State) (x : Txn) : State :=
  (((s.putTxn { x with state := .uncertain }).bump (F.TXN_CNT_COUNT 6)).log Rec.txnUncertain
    (bytesBE 2 x.src.toNat ++ bytesBE 2 x.id.toNat ++ bytesBE 4 x.frame) x.phase).gridLeaves s.grid

theorem State.resolveTxn_uncertain (hx : x.state = .prepared) (hc : x.gotCommit = x.gotAbort) :
    s.resolveTxn x = s.txnUncertain x := by
  unfold State.resolveTxn
  rw [if_neg (by simp [hx, hc]), if_neg (by simp [hc])]
  rfl

end

/-! ### Shadowed registers -/

theorem isShadowed_mem {a : Nat} (h : isShadowed a = true) : ∃ d ∈ regBlock (a / 0x10000), d.shadowed = true := by
  unfold isShadowed at h
  split at h
  next d ix hf =>
    obtain ⟨e, he, hd⟩ := List.exists_of_findSome?_eq_some hf
    obtain ⟨ix', -, hx⟩ := Option.map_eq_some_iff.mp hd
    cases hx
    exact ⟨d, he, h⟩
  next => nomatch h

/-- The blocks of transactions, of the fabric and of the log hold no shadowed register. -/
theorem isShadowed_block {a : Nat} (h : isShadowed a = true) :
    a / 0x10000 ≠ 3 ∧ a / 0x10000 ≠ 9 ∧ a / 0x10000 ≠ 0xF := by
  obtain ⟨d, hd, hs⟩ := isShadowed_mem h
  have plain (b : Nat) (hb : ∀ d ∈ regBlock b, d.shadowed = false) : a / 0x10000 ≠ b := fun e => by
    rw [hb d (e ▸ hd)] at hs
    nomatch hs
  exact ⟨plain 3 (by decide), plain 9 (by decide), plain 0xF (by decide)⟩

theorem State.txnUncertain_shows {s : State} {x : Txn} (ht : s.txn.txns = [x]) :
    (∀ y ∈ (s.txnUncertain x).txn.txns, y.state = .uncertain ∧ y.entries = x.entries) ∧
      (s.txnUncertain x).txn.actions = s.txn.actions ∧
      (s.txnUncertain x).fld (F.TXN_CNT_COUNT 6) = min (s.fld (F.TXN_CNT_COUNT 6) + 1) (2 ^ 32 - 1) ∧
      (∀ a, isShadowed a = true → (s.txnUncertain x).word a = s.word a) ∧ (s.txnUncertain x).mem = s.mem := by
  have htxns := State.putTxn_txns (y := { x with state := .uncertain }) ht rfl rfl
  have hacts : (s.putTxn { x with state := .uncertain }).txn.actions = s.txn.actions := rfl
  have hregs : (s.putTxn { x with state := .uncertain }).regs = s.regs := rfl
  have hmem : (s.putTxn { x with state := .uncertain }).mem = s.mem := rfl
  unfold State.txnUncertain
  generalize s.putTxn { x with state := .uncertain } = u at *
  have hcnt := u.fld_bump_same (F.TXN_CNT_COUNT 6) 1 (by decide)
  rw [show u.fld (F.TXN_CNT_COUNT 6) = s.fld (F.TXN_CNT_COUNT 6) from State.fld_congr (State.word_congr hregs _)] at hcnt
  have hword {a : Nat} (ha : a / 0x10000 ≠ 3) : (u.bump (F.TXN_CNT_COUNT 6)).word a = s.word a := by
    rw [show (u.bump (F.TXN_CNT_COUNT 6)).word a = u.word a from
      State.word_setFld_other _ _ _ (by simp only [F.TXN_CNT_COUNT]; omega), State.word_congr hregs]
  rw [← State.bump_txn u (F.TXN_CNT_COUNT 6) 1] at htxns hacts
  rw [← State.bump_mem u (F.TXN_CNT_COUNT 6) 1] at hmem
  generalize u.bump (F.TXN_CNT_COUNT 6) = v at *
  generalize (bytesBE 2 x.src.toNat ++ bytesBE 2 x.id.toNat ++ bytesBE 4 x.frame) = detail
  obtain ⟨gtxn, gregs, gmem⟩ := (v.log Rec.txnUncertain detail x.phase).gridLeaves_keeps s.grid
  have logged {a : Nat} (h9 : a / 0x10000 ≠ 9) (hF : a / 0x10000 ≠ 0xF) :
      ((v.log Rec.txnUncertain detail x.phase).gridLeaves s.grid).word a = v.word a := by
    rw [State.word_congr gregs, State.log_word_block _ _ _ (by decide) h9 hF]
  refine ⟨fun y hy => ?_, ?_, ?_, fun a ha => ?_, ?_⟩
  · rw [gtxn, State.log_txn, htxns, List.mem_singleton] at hy
    rw [hy]
    exact ⟨rfl, rfl⟩
  · rw [gtxn, State.log_txn, hacts]
  · exact (State.fld_congr (logged (by decide) (by decide))).trans hcnt
  · obtain ⟨h3, h9, hF⟩ := isShadowed_block ha
    exact (logged h9 hF).trans (hword h3)
  · rw [gmem, State.log_mem, hmem]

theorem State.abortTxn_aborts {s : State} {x : Txn} (ht : s.txn.txns = [x]) (code : Nat) (g : Grid) :
    (∀ y ∈ ((s.abortTxn x code).gridLeaves g).txn.txns, y.state = .aborted) ∧
      ((s.abortTxn x code).gridLeaves g).txn.actions = s.txn.actions ∧ ((s.abortTxn x code).gridLeaves g).mem = s.mem ∧
      ∀ a, a ≠ (F.TXN_CNT_COUNT 3).addr → ((s.abortTxn x code).gridLeaves g).word a = s.word a := by
  obtain ⟨gtxn, gregs, gmem⟩ := (s.abortTxn x code).gridLeaves_keeps g
  rw [gtxn, gmem]
  refine ⟨State.endTxn_txns ht _ _, rfl, rfl, fun a ha => ?_⟩
  rw [State.word_congr gregs]
  exact State.word_setFld_other _ _ _ ha

theorem applyInstant_completes (s : State) (x : Txn) (ht : s.txn.txns = [x]) (ha : s.txn.actions = [])
    (hn : s.nearest x.at_ = true) :
    (x.state = .pending ∨ (x.state = .prepared ∧ x.gotCommit = true ∧ x.gotAbort = false) →
      ∃ t, exec .applyInstant s = .next t ∧ (∀ y ∈ t.txn.txns, y.state = .applied) ∧
        ∀ a v, x.entries = [.write a v] → a / 0x10000 = 8 → t.word a = v ∧
          ∀ b, b / 0x10000 = 8 → b ≠ a → t.word b = s.word b) ∧
    (x.state = .prepared → x.gotCommit = false → x.gotAbort = true →
      ∃ t, exec .applyInstant s = .next t ∧ (∀ y ∈ t.txn.txns, y.state = .aborted) ∧ t.mem = s.mem ∧
        (∀ a, a ≠ (F.TXN_CNT_COUNT 3).addr → t.word a = s.word a)) ∧
    (x.state = .prepared → x.gotCommit = x.gotAbort →
      ∃ t, exec .applyInstant s = .next t ∧ (∀ y ∈ t.txn.txns, y.state = .uncertain ∧ y.entries = x.entries) ∧
        t.fld (F.TXN_CNT_COUNT 6) = min (s.fld (F.TXN_CNT_COUNT 6) + 1) (2 ^ 32 - 1) ∧
        (∀ a, isShadowed a = true → t.word a = s.word a) ∧ t.mem = s.mem) := by
  refine ⟨fun hx => ⟨_, rfl, ?_⟩, fun hx hc hab => ⟨_, rfl, ?_⟩, fun hx hc => ⟨_, rfl, ?_⟩⟩
  · have e := State.resolveTxn_applies (s := s) hx
    obtain ⟨happ, hacts, hmap⟩ := State.applyTxn_applies ht
    rw [State.applyDue_txn ht ha (hx.imp_right And.left) hn (by rw [e, hacts, ha]), e]
    exact ⟨happ, hmap⟩
  · have e := State.resolveTxn_aborts (s := s) hx hc hab
    obtain ⟨hab', hacts, hmem, hword⟩ := State.abortTxn_aborts ht Reason.decision s.grid
    rw [State.applyDue_txn ht ha (.inr hx) hn (by rw [e, hacts, ha]), e]
    exact ⟨hab', hmem, hword⟩
  · have e := State.resolveTxn_uncertain (s := s) hx hc
    obtain ⟨hun, hacts, hcnt, hword, hmem⟩ := State.txnUncertain_shows ht
    rw [State.applyDue_txn ht ha (.inr hx) hn (by rw [e, hacts, ha]), e]
    exact ⟨hun, hcnt, hword, hmem⟩

end Sys2Proof.Machine
end

section
/-! A scheduled action at its instant (R130): what the commands it may embed leave, the transactions and the actions. -/

namespace Sys2Proof.Machine

open Sys2Proof

/-- The transactions and the scheduled actions stay. -/
structure TxnKept (s t : State) : Prop where
  txn : t.txn = s.txn

/-- The same of an answer. -/
def TxnKeptRes (s : State) : Res → Prop
  | .done _ _ t => TxnKept s t
  | .wait => True
  | .later t => TxnKept s t

namespace TxnKept
variable {s t u : State} {α : Type}

theorem refl : TxnKept s s := ⟨rfl⟩

theorem of (e : u.txn = t.txn) (h : TxnKept s t) : TxnKept s u := ⟨e.trans h.txn⟩

theorem ite {c : Prop} [Decidable c] {a b : State} (ha : TxnKept s a) (hb : TxnKept s b) :
    TxnKept s (if c then a else b) := by
  split <;> assumption

/-- A further step under a condition. -/
theorem iteOn {c : Prop} [Decidable c] {a b : State} (ha : TxnKept s b → TxnKept s a) (hb : TxnKept s b) :
    TxnKept s (if c then a else b) := .ite (ha hb) hb

theorem foldl {f : State → α → State} {l : List α} (hf : ∀ t i, TxnKept s t → TxnKept s (f t i)) (h : TxnKept s t) :
    TxnKept s (l.foldl f t) := by
  induction l generalizing t with
  | nil => exact h
  | cons i l ih => exact ih (hf t i h)

/-- What writes anything but the transactions leaves them. -/
theorem same {regs mem clk tick sys sec tm cmd err fab cdc ring memc eth ing cmp lnk tile red rnd out pending}
    (h : TxnKept s t) : TxnKept s ⟨regs, mem, clk, tick, sys, sec, tm, cmd, t.txn, err, fab, cdc, ring, memc, eth, ing,
      cmp, lnk, tile, red, rnd, out, pending⟩ := ⟨h.txn⟩

theorem setFld {f v} (h : TxnKept s t) : TxnKept s (t.setFld f v) := .same h

theorem log {n d p} (h : TxnKept s t) : TxnKept s (t.log n d p) := .of (t.log_txn n d p) h

/-! ### Modes and time -/

theorem enterMode {m} (h : TxnKept s t) : TxnKept s (t.enterMode m) := by
  have entered : (t.enterMode m).txn = t.txn := (BeatKeeps.enterMode (s := t) (m := m)).txn
  exact .of entered h

theorem requestMode {m pair} (h : TxnKept s t) : TxnKept s (t.requestMode m pair) :=
  .ite (.setFld (.setFld h)) (.iteOn .enterMode (.setFld (.same (.setFld (.setFld h)))))

theorem setRole {r} (h : TxnKept s t) : TxnKept s (t.setRole r) :=
  .ite h (.ite (.setFld h) (.setFld (.setFld (.setFld h))))

theorem enterState {st} (h : TxnKept s t) : TxnKept s (t.enterState st) := by
  fun_cases State.enterState
  case case1 => exact .setFld (.setFld (.setFld (.same (.same (.same (.same (.setFld h)))))))
  case case2 => exact .same (.same (.same (.setFld h)))
  case case3 => exact .same (.same (.setFld h))
  case case4 => exact .same (.setFld h)

theorem writeTimeSrc {v} (h : TxnKept s t) : TxnKept s (t.writeTimeSrc v) := by
  unfold State.writeTimeSrc
  extract_lets old want want' src t1 t2 t3 t4 t5 up t6 t7 t8
  have h5 : TxnKept s t5 := .setFld (.setFld (.setFld (.setFld (.setFld h))))
  have h6 : TxnKept s t6 := .iteOn (fun h => .same (.setFld h)) h5
  have h8 : TxnKept s t8 := .setFld (.same h6)
  exact .ite h6 (.ite (.enterState h8) (.ite (.enterState h8) (.enterState h8)))

theorem stepTo {i kind} (h : TxnKept s t) : TxnKept s (t.stepTo i kind) := by
  unfold State.stepTo
  extract_lets before u
  have hu : TxnKept s u := ⟨h.txn⟩
  exact .log (.setFld hu)

theorem timeActions {trig} (h : TxnKept s t) : TxnKept s (t.timeActions trig) := by
  have snap {v : State} (hv : TxnKept s v) : TxnKept s v.timeSnap := .foldl (fun _ _ h => .setFld h) hv
  have cleared {v : State} (hv : TxnKept s v) : TxnKept s v.timeCntClr := .foldl (fun _ _ h => .setFld h) hv
  have reacquired {v : State} (hv : TxnKept s v) : TxnKept s v.reacquire := by
    fun_cases State.reacquire
    case case1 => exact .enterState hv
    case case2 => exact hv
    case case3 => exact .setFld hv
  have set {v : State} (hv : TxnKept s v) : TxnKept s v.timeSet := by
    fun_cases State.timeSet
    case case1 => exact .stepTo hv
    case case2 => exact .setFld hv
  have adjusted {v : State} (hv : TxnKept s v) : TxnKept s v.timeAdj := by
    fun_cases State.timeAdj
    case case1 => exact .stepTo hv
    case case2 => exact .setFld hv
  exact .iteOn cleared (.iteOn adjusted (.iteOn set (.iteOn reacquired (.iteOn snap h))))

/-! ### Ports -/

theorem loadTaps {q} (h : TxnKept s t) : TxnKept s (t.loadTaps q) :=
  .foldl (fun _ _ h => .ite (.same (.same h)) (.same h)) (.setFld h)

theorem abortCal {q} (h : TxnKept s t) : TxnKept s (t.abortCal q) := .of (BeatKeeps.abortCal .refl).txn h

theorem endChecks {q} (h : TxnKept s t) : TxnKept s (t.endChecks q) := .of (BeatKeeps.endChecks .refl).txn h

theorem leaveActive {q cause} (h : TxnKept s t) : TxnKept s (t.leaveActive q cause) :=
  .of (Paced.leaveActive (M := False) .refl).txn h

theorem hostRetrain {q} (h : TxnKept s t) : TxnKept s (t.hostRetrain q) :=
  .ite (.leaveActive (.same h)) (.ite (.same (.setFld (.same (.same h)))) (.same h))

theorem writeDeep {q on} (h : TxnKept s t) : TxnKept s (t.writeDeep q on) :=
  have deep {v : State} (hv : TxnKept s v) : TxnKept s (v.enterDeep q) :=
    .ite (.same (.same (.setFld (.setFld (.setFld (.same (.ite (.loadTaps (.abortCal hv)) hv))))))) hv
  .ite (deep (.setFld h)) (.ite (.same (.setFld h)) (.setFld h))

/-! ### Memory, the owner, and what else a register moves -/

theorem eraseRange {a n} (h : TxnKept s t) : TxnKept s (t.eraseRange a n) := .same h

theorem setInService {c on} (h : TxnKept s t) : TxnKept s (t.setInService c on) := by
  have noted {v : State} {a n : Nat} (hv : TxnKept s v) : TxnKept s (v.noteWrite a n) :=
    .of (BeatKeeps.noteWrite .refl).txn hv
  have ended {v : State} (hv : TxnKept s v) : TxnKept s v.endPass := .ite (.setFld (.same hv)) hv
  exact .ite h (.ite (.ite h (.same h)) (.ite (ended (.eraseRange (noted (.same (.setFld (.setFld h)))))) h))

theorem giveBank {b o} (h : TxnKept s t) : TxnKept s (t.giveBank b o) := .ite h (.setFld (.setFld h))

theorem setBankPwr {b p} (h : TxnKept s t) : TxnKept s (t.setBankPwr b p) := by
  have scrambled {v : State} (hv : TxnKept s v) : TxnKept s (v.scrambleBank b) :=
    .foldl (fun _ _ h => .same (.foldl (fun _ _ h => .same h) h)) (.same hv)
  unfold State.setBankPwr
  extract_lets a old t1 wipe t2 _ t3 t4
  have h1 : TxnKept s t1 := .setFld h
  have h4 : TxnKept s t4 := .setFld (.setFld h1)
  exact .ite h (.ite (.same (.setFld h1)) (.ite (.eraseRange h4) (.ite (scrambled h4) h4)))

theorem writeBankSet {b v} (h : TxnKept s t) : TxnKept s (t.writeBankSet b v) :=
  .ite (.setBankPwr h) (.giveBank (.setFld (.setFld (.setBankPwr h))))

theorem writeOwnerCtrl {k v trig} (h : TxnKept s t) : TxnKept s (t.writeOwnerCtrl k v trig) := by
  have enrolled {u : State} {ok : Bool} (hu : TxnKept s u) : TxnKept s (u.enrol k ok) :=
    .ite hu (.ite (.setFld (.setFld (.same hu))) (.setFld hu))
  have epoch {u : State} {e : BitVec 16} (hu : TxnKept s u) : TxnKept s (u.setEpoch k e) := .ite (.same hu) hu
  exact epoch (.ite (enrolled (.same h)) h)

theorem writeProof {k i v} (h : TxnKept s t) : TxnKept s (t.writeProof k i v) := by
  have challenged {u : State} (hu : TxnKept s u) : TxnKept s u.newChallenge := .same (.same hu)
  have proved {u : State} (hu : TxnKept s u) : TxnKept s (u.proof k v) :=
    .ite (.setFld (.same (challenged (.same hu)))) (.log (.setFld (challenged (.same hu))))
  exact .ite (proved h) (.same h)

theorem alertEdge {b : State} (h : TxnKept s t) : TxnKept s (State.alertEdge b t) := .ite h (.same h)

theorem rejoin (h : TxnKept s t) : TxnKept s t.rejoin := .of (BeatKeeps.rejoin .refl).txn h

theorem startMeasure {which} (h : TxnKept s t) : TxnKept s (t.startMeasure which) :=
  .foldl (fun _ _ h => .iteOn .same h) h

theorem wbHeld (h : TxnKept s t) : TxnKept s t.wbHeld := by
  fun_cases State.wbHeld
  case case1 => exact .of (BeatKeeps.wbChoose .refl).txn (.setFld (.same (.same h)))
  case case2 | case3 => exact h

theorem ldrCtrl {a b : Prop} [Decidable a] [Decidable b] (h : TxnKept s t) :
    TxnKept s (if b then (if a then t.ldrMeasure else t).ldrCntClr else if a then t.ldrMeasure else t) :=
  .iteOn (.foldl fun _ _ h => .same h) (.iteOn (fun h => .ite (.startMeasure h) h) h)

/-! ### Registers (R94) -/

/-- Whatever a register of its own kind does, if it does anything. -/
def Special (s : State) (o : Option State) : Prop := ∀ t, o = some t → TxnKept s t

theorem Special.some (h : TxnKept s t) : Special s (some t) := fun _ e => Option.some.inj e ▸ h

theorem Special.none : Special s none := fun _ e => nomatch e

theorem Special.ite {c : Prop} [Decidable c] {a b : Option State} (ha : Special s a) (hb : Special s b) :
    Special s (if c then a else b) := by
  split <;> assumption

theorem writeSpecial {k ix base a m v trig} (h : TxnKept s t) : Special s (t.writeSpecial k ix base a m v trig) := by
  unfold State.writeSpecial
  extract_lets i
  split
  · exact .ite (.some (.setRole h)) (.ite (.some (.requestMode (.setFld (.same h)))) .none)
  · exact .ite (.some (.writeTimeSrc h)) (.ite (.some (.timeActions (.ite (.setFld (.same h)) (.same h)))) .none)
  · exact .ite (.some (.same (.ite (.same h) (.setFld (.setFld (.setFld h))))))
      (.ite (.some (.same (.ite (.same h) (.setFld (.setFld (.setFld h)))))) (.ite (.some (.same h)) .none))
  · exact .ite (.some (.ite (.same (.setFld (.same h))) (.same h))) .none
  · exact .ite (.some (.wbHeld (.same h))) .none
  · exact .ite (.some (.iteOn .hostRetrain (.writeDeep (.setFld (.setFld h))))) (.ite (.some (.same h)) .none)
  · exact .ite (.some (.ldrCtrl h)) .none
  · exact .ite (.some (.ite (.setInService h) h)) (.ite (.some (.ite h (.same h))) (.ite (.some (.writeBankSet h)) .none))
  · exact .ite (.some (.writeOwnerCtrl h)) (.ite (.some (.ite (.same h) h)) (.ite (.some (.writeProof h)) .none))
  · exact .ite (.some (.alertEdge (.same h))) .none
  · exact .none

theorem landWord {k a v trig} (h : TxnKept s t) : TxnKept s (t.landWord k a v trig) := by
  unfold State.landWord
  split
  · exact h
  split
  · exact h
  extract_lets m
  split
  next e => exact .rejoin (TxnKept.writeSpecial h _ e)
  next => exact .rejoin (.same h)

theorem writeRegs {k a vs} (h : TxnKept s t) : TxnKept s (t.writeRegs k a vs) := by
  induction vs generalizing t a with
  | nil => exact h
  | cons v vs ih => exact ih (.landWord h)

theorem readReg {live a} (h : TxnKept s t) : TxnKept s (t.readReg live a).2 := by
  fun_cases State.readReg
  case case1 | case2 | case3 | case5 => exact h
  case case4 => exact .ite (.same h) h

end TxnKept

/-! ### The commands -/

namespace TxnKeptRes
variable {s t u : State}

theorem okRes {ws} (h : TxnKept s t) : TxnKeptRes s (okRes t ws) := h

theorem refuse {st c d more} (h : TxnKept s t) : TxnKeptRes s (refuse t st c d more) := h

theorem ite {c : Prop} [Decidable c] {a b : Res} (ha : TxnKeptRes s a) (hb : TxnKeptRes s b) :
    TxnKeptRes s (if c then a else b) := by
  split <;> assumption

theorem patRefused {pattern r} (h : TxnKept s t) (e : patRefused t pattern = some r) : TxnKeptRes s r := by
  unfold Machine.patRefused at e
  split at e
  · exact Option.some.inj e ▸ .refuse h
  · nomatch e

theorem regWrite {k addr vs} (h : TxnKept s t) : TxnKeptRes s (t.regWrite k none addr vs) := by
  unfold State.regWrite
  extract_lets a
  split
  · exact .refuse h
  · dsimp only
    split
    · exact .refuse h
    · exact .okRes (.writeRegs h)

theorem regModify {k addr m v} (h : TxnKept s t) : TxnKeptRes s (t.regModify k none addr m v) := by
  unfold State.regModify
  extract_lets a r
  split
  · exact .refuse h
  · split
    · exact .refuse h
    · exact .okRes (.landWord (.readReg h))
    all_goals exact nomatch ‹none = some _›

theorem patternStop {q pattern} (h : TxnKept s t) : TxnKeptRes s (t.patternStop q pattern) := by
  fun_cases State.patternStop
  case case1 => exact .refuse h
  case case2 => exact .patRefused h ‹_›
  case case3 => exact .okRes h
  case case4 => exact .okRes (.same (.setFld (.same (.endChecks h))))

theorem patternRun {q lanes pattern action arg} (h : TxnKept s t) : TxnKeptRes s (t.patternRun q lanes pattern action arg) := by
  unfold State.patternRun
  extract_lets t1 t2 t3
  have h1 : TxnKept s t1 := .endChecks (.abortCal h)
  have h2 : TxnKept s t2 := .iteOn (.foldl fun _ _ h => .same h) h1
  split
  · exact .refuse h
  · split
    · exact .patRefused h ‹_›
    · exact .okRes (.same (.setFld (.same (.same h2))))

theorem patternInject {q lanes pattern lcb arg} (h : TxnKept s t) : TxnKeptRes s (t.patternInject q lanes pattern lcb arg) := by
  fun_cases State.patternInject
  case case1 => exact .refuse h
  case case2 => exact .patRefused h ‹_›
  case case3 => exact .okRes (.same h)

theorem onTile {r : Res} (hr : TxnKeptRes s r) (h : TxnKept s t) : TxnKeptRes s (t.onTile r) := .ite hr (.refuse h)

theorem lampPatternStart {pattern arg} (h : TxnKept s t) : TxnKeptRes s (t.lampPatternStart pattern arg) :=
  .ite (.refuse h) (.ite (.refuse h) (.ite (.refuse h) (.okRes (.startMeasure (.same h)))))

theorem lampPatternStop {pattern} (h : TxnKept s t) : TxnKeptRes s (t.lampPatternStop pattern) := by
  have launched {hd typ phase arg i e} : TxnKept s (t.launch hd typ phase arg i e) := .of (Apart.launch .refl).txn h
  exact .ite (.refuse h) (.ite (.refuse h) (.ite (.refuse h) (.okRes (.same (.same (.same launched))))))

theorem domainReset {kind noReply} (h : TxnKept s t) : TxnKeptRes s (t.domainReset kind noReply) :=
  have held : TxnKept s (t.domainHold kind) := .of (Paced.domainHold (M := False) .refl).txn h
  .ite (.refuse h) (.ite (.refuse h) (.ite (.okRes held) (.okRes (.same h))))

theorem plainBody {k c} (h : TxnKept s t) : TxnKeptRes s (t.plainBody k c) := by
  fun_cases State.plainBody
  case case1 => exact .regWrite h
  case case2 => exact .regModify h
  case case3 => exact .okRes (.alertEdge (.same h))
  case case4 => exact .patternStop h
  case case5 | case6 | case7 | case8 => exact .patternRun h
  case case9 | case10 => exact .patternInject h
  case case11 => exact .onTile (.lampPatternStart h) h
  case case12 => exact .onTile (.lampPatternStop h) h
  case case13 => exact .okRes (.same h)
  case case14 | case15 | case16 | case17 | case18 => exact .domainReset h
  case case19 => exact .okRes h

theorem actionRes {k hd op ws} (h : TxnKept s t) : TxnKeptRes s (t.actionRes k hd op ws) := by
  fun_cases State.actionRes
  case case1 => exact .plainBody h
  case case2 =>
    exact .ite (.onTile (.ite (.refuse h) (.ite (.refuse h) (.refuse h))) h) (.refuse h)

end TxnKeptRes

/-- An action that runs is taken from the list, and its command leaves the rest of it. -/
theorem State.runAction_keeps (s : State) (a : Action) : TxnKept (s.updTxn fun y => { y with actions := y.actions.filter fun b => b.id != a.id })
    (s.runAction a) := by
  unfold State.runAction
  extract_lets u k k'
  have ran := TxnKeptRes.actionRes (s := u) (t := u) (k := k') (hd := { a.hdr with noReply := true }) (op := a.opcode)
    (ws := a.payload) .refl
  split
  next st payload v e =>
    have hv : TxnKept u v := by
      split at e
      next hr => obtain ⟨rfl, rfl, rfl⟩ := e; rw [hr] at ran; exact ran
      next => obtain ⟨rfl, rfl, rfl⟩ := e; exact .refl
      next hr => obtain ⟨rfl, rfl, rfl⟩ := e; rw [hr] at ran; exact ran
    extract_lets w x
    have hx : TxnKept u x := .setFld (.setFld (.setFld hv))
    exact .ite hx (.log hx)

/-- With one action waiting and no transaction, what is due is that action, which is taken from the list. -/
theorem State.applyDue_action {s : State} {a : Action} (ht : s.txn.txns = []) (ha : s.txn.actions = [a])
    (hn : s.nearest a.at_ = true) : s.applyDue.txn.actions = [] := by
  have hp := State.pendingTxns_nil ht
  have hdue : s.dueInstants = [a.at_] := by
    unfold State.dueInstants
    simp [hp, ha, hn, sortBy, insertBy, List.eraseDups_cons]
  have due : s.applyDue = s.runAction a := by
    unfold State.applyDue
    rw [hdue, List.foldl_cons, List.foldl_nil]
    unfold State.applyAt
    simp [hp, ha, sortBy, insertBy]
  rw [due, (s.runAction_keeps a).txn, State.updTxn_txn]
  simp [ha]

/-- Settles O45: the wingbeat by what its work leaves (`BeatKeeps`), a transaction by how it ends (`State.resolveTxn`),
an action by what its command leaves (`TxnKept`). -/
theorem instantsResolve : Obligations.InstantsResolve := by
  unfold Obligations.InstantsResolve
  exact ⟨wingbeat_completes, applyInstant_completes, fun s a ht ha hn => ⟨_, rfl, State.applyDue_action ht ha hn⟩⟩

end Sys2Proof.Machine
end
